-- ==== Sys2Proof/Word.lean ====
section
/-!
DEFINITION. The byte, the unit of frames, messages, cards and memory.
-/

namespace Sys2Proof

/-- A byte. -/
abbrev Byte := BitVec 8

end Sys2Proof
end

