-- ==== Sys2Proof/Syntax.lean ====
section
/-!
DEFINITION. The commands of the block: one constructor per row of the command table, with what the host, a pin, a bus or a
measurement brings to it.
-/

namespace Sys2Proof

/-- The two directions of the die bridge (R17). -/
inductive Dir where
  | toPower
  | toLogic
  deriving DecidableEq, Repr, Inhabited

/-- Who writes a register or sends a command: a host session of R456 or device firmware. -/
inductive Writer where
  | session (s : Fin 6)
  | firmware
  deriving DecidableEq, Repr, Inhabited

/-- The source of a request to the crypto engines (R117, R118). -/
inductive CeSource where
  | signing (bay : Fin 16) (slot : Fin 3)
  | host
  | vehicle (bay : Fin 16)
  | other
  deriving DecidableEq, Repr, Inhabited

/-- An event of a link hand that no other command brings (R111): H64-H95 as 0-31, a MAC timer or transmit request (L2) or a
channel-estimation update (L3), and the LCLK cycle of the trick in which it occurs. -/
structure LinkEvent where
  hand  : Fin 32
  estim : Bool
  lclk  : Fin 6400
  deriving DecidableEq, Repr, Inhabited

/-- An edge of the link trick (R111): the link hands, H64-H95 as bits 0-31, whose work ended in the trick before it, and the
events of that trick. -/
structure LinkEdge where
  finished : BitVec 32
  events   : List LinkEvent
  deriving DecidableEq, Repr, Inhabited

/-- A request that a master issues to a target of the interconnect (R126, R127). -/
structure ArbIssue where
  master : Fin 24
  target : Nat
  deriving DecidableEq, Repr, Inhabited

/-- What a frame of a vehicle link brings behind its frame check (R113, R299): whether its mode is tone-mapped, the station that
sent it, the LCLK cycle of the trick in which it ends, and its payload. -/
structure VehicleMpdu where
  tone    : Bool
  src     : BitVec 48
  lclk    : Fin 6400
  payload : List Nat
  deriving DecidableEq, Repr, Inhabited

/-- What KC and the new image answer at an activation (R501): whether the image's signature fits its key, and whether it supports
the type and version of every card that was not skipped. -/
structure ImageCheck where
  sigOk   : Bool
  cardsOk : Bool
  deriving DecidableEq, Repr, Inhabited

/-- The two decimation paths of a stream (R139). -/
inductive SensePath where
  | metrology
  | protection
  deriving DecidableEq, Repr, Inhabited

/-- What a start sequence finds (R68, R69, R78, R90, R93, R100, R424, R482, R501): whether the retention RAM passes its
check and ROOT is regenerated; whether the DRAM trains, and its density; whether the signatures of the two firmware images and
of the two decks verify; whether the trump card reaches the HSL intact; the levels of the tamper inputs
and of SRST; and the ms from the start's beginning to HELD = 1 (R107). -/
structure StartEnv where
  retentionOk : Bool
  pufOk       : Bool
  dramOk      : Bool
  size4       : Bool
  imgA        : Bool
  imgB        : Bool
  sigA        : Bool
  sigB        : Bool
  trumpOk     : Bool
  inputs      : BitVec 5
  srstHigh    : Bool
  deckMs      : Nat
  deriving DecidableEq, Repr, Inhabited

/-- A chain frame as decoded (R308, R309): frame-control bits 95:0, the bytes of its payload region, and the LCLK cycle of the
LE trick in progress in which it ended (R111). -/
structure ChainRx where
  fc      : BitVec 96
  payload : List Byte
  lclk    : Fin 6400 := 0
  deriving DecidableEq, Repr, Inhabited

/-- A relayed connection's bytes or end: in a frame of the chain, or from the TCP side of flow `flow` (R326). -/
inductive RelayEvent where
  | received (rx : ChainRx)
  | side (flow : Fin 16) (bytes : List Byte)
  deriving DecidableEq, Repr, Inhabited

/-- What a join request carries beside the frame's header (R317, R318). -/
structure JoinInfo where
  addr   : Nat
  prio   : Nat
  floor  : Nat
  feedA  : Nat
  budget : Nat
  noPos  : Bool
  deriving DecidableEq, Repr, Inhabited

/-- What a budget report carries (R320). -/
structure ReportInfo where
  demand : Nat
  floor  : Nat
  feedA  : Nat
  ifeed  : Nat
  round  : BitVec 16
  deriving DecidableEq, Repr, Inhabited

/-- What firmware takes from a high-level communication message of a vehicle (R299, R300, R302, R303). SLAC messages carry the
run and the source address. -/
inductive HlcMsg where
  | slacStart (run : BitVec 64) (src : BitVec 48) (sounds : BitVec 8)  -- attenuation characterisation starts
  | slacSound (run : BitVec 64) (src : BitVec 48) (groups : Vector (BitVec 8) 58) -- a sounding, with the attenuation in each group, dB
  | slacSoundsEnd                                       -- the time for the soundings ends
  | slacValidate (src : BitVec 48)                      -- a validation request
  | slacMatch (run : BitVec 64) (mac : BitVec 48)       -- SLAC match
  | netJoin (mac : BitVec 48)                           -- a station asks to join the link's network
  | setup (offered : List (Fin 4)) (tls pnc : Bool)     -- a session setup message, with the protocols the vehicle offers
  | contract                                            -- contract identification succeeds
  | target (vPresent vMax vReq iReq pReq : BitVec 16)   -- the vehicle's voltages, current and power
  | power (on : Bool)                                   -- power delivery requested or ended
  | bidirectional (agreed reverse : Bool)               -- bidirectional power transfer
  | pause                                               -- the vehicle pauses
  | wake                                                -- the vehicle resumes
  | stop                                                -- the vehicle stops
  | stopped                                             -- the high-level stop is complete
  | tlsFail                                             -- TLS fails or a certificate is rejected
  | protoError                                          -- a timeout or sequence error of the protocol
  | certRequest (message : List Byte)                   -- certificate installation or update
  deriving DecidableEq, Repr, Inhabited

/-- What the load switches measure (R339, R341, R350): each channel's current in mA and junction temperature, and each
bank's case temperature, in tenths of a degree Celsius. -/
structure SwitchMeas where
  ma    : Vector Nat 48
  tj    : Vector Int 48
  caseT : Vector Int 6
  deriving DecidableEq, Repr, Inhabited


/-- What an axis's encoder shows over one millisecond (R361, R362): its counts, up positive, and whether both channels
changed in one filtered sample. -/
structure EncTick where
  delta : Int
  both  : Bool
  deriving DecidableEq, Repr, Inhabited



/-- A card enumerated by the reader (R379-R381): its UID, the token that SELECT and READ BINARY return where it supports -4,
and whether it fails -4 framing after three retransmissions. -/
structure ReaderCard where
  uid    : List Byte
  token  : Option (List Byte)
  broken : Bool
  deriving DecidableEq, Repr, Inhabited

/-- What the checks and steps of a key-update message find (R433-R436, R439): whether its signature verifies, the material as
decrypted where its tag passes, and whether the counter fuse, the key blob and the fuses of a recorded trump digest verify. -/
structure KumEnv where
  sigOk    : Bool
  plain    : Option (List Byte)
  fuseOk   : Bool
  blobOk   : Bool
  recordOk : Bool
  deriving DecidableEq, Repr, Inhabited

/-- An access of MEM_AP (R443): a register word, or a 64-bit word of the SRAM (its byte offset) or the DRAM (R483). -/
inductive ApAccess where
  | readReg (addr : Nat)
  | writeReg (addr value : Nat)
  | readMem (dram : Bool) (addr : Nat)
  | writeMem (dram : Bool) (addr value : Nat)
  deriving DecidableEq, Repr, Inhabited

/-- A frame of an open session that passes R459: its session and TAG (R457). -/
structure Request where
  sess : Fin 6
  tag  : BitVec 16
  deriving DecidableEq, Repr, Inhabited

/-- A frame as it arrives on session `sess`'s transport (R457, R459): its header, the bytes received behind it, and whether its
GCM tag or CRC-32C passes. -/
structure FrameHead where
  sess    : Fin 6
  magic   : BitVec 16
  version : BitVec 8
  session : BitVec 8
  tag     : BitVec 16
  seq     : BitVec 32
  len     : BitVec 32
  got     : Nat
  authOk  : Bool
  deriving DecidableEq, Repr, Inhabited

/-- What the command of a completed bulk transfer finds (R88, R392, R393, R504): whether the signature of its payload verifies,
whether the write into the credential journal and the readback of a firmware slot succeed. -/
structure BulkEnv where
  sigOk     : Bool
  journalOk : Bool
  readOk    : Bool
  deriving DecidableEq, Repr, Inhabited

/-- The commands the device takes: one constructor per row of the table, in its order, those that carry
nothing after those that carry something. -/
inductive Instr where
  | bridgeFlitNak (dir : Dir)
  | bridgeHeartbeat (dir : Dir)
  | secondTick (lsw : SwitchMeas)
  | mclkCheckWindow (count : Nat)
  | bclkCheckWindow (count : Nat)
  | bmonCheckWindow (count : Nat)
  | tclkPresenceWindow (edges mclkCycles : Nat)
  | tclkDriftWindow (count : Nat)
  | vbbBrownout (bank : Fin 6)
  | vbbRestore (bank : Fin 6)
  | vbatMeasure (mv : Nat)
  | pwrReqRun (who : Writer)
  | pwrReqLean (who : Writer)
  | pwrReqStandby (who : Writer)
  | standbyWake (sources : BitVec 8)
  | finalRecordWritten (tenUs : Nat)
  | finalRecordRefresh (tenUs : Nat)
  | resetNRelease (svcLow : Bool)
  | startSequence (env : StartEnv)
  | tamperInputChange (input : Fin 5) (level recordOk : Bool)
  | sealClosed (recordOk : Bool)
  | deckLoad (rq : Request) (slot : Nat) (bytes : List Byte) (sigOk : Bool) (cut : Option Nat)
  | deckActivate (rq : Request)
  | deckCommit (rq : Request)
  | meTrickEdge (frac : BitVec 16)
  | meSlotOverrun (elem : Fin 64)
  | leTrickEdge (edge : LinkEdge)
  | ceRequest (source : CeSource)
  | ceRequestDone (hand : Nat)
  | ceBudgetExceeded (bay : Fin 16)
  | dlrCommit (who : Writer) (group : Nat) (go : Bool)
  | commitApplied (group : Nat)
  | arbSaturate (traffic : List (Nat × List ArbIssue))
  | protectionOutput (bits : Vector (BitVec 64) 96)
  | lossWindowEnd (stream : Fin 96)
  | mckFault (group : Fin 6)
  | streamRecovery (stream : Fin 96)
  | settleEnd (stream : Fin 96) (path : SensePath)
  | integPrerollEnd (stream : Fin 96)
  | snsDlyWrite (who : Writer) (stream : Nat) (value : Nat)
  | cycleTimeout (elem : Fin 64)
  | freerunBoundary (elem : Fin 64)
  | checkWindowEnd (elem : Fin 64)
  | cptLatch (elem : Fin 64)
  | cptCfgWrite (who : Writer) (elem : Nat) (n : Nat)
  | wallSet (rq : Request) (body : List Byte) (sigOk : Bool)
  | tariffSet (rq : Request) (body : List Byte) (sigOk : Bool)
  | billSnap (rq : Request) (index : Nat)
  | saveComplete (readbackOk : Bool)
  | startReading (bay : Fin 16)
  | stopReading (bay : Fin 16)
  | pilotPeriodStart (bay : Fin 16) (samples : List Int) (contact : Bool)
  | proxWindowEnd (bay : Fin 16) (samples : List Nat)
  | weldFault (bay : Fin 16)
  | contactorGrant (bay : Fin 16)
  | sessionMachineStep (bay : Fin 16)
  | sessionHandMove (bay : Fin 16)
  | tLockExpiry (bay : Fin 16)
  | tAuthExpiry (bay : Fin 16)
  | tCloseExpiry (bay : Fin 16)
  | tStopExpiry (bay : Fin 16)
  | pauseMaxExpiry (bay : Fin 16)
  | faultHoldExpiry (bay : Fin 16)
  | undefPilotTimeout (bay : Fin 16)
  | auth (who : Writer) (bay : Fin 16)
  | stop (who : Writer) (bay : Fin 16)
  | pause (who : Writer) (bay : Fin 16)
  | resume (who : Writer) (bay : Fin 16)
  | faultClr (who : Writer) (bay : Fin 16)
  | weldClr (who : Writer) (bay : Fin 16)
  | testEnter (who : Writer) (bay : Fin 16)
  | testExit (who : Writer) (bay : Fin 16)
  | bayOfferWrite (who : Writer) (bay : Fin 16) (value : Nat)
  | bayPwmCommit (who : Writer) (bay : Fin 16) (go : Bool)
  | stackStatus (bay : Fin 16) (msg : List Byte)
  | stackFault (bay : Fin 16) (msg : List Byte)
  | stackCmdSend (bay : Fin 16)
  | stackLost (bay : Fin 16)
  | prechargeTimeout (bay : Fin 16)
  | dcStopTimeout (bay : Fin 16)
  | canBusOff (port : Fin 2)
  | canBusOffRecovery (port : Fin 2)
  | blindClear (inst : Fin 17)
  | ocLimitUpdate (inst : Fin 17)
  | ocGraceExpiry (inst : Fin 17)
  | capRelease (bay : Fin 16)
  | insPhaseEnd (bay : Fin 16)
  | prtClr (who : Writer) (inst : Nat) (kinds : BitVec 6) (go : Bool)
  | autoClear (inst : Fin 17) (kind : Fin 4)
  | prtIanWrite (who : Writer) (inst : Nat) (value : Nat)
  | lnkTest (who : Writer) (go : Bool)
  | lnkTestDone (pass : BitVec 17)
  | slacRequest (src : BitVec 48) (run : BitVec 64) (levels : Vector (Option Nat) 16)
  | slacTimeout (bay : Fin 16)
  | setupTimeout (bay : Fin 16)
  | linklossTimeout (bay : Fin 16)
  | vehicleFrame (bay : Fin 16) (crcOk : Bool) (mpdu : VehicleMpdu)
  | hlcMessage (bay : Fin 16) (msg : HlcMsg)
  | certRequestTimeout (reqId : Nat)
  | beaconReceived (rx : ChainRx)
  | chainAck (fc : BitVec 96)
  | joinRequest (rx : ChainRx) (info : JoinInfo)
  | budgetReport (rx : ChainRx) (info : ReportInfo)
  | relayData (ev : RelayEvent)
  | relayOpen (rx : ChainRx)
  | relayClose (ev : RelayEvent)
  | chainLeave (rx : ChainRx)
  | rosterExpiry (addr : Fin 64)
  | heldRelease (addr : Fin 64)
  | chainInChange (level : Bool)
  | relayConnect (header : List Byte)
  | rejoin (who : Writer)
  | forget (who : Writer)
  | lsinChange (ball : Fin 8) (level : Bool)
  | lineModeOff (who : Writer) (line onT offT : Nat)
  | lineModeOn (who : Writer) (line onT offT : Nat)
  | lineModeBlink (who : Writer) (line onT offT : Nat)
  | lineBlinkToggle (line : Fin 48)
  | limiterEngage (ch : Fin 48)
  | inrushEnd (ch : Fin 48) (engaged : Bool)
  | lswClassWrite (who : Writer) (ch : Fin 48) (value : BitVec 3)
  | thermalTrip (ch : Fin 48) (tj caseT : Int) (peaks : Vector Int 8)
  | bankOverload (bank : Fin 6)
  | bankShed (bank : Fin 6) (sumMa : Nat)
  | openLoadOn (ch : Fin 48)
  | lswTest (who : Writer) (go : Bool)
  | offTestDone (ch : Fin 48) (pullMv freeMv vbbMv : Nat)
  | lswRetry (ch : Fin 48) (tj caseT : Int)
  | retryBudgetRestore (ch : Fin 48)
  | lswClr (who : Writer) (ch : Nat) (go trip : Bool)
  | holdTimeout (ch : Fin 48)
  | safetyInputChange (input : Fin 18) (a b : Bool)
  | discrepancyTimeout (input : Fin 18)
  | safSpdWrite (who : Writer) (axis : Fin 16) (mode : BitVec 2) (v : BitVec 10)
  | brakeReleaseDelay (axis : Fin 16)
  | speedCheck (ticks : Vector EncTick 16)
  | stoTestPulse (axis : Fin 16) (outB : Bool)
  | stoReadbackFault (axis : Fin 16) (a b : Bool)
  | channelDisagree (axis : Fin 16)
  | axcmdSend (axis : Fin 16)
  | axstat (axis : Fin 16) (msg : List Byte)
  | driveLinkLost (axis : Fin 16)
  | srstRelease (scEdge : Bool)
  | scSelftestDone (pass : Bool)
  | readerPoll (cards : List ReaderCard) (ue : Bool) (ns : Nat)
  | nfcVerdict (who : Writer) (presNo verdict bay : Nat) (useBay : Bool)
  | tHostExpiry (ue : Bool) (ns : Nat)
  | credDelta (rq : Request) (bytes : List Byte) (sigOk journalOk : Bool)
  | checkpointDone (ok : Bool)
  | credTableLoaded (okA okB : Bool) (valid : Nat) (ue : Bool) (ns : Nat)
  | tagSelect (aid : List Byte)
  | chal (data : List Byte)
  | muta (data : List Byte)
  | tread (p1 : Byte) (page : Byte)
  | twrite (p1 : Byte) (page : Byte) (data : List Byte) (fieldOk : Bool)
  | tagWiredRead (who : Writer) (page : Byte)
  | tagWiredWrite (who : Writer) (page : Byte)
  | dspSwap (who : Writer)
  | dspIcolWrite (who : Writer) (value : BitVec 9)
  | crackCheck (legal : Bool) (pass : Bool)
  | epthMeasure (tenths : Int)
  | dspLcmdFull (who : Writer)
  | keyUpdate (rq : Request) (msg : List Byte) (env : KumEnv)
  | devicePub (rq : Request)
  | attest (rq : Request) (challenge : List Byte)
  | debugGrant (rq : Request) (grant : List Byte) (sigOk : Bool)
  | debugEnd (rq : Request)
  | extest (drive : BitVec 243)
  | samplePreload (pins preload : BitVec 243)
  | dbgGrant (grant : List Byte) (sigOk : Bool)
  | dbgOpen (level : BitVec 2)
  | kumIn (len : BitVec 16) (msg : List Byte) (env : KumEnv)
  | memAp (access : ApAccess)
  | bypass (ir : BitVec 8)
  | netConnect (port : Fin 2) (tlsOk : Bool) (client : Option (Fin 8))
  | openSess (h : FrameHead) (rh : List Byte)
  | close (h : FrameHead)
  | keepalive (h : FrameHead)
  | read (h : FrameHead) (addr count : BitVec 32)
  | write (h : FrameHead) (addr count : BitVec 32) (words : List (BitVec 32))
  | unknownRequest (h : FrameHead) (type : BitVec 8) (code : BitVec 16)
  | bulkOpen (rq : Request) (code : BitVec 16) (total arg : BitVec 32)
  | bulkData (rq : Request) (offset : BitVec 32) (data : List Byte)
  | bulkClose (rq : Request) (digest : List Byte) (env : BulkEnv)
  | bulkTimeout (sess : Fin 6)
  | restart (rq : Request)
  | bid (rq : Request)
  | handover (rq : Request) (target : Nat)
  | accept (rq : Request)
  | release (rq : Request)
  | evtRead (rq : Request) (fromSeq max : BitVec 32)
  | evtSub (rq : Request) (arg : Nat)
  | certReply (rq : Request) (reqId : BitVec 32) (msg : List Byte)
  | spiRead (whole : Bool)
  | sessionIdleTimeout (sess : Fin 6)
  | hstCtlWrite (who : Writer) (value : BitVec 32)
  | scrubRead (dram : Bool) (addr : Nat) (upset : BitVec 72) (lap : Option Nat)
  | eccUeRestart (found : Option (Bool × Nat))
  | eccRawWrite (who : Writer) (en : Bool) (chk : BitVec 8)
  | eccRawRead (who : Writer) (en : Bool)
  | captureGo (who : Writer) (path : Bool) (nch : BitVec 5) (samples : BitVec 15)
  | transferGo (who : Writer) (t : Fin 2) (req : BitVec 2) (tag : BitVec 16)
  | transferBurst (t : Fin 2)
  | transferDone (t : Fin 2)
  | cqPop (who : Writer)
  | apbaseWrite (who : Writer) (value : BitVec 32)
  | fwLoad (rq : Request) (slot : Nat) (bytes : List Byte) (readOk : Bool)
  | activate (rq : Request)
  | activationPauseStart (image : ImageCheck)
  | prepTimeout (image : ImageCheck)
  | registerWrite (who : Writer) (addr value : BitVec 32)
  | tcpConnectionClose (sess : Fin 4)
  | bridgeDownPower
  | bridgeDownLogic
  | tripFlit
  | protectionSnapshot
  | tclkReturn
  | corePllLoss
  | corePllLock
  | metroPllLoss
  | linkPllLoss
  | linkPllRelock
  | hostPllLoss
  | fclkLoss
  | meterTimeTick
  | vddCoreBrownout
  | vpd5Brownout
  | vp12Brownout
  | vstoBrownout
  | vcolBrownout
  | vcolRestore
  | backupPor
  | standbyReached
  | idleTimerExpiry
  | loadDemand
  | watchdogExpiry
  | pfwarnRecognised
  | pfwarnRecovered
  | startWaitEnd
  | resetNRecognised
  | svcbtnPressEnd
  | svcbtnFailedClosed
  | serviceBidWindowEnd
  | sealOpened
  | ceTrickEdge
  | ceWindowEnd
  | tariffSwitch
  | dstChange
  | overrideStart
  | overrideEnd
  | demandIntervalEnd
  | periodEnd
  | boundaryActions
  | timeBehindClear
  | periodicSave
  | saveRetry
  | legalDwellEnd
  | beaconStart
  | chainSlotStart
  | listenTimeout
  | electTimeout
  | beaconLoss
  | budgetRound
  | joinRetry
  | chainWaitTimeout
  | allocationApply
  | srstStuck
  | scMismatch
  | scHeartbeatLoss
  | tPendExpiry
  | checkpointRetry
  | tinfo
  | tagApduUnknown
  | tagDeselect
  | tagFieldLoss
  | tagSessionTimeout
  | tagWriteDone
  | tagWiredWaitTimeout
  | emissiveFrameStart
  | legalUpdateDone
  | legalUpdateAdmit
  | debugDurationEnd
  | tapReset
  | idcode
  | dbgNonce
  | dbgEnd
  | dbgStat
  | keyRes
  | devPub
  | spiStatus
  | auctionClose
  | handoverExpiry
  | declarerLapse
  | captureDone
  | fwReady
  | fwReadyTimeout
  | fwConfirm
  | powerDiePowered
  | vstoRestore
  | hostPllRelock
  | fclkReturn
  | svcbtnPressStart
  | srstPressStart
  | tclkStopInHold
  deriving DecidableEq, Repr, Inhabited

end Sys2Proof
end

