-- ==== Sys2Proof/Config.lean ====
section
/-!
DEFINITION. The free values of the model: results the spec leaves open or does not define bit by bit. Each is an opaque
constant: no proof can see what it is.
-/

namespace Sys2Proof

/-- R156: bits below an output's unit that the air-cored-coil integrator keeps; the spec states no width. -/
opaque Config.integGuard : Nat

/-- R232: byte `j` of the meter signature over a reading; the meter-signing key is not in the spec. -/
opaque Config.signByte : Nat → Nat → BitVec 8

/-- R285: RISO where its formula divides by zero, from the means of the two phases. -/
opaque Config.freeRiso : Int → Int → Int → Int → BitVec 16

/-- R317: the random number of waits before the `n`-th join request. -/
opaque Config.joinWait : Nat → BitVec 3

/-- R299: the network membership key that KC draws for the `n`-th match. -/
opaque Config.memberKey : Nat → BitVec 128

/-- R297: whether the tone mask of HomePlug Green PHY leaves carrier k; the spec does not give the mask. -/
opaque Config.vehicleTone : Nat → Bool

/-- R317: the body of a join request, whose layout the spec does not give: identity, persisted address, PRIORITY, SHARE_FLOOR,
FEED_A, BUDGET, and whether it joins without position. -/
opaque Config.joinBody : List Nat → List (BitVec 8)

/-- R320: the body of a budget report, whose layout the spec does not give: DEMAND, FLOOR, FEED_A, IFEED, ROUND. -/
opaque Config.reportBody : List Nat → List (BitVec 8)

/-- R395: byte `k` of the tag's page 0: device identity, format version and free-page count, whose layout the spec does not
give. -/
opaque Config.tagPage0 : Nat → BitVec 8

/-- R396: NT, the `n`-th nonce drawn from the tag's random source. -/
opaque Config.tagNonce : Nat → BitVec 128

/-- R444: NONCE, the `n`-th debug nonce drawn. -/
opaque Config.debugNonce : Nat → BitVec 128

/-- R455: Rd, the `n`-th random drawn for an OPEN exchange. -/
opaque Config.openRandom : Nat → BitVec 128

/-- R424: byte `k` of ROOT, which the PUF gives and no reader sees. -/
opaque Config.rootByte : Nat → BitVec 8

/-- R425: the device key of R425 that KC generates; the model gives out its public halves: 128 bytes. -/
opaque Config.devicePub : Nat → BitVec 8

/-- R410: the level of a waveform ROM entry in a frame for one of the four transitions: 0 for 0 V, 1 for +15 V, 2 for -15 V.
The spec gives the ROM's lengths, not its bytes. -/
opaque Config.waveLevel : Nat → Nat → Fin 4 → Fin 3

/-- R417: the image an aborted update leaves after `n` of its frames, from the old image and the target. -/
opaque Config.partImage : Nat → Nat → Nat → Nat

/-- R482, R497: word `i` of the DRAM host area (its transfer address over 8) before anything writes it, in the `gen`-th period
between losses of its contents. -/
opaque Config.hostWord : Nat → Nat → BitVec 64

/-- R443: the `n`-th word read through MEM_AP of memory whose contents the spec does not give. -/
opaque Config.otherWord : Nat → BitVec 64

end Sys2Proof
end

