-- ==== Sys2Proof/Machine/Bytes.lean ====
section
/-!
DEFINITION. Byte strings as lists of numbers 0-255: little-endian fields, the CRCs and the rounding that several chapters
share.
-/

namespace Sys2Proof

/-- Byte `o` of a string; 0 past its end. -/
def Byte.u8 (p : List Nat) (o : Nat) : Nat := p[o]?.getD 0 % 256

def Byte.u16 (p : List Nat) (o : Nat) : Nat := Byte.u8 p o + 256 * Byte.u8 p (o + 1)
def Byte.u24 (p : List Nat) (o : Nat) : Nat := Byte.u16 p o + 65536 * Byte.u8 p (o + 2)
def Byte.u32 (p : List Nat) (o : Nat) : Nat := Byte.u16 p o + 65536 * Byte.u16 p (o + 2)
def Byte.u64 (p : List Nat) (o : Nat) : Nat := Byte.u32 p o + 4294967296 * Byte.u32 p (o + 4)

/-- A number of `w` bits read as two's complement. -/
def signed (w v : Nat) : Int := if v % 2 ^ w < 2 ^ (w - 1) then (v % 2 ^ w : Nat) else (v % 2 ^ w : Nat) - 2 ^ w

/-- A signed number kept in `w` bits. -/
def unsigned (w : Nat) (v : Int) : Nat := (v % 2 ^ w).toNat

def Byte.s16 (p : List Nat) (o : Nat) : Int := signed 16 (Byte.u16 p o)
def Byte.s32 (p : List Nat) (o : Nat) : Int := signed 32 (Byte.u32 p o)

/-- `n` bytes of `v`, least significant first. -/
def Byte.le : Nat → Nat → List Nat
  | 0, _ => []
  | n + 1, v => v % 256 :: Byte.le n (v / 256)

/-- The number whose little-endian bytes are the string. -/
def Byte.num : List Nat → Nat
  | [] => 0
  | b :: bs => b % 256 + 256 * Byte.num bs

/-- The bytes as numbers. -/
def Byte.nats (p : List Byte) : List Nat := p.map (·.toNat)

/-- `n` bytes from offset `o`. -/
def Byte.slice (p : List Nat) (o n : Nat) : List Nat := (p.drop o).take n

/-- One byte into the CRC-16 of polynomial 0x1021, most significant bit first. -/
def crc16Byte (crc b : Nat) : Nat :=
  (List.range 8).foldl (fun (r : Nat) _ =>
    if r.testBit 15 then ((r * 2) % 65536) ^^^ 0x1021 else r * 2 % 65536) (crc ^^^ (b * 256))

/-- CRC-16/CCITT, polynomial 0x1021, initial value 0xFFFF. -/
def crc16 (p : List Nat) : Nat := p.foldl crc16Byte 0xFFFF

/-- One byte into the reflected CRC-32C. -/
def crc32cByte (crc b : Nat) : Nat :=
  (List.range 8).foldl (fun (r : Nat) _ =>
    if r.testBit 0 then (r / 2) ^^^ 0x82F63B78 else r / 2) (crc ^^^ b)

/-- CRC-32C (Castagnoli): reflected, initial value and final exclusive or all ones. -/
def crc32c (p : List Nat) : Nat := p.foldl crc32cByte 0xFFFFFFFF ^^^ 0xFFFFFFFF

/-- Division to the nearest integer, halves away from zero. -/
def divNear (a b : Int) : Int :=
  if b = 0 then 0
  else
    let q := (2 * a.natAbs + b.natAbs) / (2 * b.natAbs)
    if (a < 0) = (b < 0) then (q : Int) else -(q : Int)

/-- The lowest set bit of a mask, among the lowest `n`. -/
def firstBit (n mask : Nat) : Option Nat := (List.range n).find? fun k => mask.testBit k

/-- The number of bits set among the lowest `n`. -/
def popCount (n mask : Nat) : Nat := ((List.range n).filter fun k => mask.testBit k).length

end Sys2Proof
end

