-- ==== Sys2Proof/Machine/Crypto.lean ====
section
/-!
DEFINITION. The public cryptographic functions the spec names: SHA-256 (FIPS 180-4), HMAC-SHA-256 (RFC 2104), HKDF (RFC 5869),
AES (FIPS 197), AES-CMAC (RFC 4493) and AES-CCM (RFC 3610), over byte strings as lists of numbers. PRESUMED: the spec names
these functions and does not spell them out. Signatures are not computed: their outcome comes with the command.
-/

namespace Sys2Proof

/-! ### SHA-256 -/

def shaK : List Nat :=
  [0x428A2F98, 0x71374491, 0xB5C0FBCF, 0xE9B5DBA5, 0x3956C25B, 0x59F111F1, 0x923F82A4, 0xAB1C5ED5] ++
  [0xD807AA98, 0x12835B01, 0x243185BE, 0x550C7DC3, 0x72BE5D74, 0x80DEB1FE, 0x9BDC06A7, 0xC19BF174] ++
  [0xE49B69C1, 0xEFBE4786, 0x0FC19DC6, 0x240CA1CC, 0x2DE92C6F, 0x4A7484AA, 0x5CB0A9DC, 0x76F988DA] ++
  [0x983E5152, 0xA831C66D, 0xB00327C8, 0xBF597FC7, 0xC6E00BF3, 0xD5A79147, 0x06CA6351, 0x14292967] ++
  [0x27B70A85, 0x2E1B2138, 0x4D2C6DFC, 0x53380D13, 0x650A7354, 0x766A0ABB, 0x81C2C92E, 0x92722C85] ++
  [0xA2BFE8A1, 0xA81A664B, 0xC24B8B70, 0xC76C51A3, 0xD192E819, 0xD6990624, 0xF40E3585, 0x106AA070] ++
  [0x19A4C116, 0x1E376C08, 0x2748774C, 0x34B0BCB5, 0x391C0CB3, 0x4ED8AA4A, 0x5B9CCA4F, 0x682E6FF3] ++
  [0x748F82EE, 0x78A5636F, 0x84C87814, 0x8CC70208, 0x90BEFFFA, 0xA4506CEB, 0xBEF9A3F7, 0xC67178F2]

def shaH : List Nat :=
  [0x6A09E667, 0xBB67AE85, 0x3C6EF372, 0xA54FF53A, 0x510E527F, 0x9B05688C, 0x1F83D9AB, 0x5BE0CD19]

/-- 32-bit rotation to the right. -/
def rotr (n x : Nat) : Nat := (x >>> n) ||| (x <<< (32 - n)) % 2 ^ 32

/-- A big-endian number from bytes. -/
def beNum (p : List Nat) : Nat := p.foldl (fun a b => 256 * a + b % 256) 0

/-- `n` bytes of `v`, most significant first. -/
def beBytes (n v : Nat) : List Nat := (Byte.le n v).reverse

/-- The message schedule; the last 16 words are kept newest first. -/
def shaSchedule : Nat → List Nat → List Nat
  | 0, _ => []
  | n + 1, w =>
    let a := w.getD 1 0
    let b := w.getD 14 0
    let s0 := rotr 7 b ^^^ rotr 18 b ^^^ (b >>> 3)
    let s1 := rotr 17 a ^^^ rotr 19 a ^^^ (a >>> 10)
    let x := (s1 + w.getD 6 0 + s0 + w.getD 15 0) % 2 ^ 32
    x :: shaSchedule n (x :: w.take 15)

/-- One round on the eight working variables. -/
def shaRound (v : List Nat) (kw : Nat × Nat) : List Nat :=
  match v with
  | [a, b, c, d, e, f, g, h] =>
    let s1 := rotr 6 e ^^^ rotr 11 e ^^^ rotr 25 e
    let ch := (e &&& f) ^^^ ((2 ^ 32 - 1 - e) &&& g)
    let t1 := h + s1 + ch + kw.1 + kw.2
    let s0 := rotr 2 a ^^^ rotr 13 a ^^^ rotr 22 a
    let mj := (a &&& b) ^^^ (a &&& c) ^^^ (b &&& c)
    [(t1 + s0 + mj) % 2 ^ 32, a, b, c, (d + t1) % 2 ^ 32, e, f, g]
  | v => v

/-- The words of a 64-byte block. -/
def shaWords (p : List Nat) : List Nat := (List.range 16).map fun k => beNum (Byte.slice p (4 * k) 4)

/-- One block into the hash value. -/
def shaBlock (h : List Nat) (block : List Nat) : List Nat :=
  let w := shaWords block
  let ws := w ++ shaSchedule 48 w.reverse
  let v := (shaK.zip ws).foldl shaRound h
  List.zipWith (fun a b => (a + b) % 2 ^ 32) h v

/-- Blocks of 64 bytes; `n` bounds their number. -/
def shaBlocks : Nat → List Nat → List Nat → List Nat
  | 0, h, _ => h
  | n + 1, h, p => if p.isEmpty then h else shaBlocks n (shaBlock h (p.take 64)) (p.drop 64)

/-- SHA-256 of a byte string. -/
def sha256 (p : List Nat) : List Nat :=
  let len := p.length
  let pad := p ++ 0x80 :: List.replicate ((119 - len % 64) % 64) 0 ++ beBytes 8 (8 * len)
  (shaBlocks (pad.length / 64) shaH pad).flatMap fun w => beBytes 4 w

/-- HMAC-SHA-256. -/
def hmac256 (key msg : List Nat) : List Nat :=
  let k := if 64 < key.length then sha256 key else key
  let k := k ++ List.replicate (64 - k.length) 0
  sha256 (k.map (· ^^^ 0x5C) ++ sha256 (k.map (· ^^^ 0x36) ++ msg))

/-- HKDF-SHA-256 with an output of 32 bytes. -/
def hkdf32 (ikm salt info : List Nat) : List Nat := hmac256 (hmac256 salt ikm) (info ++ [1])

/-! ### AES -/

def aesSboxRows : List Nat :=
  [0x76ABD7FE2B670130C56F6BF27B777C63, 0xC072A49CAFA2D4ADF04759FA7DC982CA,
   0x1531D871F1E5A534CCF73F362693FDB7, 0x75B227EBE28012079A059618C323C704,
   0x842FE329B3D63B52A05A6E1B1A2C8309, 0xCF584C4A39BECB6A5BB1FC20ED00D153,
   0xA89F3C507F02F94585334D43FBAAEFD0, 0xD2F3FF1021DAB6BCF5389D928F40A351,
   0x73195D643D7EA7C41744975FEC130CCD, 0xDB0B5EDE14B8EE4688902A22DC4F8160,
   0x79E4959162ACD3C25C2406490A3A32E0, 0x08AE7A65EAF4566CA94ED58D6D37C8E7,
   0x8A8BBD4B1F74DDE8C6B4A61C2E2578BA, 0x9E1DC186B95735610EF6034866B53E70,
   0xDF2855CEE9871E9B948ED9691198F8E1, 0x16BB54B00F2D99416842E6BF0D89A18C]

def aesSbox (x : Nat) : Nat := (aesSboxRows.getD (x / 16 % 16) 0 >>> (8 * (x % 16))) % 256

/-- Multiplication by x in the field of AES. -/
def xtime (a : Nat) : Nat := if 128 ≤ a then (2 * a) % 256 ^^^ 0x1B else 2 * a

/-- The round keys after the first `nk` words: `n` more words; `w` holds the last `nk` words, newest first. -/
def aesExpand (nk : Nat) : Nat → Nat → Nat → List (List Nat) → List (List Nat)
  | 0, _, _, _ => []
  | n + 1, i, rcon, w =>
    let t := w.getD 0 []
    let t :=
      if i % nk = 0 then
        match t with
        | [a, b, c, d] => [aesSbox b ^^^ rcon, aesSbox c, aesSbox d, aesSbox a]
        | t => t
      else if 6 < nk ∧ i % nk = 4 then t.map aesSbox
      else t
    let x := List.zipWith (· ^^^ ·) (w.getD (nk - 1) []) t
    x :: aesExpand nk n (i + 1) (if i % nk = 0 then xtime rcon else rcon) (x :: w.take (nk - 1))

/-- The round keys of a key of 16 or 32 bytes, 16 bytes each. -/
def aesKeys (key : List Nat) : List (List Nat) :=
  let nk := key.length / 4
  let w := (List.range nk).map fun k => Byte.slice key (4 * k) 4
  let ws := (w ++ aesExpand nk (4 * (nk + 7) - nk) nk 1 w.reverse).flatten
  (List.range (nk + 7)).map fun k => Byte.slice ws (16 * k) 16

/-- SubBytes and ShiftRows. -/
def aesSubShift (s : List Nat) : List Nat :=
  (List.range 16).map fun k => aesSbox (s.getD ((k + 4 * (k % 4)) % 16) 0)

/-- MixColumns on one column. -/
def aesMix (c : List Nat) : List Nat :=
  match c with
  | [a, b, c, d] =>
    let t := a ^^^ b ^^^ c ^^^ d
    [a ^^^ t ^^^ xtime (a ^^^ b), b ^^^ t ^^^ xtime (b ^^^ c), c ^^^ t ^^^ xtime (c ^^^ d), d ^^^ t ^^^ xtime (d ^^^ a)]
  | c => c

def aesMixAll (s : List Nat) : List Nat := (List.range 4).flatMap fun k => aesMix (Byte.slice s (4 * k) 4)

def xorBytes (a b : List Nat) : List Nat := List.zipWith (· ^^^ ·) a b

/-- The rounds after the first key. -/
def aesRounds : List (List Nat) → List Nat → List Nat
  | [], s => s
  | [k], s => xorBytes (aesSubShift s) k
  | k :: ks, s => aesRounds ks (xorBytes (aesMixAll (aesSubShift s)) k)

/-- One block under a key of 16 or 32 bytes. -/
def aes (key block : List Nat) : List Nat :=
  match aesKeys key with
  | [] => block
  | k :: ks => aesRounds ks (xorBytes block k)

/-- The 16-byte pieces of a string; `n` bounds their number. -/
def pieces16 : Nat → List Nat → List (List Nat)
  | 0, _ => []
  | n + 1, p => if p.isEmpty then [] else p.take 16 :: pieces16 n (p.drop 16)

def blocks16 (p : List Nat) : List (List Nat) := pieces16 (p.length / 16 + 1) p

/-! ### AES-CMAC -/

/-- Doubling in the field of CMAC. -/
def cmacDouble (b : List Nat) : List Nat :=
  let v := 2 * beNum b
  beBytes 16 (if 2 ^ 128 ≤ v then (v % 2 ^ 128) ^^^ 0x87 else v)

/-- The CBC chain of CMAC; the last block is masked. -/
def cmacChain (key k1 k2 : List Nat) : List Nat → List (List Nat) → List Nat
  | x, [] => aes key (xorBytes x (xorBytes k2 (0x80 :: List.replicate 15 0)))
  | x, [b] =>
    if b.length = 16 then aes key (xorBytes x (xorBytes k1 b))
    else aes key (xorBytes x (xorBytes k2 (b ++ 0x80 :: List.replicate (15 - b.length) 0)))
  | x, b :: bs => cmacChain key k1 k2 (aes key (xorBytes x b)) bs

/-- AES-CMAC of a message. -/
def cmac (key msg : List Nat) : List Nat :=
  let k1 := cmacDouble (aes key (List.replicate 16 0))
  cmacChain key k1 (cmacDouble k1) (List.replicate 16 0) (blocks16 msg)

/-! ### AES-CCM with a nonce of 13 bytes and a tag of 8 -/

def pad16 (p : List Nat) : List Nat := p ++ List.replicate ((16 - p.length % 16) % 16) 0

/-- The CBC-MAC of CCM over the associated data (under 65,280 bytes) and the plain text. -/
def ccmMac (key nonce aad plain : List Nat) : List Nat :=
  let b0 := (0x19 + (if aad.isEmpty then 0 else 0x40)) :: nonce ++ beBytes 2 plain.length
  let a := if aad.isEmpty then [] else pad16 (beBytes 2 aad.length ++ aad)
  (blocks16 (b0 ++ a ++ pad16 plain)).foldl (fun x b => aes key (xorBytes x b)) (List.replicate 16 0)

/-- The key stream block `i`. -/
def ccmStream (key nonce : List Nat) (i : Nat) : List Nat := aes key (1 :: nonce ++ beBytes 2 i)

/-- Encryption or decryption of a text with the key stream from block 1. -/
def ccmText (key nonce text : List Nat) : List Nat :=
  let bs := blocks16 text
  ((List.range bs.length).zip bs).flatMap fun ib => xorBytes ib.2 (ccmStream key nonce (ib.1 + 1))

/-- The 8-byte tag over a plain text. -/
def ccmTag (key nonce aad plain : List Nat) : List Nat :=
  xorBytes ((ccmMac key nonce aad plain).take 8) (ccmStream key nonce 0)

/-- AES-CCM: cipher text and tag. -/
def ccmSeal (key nonce aad plain : List Nat) : List Nat := ccmText key nonce plain ++ ccmTag key nonce aad plain

/-- The plain text, if the tag that ends `p` is right. -/
def ccmOpen (key nonce aad p : List Nat) : Option (List Nat) :=
  let text := p.take (p.length - 8)
  let plain := ccmText key nonce text
  if ccmTag key nonce aad plain = p.drop (p.length - 8) then some plain else none

end Sys2Proof
end

