-- ==== Sys2Proof/Machine/Regs.lean ====
section
/-!
DEFINITION. The register fields of the spec's register tables (R271, R295, R328 and their like in each chapter): address, width, access,
reset value and where the value is kept. `regTable` lists them for a read or a write of a whole word.
-/

namespace Sys2Proof.Machine
open Sys2Proof

/-- The access codes of R9. -/
inductive Access where
  | ro | rw | rws | wo | w1c | rc
  deriving DecidableEq, Repr, Inhabited

/-- Where a field is kept (R13): logic, the backup domain, or fuses. -/
inductive Home where
  | vol | backup | fuse
  deriving DecidableEq, Repr, Inhabited

/-- A register field: the address of instance 0, the distance of instances, their number, the lowest bit, the width, the
access code, the reset value, the home, and whether a read returns the copy of the second snapshot group (R33). -/
structure Fld where
  base   : Nat
  stride : Nat := 0
  cnt    : Nat := 1
  lsb    : Nat := 0
  width  : Nat := 32
  acc    : Access := .ro
  rst    : Nat := 0
  home   : Home := .vol
  snap   : Bool := false
  deriving DecidableEq, Repr, Inhabited

/-- The key of instance `i` of a field: the address of its lowest bit, in bits. -/
def fkey (f : Fld) (i : Nat) : Nat := (f.base + f.stride * i) * 32 + f.lsb

/-- The register sets of R195 and R236: set `s` at 0x1000 times `s` behind the first, and the tamper records of R226. -/
def setBase (s : Nat) : Nat := 0xA1000 + 0x1000 * s
def Reg.setLo (s : Nat) : Fld := { base := setBase s, stride := 8, cnt := 72 }
def Reg.setHi (s : Nat) : Fld := { base := setBase s + 4, stride := 8, cnt := 72, width := 16 }
def Reg.setTotLo (s : Nat) : Fld := { base := setBase s + 0x240, stride := 8, cnt := 2 }
def Reg.setTotHi (s : Nat) : Fld := { base := setBase s + 0x244, stride := 8, cnt := 2, width := 16 }
def Reg.setMdW (s : Nat) : Fld := { base := setBase s + 0x300, stride := 16, cnt := 18 }
def Reg.setMdWall (s : Nat) : Fld := { base := setBase s + 0x304, stride := 16, cnt := 18 }
def Reg.setMdMtLo (s : Nat) : Fld := { base := setBase s + 0x308, stride := 16, cnt := 18 }
def Reg.setMdMtHi (s : Nat) : Fld := { base := setBase s + 0x30C, stride := 16, cnt := 18 }
def Reg.setSeq (s : Nat) : Fld := { base := setBase s + 0x500 }
def Reg.setCfgKind (s : Nat) : Fld := { base := setBase s + 0x504, lsb := 30, width := 2 }
def Reg.setCfgElems (s : Nat) : Fld := { base := setBase s + 0x504, width := 2 }
def Reg.tcWord (w : Nat) : Fld := { base := 0xB8000 + 4 * w, stride := 0x20, cnt := 16 }

/-- DEV_PART, chapter 01. -/
def Reg.DEV_PART_PART : Fld :=
  { base := 0x0, stride := 0, cnt := 1, lsb := 16, width := 16, acc := .ro, rst := 5696, home := .fuse }
def Reg.DEV_PART_SILREV : Fld :=
  { base := 0x0, stride := 0, cnt := 1, lsb := 8, width := 8, acc := .ro, rst := 1, home := .fuse }
/-- DEV_ID_LO, chapter 01. -/
def Reg.DEV_ID_LO_ID : Fld :=
  { base := 0x4, stride := 0, cnt := 1, lsb := 0, width := 32, acc := .ro, home := .fuse }
/-- DEV_ID_HI, chapter 01. -/
def Reg.DEV_ID_HI_ID : Fld :=
  { base := 0x8, stride := 0, cnt := 1, lsb := 0, width := 32, acc := .ro, home := .fuse }
/-- DEV_BRIDGE, chapter 01. -/
def Reg.DEV_BRIDGE_DOWN_CNT : Fld :=
  { base := 0x10, stride := 0, cnt := 1, lsb := 24, width := 8, acc := .ro, home := .backup, snap := true }
def Reg.DEV_BRIDGE_RETRY_CNT : Fld :=
  { base := 0x10, stride := 0, cnt := 1, lsb := 16, width := 8, acc := .rc }
def Reg.DEV_BRIDGE_UP : Fld :=
  { base := 0x10, stride := 0, cnt := 1, lsb := 0, width := 1, acc := .ro }
/-- DEV_TRUMP_FLAG, chapter 01. -/
def Reg.DEV_TRUMP_FLAG_CLAMP : Fld :=
  { base := 0x20, stride := 0, cnt := 1, lsb := 0, width := 8, acc := .w1c }
/-- DEV_TRUMP_STATE, chapter 01. -/
def Reg.DEV_TRUMP_STATE_CARD_VER : Fld :=
  { base := 0x24, stride := 0, cnt := 1, lsb := 24, width := 8, acc := .ro }
def Reg.DEV_TRUMP_STATE_SLOTS_LEFT : Fld :=
  { base := 0x24, stride := 0, cnt := 1, lsb := 2, width := 5, acc := .ro, rst := 16, home := .fuse }
def Reg.DEV_TRUMP_STATE_FROZEN : Fld :=
  { base := 0x24, stride := 0, cnt := 1, lsb := 1, width := 1, acc := .ro, home := .fuse }
def Reg.DEV_TRUMP_STATE_HELD : Fld :=
  { base := 0x24, stride := 0, cnt := 1, lsb := 0, width := 1, acc := .ro }
/-- DEV_TRUMP_CNT, chapter 01. -/
def Reg.DEV_TRUMP_CNT_COUNT : Fld :=
  { base := 0x40, stride := 4, cnt := 8, lsb := 0, width := 32, acc := .ro, home := .backup, snap := true }
/-- PWR_STATE, chapter 03. -/
def Reg.PWR_STATE_WAKE_SRC : Fld :=
  { base := 0x10000, stride := 0, cnt := 1, lsb := 8, width := 4, acc := .ro }
def Reg.PWR_STATE_STATE : Fld :=
  { base := 0x10000, stride := 0, cnt := 1, lsb := 0, width := 3, acc := .ro, rst := 1 }
/-- PWR_REQ, chapter 03. -/
def Reg.PWR_REQ_REQ : Fld :=
  { base := 0x10004, stride := 0, cnt := 1, lsb := 0, width := 3, acc := .rw, rst := 1 }
/-- PWR_WAKE, chapter 03. -/
def Reg.PWR_WAKE_TIMER : Fld :=
  { base := 0x10008, stride := 0, cnt := 1, lsb := 7, width := 1, acc := .ro, rst := 1 }
def Reg.PWR_WAKE_SAFETY : Fld :=
  { base := 0x10008, stride := 0, cnt := 1, lsb := 6, width := 1, acc := .rw }
def Reg.PWR_WAKE_SVCBTN : Fld :=
  { base := 0x10008, stride := 0, cnt := 1, lsb := 5, width := 1, acc := .ro, rst := 1 }
def Reg.PWR_WAKE_SERVICE : Fld :=
  { base := 0x10008, stride := 0, cnt := 1, lsb := 4, width := 1, acc := .rw }
def Reg.PWR_WAKE_SPI : Fld :=
  { base := 0x10008, stride := 0, cnt := 1, lsb := 3, width := 1, acc := .rw }
def Reg.PWR_WAKE_CHAIN : Fld :=
  { base := 0x10008, stride := 0, cnt := 1, lsb := 2, width := 1, acc := .rw }
def Reg.PWR_WAKE_PROX : Fld :=
  { base := 0x10008, stride := 0, cnt := 1, lsb := 1, width := 1, acc := .rw }
def Reg.PWR_WAKE_PILOT : Fld :=
  { base := 0x10008, stride := 0, cnt := 1, lsb := 0, width := 1, acc := .rw }
/-- PWR_RSTCAUSE, chapter 03. -/
def Reg.PWR_RSTCAUSE_CAUSE : Fld :=
  { base := 0x10010, stride := 0, cnt := 1, lsb := 24, width := 8, acc := .ro, home := .backup }
def Reg.PWR_RSTCAUSE_PREV : Fld :=
  { base := 0x10010, stride := 0, cnt := 1, lsb := 16, width := 8, acc := .ro, home := .backup }
def Reg.PWR_RSTCAUSE_COUNT : Fld :=
  { base := 0x10010, stride := 0, cnt := 1, lsb := 0, width := 16, acc := .ro, home := .backup, snap := true }
/-- PWR_CLKSTAT, chapter 03. -/
def Reg.PWR_CLKSTAT_EVT_CNT : Fld :=
  { base := 0x10020, stride := 0, cnt := 1, lsb := 24, width := 8, acc := .rc }
def Reg.PWR_CLKSTAT_MT_MCLK : Fld :=
  { base := 0x10020, stride := 0, cnt := 1, lsb := 11, width := 1, acc := .ro }
def Reg.PWR_CLKSTAT_TCLK_OK : Fld :=
  { base := 0x10020, stride := 0, cnt := 1, lsb := 10, width := 1, acc := .ro }
def Reg.PWR_CLKSTAT_BCLK_OK : Fld :=
  { base := 0x10020, stride := 0, cnt := 1, lsb := 9, width := 1, acc := .ro }
def Reg.PWR_CLKSTAT_MCLK_OK : Fld :=
  { base := 0x10020, stride := 0, cnt := 1, lsb := 8, width := 1, acc := .ro }
def Reg.PWR_CLKSTAT_FCLK_LOSS : Fld :=
  { base := 0x10020, stride := 0, cnt := 1, lsb := 6, width := 1, acc := .w1c }
def Reg.PWR_CLKSTAT_HOST_PLL : Fld :=
  { base := 0x10020, stride := 0, cnt := 1, lsb := 5, width := 1, acc := .w1c }
def Reg.PWR_CLKSTAT_LINK_PLL : Fld :=
  { base := 0x10020, stride := 0, cnt := 1, lsb := 4, width := 1, acc := .w1c }
def Reg.PWR_CLKSTAT_TCLK_DRIFT : Fld :=
  { base := 0x10020, stride := 0, cnt := 1, lsb := 3, width := 1, acc := .w1c }
def Reg.PWR_CLKSTAT_TCLK_STOP : Fld :=
  { base := 0x10020, stride := 0, cnt := 1, lsb := 2, width := 1, acc := .w1c }
def Reg.PWR_CLKSTAT_BCLK_FAULT : Fld :=
  { base := 0x10020, stride := 0, cnt := 1, lsb := 1, width := 1, acc := .w1c }
def Reg.PWR_CLKSTAT_MCLK_FAULT : Fld :=
  { base := 0x10020, stride := 0, cnt := 1, lsb := 0, width := 1, acc := .w1c }
/-- PWR_CLKCNT, chapter 03. -/
def Reg.PWR_CLKCNT_BCLK : Fld :=
  { base := 0x10024, stride := 0, cnt := 1, lsb := 16, width := 16, acc := .ro }
def Reg.PWR_CLKCNT_MCLK : Fld :=
  { base := 0x10024, stride := 0, cnt := 1, lsb := 0, width := 16, acc := .ro }
/-- PWR_SUPSTAT, chapter 03. -/
def Reg.PWR_SUPSTAT_EVT_CNT : Fld :=
  { base := 0x10030, stride := 0, cnt := 1, lsb := 24, width := 8, acc := .rc }
def Reg.PWR_SUPSTAT_VCOL_DROP : Fld :=
  { base := 0x10030, stride := 0, cnt := 1, lsb := 15, width := 1, acc := .w1c }
def Reg.PWR_SUPSTAT_VSTO_DROP : Fld :=
  { base := 0x10030, stride := 0, cnt := 1, lsb := 14, width := 1, acc := .w1c }
def Reg.PWR_SUPSTAT_VBB_DROP : Fld :=
  { base := 0x10030, stride := 0, cnt := 1, lsb := 8, width := 6, acc := .w1c }
def Reg.PWR_SUPSTAT_VCOL_OK : Fld :=
  { base := 0x10030, stride := 0, cnt := 1, lsb := 7, width := 1, acc := .ro }
def Reg.PWR_SUPSTAT_VSTO_OK : Fld :=
  { base := 0x10030, stride := 0, cnt := 1, lsb := 6, width := 1, acc := .ro }
def Reg.PWR_SUPSTAT_VBB_OK : Fld :=
  { base := 0x10030, stride := 0, cnt := 1, lsb := 0, width := 6, acc := .ro }
/-- PWR_BKSTAT, chapter 03. -/
def Reg.PWR_BKSTAT_VBAT_MV : Fld :=
  { base := 0x10034, stride := 0, cnt := 1, lsb := 20, width := 12, acc := .ro, snap := true }
def Reg.PWR_BKSTAT_BK_LOST : Fld :=
  { base := 0x10034, stride := 0, cnt := 1, lsb := 3, width := 1, acc := .w1c }
def Reg.PWR_BKSTAT_VBAT_LOW : Fld :=
  { base := 0x10034, stride := 0, cnt := 1, lsb := 2, width := 1, acc := .w1c }
def Reg.PWR_BKSTAT_MTIME_GAP : Fld :=
  { base := 0x10034, stride := 0, cnt := 1, lsb := 1, width := 1, acc := .w1c }
def Reg.PWR_BKSTAT_RTC_VALID : Fld :=
  { base := 0x10034, stride := 0, cnt := 1, lsb := 0, width := 1, acc := .ro, snap := true }
/-- PWR_PFW, chapter 03. -/
def Reg.PWR_PFW_PF_CNT : Fld :=
  { base := 0x10040, stride := 0, cnt := 1, lsb := 16, width := 16, acc := .ro, home := .backup, snap := true }
def Reg.PWR_PFW_SAVE_T : Fld :=
  { base := 0x10040, stride := 0, cnt := 1, lsb := 8, width := 8, acc := .ro, home := .backup, snap := true }
def Reg.PWR_PFW_START_WAIT : Fld :=
  { base := 0x10040, stride := 0, cnt := 1, lsb := 2, width := 1, acc := .ro, snap := true }
def Reg.PWR_PFW_DIP : Fld :=
  { base := 0x10040, stride := 0, cnt := 1, lsb := 1, width := 1, acc := .w1c }
def Reg.PWR_PFW_ACTIVE : Fld :=
  { base := 0x10040, stride := 0, cnt := 1, lsb := 0, width := 1, acc := .ro, snap := true }
/-- PWR_SVC, chapter 03. -/
def Reg.PWR_SVC_LAST_MS : Fld :=
  { base := 0x10050, stride := 0, cnt := 1, lsb := 16, width := 16, acc := .ro }
def Reg.PWR_SVC_FAIL_CNT : Fld :=
  { base := 0x10050, stride := 0, cnt := 1, lsb := 8, width := 8, acc := .ro, home := .backup, snap := true }
def Reg.PWR_SVC_HELD : Fld :=
  { base := 0x10050, stride := 0, cnt := 1, lsb := 3, width := 1, acc := .ro }
def Reg.PWR_SVC_FAILED : Fld :=
  { base := 0x10050, stride := 0, cnt := 1, lsb := 2, width := 1, acc := .w1c }
def Reg.PWR_SVC_RECOVERY : Fld :=
  { base := 0x10050, stride := 0, cnt := 1, lsb := 1, width := 1, acc := .w1c }
def Reg.PWR_SVC_ATTENTION : Fld :=
  { base := 0x10050, stride := 0, cnt := 1, lsb := 0, width := 1, acc := .w1c }
/-- UPD_DECK_STAT, chapter 04. -/
def Reg.UPD_DECK_STAT_BARE : Fld :=
  { base := 0x1d0100, stride := 0, cnt := 1, lsb := 7, width := 1, acc := .ro }
def Reg.UPD_DECK_STAT_FALLBACK : Fld :=
  { base := 0x1d0100, stride := 0, cnt := 1, lsb := 6, width := 1, acc := .ro }
def Reg.UPD_DECK_STAT_PREF : Fld :=
  { base := 0x1d0100, stride := 0, cnt := 1, lsb := 5, width := 1, acc := .ro, home := .backup }
def Reg.UPD_DECK_STAT_RUN : Fld :=
  { base := 0x1d0100, stride := 0, cnt := 1, lsb := 4, width := 1, acc := .ro }
def Reg.UPD_DECK_STAT_B_OK : Fld :=
  { base := 0x1d0100, stride := 0, cnt := 1, lsb := 1, width := 1, acc := .ro }
def Reg.UPD_DECK_STAT_A_OK : Fld :=
  { base := 0x1d0100, stride := 0, cnt := 1, lsb := 0, width := 1, acc := .ro }
/-- UPD_DECK_REJ, chapter 04. -/
def Reg.UPD_DECK_REJ_REASON : Fld :=
  { base := 0x1d0104, stride := 8, cnt := 2, lsb := 24, width := 8, acc := .ro }
def Reg.UPD_DECK_REJ_CARD : Fld :=
  { base := 0x1d0104, stride := 8, cnt := 2, lsb := 0, width := 16, acc := .ro }
/-- UPD_DECK_REJOFF, chapter 04. -/
def Reg.UPD_DECK_REJOFF_OFFSET : Fld :=
  { base := 0x1d0108, stride := 8, cnt := 2, lsb := 0, width := 22, acc := .ro }
/-- UPD_DECK_SERIAL, chapter 04. -/
def Reg.UPD_DECK_SERIAL_SERIAL : Fld :=
  { base := 0x1d0114, stride := 0, cnt := 1, lsb := 0, width := 32, acc := .ro }
/-- UPD_DECK_FLOOR, chapter 04. -/
def Reg.UPD_DECK_FLOOR_FLOOR : Fld :=
  { base := 0x1d0118, stride := 0, cnt := 1, lsb := 0, width := 32, acc := .ro }
/-- UPD_DECK_BOOT, chapter 04. -/
def Reg.UPD_DECK_BOOT_BAY_MS : Fld :=
  { base := 0x1d011c, stride := 0, cnt := 1, lsb := 16, width := 16, acc := .ro }
def Reg.UPD_DECK_BOOT_DECK_MS : Fld :=
  { base := 0x1d011c, stride := 0, cnt := 1, lsb := 0, width := 16, acc := .ro }
/-- UPD_DECK_DIG, chapter 04. -/
def Reg.UPD_DECK_DIG_DIGEST : Fld :=
  { base := 0x1d0120, stride := 4, cnt := 8, lsb := 0, width := 32, acc := .ro }
/-- DLR_STAT, chapter 05. -/
def Reg.DLR_STAT_EVT_CNT : Fld :=
  { base := 0x20000, stride := 0, cnt := 1, lsb := 24, width := 8, acc := .rc }
def Reg.DLR_STAT_ARB_SAT : Fld :=
  { base := 0x20000, stride := 0, cnt := 1, lsb := 4, width := 1, acc := .w1c }
def Reg.DLR_STAT_CE_BUDGET : Fld :=
  { base := 0x20000, stride := 0, cnt := 1, lsb := 3, width := 1, acc := .w1c }
def Reg.DLR_STAT_CE_QFULL : Fld :=
  { base := 0x20000, stride := 0, cnt := 1, lsb := 2, width := 1, acc := .w1c }
def Reg.DLR_STAT_LE_LATE : Fld :=
  { base := 0x20000, stride := 0, cnt := 1, lsb := 1, width := 1, acc := .w1c }
def Reg.DLR_STAT_ME_OVR : Fld :=
  { base := 0x20000, stride := 0, cnt := 1, lsb := 0, width := 1, acc := .w1c }
/-- DLR_ME_OVR, chapter 05. -/
def Reg.DLR_ME_OVR_COUNT : Fld :=
  { base := 0x20004, stride := 0, cnt := 1, lsb := 0, width := 32, acc := .ro, home := .backup, snap := true }
/-- DLR_COMMIT, chapter 05. -/
def Reg.DLR_COMMIT_GO : Fld :=
  { base := 0x20020, stride := 0, cnt := 1, lsb := 7, width := 1, acc := .wo }
def Reg.DLR_COMMIT_GROUP : Fld :=
  { base := 0x20020, stride := 0, cnt := 1, lsb := 0, width := 7, acc := .wo }
/-- DLR_CMT_LAST, chapter 05. -/
def Reg.DLR_CMT_LAST_APPLIED_CNT : Fld :=
  { base := 0x20024, stride := 0, cnt := 1, lsb := 16, width := 16, acc := .ro }
def Reg.DLR_CMT_LAST_GROUP : Fld :=
  { base := 0x20024, stride := 0, cnt := 1, lsb := 0, width := 7, acc := .ro }
/-- DLR_PEND, chapter 05. -/
def Reg.DLR_PEND_PENDING : Fld :=
  { base := 0x20030, stride := 4, cnt := 4, lsb := 0, width := 32, acc := .ro }
/-- DLR_LE_MAX, chapter 05. -/
def Reg.DLR_LE_MAX_DEC : Fld :=
  { base := 0x20040, stride := 0, cnt := 1, lsb := 0, width := 16, acc := .rc }
/-- DLR_CE_MAX, chapter 05. -/
def Reg.DLR_CE_MAX_START_MS : Fld :=
  { base := 0x20044, stride := 0, cnt := 1, lsb := 16, width := 16, acc := .rc }
def Reg.DLR_CE_MAX_WAIT : Fld :=
  { base := 0x20044, stride := 0, cnt := 1, lsb := 0, width := 16, acc := .rc }
/-- DLR_ARB, chapter 05. -/
def Reg.DLR_ARB_SAT : Fld :=
  { base := 0x20050, stride := 0, cnt := 1, lsb := 0, width := 15, acc := .ro }
/-- DLR_WEIGHT, chapter 05. -/
def Reg.DLR_WEIGHT_W3 : Fld :=
  { base := 0x20060, stride := 4, cnt := 6, lsb := 24, width := 8, acc := .ro }
def Reg.DLR_WEIGHT_W2 : Fld :=
  { base := 0x20060, stride := 4, cnt := 6, lsb := 16, width := 8, acc := .ro }
def Reg.DLR_WEIGHT_W1 : Fld :=
  { base := 0x20060, stride := 4, cnt := 6, lsb := 8, width := 8, acc := .ro }
def Reg.DLR_WEIGHT_W0 : Fld :=
  { base := 0x20060, stride := 4, cnt := 6, lsb := 0, width := 8, acc := .ro }
/-- DLR_HAND, chapter 05. -/
def Reg.DLR_HAND_ENGINE : Fld :=
  { base := 0x20100, stride := 4, cnt := 160, lsb := 20, width := 4, acc := .ro, rst := 15 }
def Reg.DLR_HAND_CLASS : Fld :=
  { base := 0x20100, stride := 4, cnt := 160, lsb := 16, width := 2, acc := .ro }
def Reg.DLR_HAND_WAIT : Fld :=
  { base := 0x20100, stride := 4, cnt := 160, lsb := 8, width := 8, acc := .ro }
def Reg.DLR_HAND_STATE : Fld :=
  { base := 0x20100, stride := 4, cnt := 160, lsb := 0, width := 3, acc := .ro }
/-- SNS_STAT, chapter 06. -/
def Reg.SNS_STAT_EVT_CNT : Fld :=
  { base := 0x40000, stride := 0, cnt := 1, lsb := 24, width := 8, acc := .rc }
def Reg.SNS_STAT_MCK_FAULT : Fld :=
  { base := 0x40000, stride := 0, cnt := 1, lsb := 8, width := 6, acc := .w1c }
def Reg.SNS_STAT_SEAL_REF : Fld :=
  { base := 0x40000, stride := 0, cnt := 1, lsb := 2, width := 1, acc := .w1c }
def Reg.SNS_STAT_OVR_ANY : Fld :=
  { base := 0x40000, stride := 0, cnt := 1, lsb := 1, width := 1, acc := .ro }
def Reg.SNS_STAT_LOSS_ANY : Fld :=
  { base := 0x40000, stride := 0, cnt := 1, lsb := 0, width := 1, acc := .ro }
/-- SNS_LOSS, chapter 06. -/
def Reg.SNS_LOSS_LOSS : Fld :=
  { base := 0x40010, stride := 4, cnt := 3, lsb := 0, width := 32, acc := .w1c }
/-- SNS_OVR, chapter 06. -/
def Reg.SNS_OVR_OVR : Fld :=
  { base := 0x40020, stride := 4, cnt := 3, lsb := 0, width := 32, acc := .w1c }
/-- SNS_FLAG_EVT, chapter 06. -/
def Reg.SNS_FLAG_EVT_OVR : Fld :=
  { base := 0x40030, stride := 0, cnt := 1, lsb := 24, width := 8, acc := .rc }
def Reg.SNS_FLAG_EVT_LOSS2 : Fld :=
  { base := 0x40030, stride := 0, cnt := 1, lsb := 16, width := 8, acc := .rc }
def Reg.SNS_FLAG_EVT_LOSS1 : Fld :=
  { base := 0x40030, stride := 0, cnt := 1, lsb := 8, width := 8, acc := .rc }
def Reg.SNS_FLAG_EVT_LOSS0 : Fld :=
  { base := 0x40030, stride := 0, cnt := 1, lsb := 0, width := 8, acc := .rc }
/-- SNS_LOST, chapter 06. -/
def Reg.SNS_LOST_LOST : Fld :=
  { base := 0x40040, stride := 4, cnt := 3, lsb := 0, width := 32, acc := .ro }
/-- SNS_ROMADDR, chapter 06. -/
def Reg.SNS_ROMADDR_LEN : Fld :=
  { base := 0x40050, stride := 0, cnt := 1, lsb := 16, width := 12, acc := .ro, rst := 31 }
def Reg.SNS_ROMADDR_ID : Fld :=
  { base := 0x40050, stride := 0, cnt := 1, lsb := 12, width := 4, acc := .rw }
def Reg.SNS_ROMADDR_TAP : Fld :=
  { base := 0x40050, stride := 0, cnt := 1, lsb := 0, width := 10, acc := .rw }
/-- SNS_ROMDATA, chapter 06. -/
def Reg.SNS_ROMDATA_COEF : Fld :=
  { base := 0x40054, stride := 0, cnt := 1, lsb := 0, width := 32, acc := .ro, home := .fuse }
/-- SNS_GRP, chapter 06. -/
def Reg.SNS_GRP_USED : Fld :=
  { base := 0x40100, stride := 4, cnt := 6, lsb := 8, width := 5, acc := .ro }
def Reg.SNS_GRP_MCK_ON : Fld :=
  { base := 0x40100, stride := 4, cnt := 6, lsb := 7, width := 1, acc := .ro }
def Reg.SNS_GRP_SAMPLE_PH : Fld :=
  { base := 0x40100, stride := 4, cnt := 6, lsb := 0, width := 6, acc := .ro }
/-- SNS_CFG, chapter 06. -/
def Reg.SNS_CFG_ROLE : Fld :=
  { base := 0x41000, stride := 32, cnt := 96, lsb := 29, width := 3, acc := .ro }
def Reg.SNS_CFG_SENSOR : Fld :=
  { base := 0x41000, stride := 32, cnt := 96, lsb := 26, width := 3, acc := .ro }
def Reg.SNS_CFG_CIC_ORDER : Fld :=
  { base := 0x41000, stride := 32, cnt := 96, lsb := 23, width := 3, acc := .ro }
def Reg.SNS_CFG_MCOMP : Fld :=
  { base := 0x41000, stride := 32, cnt := 96, lsb := 22, width := 1, acc := .ro }
def Reg.SNS_CFG_PCOMP : Fld :=
  { base := 0x41000, stride := 32, cnt := 96, lsb := 20, width := 2, acc := .ro }
def Reg.SNS_CFG_QSEL : Fld :=
  { base := 0x41000, stride := 32, cnt := 96, lsb := 18, width := 2, acc := .ro }
def Reg.SNS_CFG_INTEG_K : Fld :=
  { base := 0x41000, stride := 32, cnt := 96, lsb := 13, width := 5, acc := .ro }
def Reg.SNS_CFG_NOM60 : Fld :=
  { base := 0x41000, stride := 32, cnt := 96, lsb := 12, width := 1, acc := .ro }
def Reg.SNS_CFG_POLE : Fld :=
  { base := 0x41000, stride := 32, cnt := 96, lsb := 11, width := 1, acc := .ro }
def Reg.SNS_CFG_BAY : Fld :=
  { base := 0x41000, stride := 32, cnt := 96, lsb := 7, width := 4, acc := .ro }
def Reg.SNS_CFG_HOME_GROUP : Fld :=
  { base := 0x41000, stride := 32, cnt := 96, lsb := 0, width := 6, acc := .ro }
/-- SNS_DLY, chapter 06. -/
def Reg.SNS_DLY_REAL : Fld :=
  { base := 0x41004, stride := 32, cnt := 96, lsb := 16, width := 14, acc := .ro }
def Reg.SNS_DLY_DLY : Fld :=
  { base := 0x41004, stride := 32, cnt := 96, lsb := 0, width := 14, acc := .rws }
/-- SNS_SSTAT, chapter 06. -/
def Reg.SNS_SSTAT_CAUSE : Fld :=
  { base := 0x41008, stride := 32, cnt := 96, lsb := 16, width := 4, acc := .ro }
def Reg.SNS_SSTAT_SLEW : Fld :=
  { base := 0x41008, stride := 32, cnt := 96, lsb := 3, width := 1, acc := .ro }
def Reg.SNS_SSTAT_SETTLE : Fld :=
  { base := 0x41008, stride := 32, cnt := 96, lsb := 2, width := 1, acc := .ro }
def Reg.SNS_SSTAT_OVR : Fld :=
  { base := 0x41008, stride := 32, cnt := 96, lsb := 1, width := 1, acc := .ro }
def Reg.SNS_SSTAT_LOST : Fld :=
  { base := 0x41008, stride := 32, cnt := 96, lsb := 0, width := 1, acc := .ro }
/-- SNS_DENS, chapter 06. -/
def Reg.SNS_DENS_ONES : Fld :=
  { base := 0x4100c, stride := 32, cnt := 96, lsb := 0, width := 12, acc := .ro }
/-- SNS_LATM, chapter 06. -/
def Reg.SNS_LATM_LAT : Fld :=
  { base := 0x41010, stride := 32, cnt := 96, lsb := 0, width := 32, acc := .ro }
/-- SNS_LATP, chapter 06. -/
def Reg.SNS_LATP_LAT : Fld :=
  { base := 0x41014, stride := 32, cnt := 96, lsb := 0, width := 32, acc := .ro }
/-- SNS_LOSSCNT, chapter 06. -/
def Reg.SNS_LOSSCNT_LOSS : Fld :=
  { base := 0x41018, stride := 32, cnt := 96, lsb := 16, width := 16, acc := .ro, home := .backup, snap := true }
def Reg.SNS_LOSSCNT_OVR_CNT : Fld :=
  { base := 0x41018, stride := 32, cnt := 96, lsb := 0, width := 16, acc := .rc }
/-- SNS_SETL, chapter 06. -/
def Reg.SNS_SETL_MET : Fld :=
  { base := 0x4101c, stride := 32, cnt := 96, lsb := 16, width := 16, acc := .ro }
def Reg.SNS_SETL_PRT : Fld :=
  { base := 0x4101c, stride := 32, cnt := 96, lsb := 0, width := 16, acc := .ro }
/-- MTR_CFG, chapter 07. -/
def Reg.MTR_CFG_KIND : Fld :=
  { base := 0x80000, stride := 1024, cnt := 64, lsb := 30, width := 2, acc := .ro }
def Reg.MTR_CFG_ACC : Fld :=
  { base := 0x80000, stride := 1024, cnt := 64, lsb := 29, width := 1, acc := .ro }
def Reg.MTR_CFG_SMODE : Fld :=
  { base := 0x80000, stride := 1024, cnt := 64, lsb := 28, width := 1, acc := .ro }
def Reg.MTR_CFG_IMP_ONLY : Fld :=
  { base := 0x80000, stride := 1024, cnt := 64, lsb := 27, width := 1, acc := .ro }
def Reg.MTR_CFG_CHECKS : Fld :=
  { base := 0x80000, stride := 1024, cnt := 64, lsb := 20, width := 6, acc := .ro }
def Reg.MTR_CFG_ISTREAM : Fld :=
  { base := 0x80000, stride := 1024, cnt := 64, lsb := 12, width := 7, acc := .ro }
def Reg.MTR_CFG_VSTREAM : Fld :=
  { base := 0x80000, stride := 1024, cnt := 64, lsb := 4, width := 7, acc := .ro }
/-- MTR_SEQ, chapter 07. -/
def Reg.MTR_SEQ_SEQ : Fld :=
  { base := 0x80004, stride := 1024, cnt := 64, lsb := 0, width := 32, acc := .ro }
/-- MTR_CYC_LO, chapter 07. -/
def Reg.MTR_CYC_LO_COUNT : Fld :=
  { base := 0x80008, stride := 1024, cnt := 64, lsb := 0, width := 32, acc := .ro }
/-- MTR_CYC_HI, chapter 07. -/
def Reg.MTR_CYC_HI_COUNT : Fld :=
  { base := 0x8000c, stride := 1024, cnt := 64, lsb := 0, width := 32, acc := .ro }
/-- MTR_STAT, chapter 07. -/
def Reg.MTR_STAT_EVT_CNT : Fld :=
  { base := 0x80010, stride := 1024, cnt := 64, lsb := 24, width := 8, acc := .rc }
def Reg.MTR_STAT_VMISS : Fld :=
  { base := 0x80010, stride := 1024, cnt := 64, lsb := 11, width := 1, acc := .ro }
def Reg.MTR_STAT_FREERUN : Fld :=
  { base := 0x80010, stride := 1024, cnt := 64, lsb := 10, width := 1, acc := .ro }
def Reg.MTR_STAT_NOLOAD : Fld :=
  { base := 0x80010, stride := 1024, cnt := 64, lsb := 9, width := 1, acc := .ro }
def Reg.MTR_STAT_VALID : Fld :=
  { base := 0x80010, stride := 1024, cnt := 64, lsb := 8, width := 1, acc := .ro }
def Reg.MTR_STAT_CHK_DEV : Fld :=
  { base := 0x80010, stride := 1024, cnt := 64, lsb := 4, width := 1, acc := .w1c }
def Reg.MTR_STAT_REV : Fld :=
  { base := 0x80010, stride := 1024, cnt := 64, lsb := 3, width := 1, acc := .w1c }
def Reg.MTR_STAT_VMISS_EV : Fld :=
  { base := 0x80010, stride := 1024, cnt := 64, lsb := 2, width := 1, acc := .w1c }
def Reg.MTR_STAT_INCOMP : Fld :=
  { base := 0x80010, stride := 1024, cnt := 64, lsb := 1, width := 1, acc := .w1c }
def Reg.MTR_STAT_FORCED : Fld :=
  { base := 0x80010, stride := 1024, cnt := 64, lsb := 0, width := 1, acc := .w1c }
/-- MTR_FREQ, chapter 07. -/
def Reg.MTR_FREQ_FREQ : Fld :=
  { base := 0x80014, stride := 1024, cnt := 64, lsb := 0, width := 17, acc := .ro }
/-- MTR_VRMS, chapter 07. -/
def Reg.MTR_VRMS_VRMS : Fld :=
  { base := 0x80018, stride := 1024, cnt := 64, lsb := 0, width := 32, acc := .ro }
/-- MTR_IRMS, chapter 07. -/
def Reg.MTR_IRMS_IRMS : Fld :=
  { base := 0x8001c, stride := 1024, cnt := 64, lsb := 0, width := 32, acc := .ro }
/-- MTR_P, chapter 07. -/
def Reg.MTR_P_P : Fld :=
  { base := 0x80020, stride := 1024, cnt := 64, lsb := 0, width := 32, acc := .ro }
/-- MTR_Q, chapter 07. -/
def Reg.MTR_Q_Q : Fld :=
  { base := 0x80024, stride := 1024, cnt := 64, lsb := 0, width := 32, acc := .ro }
/-- MTR_S, chapter 07. -/
def Reg.MTR_S_S : Fld :=
  { base := 0x80028, stride := 1024, cnt := 64, lsb := 0, width := 32, acc := .ro }
/-- MTR_CYCT, chapter 07. -/
def Reg.MTR_CYCT_DUR : Fld :=
  { base := 0x8002c, stride := 1024, cnt := 64, lsb := 0, width := 32, acc := .ro }
/-- MTR_EA_IMP_LO, chapter 07. -/
def Reg.MTR_EA_IMP_LO_TOTAL : Fld :=
  { base := 0x80030, stride := 1024, cnt := 64, lsb := 0, width := 32, acc := .ro }
/-- MTR_EA_IMP_HI, chapter 07. -/
def Reg.MTR_EA_IMP_HI_TOTAL : Fld :=
  { base := 0x80034, stride := 1024, cnt := 64, lsb := 0, width := 32, acc := .ro }
/-- MTR_EA_EXP_LO, chapter 07. -/
def Reg.MTR_EA_EXP_LO_TOTAL : Fld :=
  { base := 0x80038, stride := 1024, cnt := 64, lsb := 0, width := 32, acc := .ro }
/-- MTR_EA_EXP_HI, chapter 07. -/
def Reg.MTR_EA_EXP_HI_TOTAL : Fld :=
  { base := 0x8003c, stride := 1024, cnt := 64, lsb := 0, width := 32, acc := .ro }
/-- MTR_ER_Q1_LO, chapter 07. -/
def Reg.MTR_ER_Q1_LO_TOTAL : Fld :=
  { base := 0x80040, stride := 1024, cnt := 64, lsb := 0, width := 32, acc := .ro }
/-- MTR_ER_Q1_HI, chapter 07. -/
def Reg.MTR_ER_Q1_HI_TOTAL : Fld :=
  { base := 0x80044, stride := 1024, cnt := 64, lsb := 0, width := 32, acc := .ro }
/-- MTR_ER_Q2_LO, chapter 07. -/
def Reg.MTR_ER_Q2_LO_TOTAL : Fld :=
  { base := 0x80048, stride := 1024, cnt := 64, lsb := 0, width := 32, acc := .ro }
/-- MTR_ER_Q2_HI, chapter 07. -/
def Reg.MTR_ER_Q2_HI_TOTAL : Fld :=
  { base := 0x8004c, stride := 1024, cnt := 64, lsb := 0, width := 32, acc := .ro }
/-- MTR_ER_Q3_LO, chapter 07. -/
def Reg.MTR_ER_Q3_LO_TOTAL : Fld :=
  { base := 0x80050, stride := 1024, cnt := 64, lsb := 0, width := 32, acc := .ro }
/-- MTR_ER_Q3_HI, chapter 07. -/
def Reg.MTR_ER_Q3_HI_TOTAL : Fld :=
  { base := 0x80054, stride := 1024, cnt := 64, lsb := 0, width := 32, acc := .ro }
/-- MTR_ER_Q4_LO, chapter 07. -/
def Reg.MTR_ER_Q4_LO_TOTAL : Fld :=
  { base := 0x80058, stride := 1024, cnt := 64, lsb := 0, width := 32, acc := .ro }
/-- MTR_ER_Q4_HI, chapter 07. -/
def Reg.MTR_ER_Q4_HI_TOTAL : Fld :=
  { base := 0x8005c, stride := 1024, cnt := 64, lsb := 0, width := 32, acc := .ro }
/-- MTR_ES_IMP_LO, chapter 07. -/
def Reg.MTR_ES_IMP_LO_TOTAL : Fld :=
  { base := 0x80060, stride := 1024, cnt := 64, lsb := 0, width := 32, acc := .ro }
/-- MTR_ES_IMP_HI, chapter 07. -/
def Reg.MTR_ES_IMP_HI_TOTAL : Fld :=
  { base := 0x80064, stride := 1024, cnt := 64, lsb := 0, width := 32, acc := .ro }
/-- MTR_ES_EXP_LO, chapter 07. -/
def Reg.MTR_ES_EXP_LO_TOTAL : Fld :=
  { base := 0x80068, stride := 1024, cnt := 64, lsb := 0, width := 32, acc := .ro }
/-- MTR_ES_EXP_HI, chapter 07. -/
def Reg.MTR_ES_EXP_HI_TOTAL : Fld :=
  { base := 0x8006c, stride := 1024, cnt := 64, lsb := 0, width := 32, acc := .ro }
/-- MTR_INV_LO, chapter 07. -/
def Reg.MTR_INV_LO_COUNT : Fld :=
  { base := 0x80070, stride := 1024, cnt := 64, lsb := 0, width := 32, acc := .ro }
/-- MTR_INV_HI, chapter 07. -/
def Reg.MTR_INV_HI_COUNT : Fld :=
  { base := 0x80074, stride := 1024, cnt := 64, lsb := 0, width := 32, acc := .ro }
/-- MTR_LIFE, chapter 07. -/
def Reg.MTR_LIFE_REV_EP : Fld :=
  { base := 0x80078, stride := 1024, cnt := 64, lsb := 16, width := 16, acc := .ro, home := .backup }
def Reg.MTR_LIFE_VMISS_EP : Fld :=
  { base := 0x80078, stride := 1024, cnt := 64, lsb := 0, width := 16, acc := .ro, home := .backup }
/-- MTR_CYINV, chapter 07. -/
def Reg.MTR_CYINV_INV : Fld :=
  { base := 0x8007c, stride := 1024, cnt := 64, lsb := 0, width := 16, acc := .ro }
/-- MTR_CHK, chapter 07. -/
def Reg.MTR_CHK_WIN : Fld :=
  { base := 0x80080, stride := 1024, cnt := 64, lsb := 16, width := 16, acc := .ro }
def Reg.MTR_CHK_DEV : Fld :=
  { base := 0x80080, stride := 1024, cnt := 64, lsb := 0, width := 16, acc := .ro }
/-- MTR_END_LO, chapter 07. -/
def Reg.MTR_END_LO_MS_LO : Fld :=
  { base := 0x80084, stride := 1024, cnt := 64, lsb := 16, width := 16, acc := .ro }
def Reg.MTR_END_LO_FRAC : Fld :=
  { base := 0x80084, stride := 1024, cnt := 64, lsb := 0, width := 16, acc := .ro }
/-- MTR_END_HI, chapter 07. -/
def Reg.MTR_END_HI_MS_HI : Fld :=
  { base := 0x80088, stride := 1024, cnt := 64, lsb := 0, width := 32, acc := .ro }
/-- MTR_CPT_CFG, chapter 07. -/
def Reg.MTR_CPT_CFG_N : Fld :=
  { base := 0x80090, stride := 1024, cnt := 64, lsb := 20, width := 12, acc := .rws }
def Reg.MTR_CPT_CFG_UNIT : Fld :=
  { base := 0x80090, stride := 1024, cnt := 64, lsb := 0, width := 20, acc := .ro }
/-- MTR_CPT_SEQ, chapter 07. -/
def Reg.MTR_CPT_SEQ_VALUE : Fld :=
  { base := 0x80094, stride := 1024, cnt := 64, lsb := 0, width := 32, acc := .ro }
/-- MTR_CPT_EA_IMP, chapter 07. -/
def Reg.MTR_CPT_EA_IMP_VALUE : Fld :=
  { base := 0x80098, stride := 1024, cnt := 64, lsb := 0, width := 32, acc := .ro }
/-- MTR_CPT_EA_EXP, chapter 07. -/
def Reg.MTR_CPT_EA_EXP_VALUE : Fld :=
  { base := 0x8009c, stride := 1024, cnt := 64, lsb := 0, width := 32, acc := .ro }
/-- MTR_CPT_ER_IND, chapter 07. -/
def Reg.MTR_CPT_ER_IND_VALUE : Fld :=
  { base := 0x800a0, stride := 1024, cnt := 64, lsb := 0, width := 32, acc := .ro }
/-- MTR_CPT_ER_CAP, chapter 07. -/
def Reg.MTR_CPT_ER_CAP_VALUE : Fld :=
  { base := 0x800a4, stride := 1024, cnt := 64, lsb := 0, width := 32, acc := .ro }
/-- MTR_CPT_ES, chapter 07. -/
def Reg.MTR_CPT_ES_VALUE : Fld :=
  { base := 0x800a8, stride := 1024, cnt := 64, lsb := 0, width := 32, acc := .ro }
/-- MTR_LIM, chapter 07. -/
def Reg.MTR_LIM_CREEP : Fld :=
  { base := 0x800b0, stride := 1024, cnt := 64, lsb := 16, width := 16, acc := .ro }
def Reg.MTR_LIM_VNOM : Fld :=
  { base := 0x800b0, stride := 1024, cnt := 64, lsb := 0, width := 16, acc := .ro }
/-- MTR_CHKCFG, chapter 07. -/
def Reg.MTR_CHKCFG_ZC_HYST : Fld :=
  { base := 0x800b4, stride := 1024, cnt := 64, lsb := 27, width := 5, acc := .ro }
def Reg.MTR_CHKCFG_CHK_TOL : Fld :=
  { base := 0x800b4, stride := 1024, cnt := 64, lsb := 16, width := 9, acc := .ro }
def Reg.MTR_CHKCFG_CHK_CYC : Fld :=
  { base := 0x800b4, stride := 1024, cnt := 64, lsb := 0, width := 12, acc := .ro }
/-- MTR_VFS, chapter 07. -/
def Reg.MTR_VFS_VALUE : Fld :=
  { base := 0x800c0, stride := 1024, cnt := 64, lsb := 0, width := 32, acc := .ro }
/-- MTR_IFS, chapter 07. -/
def Reg.MTR_IFS_VALUE : Fld :=
  { base := 0x800c4, stride := 1024, cnt := 64, lsb := 0, width := 32, acc := .ro }
/-- MTR_GAIN_V, chapter 07. -/
def Reg.MTR_GAIN_V_VALUE : Fld :=
  { base := 0x800c8, stride := 1024, cnt := 64, lsb := 0, width := 32, acc := .ro }
/-- MTR_GAIN_I, chapter 07. -/
def Reg.MTR_GAIN_I_VALUE : Fld :=
  { base := 0x800cc, stride := 1024, cnt := 64, lsb := 0, width := 32, acc := .ro }
/-- MTR_OFS_V, chapter 07. -/
def Reg.MTR_OFS_V_VALUE : Fld :=
  { base := 0x800d0, stride := 1024, cnt := 64, lsb := 0, width := 32, acc := .ro }
/-- MTR_OFS_I, chapter 07. -/
def Reg.MTR_OFS_I_VALUE : Fld :=
  { base := 0x800d4, stride := 1024, cnt := 64, lsb := 0, width := 32, acc := .ro }
/-- BIL_STAT, chapter 08. -/
def Reg.BIL_STAT_EVT_CNT : Fld :=
  { base := 0xa0000, stride := 0, cnt := 1, lsb := 24, width := 8, acc := .rc }
def Reg.BIL_STAT_LS_FAIL : Fld :=
  { base := 0xa0000, stride := 0, cnt := 1, lsb := 11, width := 1, acc := .ro }
def Reg.BIL_STAT_SEALED : Fld :=
  { base := 0xa0000, stride := 0, cnt := 1, lsb := 10, width := 1, acc := .ro }
def Reg.BIL_STAT_TIME_BEHIND : Fld :=
  { base := 0xa0000, stride := 0, cnt := 1, lsb := 9, width := 1, acc := .ro }
def Reg.BIL_STAT_UNALIGNED : Fld :=
  { base := 0xa0000, stride := 0, cnt := 1, lsb := 8, width := 1, acc := .ro }
def Reg.BIL_STAT_MT_GAP : Fld :=
  { base := 0xa0000, stride := 0, cnt := 1, lsb := 6, width := 1, acc := .w1c }
def Reg.BIL_STAT_COPY_NEW : Fld :=
  { base := 0xa0000, stride := 0, cnt := 1, lsb := 5, width := 1, acc := .w1c }
def Reg.BIL_STAT_SAVE_FAIL : Fld :=
  { base := 0xa0000, stride := 0, cnt := 1, lsb := 4, width := 1, acc := .w1c }
def Reg.BIL_STAT_SHORT : Fld :=
  { base := 0xa0000, stride := 0, cnt := 1, lsb := 3, width := 1, acc := .w1c }
def Reg.BIL_STAT_PEND_DONE : Fld :=
  { base := 0xa0000, stride := 0, cnt := 1, lsb := 2, width := 1, acc := .w1c }
def Reg.BIL_STAT_STEP : Fld :=
  { base := 0xa0000, stride := 0, cnt := 1, lsb := 1, width := 1, acc := .w1c }
def Reg.BIL_STAT_PERIOD : Fld :=
  { base := 0xa0000, stride := 0, cnt := 1, lsb := 0, width := 1, acc := .w1c }
/-- BIL_TARIFF, chapter 08. -/
def Reg.BIL_TARIFF_SRC : Fld :=
  { base := 0xa0004, stride := 0, cnt := 1, lsb := 8, width := 2, acc := .ro }
def Reg.BIL_TARIFF_ACTIVE : Fld :=
  { base := 0xa0004, stride := 0, cnt := 1, lsb := 0, width := 4, acc := .ro }
/-- BIL_OVR, chapter 08. -/
def Reg.BIL_OVR_TARIFF : Fld :=
  { base := 0xa0008, stride := 0, cnt := 1, lsb := 4, width := 4, acc := .ro }
def Reg.BIL_OVR_ACTIVE : Fld :=
  { base := 0xa0008, stride := 0, cnt := 1, lsb := 1, width := 1, acc := .ro }
def Reg.BIL_OVR_PENDING : Fld :=
  { base := 0xa0008, stride := 0, cnt := 1, lsb := 0, width := 1, acc := .ro }
/-- BIL_OVR_START, chapter 08. -/
def Reg.BIL_OVR_START_SECONDS : Fld :=
  { base := 0xa000c, stride := 0, cnt := 1, lsb := 0, width := 32, acc := .ro }
/-- BIL_OVR_END, chapter 08. -/
def Reg.BIL_OVR_END_SECONDS : Fld :=
  { base := 0xa0010, stride := 0, cnt := 1, lsb := 0, width := 32, acc := .ro }
/-- BIL_PERIOD, chapter 08. -/
def Reg.BIL_PERIOD_NUMBER : Fld :=
  { base := 0xa0014, stride := 0, cnt := 1, lsb := 0, width := 32, acc := .ro }
/-- BIL_DEMAND, chapter 08. -/
def Reg.BIL_DEMAND_INDEX : Fld :=
  { base := 0xa0018, stride := 0, cnt := 1, lsb := 16, width := 16, acc := .ro }
def Reg.BIL_DEMAND_SHORT_RUN : Fld :=
  { base := 0xa0018, stride := 0, cnt := 1, lsb := 7, width := 1, acc := .ro }
def Reg.BIL_DEMAND_LENGTH : Fld :=
  { base := 0xa0018, stride := 0, cnt := 1, lsb := 0, width := 6, acc := .ro }
/-- BIL_WALL_LO, chapter 08. -/
def Reg.BIL_WALL_LO_MS : Fld :=
  { base := 0xa0020, stride := 0, cnt := 1, lsb := 0, width := 32, acc := .ro }
/-- BIL_WALL_HI, chapter 08. -/
def Reg.BIL_WALL_HI_MS : Fld :=
  { base := 0xa0024, stride := 0, cnt := 1, lsb := 0, width := 32, acc := .ro }
/-- BIL_MT_LO, chapter 08. -/
def Reg.BIL_MT_LO_MS : Fld :=
  { base := 0xa0028, stride := 0, cnt := 1, lsb := 0, width := 32, acc := .ro }
/-- BIL_MT_HI, chapter 08. -/
def Reg.BIL_MT_HI_MS : Fld :=
  { base := 0xa002c, stride := 0, cnt := 1, lsb := 0, width := 32, acc := .ro }
/-- BIL_SAVE, chapter 08. -/
def Reg.BIL_SAVE_AGE_MS : Fld :=
  { base := 0xa0030, stride := 0, cnt := 1, lsb := 16, width := 16, acc := .ro }
def Reg.BIL_SAVE_FAIL_CNT : Fld :=
  { base := 0xa0030, stride := 0, cnt := 1, lsb := 8, width := 8, acc := .ro }
def Reg.BIL_SAVE_COPY : Fld :=
  { base := 0xa0030, stride := 0, cnt := 1, lsb := 1, width := 1, acc := .ro }
def Reg.BIL_SAVE_FINAL : Fld :=
  { base := 0xa0030, stride := 0, cnt := 1, lsb := 0, width := 1, acc := .ro }
/-- BIL_LOSS, chapter 08. -/
def Reg.BIL_LOSS_BOUND : Fld :=
  { base := 0xa0034, stride := 0, cnt := 1, lsb := 8, width := 24, acc := .ro }
def Reg.BIL_LOSS_TAIL_MS : Fld :=
  { base := 0xa0034, stride := 0, cnt := 1, lsb := 0, width := 8, acc := .ro }
/-- BIL_CMD_CTR, chapter 08. -/
def Reg.BIL_CMD_CTR_VALUE : Fld :=
  { base := 0xa0038, stride := 0, cnt := 1, lsb := 0, width := 32, acc := .ro }
/-- BIL_KSR, chapter 08. -/
def Reg.BIL_KSR_VALUE : Fld :=
  { base := 0xa003c, stride := 0, cnt := 1, lsb := 0, width := 32, acc := .ro }
/-- BIL_LEGAL, chapter 08. -/
def Reg.BIL_LEGAL_QUEUE : Fld :=
  { base := 0xa0040, stride := 0, cnt := 1, lsb := 16, width := 5, acc := .ro }
def Reg.BIL_LEGAL_ITEM : Fld :=
  { base := 0xa0040, stride := 0, cnt := 1, lsb := 8, width := 8, acc := .ro, rst := 255 }
def Reg.BIL_LEGAL_BAY : Fld :=
  { base := 0xa0040, stride := 0, cnt := 1, lsb := 4, width := 4, acc := .ro }
def Reg.BIL_LEGAL_RUNNING : Fld :=
  { base := 0xa0040, stride := 0, cnt := 1, lsb := 0, width := 1, acc := .ro }
/-- BAY_CFG, chapter 09. -/
def Reg.BAY_CFG_TYPE : Fld :=
  { base := 0x100000, stride := 4096, cnt := 16, lsb := 30, width := 2, acc := .ro }
def Reg.BAY_CFG_PP_MODE : Fld :=
  { base := 0x100000, stride := 4096, cnt := 16, lsb := 29, width := 1, acc := .ro }
def Reg.BAY_CFG_WSEN_POL : Fld :=
  { base := 0x100000, stride := 4096, cnt := 16, lsb := 28, width := 1, acc := .ro }
def Reg.BAY_CFG_BIDIR : Fld :=
  { base := 0x100000, stride := 4096, cnt := 16, lsb := 27, width := 1, acc := .ro }
def Reg.BAY_CFG_ALLOW_D : Fld :=
  { base := 0x100000, stride := 4096, cnt := 16, lsb := 26, width := 1, acc := .ro }
def Reg.BAY_CFG_HLC : Fld :=
  { base := 0x100000, stride := 4096, cnt := 16, lsb := 24, width := 2, acc := .ro }
def Reg.BAY_CFG_FREE : Fld :=
  { base := 0x100000, stride := 4096, cnt := 16, lsb := 23, width := 1, acc := .ro }
def Reg.BAY_CFG_COIL_CH : Fld :=
  { base := 0x100000, stride := 4096, cnt := 16, lsb := 16, width := 6, acc := .ro }
def Reg.BAY_CFG_LOCK_CH : Fld :=
  { base := 0x100000, stride := 4096, cnt := 16, lsb := 8, width := 8, acc := .ro }
def Reg.BAY_CFG_LOCK_FB : Fld :=
  { base := 0x100000, stride := 4096, cnt := 16, lsb := 4, width := 4, acc := .ro }
/-- BAY_LIM, chapter 09. -/
def Reg.BAY_LIM_IMAX : Fld :=
  { base := 0x100004, stride := 4096, cnt := 16, lsb := 16, width := 16, acc := .ro }
def Reg.BAY_LIM_IDEF : Fld :=
  { base := 0x100004, stride := 4096, cnt := 16, lsb := 0, width := 16, acc := .ro }
/-- BAY_TIM0, chapter 09. -/
def Reg.BAY_TIM0_T_CLOSE : Fld :=
  { base := 0x100008, stride := 4096, cnt := 16, lsb := 23, width := 9, acc := .ro }
def Reg.BAY_TIM0_T_OPEN : Fld :=
  { base := 0x100008, stride := 4096, cnt := 16, lsb := 14, width := 9, acc := .ro }
def Reg.BAY_TIM0_T_LOCK : Fld :=
  { base := 0x100008, stride := 4096, cnt := 16, lsb := 0, width := 13, acc := .ro }
/-- BAY_TIM1, chapter 09. -/
def Reg.BAY_TIM1_T_STOP : Fld :=
  { base := 0x10000c, stride := 4096, cnt := 16, lsb := 18, width := 14, acc := .ro }
def Reg.BAY_TIM1_CABLE_A : Fld :=
  { base := 0x10000c, stride := 4096, cnt := 16, lsb := 12, width := 6, acc := .ro }
def Reg.BAY_TIM1_T_AUTH : Fld :=
  { base := 0x10000c, stride := 4096, cnt := 16, lsb := 0, width := 12, acc := .ro }
/-- BAY_TIM2, chapter 09. -/
def Reg.BAY_TIM2_PAUSE_MAX : Fld :=
  { base := 0x100010, stride := 4096, cnt := 16, lsb := 0, width := 11, acc := .ro }
/-- BAY_SEQ, chapter 09. -/
def Reg.BAY_SEQ_SEQ : Fld :=
  { base := 0x100020, stride := 4096, cnt := 16, lsb := 0, width := 32, acc := .ro }
/-- BAY_PILOT, chapter 09. -/
def Reg.BAY_PILOT_VHIGH : Fld :=
  { base := 0x100024, stride := 4096, cnt := 16, lsb := 16, width := 16, acc := .ro }
def Reg.BAY_PILOT_VLOW : Fld :=
  { base := 0x100024, stride := 4096, cnt := 16, lsb := 0, width := 16, acc := .ro }
/-- BAY_PSTAT, chapter 09. -/
def Reg.BAY_PSTAT_REC : Fld :=
  { base := 0x100028, stride := 4096, cnt := 16, lsb := 29, width := 3, acc := .ro }
def Reg.BAY_PSTAT_RAW : Fld :=
  { base := 0x100028, stride := 4096, cnt := 16, lsb := 26, width := 3, acc := .ro }
def Reg.BAY_PSTAT_MODE : Fld :=
  { base := 0x100028, stride := 4096, cnt := 16, lsb := 24, width := 2, acc := .ro }
def Reg.BAY_PSTAT_SLEWING : Fld :=
  { base := 0x100028, stride := 4096, cnt := 16, lsb := 23, width := 1, acc := .ro }
def Reg.BAY_PSTAT_DUTY : Fld :=
  { base := 0x100028, stride := 4096, cnt := 16, lsb := 0, width := 11, acc := .ro }
/-- BAY_PROX, chapter 09. -/
def Reg.BAY_PROX_CODE : Fld :=
  { base := 0x10002c, stride := 4096, cnt := 16, lsb := 29, width := 3, acc := .ro }
def Reg.BAY_PROX_OHM : Fld :=
  { base := 0x10002c, stride := 4096, cnt := 16, lsb := 0, width := 16, acc := .ro }
/-- BAY_FB, chapter 09. -/
def Reg.BAY_FB_LOCKED : Fld :=
  { base := 0x100030, stride := 4096, cnt := 16, lsb := 8, width := 1, acc := .ro }
def Reg.BAY_FB_GRANT : Fld :=
  { base := 0x100030, stride := 4096, cnt := 16, lsb := 7, width := 1, acc := .ro }
def Reg.BAY_FB_GATE : Fld :=
  { base := 0x100030, stride := 4096, cnt := 16, lsb := 6, width := 1, acc := .ro }
def Reg.BAY_FB_WSEN : Fld :=
  { base := 0x100030, stride := 4096, cnt := 16, lsb := 5, width := 1, acc := .ro }
def Reg.BAY_FB_WELD_OK : Fld :=
  { base := 0x100030, stride := 4096, cnt := 16, lsb := 4, width := 1, acc := .ro }
def Reg.BAY_FB_SAFE_OK : Fld :=
  { base := 0x100030, stride := 4096, cnt := 16, lsb := 3, width := 1, acc := .ro }
def Reg.BAY_FB_PROT_OK : Fld :=
  { base := 0x100030, stride := 4096, cnt := 16, lsb := 2, width := 1, acc := .ro }
def Reg.BAY_FB_PILOT_OK : Fld :=
  { base := 0x100030, stride := 4096, cnt := 16, lsb := 1, width := 1, acc := .ro }
def Reg.BAY_FB_ENABLED : Fld :=
  { base := 0x100030, stride := 4096, cnt := 16, lsb := 0, width := 1, acc := .ro }
/-- BAY_EVT, chapter 09. -/
def Reg.BAY_EVT_EVT_CNT : Fld :=
  { base := 0x100040, stride := 4096, cnt := 16, lsb := 24, width := 8, acc := .rc }
def Reg.BAY_EVT_CMD_DROP : Fld :=
  { base := 0x100040, stride := 4096, cnt := 16, lsb := 9, width := 1, acc := .w1c }
def Reg.BAY_EVT_HLC_FB : Fld :=
  { base := 0x100040, stride := 4096, cnt := 16, lsb := 8, width := 1, acc := .w1c }
def Reg.BAY_EVT_UNDER_LOAD : Fld :=
  { base := 0x100040, stride := 4096, cnt := 16, lsb := 7, width := 1, acc := .w1c }
def Reg.BAY_EVT_GRANT_REF : Fld :=
  { base := 0x100040, stride := 4096, cnt := 16, lsb := 6, width := 1, acc := .w1c }
def Reg.BAY_EVT_CLOSE_FAIL : Fld :=
  { base := 0x100040, stride := 4096, cnt := 16, lsb := 5, width := 1, acc := .w1c }
def Reg.BAY_EVT_WELD : Fld :=
  { base := 0x100040, stride := 4096, cnt := 16, lsb := 4, width := 1, acc := .w1c }
def Reg.BAY_EVT_LOCK_FAIL : Fld :=
  { base := 0x100040, stride := 4096, cnt := 16, lsb := 3, width := 1, acc := .w1c }
def Reg.BAY_EVT_PILOT_FAULT : Fld :=
  { base := 0x100040, stride := 4096, cnt := 16, lsb := 2, width := 1, acc := .w1c }
def Reg.BAY_EVT_PP_FAULT : Fld :=
  { base := 0x100040, stride := 4096, cnt := 16, lsb := 1, width := 1, acc := .w1c }
def Reg.BAY_EVT_SESS_END : Fld :=
  { base := 0x100040, stride := 4096, cnt := 16, lsb := 0, width := 1, acc := .w1c }
/-- BAY_STATE, chapter 09. -/
def Reg.BAY_STATE_REASON : Fld :=
  { base := 0x100044, stride := 4096, cnt := 16, lsb := 24, width := 8, acc := .ro }
def Reg.BAY_STATE_CLOSING_H : Fld :=
  { base := 0x100044, stride := 4096, cnt := 16, lsb := 14, width := 1, acc := .ro }
def Reg.BAY_STATE_PAUSED_H : Fld :=
  { base := 0x100044, stride := 4096, cnt := 16, lsb := 13, width := 1, acc := .ro }
def Reg.BAY_STATE_ACTIVE_H : Fld :=
  { base := 0x100044, stride := 4096, cnt := 16, lsb := 12, width := 1, acc := .ro }
def Reg.BAY_STATE_STATE : Fld :=
  { base := 0x100044, stride := 4096, cnt := 16, lsb := 0, width := 4, acc := .ro }
/-- BAY_SESS, chapter 09. -/
def Reg.BAY_SESS_NUMBER : Fld :=
  { base := 0x100048, stride := 4096, cnt := 16, lsb := 0, width := 32, acc := .ro }
/-- BAY_LIFE, chapter 09. -/
def Reg.BAY_LIFE_LOADBRK : Fld :=
  { base := 0x10004c, stride := 4096, cnt := 16, lsb := 16, width := 16, acc := .ro, home := .backup, snap := true }
def Reg.BAY_LIFE_WELD : Fld :=
  { base := 0x10004c, stride := 4096, cnt := 16, lsb := 8, width := 8, acc := .ro, home := .backup, snap := true }
def Reg.BAY_LIFE_CLOSEF : Fld :=
  { base := 0x10004c, stride := 4096, cnt := 16, lsb := 0, width := 8, acc := .ro, home := .backup, snap := true }
/-- BAY_OFFER, chapter 09. -/
def Reg.BAY_OFFER_EFF : Fld :=
  { base := 0x100050, stride := 4096, cnt := 16, lsb := 16, width := 16, acc := .ro }
def Reg.BAY_OFFER_OFFER : Fld :=
  { base := 0x100050, stride := 4096, cnt := 16, lsb := 0, width := 16, acc := .rw }
/-- BAY_CMD, chapter 09. -/
def Reg.BAY_CMD_CMD : Fld :=
  { base := 0x100054, stride := 4096, cnt := 16, lsb := 0, width := 8, acc := .wo }
/-- BAY_PWM_SH, chapter 09. -/
def Reg.BAY_PWM_SH_MODE : Fld :=
  { base := 0x100060, stride := 4096, cnt := 16, lsb := 16, width := 2, acc := .rws }
def Reg.BAY_PWM_SH_DUTY : Fld :=
  { base := 0x100060, stride := 4096, cnt := 16, lsb := 0, width := 11, acc := .rws }
/-- BAY_PWM_CMT, chapter 09. -/
def Reg.BAY_PWM_CMT_GO : Fld :=
  { base := 0x100064, stride := 4096, cnt := 16, lsb := 0, width := 1, acc := .wo }
/-- BAY_DC_CFG, chapter 09. -/
def Reg.BAY_DC_CFG_PORT : Fld :=
  { base := 0x100070, stride := 4096, cnt := 16, lsb := 31, width := 1, acc := .ro }
def Reg.BAY_DC_CFG_NODE : Fld :=
  { base := 0x100070, stride := 4096, cnt := 16, lsb := 27, width := 4, acc := .ro }
def Reg.BAY_DC_CFG_NBR : Fld :=
  { base := 0x100070, stride := 4096, cnt := 16, lsb := 25, width := 2, acc := .ro }
def Reg.BAY_DC_CFG_DBR : Fld :=
  { base := 0x100070, stride := 4096, cnt := 16, lsb := 23, width := 2, acc := .ro }
def Reg.BAY_DC_CFG_VMAX : Fld :=
  { base := 0x100070, stride := 4096, cnt := 16, lsb := 12, width := 11, acc := .ro }
def Reg.BAY_DC_CFG_PMAX : Fld :=
  { base := 0x100070, stride := 4096, cnt := 16, lsb := 0, width := 12, acc := .ro }
/-- BAY_DC_STAT, chapter 09. -/
def Reg.BAY_DC_STAT_STATE : Fld :=
  { base := 0x100074, stride := 4096, cnt := 16, lsb := 24, width := 8, acc := .ro }
def Reg.BAY_DC_STAT_FAULT : Fld :=
  { base := 0x100074, stride := 4096, cnt := 16, lsb := 16, width := 8, acc := .ro }
def Reg.BAY_DC_STAT_CODE : Fld :=
  { base := 0x100074, stride := 4096, cnt := 16, lsb := 8, width := 8, acc := .ro }
def Reg.BAY_DC_STAT_LOST : Fld :=
  { base := 0x100074, stride := 4096, cnt := 16, lsb := 1, width := 1, acc := .w1c }
def Reg.BAY_DC_STAT_ONLINE : Fld :=
  { base := 0x100074, stride := 4096, cnt := 16, lsb := 0, width := 1, acc := .ro }
/-- BAY_DC_MEAS, chapter 09. -/
def Reg.BAY_DC_MEAS_V_OUT : Fld :=
  { base := 0x100078, stride := 4096, cnt := 16, lsb := 16, width := 16, acc := .ro }
def Reg.BAY_DC_MEAS_I_OUT : Fld :=
  { base := 0x100078, stride := 4096, cnt := 16, lsb := 0, width := 16, acc := .ro }
/-- BAY_DC_ERR, chapter 09. -/
def Reg.BAY_DC_ERR_CRC : Fld :=
  { base := 0x10007c, stride := 4096, cnt := 16, lsb := 16, width := 16, acc := .rc }
def Reg.BAY_DC_ERR_CNT : Fld :=
  { base := 0x10007c, stride := 4096, cnt := 16, lsb := 0, width := 16, acc := .rc }
/-- PRT_STAT, chapter 10. -/
def Reg.PRT_STAT_EVT_CNT : Fld :=
  { base := 0x120000, stride := 0, cnt := 1, lsb := 24, width := 8, acc := .rc }
def Reg.PRT_STAT_MCLK_BLIND : Fld :=
  { base := 0x120000, stride := 0, cnt := 1, lsb := 4, width := 1, acc := .ro }
def Reg.PRT_STAT_CLR_REF : Fld :=
  { base := 0x120000, stride := 0, cnt := 1, lsb := 3, width := 1, acc := .w1c }
def Reg.PRT_STAT_AUTO_CLR : Fld :=
  { base := 0x120000, stride := 0, cnt := 1, lsb := 2, width := 1, acc := .w1c }
def Reg.PRT_STAT_BLIND_ANY : Fld :=
  { base := 0x120000, stride := 0, cnt := 1, lsb := 1, width := 1, acc := .ro }
def Reg.PRT_STAT_LATCH_ANY : Fld :=
  { base := 0x120000, stride := 0, cnt := 1, lsb := 0, width := 1, acc := .ro }
/-- PRT_SEQ, chapter 10. -/
def Reg.PRT_SEQ_SEQ : Fld :=
  { base := 0x120004, stride := 0, cnt := 1, lsb := 0, width := 32, acc := .ro }
/-- PRT_LATCH, chapter 10. -/
def Reg.PRT_LATCH_LATCHED : Fld :=
  { base := 0x120008, stride := 0, cnt := 1, lsb := 0, width := 17, acc := .ro }
/-- PRT_EVT, chapter 10. -/
def Reg.PRT_EVT_TRIP : Fld :=
  { base := 0x12000c, stride := 0, cnt := 1, lsb := 0, width := 17, acc := .w1c }
/-- PRT_CLR, chapter 10. -/
def Reg.PRT_CLR_KINDS : Fld :=
  { base := 0x120010, stride := 0, cnt := 1, lsb := 8, width := 6, acc := .wo }
def Reg.PRT_CLR_GO : Fld :=
  { base := 0x120010, stride := 0, cnt := 1, lsb := 7, width := 1, acc := .wo }
def Reg.PRT_CLR_INST : Fld :=
  { base := 0x120010, stride := 0, cnt := 1, lsb := 0, width := 5, acc := .wo }
/-- PRT_FDR, chapter 10. -/
def Reg.PRT_FDR_ALLOC : Fld :=
  { base := 0x120020, stride := 0, cnt := 1, lsb := 16, width := 16, acc := .ro }
def Reg.PRT_FDR_FEED_A : Fld :=
  { base := 0x120020, stride := 0, cnt := 1, lsb := 0, width := 16, acc := .ro }
/-- PRT_CFG, chapter 10. -/
def Reg.PRT_CFG_DC_EN : Fld :=
  { base := 0x121000, stride := 32, cnt := 17, lsb := 28, width := 1, acc := .ro }
def Reg.PRT_CFG_AUTO : Fld :=
  { base := 0x121000, stride := 32, cnt := 17, lsb := 26, width := 2, acc := .ro }
def Reg.PRT_CFG_IAN_LO : Fld :=
  { base := 0x121000, stride := 32, cnt := 17, lsb := 12, width := 12, acc := .ro }
def Reg.PRT_CFG_IAN_DECK : Fld :=
  { base := 0x121000, stride := 32, cnt := 17, lsb := 0, width := 12, acc := .ro }
/-- PRT_IAN, chapter 10. -/
def Reg.PRT_IAN_IAN : Fld :=
  { base := 0x121004, stride := 32, cnt := 17, lsb := 0, width := 12, acc := .rws }
/-- PRT_RES, chapter 10. -/
def Reg.PRT_RES_AC : Fld :=
  { base := 0x121008, stride := 32, cnt := 17, lsb := 16, width := 16, acc := .ro }
def Reg.PRT_RES_DC : Fld :=
  { base := 0x121008, stride := 32, cnt := 17, lsb := 0, width := 16, acc := .ro }
/-- PRT_OC, chapter 10. -/
def Reg.PRT_OC_IPK : Fld :=
  { base := 0x12100c, stride := 32, cnt := 17, lsb := 16, width := 16, acc := .ro }
def Reg.PRT_OC_LIM : Fld :=
  { base := 0x12100c, stride := 32, cnt := 17, lsb := 0, width := 16, acc := .ro }
/-- PRT_RED, chapter 10. -/
def Reg.PRT_RED_CAP : Fld :=
  { base := 0x121010, stride := 32, cnt := 17, lsb := 16, width := 16, acc := .ro, rst := 65535 }
def Reg.PRT_RED_BELOW_S : Fld :=
  { base := 0x121010, stride := 32, cnt := 17, lsb := 0, width := 16, acc := .ro }
/-- PRT_INS, chapter 10. -/
def Reg.PRT_INS_RISO : Fld :=
  { base := 0x121014, stride := 32, cnt := 17, lsb := 16, width := 16, acc := .ro }
def Reg.PRT_INS_STATE : Fld :=
  { base := 0x121014, stride := 32, cnt := 17, lsb := 2, width := 2, acc := .ro }
def Reg.PRT_INS_INJ : Fld :=
  { base := 0x121014, stride := 32, cnt := 17, lsb := 1, width := 1, acc := .ro }
def Reg.PRT_INS_CHECK : Fld :=
  { base := 0x121014, stride := 32, cnt := 17, lsb := 0, width := 1, acc := .ro }
/-- PRT_LAT, chapter 10. -/
def Reg.PRT_LAT_AUTO_CNT : Fld :=
  { base := 0x121018, stride := 32, cnt := 17, lsb := 24, width := 8, acc := .ro, home := .backup }
def Reg.PRT_LAT_KINDS : Fld :=
  { base := 0x121018, stride := 32, cnt := 17, lsb := 0, width := 6, acc := .ro, home := .backup }
/-- PRT_LIFE, chapter 10. -/
def Reg.PRT_LIFE_RAC : Fld :=
  { base := 0x12101c, stride := 32, cnt := 17, lsb := 24, width := 8, acc := .ro, home := .backup, snap := true }
def Reg.PRT_LIFE_RDC : Fld :=
  { base := 0x12101c, stride := 32, cnt := 17, lsb := 16, width := 8, acc := .ro, home := .backup, snap := true }
def Reg.PRT_LIFE_OC : Fld :=
  { base := 0x12101c, stride := 32, cnt := 17, lsb := 8, width := 8, acc := .ro, home := .backup, snap := true }
def Reg.PRT_LIFE_INS : Fld :=
  { base := 0x12101c, stride := 32, cnt := 17, lsb := 0, width := 8, acc := .ro, home := .backup, snap := true }
/-- LNK_STAT, chapter 11. -/
def Reg.LNK_STAT_EVT_CNT : Fld :=
  { base := 0x140000, stride := 0, cnt := 1, lsb := 24, width := 8, acc := .rc }
def Reg.LNK_STAT_FAILED : Fld :=
  { base := 0x140000, stride := 0, cnt := 1, lsb := 0, width := 17, acc := .ro }
/-- LNK_TEST, chapter 11. -/
def Reg.LNK_TEST_GO : Fld :=
  { base := 0x140004, stride := 0, cnt := 1, lsb := 31, width := 1, acc := .wo }
def Reg.LNK_TEST_RUNNING : Fld :=
  { base := 0x140004, stride := 0, cnt := 1, lsb := 17, width := 1, acc := .ro }
def Reg.LNK_TEST_PASS : Fld :=
  { base := 0x140004, stride := 0, cnt := 1, lsb := 0, width := 17, acc := .ro }
/-- LNK_MASK, chapter 11. -/
def Reg.LNK_MASK_MASK_IDX : Fld :=
  { base := 0x140008, stride := 0, cnt := 1, lsb := 0, width := 2, acc := .ro }
/-- LNK_VSTAT, chapter 11. -/
def Reg.LNK_VSTAT_STATE : Fld :=
  { base := 0x141000, stride := 32, cnt := 16, lsb := 28, width := 4, acc := .ro }
def Reg.LNK_VSTAT_PROTO : Fld :=
  { base := 0x141000, stride := 32, cnt := 16, lsb := 26, width := 2, acc := .ro }
def Reg.LNK_VSTAT_TLS : Fld :=
  { base := 0x141000, stride := 32, cnt := 16, lsb := 25, width := 1, acc := .ro }
def Reg.LNK_VSTAT_PNC : Fld :=
  { base := 0x141000, stride := 32, cnt := 16, lsb := 24, width := 1, acc := .ro }
def Reg.LNK_VSTAT_ATTEN : Fld :=
  { base := 0x141000, stride := 32, cnt := 16, lsb := 16, width := 8, acc := .ro }
def Reg.LNK_VSTAT_TRY : Fld :=
  { base := 0x141000, stride := 32, cnt := 16, lsb := 8, width := 8, acc := .ro }
/-- LNK_VATT, chapter 11. -/
def Reg.LNK_VATT_APPLIED : Fld :=
  { base := 0x141004, stride := 32, cnt := 16, lsb := 16, width := 6, acc := .ro }
def Reg.LNK_VATT_ATT : Fld :=
  { base := 0x141004, stride := 32, cnt := 16, lsb := 0, width := 6, acc := .rws }
/-- LNK_CATT, chapter 11. -/
def Reg.LNK_CATT_APPLIED : Fld :=
  { base := 0x142008, stride := 0, cnt := 1, lsb := 16, width := 6, acc := .ro }
def Reg.LNK_CATT_ATT : Fld :=
  { base := 0x142008, stride := 0, cnt := 1, lsb := 0, width := 6, acc := .rws }
/-- LNK_VCNT, chapter 11. -/
def Reg.LNK_VCNT_RX : Fld :=
  { base := 0x141008, stride := 32, cnt := 16, lsb := 16, width := 16, acc := .rc }
def Reg.LNK_VCNT_ERR : Fld :=
  { base := 0x141008, stride := 32, cnt := 16, lsb := 0, width := 16, acc := .rc }
/-- LNK_VEVT, chapter 11. -/
def Reg.LNK_VEVT_SLAC_DUP : Fld :=
  { base := 0x14100c, stride := 32, cnt := 16, lsb := 4, width := 1, acc := .w1c }
def Reg.LNK_VEVT_PROTO_ERR : Fld :=
  { base := 0x14100c, stride := 32, cnt := 16, lsb := 3, width := 1, acc := .w1c }
def Reg.LNK_VEVT_TLS_FAIL : Fld :=
  { base := 0x14100c, stride := 32, cnt := 16, lsb := 2, width := 1, acc := .w1c }
def Reg.LNK_VEVT_LINK_LOSS : Fld :=
  { base := 0x14100c, stride := 32, cnt := 16, lsb := 1, width := 1, acc := .w1c }
def Reg.LNK_VEVT_SLAC_FAIL : Fld :=
  { base := 0x14100c, stride := 32, cnt := 16, lsb := 0, width := 1, acc := .w1c }
/-- LNK_VPEER_LO, chapter 11. -/
def Reg.LNK_VPEER_LO_MAC_LO : Fld :=
  { base := 0x141010, stride := 32, cnt := 16, lsb := 0, width := 32, acc := .ro }
/-- LNK_VPEER_HI, chapter 11. -/
def Reg.LNK_VPEER_HI_MAC_HI : Fld :=
  { base := 0x141014, stride := 32, cnt := 16, lsb := 0, width := 16, acc := .ro }
/-- LNK_CSTAT, chapter 11. -/
def Reg.LNK_CSTAT_ROLE : Fld :=
  { base := 0x142000, stride := 0, cnt := 1, lsb := 29, width := 3, acc := .ro }
def Reg.LNK_CSTAT_POS_UNKNOWN : Fld :=
  { base := 0x142000, stride := 0, cnt := 1, lsb := 28, width := 1, acc := .ro, home := .backup }
def Reg.LNK_CSTAT_CHAIN_IN : Fld :=
  { base := 0x142000, stride := 0, cnt := 1, lsb := 27, width := 1, acc := .ro }
def Reg.LNK_CSTAT_CHAIN_OUT : Fld :=
  { base := 0x142000, stride := 0, cnt := 1, lsb := 26, width := 1, acc := .ro }
def Reg.LNK_CSTAT_ADDR : Fld :=
  { base := 0x142000, stride := 0, cnt := 1, lsb := 16, width := 6, acc := .ro, home := .backup }
def Reg.LNK_CSTAT_COORD : Fld :=
  { base := 0x142000, stride := 0, cnt := 1, lsb := 8, width := 6, acc := .ro }
def Reg.LNK_CSTAT_CHAIN_ID : Fld :=
  { base := 0x142000, stride := 0, cnt := 1, lsb := 0, width := 8, acc := .ro }
/-- LNK_CCFG, chapter 11. -/
def Reg.LNK_CCFG_PRIORITY : Fld :=
  { base := 0x142004, stride := 0, cnt := 1, lsb := 24, width := 8, acc := .ro }
def Reg.LNK_CCFG_MODE : Fld :=
  { base := 0x142004, stride := 0, cnt := 1, lsb := 22, width := 2, acc := .ro }
def Reg.LNK_CCFG_POSITION : Fld :=
  { base := 0x142004, stride := 0, cnt := 1, lsb := 20, width := 2, acc := .ro }
def Reg.LNK_CCFG_RELAY_EN : Fld :=
  { base := 0x142004, stride := 0, cnt := 1, lsb := 19, width := 1, acc := .ro }
def Reg.LNK_CCFG_SLOT_SYM : Fld :=
  { base := 0x142004, stride := 0, cnt := 1, lsb := 8, width := 8, acc := .ro }
def Reg.LNK_CCFG_INTLV_SYM : Fld :=
  { base := 0x142004, stride := 0, cnt := 1, lsb := 0, width := 7, acc := .ro }
/-- LNK_CALLOC, chapter 11. -/
def Reg.LNK_CALLOC_APPLIED : Fld :=
  { base := 0x14200c, stride := 0, cnt := 1, lsb := 16, width := 16, acc := .ro }
def Reg.LNK_CALLOC_RECEIVED : Fld :=
  { base := 0x14200c, stride := 0, cnt := 1, lsb := 0, width := 16, acc := .ro }
/-- LNK_CBUDGET, chapter 11. -/
def Reg.LNK_CBUDGET_BUDGET : Fld :=
  { base := 0x142010, stride := 0, cnt := 1, lsb := 16, width := 16, acc := .ro }
def Reg.LNK_CBUDGET_SRC : Fld :=
  { base := 0x142010, stride := 0, cnt := 1, lsb := 14, width := 2, acc := .ro }
def Reg.LNK_CBUDGET_POSTS : Fld :=
  { base := 0x142010, stride := 0, cnt := 1, lsb := 0, width := 6, acc := .ro }
/-- LNK_CEVT, chapter 11. -/
def Reg.LNK_CEVT_BUDGET_MISM : Fld :=
  { base := 0x142014, stride := 0, cnt := 1, lsb := 7, width := 1, acc := .w1c }
def Reg.LNK_CEVT_ADDR_MOVED : Fld :=
  { base := 0x142014, stride := 0, cnt := 1, lsb := 6, width := 1, acc := .w1c }
def Reg.LNK_CEVT_JOIN_REF : Fld :=
  { base := 0x142014, stride := 0, cnt := 1, lsb := 5, width := 1, acc := .w1c }
def Reg.LNK_CEVT_AUTH_ERR : Fld :=
  { base := 0x142014, stride := 0, cnt := 1, lsb := 4, width := 1, acc := .w1c }
def Reg.LNK_CEVT_DROP : Fld :=
  { base := 0x142014, stride := 0, cnt := 1, lsb := 3, width := 1, acc := .w1c }
def Reg.LNK_CEVT_YIELD : Fld :=
  { base := 0x142014, stride := 0, cnt := 1, lsb := 2, width := 1, acc := .w1c }
def Reg.LNK_CEVT_ELECTED : Fld :=
  { base := 0x142014, stride := 0, cnt := 1, lsb := 1, width := 1, acc := .w1c }
def Reg.LNK_CEVT_BEACON_LOSS : Fld :=
  { base := 0x142014, stride := 0, cnt := 1, lsb := 0, width := 1, acc := .w1c }
/-- LNK_CCNT, chapter 11. -/
def Reg.LNK_CCNT_DROP : Fld :=
  { base := 0x142018, stride := 0, cnt := 1, lsb := 24, width := 8, acc := .rc }
def Reg.LNK_CCNT_RETRY : Fld :=
  { base := 0x142018, stride := 0, cnt := 1, lsb := 16, width := 8, acc := .rc }
def Reg.LNK_CCNT_CRC : Fld :=
  { base := 0x142018, stride := 0, cnt := 1, lsb := 0, width := 16, acc := .rc }
/-- LNK_CLIFE, chapter 11. -/
def Reg.LNK_CLIFE_ELECT : Fld :=
  { base := 0x14201c, stride := 0, cnt := 1, lsb := 16, width := 16, acc := .ro, home := .backup, snap := true }
def Reg.LNK_CLIFE_LOSS : Fld :=
  { base := 0x14201c, stride := 0, cnt := 1, lsb := 0, width := 16, acc := .ro, home := .backup, snap := true }
/-- LNK_CCMD, chapter 11. -/
def Reg.LNK_CCMD_CMD : Fld :=
  { base := 0x142020, stride := 0, cnt := 1, lsb := 0, width := 8, acc := .wo }
/-- LNK_CROSTER, chapter 11. -/
def Reg.LNK_CROSTER_PRESENT : Fld :=
  { base := 0x142104, stride := 4, cnt := 62, lsb := 31, width := 1, acc := .ro }
def Reg.LNK_CROSTER_HELD : Fld :=
  { base := 0x142104, stride := 4, cnt := 62, lsb := 16, width := 15, acc := .ro }
def Reg.LNK_CROSTER_ALLOC : Fld :=
  { base := 0x142104, stride := 4, cnt := 62, lsb := 0, width := 16, acc := .ro }
/-- LSW_STAT, chapter 12. -/
def Reg.LSW_STAT_EVT_CNT : Fld :=
  { base := 0x160000, stride := 0, cnt := 1, lsb := 24, width := 8, acc := .rc }
def Reg.LSW_STAT_CLR_VOID : Fld :=
  { base := 0x160000, stride := 0, cnt := 1, lsb := 4, width := 1, acc := .w1c }
def Reg.LSW_STAT_SHED_EV : Fld :=
  { base := 0x160000, stride := 0, cnt := 1, lsb := 3, width := 1, acc := .w1c }
def Reg.LSW_STAT_TEST_DONE : Fld :=
  { base := 0x160000, stride := 0, cnt := 1, lsb := 2, width := 1, acc := .w1c }
def Reg.LSW_STAT_LATCH_ANY : Fld :=
  { base := 0x160000, stride := 0, cnt := 1, lsb := 1, width := 1, acc := .ro }
def Reg.LSW_STAT_FAULT_ANY : Fld :=
  { base := 0x160000, stride := 0, cnt := 1, lsb := 0, width := 1, acc := .ro }
/-- LSW_FLT, chapter 12. -/
def Reg.LSW_FLT_ANY : Fld :=
  { base := 0x160004, stride := 4, cnt := 2, lsb := 0, width := 32, acc := .ro }
/-- LSW_CLR, chapter 12. -/
def Reg.LSW_CLR_GO : Fld :=
  { base := 0x160010, stride := 0, cnt := 1, lsb := 31, width := 1, acc := .wo }
def Reg.LSW_CLR_CH : Fld :=
  { base := 0x160010, stride := 0, cnt := 1, lsb := 0, width := 6, acc := .wo }
/-- LSW_TEST, chapter 12. -/
def Reg.LSW_TEST_GO : Fld :=
  { base := 0x160014, stride := 0, cnt := 1, lsb := 31, width := 1, acc := .wo }
def Reg.LSW_TEST_RUNNING : Fld :=
  { base := 0x160014, stride := 0, cnt := 1, lsb := 16, width := 1, acc := .ro }
/-- LSW_BANK, chapter 12. -/
def Reg.LSW_BANK_I_MA : Fld :=
  { base := 0x160020, stride := 4, cnt := 6, lsb := 16, width := 16, acc := .ro, snap := true }
def Reg.LSW_BANK_SHED_CNT : Fld :=
  { base := 0x160020, stride := 4, cnt := 6, lsb := 8, width := 8, acc := .rc }
def Reg.LSW_BANK_OVL : Fld :=
  { base := 0x160020, stride := 4, cnt := 6, lsb := 0, width := 1, acc := .ro }
/-- LSW_LINE, chapter 12. -/
def Reg.LSW_LINE_MODE : Fld :=
  { base := 0x160100, stride := 4, cnt := 48, lsb := 30, width := 2, acc := .rw }
def Reg.LSW_LINE_LEVEL : Fld :=
  { base := 0x160100, stride := 4, cnt := 48, lsb := 29, width := 1, acc := .ro }
def Reg.LSW_LINE_OFF_T : Fld :=
  { base := 0x160100, stride := 4, cnt := 48, lsb := 16, width := 10, acc := .rw }
def Reg.LSW_LINE_ON_T : Fld :=
  { base := 0x160100, stride := 4, cnt := 48, lsb := 0, width := 10, acc := .rw }
/-- LSW_CFG, chapter 12. -/
def Reg.LSW_CFG_KIND : Fld :=
  { base := 0x161000, stride := 32, cnt := 48, lsb := 30, width := 2, acc := .ro }
def Reg.LSW_CFG_SRC_IDX : Fld :=
  { base := 0x161000, stride := 32, cnt := 48, lsb := 24, width := 6, acc := .ro }
def Reg.LSW_CFG_INVERT : Fld :=
  { base := 0x161000, stride := 32, cnt := 48, lsb := 23, width := 1, acc := .ro }
def Reg.LSW_CFG_FUNC : Fld :=
  { base := 0x161000, stride := 32, cnt := 48, lsb := 20, width := 3, acc := .ro }
def Reg.LSW_CFG_POLICY : Fld :=
  { base := 0x161000, stride := 32, cnt := 48, lsb := 19, width := 1, acc := .ro }
def Reg.LSW_CFG_RETRY : Fld :=
  { base := 0x161000, stride := 32, cnt := 48, lsb := 16, width := 3, acc := .ro }
def Reg.LSW_CFG_INRUSH : Fld :=
  { base := 0x161000, stride := 32, cnt := 48, lsb := 8, width := 8, acc := .ro }
def Reg.LSW_CFG_DT_MAX : Fld :=
  { base := 0x161000, stride := 32, cnt := 48, lsb := 0, width := 8, acc := .ro }
/-- LSW_CFG2, chapter 12. -/
def Reg.LSW_CFG2_RETRY_DS : Fld :=
  { base := 0x161004, stride := 32, cnt := 48, lsb := 16, width := 16, acc := .ro }
def Reg.LSW_CFG2_OL_MA : Fld :=
  { base := 0x161004, stride := 32, cnt := 48, lsb := 8, width := 8, acc := .ro }
def Reg.LSW_CFG2_OFFTEST : Fld :=
  { base := 0x161004, stride := 32, cnt := 48, lsb := 0, width := 1, acc := .ro }
/-- LSW_CTL, chapter 12. -/
def Reg.LSW_CTL_MAXCLASS : Fld :=
  { base := 0x161008, stride := 32, cnt := 48, lsb := 16, width := 3, acc := .ro }
def Reg.LSW_CTL_DECKCLASS : Fld :=
  { base := 0x161008, stride := 32, cnt := 48, lsb := 8, width := 3, acc := .ro }
def Reg.LSW_CTL_CLASS : Fld :=
  { base := 0x161008, stride := 32, cnt := 48, lsb := 0, width := 3, acc := .rw }
/-- LSW_ST, chapter 12. -/
def Reg.LSW_ST_STATE : Fld :=
  { base := 0x16100c, stride := 32, cnt := 48, lsb := 29, width := 3, acc := .ro }
def Reg.LSW_ST_APPLIED : Fld :=
  { base := 0x16100c, stride := 32, cnt := 48, lsb := 26, width := 3, acc := .ro }
def Reg.LSW_ST_RETRY_LEFT : Fld :=
  { base := 0x16100c, stride := 32, cnt := 48, lsb := 23, width := 3, acc := .ro }
def Reg.LSW_ST_EVT_CNT : Fld :=
  { base := 0x16100c, stride := 32, cnt := 48, lsb := 8, width := 8, acc := .rc }
def Reg.LSW_ST_SYMP : Fld :=
  { base := 0x16100c, stride := 32, cnt := 48, lsb := 7, width := 1, acc := .w1c }
def Reg.LSW_ST_SHED : Fld :=
  { base := 0x16100c, stride := 32, cnt := 48, lsb := 6, width := 1, acc := .w1c }
def Reg.LSW_ST_SHORT_VBB : Fld :=
  { base := 0x16100c, stride := 32, cnt := 48, lsb := 5, width := 1, acc := .w1c }
def Reg.LSW_ST_OPEN_OFF : Fld :=
  { base := 0x16100c, stride := 32, cnt := 48, lsb := 4, width := 1, acc := .w1c }
def Reg.LSW_ST_OPEN_ON : Fld :=
  { base := 0x16100c, stride := 32, cnt := 48, lsb := 3, width := 1, acc := .w1c }
def Reg.LSW_ST_TABS : Fld :=
  { base := 0x16100c, stride := 32, cnt := 48, lsb := 2, width := 1, acc := .w1c }
def Reg.LSW_ST_THERM : Fld :=
  { base := 0x16100c, stride := 32, cnt := 48, lsb := 1, width := 1, acc := .w1c }
def Reg.LSW_ST_OC : Fld :=
  { base := 0x16100c, stride := 32, cnt := 48, lsb := 0, width := 1, acc := .w1c }
/-- LSW_MEAS, chapter 12. -/
def Reg.LSW_MEAS_I_MA : Fld :=
  { base := 0x161010, stride := 32, cnt := 48, lsb := 16, width := 16, acc := .ro, snap := true }
def Reg.LSW_MEAS_TJ : Fld :=
  { base := 0x161010, stride := 32, cnt := 48, lsb := 8, width := 8, acc := .ro, snap := true }
def Reg.LSW_MEAS_DT : Fld :=
  { base := 0x161010, stride := 32, cnt := 48, lsb := 0, width := 8, acc := .ro, snap := true }
/-- LSW_LIFE, chapter 12. -/
def Reg.LSW_LIFE_FAULTS : Fld :=
  { base := 0x161014, stride := 32, cnt := 48, lsb := 16, width := 16, acc := .ro, home := .backup, snap := true }
def Reg.LSW_LIFE_LATCH : Fld :=
  { base := 0x161014, stride := 32, cnt := 48, lsb := 8, width := 8, acc := .ro, home := .backup, snap := true }
def Reg.LSW_LIFE_SYMP : Fld :=
  { base := 0x161014, stride := 32, cnt := 48, lsb := 0, width := 8, acc := .ro, home := .backup, snap := true }
/-- SAF_STAT, chapter 13. -/
def Reg.SAF_STAT_EVT_CNT : Fld :=
  { base := 0x170000, stride := 0, cnt := 1, lsb := 24, width := 8, acc := .rc }
def Reg.SAF_STAT_SRST_REF : Fld :=
  { base := 0x170000, stride := 0, cnt := 1, lsb := 6, width := 1, acc := .w1c }
def Reg.SAF_STAT_SRST_STUCK : Fld :=
  { base := 0x170000, stride := 0, cnt := 1, lsb := 5, width := 1, acc := .w1c }
def Reg.SAF_STAT_SC_FAULT : Fld :=
  { base := 0x170000, stride := 0, cnt := 1, lsb := 4, width := 1, acc := .ro }
def Reg.SAF_STAT_FAULT_EV : Fld :=
  { base := 0x170000, stride := 0, cnt := 1, lsb := 3, width := 1, acc := .w1c }
def Reg.SAF_STAT_DEMAND_EV : Fld :=
  { base := 0x170000, stride := 0, cnt := 1, lsb := 2, width := 1, acc := .w1c }
def Reg.SAF_STAT_FAULT_ANY : Fld :=
  { base := 0x170000, stride := 0, cnt := 1, lsb := 1, width := 1, acc := .ro }
def Reg.SAF_STAT_STO_ANY : Fld :=
  { base := 0x170000, stride := 0, cnt := 1, lsb := 0, width := 1, acc := .ro }
/-- SAF_ARCH, chapter 13. -/
def Reg.SAF_ARCH_ARCH : Fld :=
  { base := 0x170004, stride := 0, cnt := 1, lsb := 0, width := 8, acc := .ro }
/-- SAF_IN, chapter 13. -/
def Reg.SAF_IN_RUN : Fld :=
  { base := 0x170008, stride := 0, cnt := 1, lsb := 0, width := 18, acc := .ro, snap := true }
/-- SAF_INFLT, chapter 13. -/
def Reg.SAF_INFLT_DISC : Fld :=
  { base := 0x17000c, stride := 0, cnt := 1, lsb := 0, width := 18, acc := .ro, home := .backup }
/-- SAF_PERM, chapter 13. -/
def Reg.SAF_PERM_PERM : Fld :=
  { base := 0x170010, stride := 0, cnt := 1, lsb := 0, width := 16, acc := .ro, snap := true }
/-- SAF_SRST, chapter 13. -/
def Reg.SAF_SRST_LAST_MS : Fld :=
  { base := 0x170014, stride := 0, cnt := 1, lsb := 16, width := 16, acc := .ro }
def Reg.SAF_SRST_STUCK_CNT : Fld :=
  { base := 0x170014, stride := 0, cnt := 1, lsb := 8, width := 8, acc := .ro, home := .backup, snap := true }
def Reg.SAF_SRST_HELD : Fld :=
  { base := 0x170014, stride := 0, cnt := 1, lsb := 0, width := 1, acc := .ro }
/-- SAF_INCFG, chapter 13. -/
def Reg.SAF_INCFG_IN_EN : Fld :=
  { base := 0x170100, stride := 4, cnt := 18, lsb := 31, width := 1, acc := .ro }
def Reg.SAF_INCFG_POL : Fld :=
  { base := 0x170100, stride := 4, cnt := 18, lsb := 30, width := 1, acc := .ro }
def Reg.SAF_INCFG_STOP_CAT : Fld :=
  { base := 0x170100, stride := 4, cnt := 18, lsb := 29, width := 1, acc := .ro }
def Reg.SAF_INCFG_RESTART : Fld :=
  { base := 0x170100, stride := 4, cnt := 18, lsb := 28, width := 1, acc := .ro }
def Reg.SAF_INCFG_T_DISC : Fld :=
  { base := 0x170100, stride := 4, cnt := 18, lsb := 0, width := 9, acc := .ro }
/-- SAF_AXCFG, chapter 13. -/
def Reg.SAF_AXCFG_AX_EN : Fld :=
  { base := 0x171000, stride := 32, cnt := 16, lsb := 31, width := 1, acc := .ro }
def Reg.SAF_AXCFG_DRV_PORT : Fld :=
  { base := 0x171000, stride := 32, cnt := 16, lsb := 27, width := 2, acc := .ro }
def Reg.SAF_AXCFG_DRV_NODE : Fld :=
  { base := 0x171000, stride := 32, cnt := 16, lsb := 23, width := 4, acc := .ro }
def Reg.SAF_AXCFG_RES_UM : Fld :=
  { base := 0x171000, stride := 32, cnt := 16, lsb := 13, width := 10, acc := .ro }
/-- SAF_AXLIM, chapter 13. -/
def Reg.SAF_AXLIM_DECEL : Fld :=
  { base := 0x171004, stride := 32, cnt := 16, lsb := 17, width := 15, acc := .ro }
def Reg.SAF_AXLIM_T_LAG : Fld :=
  { base := 0x171004, stride := 32, cnt := 16, lsb := 10, width := 7, acc := .ro }
def Reg.SAF_AXLIM_SPEED_MAX : Fld :=
  { base := 0x171004, stride := 32, cnt := 16, lsb := 0, width := 10, acc := .ro }
/-- SAF_AXLIM2, chapter 13. -/
def Reg.SAF_AXLIM2_V_TOL : Fld :=
  { base := 0x171008, stride := 32, cnt := 16, lsb := 24, width := 8, acc := .ro }
def Reg.SAF_AXLIM2_V_STAND : Fld :=
  { base := 0x171008, stride := 32, cnt := 16, lsb := 18, width := 6, acc := .ro }
def Reg.SAF_AXLIM2_T_STAND : Fld :=
  { base := 0x171008, stride := 32, cnt := 16, lsb := 9, width := 9, acc := .ro }
/-- SAF_SPD, chapter 13. -/
def Reg.SAF_SPD_MODE : Fld :=
  { base := 0x17100c, stride := 32, cnt := 16, lsb := 16, width := 2, acc := .rw }
def Reg.SAF_SPD_V_CMD : Fld :=
  { base := 0x17100c, stride := 32, cnt := 16, lsb := 0, width := 10, acc := .rw }
/-- SAF_AXSTAT, chapter 13. -/
def Reg.SAF_AXSTAT_STATE : Fld :=
  { base := 0x171010, stride := 32, cnt := 16, lsb := 28, width := 4, acc := .ro, snap := true }
def Reg.SAF_AXSTAT_CAUSE : Fld :=
  { base := 0x171010, stride := 32, cnt := 16, lsb := 24, width := 4, acc := .ro, home := .backup, snap := true }
def Reg.SAF_AXSTAT_APPLIED : Fld :=
  { base := 0x171010, stride := 32, cnt := 16, lsb := 14, width := 10, acc := .ro, snap := true }
def Reg.SAF_AXSTAT_BRAKE_REL : Fld :=
  { base := 0x171010, stride := 32, cnt := 16, lsb := 13, width := 1, acc := .ro, snap := true }
def Reg.SAF_AXSTAT_STOB : Fld :=
  { base := 0x171010, stride := 32, cnt := 16, lsb := 12, width := 1, acc := .ro, snap := true }
def Reg.SAF_AXSTAT_STOA : Fld :=
  { base := 0x171010, stride := 32, cnt := 16, lsb := 11, width := 1, acc := .ro, snap := true }
def Reg.SAF_AXSTAT_DRV_ONLINE : Fld :=
  { base := 0x171010, stride := 32, cnt := 16, lsb := 10, width := 1, acc := .ro, snap := true }
/-- SAF_AXMEAS, chapter 13. -/
def Reg.SAF_AXMEAS_SPEED : Fld :=
  { base := 0x171014, stride := 32, cnt := 16, lsb := 16, width := 16, acc := .ro, snap := true }
def Reg.SAF_AXMEAS_ENV : Fld :=
  { base := 0x171014, stride := 32, cnt := 16, lsb := 0, width := 16, acc := .ro, rst := 65535, snap := true }
/-- SAF_AXPOS, chapter 13. -/
def Reg.SAF_AXPOS_POS : Fld :=
  { base := 0x171018, stride := 32, cnt := 16, lsb := 0, width := 32, acc := .ro, snap := true }
/-- SAF_AXLIFE, chapter 13. -/
def Reg.SAF_AXLIFE_DEMANDS : Fld :=
  { base := 0x17101c, stride := 32, cnt := 16, lsb := 16, width := 16, acc := .ro, home := .backup, snap := true }
def Reg.SAF_AXLIFE_FAULTS : Fld :=
  { base := 0x17101c, stride := 32, cnt := 16, lsb := 0, width := 16, acc := .ro, home := .backup, snap := true }
/-- NFC_STAT, chapter 14. -/
def Reg.NFC_STAT_EVT_CNT : Fld :=
  { base := 0x180000, stride := 0, cnt := 1, lsb := 24, width := 8, acc := .rc }
def Reg.NFC_STAT_TABLE_READY : Fld :=
  { base := 0x180000, stride := 0, cnt := 1, lsb := 11, width := 1, acc := .ro }
def Reg.NFC_STAT_FIELD_ON : Fld :=
  { base := 0x180000, stride := 0, cnt := 1, lsb := 10, width := 1, acc := .ro }
def Reg.NFC_STAT_TAG_FIELD : Fld :=
  { base := 0x180000, stride := 0, cnt := 1, lsb := 9, width := 1, acc := .ro }
def Reg.NFC_STAT_UNCORR : Fld :=
  { base := 0x180000, stride := 0, cnt := 1, lsb := 7, width := 1, acc := .w1c }
def Reg.NFC_STAT_LATE : Fld :=
  { base := 0x180000, stride := 0, cnt := 1, lsb := 6, width := 1, acc := .w1c }
def Reg.NFC_STAT_TBL_LOST : Fld :=
  { base := 0x180000, stride := 0, cnt := 1, lsb := 5, width := 1, acc := .w1c }
def Reg.NFC_STAT_CKPT_FAIL : Fld :=
  { base := 0x180000, stride := 0, cnt := 1, lsb := 4, width := 1, acc := .w1c }
def Reg.NFC_STAT_DELTA_REJ : Fld :=
  { base := 0x180000, stride := 0, cnt := 1, lsb := 3, width := 1, acc := .w1c }
def Reg.NFC_STAT_OVER8 : Fld :=
  { base := 0x180000, stride := 0, cnt := 1, lsb := 2, width := 1, acc := .w1c }
def Reg.NFC_STAT_MULTI : Fld :=
  { base := 0x180000, stride := 0, cnt := 1, lsb := 1, width := 1, acc := .w1c }
def Reg.NFC_STAT_PRES : Fld :=
  { base := 0x180000, stride := 0, cnt := 1, lsb := 0, width := 1, acc := .w1c }
/-- NFC_CFG, chapter 14. -/
def Reg.NFC_CFG_READER_EN : Fld :=
  { base := 0x180004, stride := 0, cnt := 1, lsb := 31, width := 1, acc := .ro }
def Reg.NFC_CFG_RATE_MAX : Fld :=
  { base := 0x180004, stride := 0, cnt := 1, lsb := 29, width := 2, acc := .ro }
def Reg.NFC_CFG_TAG_EN : Fld :=
  { base := 0x180004, stride := 0, cnt := 1, lsb := 28, width := 1, acc := .ro }
def Reg.NFC_CFG_KINDS : Fld :=
  { base := 0x180004, stride := 0, cnt := 1, lsb := 26, width := 2, acc := .ro }
def Reg.NFC_CFG_AUTH_MODE : Fld :=
  { base := 0x180004, stride := 0, cnt := 1, lsb := 24, width := 2, acc := .ro }
def Reg.NFC_CFG_DKEY_IDX : Fld :=
  { base := 0x180004, stride := 0, cnt := 1, lsb := 22, width := 2, acc := .ro }
def Reg.NFC_CFG_POLL_MS : Fld :=
  { base := 0x180004, stride := 0, cnt := 1, lsb := 10, width := 10, acc := .ro }
def Reg.NFC_CFG_T_PEND : Fld :=
  { base := 0x180004, stride := 0, cnt := 1, lsb := 0, width := 7, acc := .ro }
/-- NFC_CFG2, chapter 14. -/
def Reg.NFC_CFG2_T_HOST : Fld :=
  { base := 0x18001c, stride := 0, cnt := 1, lsb := 0, width := 14, acc := .ro }
/-- NFC_PRES, chapter 14. -/
def Reg.NFC_PRES_PRES_NO : Fld :=
  { base := 0x180008, stride := 0, cnt := 1, lsb := 16, width := 16, acc := .ro }
def Reg.NFC_PRES_RESULT : Fld :=
  { base := 0x180008, stride := 0, cnt := 1, lsb := 12, width := 4, acc := .ro }
def Reg.NFC_PRES_BAY : Fld :=
  { base := 0x180008, stride := 0, cnt := 1, lsb := 8, width := 4, acc := .ro }
def Reg.NFC_PRES_KIND : Fld :=
  { base := 0x180008, stride := 0, cnt := 1, lsb := 6, width := 2, acc := .ro }
def Reg.NFC_PRES_TIME_INV : Fld :=
  { base := 0x180008, stride := 0, cnt := 1, lsb := 5, width := 1, acc := .ro }
def Reg.NFC_PRES_PARTIAL : Fld :=
  { base := 0x180008, stride := 0, cnt := 1, lsb := 4, width := 1, acc := .ro }
def Reg.NFC_PRES_PROFILE : Fld :=
  { base := 0x180008, stride := 0, cnt := 1, lsb := 0, width := 4, acc := .ro }
/-- NFC_PRES_HASH, chapter 14. -/
def Reg.NFC_PRES_HASH_HASH : Fld :=
  { base := 0x18000c, stride := 4, cnt := 3, lsb := 0, width := 32, acc := .ro }
/-- NFC_VERDICT, chapter 14. -/
def Reg.NFC_VERDICT_PRES_NO : Fld :=
  { base := 0x180018, stride := 0, cnt := 1, lsb := 16, width := 16, acc := .wo }
def Reg.NFC_VERDICT_VERDICT : Fld :=
  { base := 0x180018, stride := 0, cnt := 1, lsb := 8, width := 2, acc := .wo }
def Reg.NFC_VERDICT_BAY : Fld :=
  { base := 0x180018, stride := 0, cnt := 1, lsb := 4, width := 4, acc := .wo }
def Reg.NFC_VERDICT_USE_BAY : Fld :=
  { base := 0x180018, stride := 0, cnt := 1, lsb := 0, width := 1, acc := .wo }
/-- NFC_TBL_CNT, chapter 14. -/
def Reg.NFC_TBL_CNT_COUNT : Fld :=
  { base := 0x180020, stride := 0, cnt := 1, lsb := 0, width := 25, acc := .ro }
/-- NFC_TBL_GEN, chapter 14. -/
def Reg.NFC_TBL_GEN_GEN : Fld :=
  { base := 0x180024, stride := 0, cnt := 1, lsb := 0, width := 32, acc := .ro }
/-- NFC_TBL_STAT, chapter 14. -/
def Reg.NFC_TBL_STAT_STASH : Fld :=
  { base := 0x180028, stride := 0, cnt := 1, lsb := 23, width := 9, acc := .ro }
def Reg.NFC_TBL_STAT_WALK_MAX : Fld :=
  { base := 0x180028, stride := 0, cnt := 1, lsb := 13, width := 10, acc := .ro }
def Reg.NFC_TBL_STAT_CKPT : Fld :=
  { base := 0x180028, stride := 0, cnt := 1, lsb := 10, width := 1, acc := .ro }
def Reg.NFC_TBL_STAT_JOURNAL : Fld :=
  { base := 0x180028, stride := 0, cnt := 1, lsb := 0, width := 10, acc := .ro }
/-- NFC_LOOKUP, chapter 14. -/
def Reg.NFC_LOOKUP_MAX_NS : Fld :=
  { base := 0x18002c, stride := 0, cnt := 1, lsb := 16, width := 16, acc := .rc }
def Reg.NFC_LOOKUP_COUNT : Fld :=
  { base := 0x18002c, stride := 0, cnt := 1, lsb := 0, width := 16, acc := .rc }
/-- NFC_DELTA, chapter 14. -/
def Reg.NFC_DELTA_REASON : Fld :=
  { base := 0x180030, stride := 0, cnt := 1, lsb := 24, width := 8, acc := .ro }
def Reg.NFC_DELTA_RECORDS : Fld :=
  { base := 0x180030, stride := 0, cnt := 1, lsb := 0, width := 16, acc := .ro }
/-- NFC_TAGSTAT, chapter 14. -/
def Reg.NFC_TAGSTAT_OPEN : Fld :=
  { base := 0x180040, stride := 0, cnt := 1, lsb := 24, width := 8, acc := .ro }
def Reg.NFC_TAGSTAT_PAGE : Fld :=
  { base := 0x180040, stride := 0, cnt := 1, lsb := 16, width := 8, acc := .ro }
def Reg.NFC_TAGSTAT_RESULT : Fld :=
  { base := 0x180040, stride := 0, cnt := 1, lsb := 8, width := 4, acc := .ro }
def Reg.NFC_TAGSTAT_AUTH_LOCK : Fld :=
  { base := 0x180040, stride := 0, cnt := 1, lsb := 2, width := 1, acc := .ro }
def Reg.NFC_TAGSTAT_FIELD : Fld :=
  { base := 0x180040, stride := 0, cnt := 1, lsb := 1, width := 1, acc := .ro }
def Reg.NFC_TAGSTAT_BUSY : Fld :=
  { base := 0x180040, stride := 0, cnt := 1, lsb := 0, width := 1, acc := .ro }
/-- NFC_TAGCMD, chapter 14. -/
def Reg.NFC_TAGCMD_GO : Fld :=
  { base := 0x180044, stride := 0, cnt := 1, lsb := 31, width := 1, acc := .wo }
def Reg.NFC_TAGCMD_OP : Fld :=
  { base := 0x180044, stride := 0, cnt := 1, lsb := 8, width := 2, acc := .wo }
def Reg.NFC_TAGCMD_PAGE : Fld :=
  { base := 0x180044, stride := 0, cnt := 1, lsb := 0, width := 8, acc := .wo }
/-- NFC_TAGUID_LO, chapter 14. -/
def Reg.NFC_TAGUID_LO_UID : Fld :=
  { base := 0x180048, stride := 0, cnt := 1, lsb := 0, width := 32, acc := .ro, home := .fuse }
/-- NFC_TAGUID_HI, chapter 14. -/
def Reg.NFC_TAGUID_HI_UID : Fld :=
  { base := 0x18004c, stride := 0, cnt := 1, lsb := 0, width := 24, acc := .ro, home := .fuse }
/-- NFC_TAGDATA, chapter 14. -/
def Reg.NFC_TAGDATA_DATA : Fld :=
  { base := 0x180080, stride := 4, cnt := 16, lsb := 0, width := 32, acc := .rw }
/-- DSP_STAT, chapter 15. -/
def Reg.DSP_STAT_EVT_CNT : Fld :=
  { base := 0x190000, stride := 0, cnt := 1, lsb := 24, width := 8, acc := .rc }
def Reg.DSP_STAT_EPTH_FLT_EV : Fld :=
  { base := 0x190000, stride := 0, cnt := 1, lsb := 3, width := 1, acc := .w1c }
def Reg.DSP_STAT_ABORT : Fld :=
  { base := 0x190000, stride := 0, cnt := 1, lsb := 2, width := 1, acc := .w1c }
def Reg.DSP_STAT_CRACK_L_EV : Fld :=
  { base := 0x190000, stride := 0, cnt := 1, lsb := 1, width := 1, acc := .w1c }
def Reg.DSP_STAT_CRACK_E_EV : Fld :=
  { base := 0x190000, stride := 0, cnt := 1, lsb := 0, width := 1, acc := .w1c }
/-- DSP_ECTL, chapter 15. -/
def Reg.DSP_ECTL_SWAP : Fld :=
  { base := 0x190004, stride := 0, cnt := 1, lsb := 31, width := 1, acc := .wo }
def Reg.DSP_ECTL_APPLIED : Fld :=
  { base := 0x190004, stride := 0, cnt := 1, lsb := 16, width := 9, acc := .ro }
def Reg.DSP_ECTL_I_COL : Fld :=
  { base := 0x190004, stride := 0, cnt := 1, lsb := 0, width := 9, acc := .rw }
/-- DSP_ESTAT, chapter 15. -/
def Reg.DSP_ESTAT_FRAME : Fld :=
  { base := 0x190008, stride := 0, cnt := 1, lsb := 16, width := 16, acc := .ro }
def Reg.DSP_ESTAT_SCAN : Fld :=
  { base := 0x190008, stride := 0, cnt := 1, lsb := 3, width := 1, acc := .ro }
def Reg.DSP_ESTAT_SWAP_PEND : Fld :=
  { base := 0x190008, stride := 0, cnt := 1, lsb := 2, width := 1, acc := .ro }
def Reg.DSP_ESTAT_FRONT : Fld :=
  { base := 0x190008, stride := 0, cnt := 1, lsb := 1, width := 1, acc := .ro }
def Reg.DSP_ESTAT_CRACK_E : Fld :=
  { base := 0x190008, stride := 0, cnt := 1, lsb := 0, width := 1, acc := .ro }
/-- DSP_LSTAT, chapter 15. -/
def Reg.DSP_LSTAT_WINDOW : Fld :=
  { base := 0x19000c, stride := 0, cnt := 1, lsb := 24, width := 8, acc := .ro }
def Reg.DSP_LSTAT_SINCE_FULL : Fld :=
  { base := 0x19000c, stride := 0, cnt := 1, lsb := 16, width := 8, acc := .ro }
def Reg.DSP_LSTAT_BAND : Fld :=
  { base := 0x19000c, stride := 0, cnt := 1, lsb := 9, width := 3, acc := .ro }
def Reg.DSP_LSTAT_PHASE : Fld :=
  { base := 0x19000c, stride := 0, cnt := 1, lsb := 7, width := 2, acc := .ro }
def Reg.DSP_LSTAT_FULL : Fld :=
  { base := 0x19000c, stride := 0, cnt := 1, lsb := 6, width := 1, acc := .ro }
def Reg.DSP_LSTAT_PEND : Fld :=
  { base := 0x19000c, stride := 0, cnt := 1, lsb := 5, width := 1, acc := .ro }
def Reg.DSP_LSTAT_DEFER : Fld :=
  { base := 0x19000c, stride := 0, cnt := 1, lsb := 4, width := 1, acc := .ro }
def Reg.DSP_LSTAT_NEUTRAL : Fld :=
  { base := 0x19000c, stride := 0, cnt := 1, lsb := 3, width := 1, acc := .ro }
def Reg.DSP_LSTAT_RV : Fld :=
  { base := 0x19000c, stride := 0, cnt := 1, lsb := 2, width := 1, acc := .ro }
def Reg.DSP_LSTAT_EPTH_FAULT : Fld :=
  { base := 0x19000c, stride := 0, cnt := 1, lsb := 1, width := 1, acc := .ro }
def Reg.DSP_LSTAT_CRACK_L : Fld :=
  { base := 0x19000c, stride := 0, cnt := 1, lsb := 0, width := 1, acc := .ro }
/-- DSP_LCMD, chapter 15. -/
def Reg.DSP_LCMD_FULL : Fld :=
  { base := 0x190010, stride := 0, cnt := 1, lsb := 0, width := 1, acc := .wo }
/-- DSP_LTEMP, chapter 15. -/
def Reg.DSP_LTEMP_TEMP : Fld :=
  { base := 0x190014, stride := 0, cnt := 1, lsb := 0, width := 16, acc := .ro }
/-- DSP_LLIFE, chapter 15. -/
def Reg.DSP_LLIFE_UPDATES : Fld :=
  { base := 0x190018, stride := 0, cnt := 1, lsb := 0, width := 32, acc := .ro, home := .backup, snap := true }
/-- DSP_ELIFE, chapter 15. -/
def Reg.DSP_ELIFE_HOURS : Fld :=
  { base := 0x19001c, stride := 0, cnt := 1, lsb := 0, width := 32, acc := .ro, home := .backup, snap := true }
/-- DSP_WFADDR, chapter 15. -/
def Reg.DSP_WFADDR_ID : Fld :=
  { base := 0x190020, stride := 0, cnt := 1, lsb := 8, width := 4, acc := .rw }
def Reg.DSP_WFADDR_FRAME : Fld :=
  { base := 0x190020, stride := 0, cnt := 1, lsb := 0, width := 6, acc := .rw }
/-- DSP_WFDATA, chapter 15. -/
def Reg.DSP_WFDATA_M : Fld :=
  { base := 0x190024, stride := 0, cnt := 1, lsb := 8, width := 6, acc := .ro }
def Reg.DSP_WFDATA_DATA : Fld :=
  { base := 0x190024, stride := 0, cnt := 1, lsb := 0, width := 8, acc := .ro }
/-- DSP_LIMG, chapter 15. -/
def Reg.DSP_LIMG_SEG : Fld :=
  { base := 0x190100, stride := 4, cnt := 4, lsb := 0, width := 32, acc := .ro }
/-- SEC_STAT, chapter 16. -/
def Reg.SEC_STAT_EVT_CNT : Fld :=
  { base := 0x1a0000, stride := 0, cnt := 1, lsb := 24, width := 8, acc := .rc }
def Reg.SEC_STAT_RESTART_REQ : Fld :=
  { base := 0x1a0000, stride := 0, cnt := 1, lsb := 9, width := 1, acc := .ro }
def Reg.SEC_STAT_KEYS_AVAIL : Fld :=
  { base := 0x1a0000, stride := 0, cnt := 1, lsb := 8, width := 1, acc := .ro }
def Reg.SEC_STAT_DEV_KEY : Fld :=
  { base := 0x1a0000, stride := 0, cnt := 1, lsb := 7, width := 1, acc := .ro }
def Reg.SEC_STAT_PUF_FAIL : Fld :=
  { base := 0x1a0000, stride := 0, cnt := 1, lsb := 6, width := 1, acc := .ro }
def Reg.SEC_STAT_CTR_MISM : Fld :=
  { base := 0x1a0000, stride := 0, cnt := 1, lsb := 4, width := 1, acc := .w1c }
def Reg.SEC_STAT_DBG_REF : Fld :=
  { base := 0x1a0000, stride := 0, cnt := 1, lsb := 3, width := 1, acc := .w1c }
def Reg.SEC_STAT_DBG_GRANT : Fld :=
  { base := 0x1a0000, stride := 0, cnt := 1, lsb := 2, width := 1, acc := .w1c }
def Reg.SEC_STAT_KUM_REJ : Fld :=
  { base := 0x1a0000, stride := 0, cnt := 1, lsb := 1, width := 1, acc := .w1c }
def Reg.SEC_STAT_KUM_OK : Fld :=
  { base := 0x1a0000, stride := 0, cnt := 1, lsb := 0, width := 1, acc := .w1c }
/-- SEC_LC, chapter 16. -/
def Reg.SEC_LC_LC : Fld :=
  { base := 0x1a0004, stride := 0, cnt := 1, lsb := 29, width := 3, acc := .ro, home := .fuse }
def Reg.SEC_LC_SEALED : Fld :=
  { base := 0x1a0004, stride := 0, cnt := 1, lsb := 28, width := 1, acc := .ro }
def Reg.SEC_LC_FUSES : Fld :=
  { base := 0x1a0004, stride := 0, cnt := 1, lsb := 24, width := 3, acc := .ro, home := .fuse }
def Reg.SEC_LC_SVC_CNT : Fld :=
  { base := 0x1a0004, stride := 0, cnt := 1, lsb := 0, width := 16, acc := .ro, home := .backup, snap := true }
/-- SEC_KEYCTR, chapter 16. -/
def Reg.SEC_KEYCTR_BACKUP : Fld :=
  { base := 0x1a0008, stride := 0, cnt := 1, lsb := 16, width := 12, acc := .ro, home := .backup, snap := true }
def Reg.SEC_KEYCTR_CTR : Fld :=
  { base := 0x1a0008, stride := 0, cnt := 1, lsb := 0, width := 12, acc := .ro, home := .fuse }
/-- SEC_KEYRES, chapter 16. -/
def Reg.SEC_KEYRES_REASON : Fld :=
  { base := 0x1a000c, stride := 0, cnt := 1, lsb := 24, width := 8, acc := .ro }
def Reg.SEC_KEYRES_OP : Fld :=
  { base := 0x1a000c, stride := 0, cnt := 1, lsb := 16, width := 8, acc := .ro }
def Reg.SEC_KEYRES_KEY_ID : Fld :=
  { base := 0x1a000c, stride := 0, cnt := 1, lsb := 0, width := 16, acc := .ro }
/-- SEC_DBG, chapter 16. -/
def Reg.SEC_DBG_FULL_CNT : Fld :=
  { base := 0x1a0010, stride := 0, cnt := 1, lsb := 24, width := 8, acc := .ro, home := .backup, snap := true }
def Reg.SEC_DBG_LEFT_MIN : Fld :=
  { base := 0x1a0010, stride := 0, cnt := 1, lsb := 13, width := 11, acc := .ro }
def Reg.SEC_DBG_SRC : Fld :=
  { base := 0x1a0010, stride := 0, cnt := 1, lsb := 4, width := 2, acc := .ro }
def Reg.SEC_DBG_REQ : Fld :=
  { base := 0x1a0010, stride := 0, cnt := 1, lsb := 2, width := 2, acc := .ro }
def Reg.SEC_DBG_LEVEL : Fld :=
  { base := 0x1a0010, stride := 0, cnt := 1, lsb := 0, width := 2, acc := .ro }
/-- SEC_DBGRES, chapter 16. -/
def Reg.SEC_DBGRES_RESULT : Fld :=
  { base := 0x1a0014, stride := 0, cnt := 1, lsb := 0, width := 8, acc := .ro }
/-- SEC_DBG_NONCE, chapter 16. -/
def Reg.SEC_DBG_NONCE_NONCE : Fld :=
  { base := 0x1a0020, stride := 4, cnt := 4, lsb := 0, width := 32, acc := .ro }
/-- SEC_MFW, chapter 16. -/
def Reg.SEC_MFW_DIGEST : Fld :=
  { base := 0x1a0040, stride := 4, cnt := 8, lsb := 0, width := 32, acc := .ro }
/-- SEC_KEYMAP, chapter 16. -/
def Reg.SEC_KEYMAP_LOADED : Fld :=
  { base := 0x1a0100, stride := 4, cnt := 32, lsb := 0, width := 32, acc := .ro }
/-- HST_STAT, chapter 17. -/
def Reg.HST_STAT_EVT_CNT : Fld :=
  { base := 0x1b0000, stride := 0, cnt := 1, lsb := 24, width := 8, acc := .rc }
def Reg.HST_STAT_BULK_ABORT : Fld :=
  { base := 0x1b0000, stride := 0, cnt := 1, lsb := 7, width := 1, acc := .w1c }
def Reg.HST_STAT_EVT_LOST : Fld :=
  { base := 0x1b0000, stride := 0, cnt := 1, lsb := 6, width := 1, acc := .w1c }
def Reg.HST_STAT_AUTH_FAIL : Fld :=
  { base := 0x1b0000, stride := 0, cnt := 1, lsb := 5, width := 1, acc := .w1c }
def Reg.HST_STAT_FRAME_ERR : Fld :=
  { base := 0x1b0000, stride := 0, cnt := 1, lsb := 4, width := 1, acc := .w1c }
def Reg.HST_STAT_LAPSE : Fld :=
  { base := 0x1b0000, stride := 0, cnt := 1, lsb := 3, width := 1, acc := .w1c }
def Reg.HST_STAT_HANDOVER : Fld :=
  { base := 0x1b0000, stride := 0, cnt := 1, lsb := 2, width := 1, acc := .w1c }
def Reg.HST_STAT_AUCTION : Fld :=
  { base := 0x1b0000, stride := 0, cnt := 1, lsb := 1, width := 1, acc := .w1c }
def Reg.HST_STAT_NO_DECL : Fld :=
  { base := 0x1b0000, stride := 0, cnt := 1, lsb := 0, width := 1, acc := .ro, rst := 1 }
/-- HST_OWNER, chapter 17. -/
def Reg.HST_OWNER_DECL : Fld :=
  { base := 0x1b0004, stride := 0, cnt := 1, lsb := 28, width := 4, acc := .ro, rst := 15 }
def Reg.HST_OWNER_TARGET : Fld :=
  { base := 0x1b0004, stride := 0, cnt := 1, lsb := 24, width := 4, acc := .ro, rst := 15 }
def Reg.HST_OWNER_HO_LEFT : Fld :=
  { base := 0x1b0004, stride := 0, cnt := 1, lsb := 12, width := 12, acc := .ro }
def Reg.HST_OWNER_AUCT : Fld :=
  { base := 0x1b0004, stride := 0, cnt := 1, lsb := 11, width := 1, acc := .ro }
def Reg.HST_OWNER_RANK : Fld :=
  { base := 0x1b0004, stride := 0, cnt := 1, lsb := 0, width := 4, acc := .ro }
/-- HST_CTL, chapter 17. -/
def Reg.HST_CTL_NET_OFF : Fld :=
  { base := 0x1b0008, stride := 0, cnt := 1, lsb := 0, width := 2, acc := .rw }
/-- HST_SESS, chapter 17. -/
def Reg.HST_SESS_STATE : Fld :=
  { base := 0x1b0010, stride := 4, cnt := 6, lsb := 29, width := 3, acc := .ro }
def Reg.HST_SESS_XPORT : Fld :=
  { base := 0x1b0010, stride := 4, cnt := 6, lsb := 27, width := 2, acc := .ro }
def Reg.HST_SESS_DECLARER : Fld :=
  { base := 0x1b0010, stride := 4, cnt := 6, lsb := 26, width := 1, acc := .ro }
def Reg.HST_SESS_BID : Fld :=
  { base := 0x1b0010, stride := 4, cnt := 6, lsb := 25, width := 1, acc := .ro }
def Reg.HST_SESS_SUB : Fld :=
  { base := 0x1b0010, stride := 4, cnt := 6, lsb := 24, width := 1, acc := .ro }
def Reg.HST_SESS_RANK : Fld :=
  { base := 0x1b0010, stride := 4, cnt := 6, lsb := 20, width := 4, acc := .ro }
def Reg.HST_SESS_CLIENT : Fld :=
  { base := 0x1b0010, stride := 4, cnt := 6, lsb := 16, width := 4, acc := .ro, rst := 15 }
def Reg.HST_SESS_IDLE : Fld :=
  { base := 0x1b0010, stride := 4, cnt := 6, lsb := 0, width := 16, acc := .ro }
/-- HST_SCNT, chapter 17. -/
def Reg.HST_SCNT_RX : Fld :=
  { base := 0x1b0030, stride := 4, cnt := 6, lsb := 16, width := 16, acc := .rc }
def Reg.HST_SCNT_ERR : Fld :=
  { base := 0x1b0030, stride := 4, cnt := 6, lsb := 0, width := 16, acc := .rc }
/-- HST_EVTSEQ, chapter 17. -/
def Reg.HST_EVTSEQ_SEQ : Fld :=
  { base := 0x1b0050, stride := 0, cnt := 1, lsb := 0, width := 32, acc := .ro }
/-- HST_SVC, chapter 17. -/
def Reg.HST_SVC_WINDOW_S : Fld :=
  { base := 0x1b0054, stride := 0, cnt := 1, lsb := 8, width := 8, acc := .ro }
def Reg.HST_SVC_SEC : Fld :=
  { base := 0x1b0054, stride := 0, cnt := 1, lsb := 3, width := 1, acc := .ro }
def Reg.HST_SVC_BAUD : Fld :=
  { base := 0x1b0054, stride := 0, cnt := 1, lsb := 0, width := 3, acc := .ro }
/-- HST_LIFE, chapter 17. -/
def Reg.HST_LIFE_AUCTIONS : Fld :=
  { base := 0x1b0058, stride := 0, cnt := 1, lsb := 16, width := 16, acc := .ro, home := .backup, snap := true }
def Reg.HST_LIFE_LAPSES : Fld :=
  { base := 0x1b0058, stride := 0, cnt := 1, lsb := 0, width := 16, acc := .ro, home := .backup, snap := true }
/-- MEM_STAT, chapter 18. -/
def Reg.MEM_STAT_EVT_CNT : Fld :=
  { base := 0x1c0000, stride := 0, cnt := 1, lsb := 24, width := 8, acc := .rc }
def Reg.MEM_STAT_LIST_FULL : Fld :=
  { base := 0x1c0000, stride := 0, cnt := 1, lsb := 7, width := 1, acc := .w1c }
def Reg.MEM_STAT_KITTY_EMPTY : Fld :=
  { base := 0x1c0000, stride := 0, cnt := 1, lsb := 6, width := 1, acc := .w1c }
def Reg.MEM_STAT_LATE_D : Fld :=
  { base := 0x1c0000, stride := 0, cnt := 1, lsb := 5, width := 1, acc := .w1c }
def Reg.MEM_STAT_LATE_S : Fld :=
  { base := 0x1c0000, stride := 0, cnt := 1, lsb := 4, width := 1, acc := .w1c }
def Reg.MEM_STAT_UE_D : Fld :=
  { base := 0x1c0000, stride := 0, cnt := 1, lsb := 3, width := 1, acc := .w1c }
def Reg.MEM_STAT_CE_D : Fld :=
  { base := 0x1c0000, stride := 0, cnt := 1, lsb := 2, width := 1, acc := .w1c }
def Reg.MEM_STAT_UE_S : Fld :=
  { base := 0x1c0000, stride := 0, cnt := 1, lsb := 1, width := 1, acc := .w1c }
def Reg.MEM_STAT_CE_S : Fld :=
  { base := 0x1c0000, stride := 0, cnt := 1, lsb := 0, width := 1, acc := .w1c }
/-- MEM_SERR, chapter 18. -/
def Reg.MEM_SERR_CE : Fld :=
  { base := 0x1c0004, stride := 0, cnt := 1, lsb := 16, width := 16, acc := .rc }
def Reg.MEM_SERR_UE : Fld :=
  { base := 0x1c0004, stride := 0, cnt := 1, lsb := 0, width := 16, acc := .rc }
/-- MEM_SADDR, chapter 18. -/
def Reg.MEM_SADDR_ADDR : Fld :=
  { base := 0x1c0008, stride := 0, cnt := 1, lsb := 0, width := 32, acc := .ro }
/-- MEM_DERR, chapter 18. -/
def Reg.MEM_DERR_CE : Fld :=
  { base := 0x1c000c, stride := 0, cnt := 1, lsb := 16, width := 16, acc := .rc }
def Reg.MEM_DERR_UE : Fld :=
  { base := 0x1c000c, stride := 0, cnt := 1, lsb := 0, width := 16, acc := .rc }
/-- MEM_DADDR, chapter 18. -/
def Reg.MEM_DADDR_ADDR : Fld :=
  { base := 0x1c0010, stride := 0, cnt := 1, lsb := 0, width := 32, acc := .ro }
/-- MEM_DSTAT, chapter 18. -/
def Reg.MEM_DSTAT_TRAIN_FAIL : Fld :=
  { base := 0x1c0014, stride := 0, cnt := 1, lsb := 2, width := 1, acc := .ro }
def Reg.MEM_DSTAT_SIZE4 : Fld :=
  { base := 0x1c0014, stride := 0, cnt := 1, lsb := 1, width := 1, acc := .ro }
def Reg.MEM_DSTAT_READY : Fld :=
  { base := 0x1c0014, stride := 0, cnt := 1, lsb := 0, width := 1, acc := .ro }
/-- MEM_SCRUB, chapter 18. -/
def Reg.MEM_SCRUB_LAST_D : Fld :=
  { base := 0x1c0018, stride := 0, cnt := 1, lsb := 16, width := 16, acc := .ro }
def Reg.MEM_SCRUB_LAST_S : Fld :=
  { base := 0x1c0018, stride := 0, cnt := 1, lsb := 0, width := 16, acc := .ro }
/-- MEM_LIFE, chapter 18. -/
def Reg.MEM_LIFE_UE_D : Fld :=
  { base := 0x1c001c, stride := 0, cnt := 1, lsb := 16, width := 16, acc := .ro, home := .backup, snap := true }
def Reg.MEM_LIFE_UE_S : Fld :=
  { base := 0x1c001c, stride := 0, cnt := 1, lsb := 0, width := 16, acc := .ro, home := .backup, snap := true }
/-- MEM_ECCT, chapter 18. -/
def Reg.MEM_ECCT_GO : Fld :=
  { base := 0x1c0030, stride := 0, cnt := 1, lsb := 31, width := 1, acc := .wo }
def Reg.MEM_ECCT_EN : Fld :=
  { base := 0x1c0030, stride := 0, cnt := 1, lsb := 30, width := 1, acc := .rw }
def Reg.MEM_ECCT_OP : Fld :=
  { base := 0x1c0030, stride := 0, cnt := 1, lsb := 28, width := 2, acc := .rw }
def Reg.MEM_ECCT_DONE : Fld :=
  { base := 0x1c0030, stride := 0, cnt := 1, lsb := 8, width := 1, acc := .ro }
def Reg.MEM_ECCT_CHK : Fld :=
  { base := 0x1c0030, stride := 0, cnt := 1, lsb := 0, width := 8, acc := .rw }
/-- MEM_ECCT_ADDR, chapter 18. -/
def Reg.MEM_ECCT_ADDR_ADDR : Fld :=
  { base := 0x1c0034, stride := 0, cnt := 1, lsb := 0, width := 32, acc := .rw }
/-- MEM_ECCT_DLO, chapter 18. -/
def Reg.MEM_ECCT_DLO_DATA : Fld :=
  { base := 0x1c0038, stride := 0, cnt := 1, lsb := 0, width := 32, acc := .rw }
/-- MEM_ECCT_DHI, chapter 18. -/
def Reg.MEM_ECCT_DHI_DATA : Fld :=
  { base := 0x1c003c, stride := 0, cnt := 1, lsb := 0, width := 32, acc := .rw }
/-- MEM_APBASE, chapter 18. -/
def Reg.MEM_APBASE_BASE : Fld :=
  { base := 0x1c0040, stride := 0, cnt := 1, lsb := 0, width := 17, acc := .rw, rst := 16416 }
/-- MEM_CAPCFG, chapter 18. -/
def Reg.MEM_CAPCFG_GO : Fld :=
  { base := 0x1c0050, stride := 0, cnt := 1, lsb := 31, width := 1, acc := .wo }
def Reg.MEM_CAPCFG_PATH : Fld :=
  { base := 0x1c0050, stride := 0, cnt := 1, lsb := 30, width := 1, acc := .rw }
def Reg.MEM_CAPCFG_NCH : Fld :=
  { base := 0x1c0050, stride := 0, cnt := 1, lsb := 16, width := 5, acc := .rw }
def Reg.MEM_CAPCFG_SAMPLES : Fld :=
  { base := 0x1c0050, stride := 0, cnt := 1, lsb := 0, width := 15, acc := .rw }
/-- MEM_CAPSTAT, chapter 18. -/
def Reg.MEM_CAPSTAT_STATE : Fld :=
  { base := 0x1c0054, stride := 0, cnt := 1, lsb := 30, width := 2, acc := .ro }
def Reg.MEM_CAPSTAT_DONE_K : Fld :=
  { base := 0x1c0054, stride := 0, cnt := 1, lsb := 16, width := 14, acc := .ro }
def Reg.MEM_CAPSTAT_INV : Fld :=
  { base := 0x1c0054, stride := 0, cnt := 1, lsb := 0, width := 16, acc := .ro }
/-- MEM_CAPSEL, chapter 18. -/
def Reg.MEM_CAPSEL_STREAM : Fld :=
  { base := 0x1c0058, stride := 4, cnt := 4, lsb := 0, width := 32, acc := .rw }
/-- MEM_CQ, chapter 18. -/
def Reg.MEM_CQ_POP : Fld :=
  { base := 0x1c0080, stride := 0, cnt := 1, lsb := 31, width := 1, acc := .wo }
def Reg.MEM_CQ_RESV : Fld :=
  { base := 0x1c0080, stride := 0, cnt := 1, lsb := 8, width := 7, acc := .ro }
def Reg.MEM_CQ_COUNT : Fld :=
  { base := 0x1c0080, stride := 0, cnt := 1, lsb := 0, width := 7, acc := .ro }
/-- MEM_CQREC0, chapter 18. -/
def Reg.MEM_CQREC0_TAG : Fld :=
  { base := 0x1c0084, stride := 0, cnt := 1, lsb := 16, width := 16, acc := .ro }
def Reg.MEM_CQREC0_CH : Fld :=
  { base := 0x1c0084, stride := 0, cnt := 1, lsb := 14, width := 1, acc := .ro }
def Reg.MEM_CQREC0_STATUS : Fld :=
  { base := 0x1c0084, stride := 0, cnt := 1, lsb := 0, width := 14, acc := .ro }
/-- MEM_CQREC1, chapter 18. -/
def Reg.MEM_CQREC1_BYTES : Fld :=
  { base := 0x1c0088, stride := 0, cnt := 1, lsb := 0, width := 32, acc := .ro }
/-- MEM_KITTY, chapter 18. -/
def Reg.MEM_KITTY_USED : Fld :=
  { base := 0x1c0100, stride := 4, cnt := 12, lsb := 0, width := 32, acc := .ro }
/-- MEM_TE_SADDR, chapter 18. -/
def Reg.MEM_TE_SADDR_ADDR : Fld :=
  { base := 0x1c0200, stride := 32, cnt := 2, lsb := 0, width := 32, acc := .rw }
/-- MEM_TE_SSHAPE, chapter 18. -/
def Reg.MEM_TE_SSHAPE_LINES : Fld :=
  { base := 0x1c0204, stride := 32, cnt := 2, lsb := 16, width := 16, acc := .rw }
def Reg.MEM_TE_SSHAPE_LINE_W : Fld :=
  { base := 0x1c0204, stride := 32, cnt := 2, lsb := 0, width := 15, acc := .rw }
/-- MEM_TE_SSTRIDE, chapter 18. -/
def Reg.MEM_TE_SSTRIDE_STRIDE_W : Fld :=
  { base := 0x1c0208, stride := 32, cnt := 2, lsb := 0, width := 24, acc := .rw }
/-- MEM_TE_DADDR, chapter 18. -/
def Reg.MEM_TE_DADDR_ADDR : Fld :=
  { base := 0x1c020c, stride := 32, cnt := 2, lsb := 0, width := 32, acc := .rw }
/-- MEM_TE_DSHAPE, chapter 18. -/
def Reg.MEM_TE_DSHAPE_LINES : Fld :=
  { base := 0x1c0210, stride := 32, cnt := 2, lsb := 16, width := 16, acc := .rw }
def Reg.MEM_TE_DSHAPE_LINE_W : Fld :=
  { base := 0x1c0210, stride := 32, cnt := 2, lsb := 0, width := 15, acc := .rw }
/-- MEM_TE_DSTRIDE, chapter 18. -/
def Reg.MEM_TE_DSTRIDE_STRIDE_W : Fld :=
  { base := 0x1c0214, stride := 32, cnt := 2, lsb := 0, width := 24, acc := .rw }
/-- MEM_TE_CTL, chapter 18. -/
def Reg.MEM_TE_CTL_GO : Fld :=
  { base := 0x1c0218, stride := 32, cnt := 2, lsb := 31, width := 1, acc := .wo }
def Reg.MEM_TE_CTL_REQ : Fld :=
  { base := 0x1c0218, stride := 32, cnt := 2, lsb := 16, width := 2, acc := .rw }
def Reg.MEM_TE_CTL_TAG : Fld :=
  { base := 0x1c0218, stride := 32, cnt := 2, lsb := 0, width := 16, acc := .rw }
/-- MEM_TE_STAT, chapter 18. -/
def Reg.MEM_TE_STAT_STATE : Fld :=
  { base := 0x1c021c, stride := 32, cnt := 2, lsb := 30, width := 2, acc := .ro }
def Reg.MEM_TE_STAT_BYTES : Fld :=
  { base := 0x1c021c, stride := 32, cnt := 2, lsb := 0, width := 30, acc := .ro }
/-- UPD_STAT, chapter 19. -/
def Reg.UPD_STAT_EVT_CNT : Fld :=
  { base := 0x1d0000, stride := 0, cnt := 1, lsb := 24, width := 8, acc := .rc }
def Reg.UPD_STAT_NO_FW : Fld :=
  { base := 0x1d0000, stride := 0, cnt := 1, lsb := 7, width := 1, acc := .ro }
def Reg.UPD_STAT_PENDING : Fld :=
  { base := 0x1d0000, stride := 0, cnt := 1, lsb := 6, width := 1, acc := .ro }
def Reg.UPD_STAT_PAUSE : Fld :=
  { base := 0x1d0000, stride := 0, cnt := 1, lsb := 5, width := 1, acc := .ro }
def Reg.UPD_STAT_TRIAL : Fld :=
  { base := 0x1d0000, stride := 0, cnt := 1, lsb := 4, width := 1, acc := .ro }
def Reg.UPD_STAT_FALLBACK : Fld :=
  { base := 0x1d0000, stride := 0, cnt := 1, lsb := 3, width := 1, acc := .w1c }
def Reg.UPD_STAT_CHK_FAIL : Fld :=
  { base := 0x1d0000, stride := 0, cnt := 1, lsb := 2, width := 1, acc := .w1c }
def Reg.UPD_STAT_LOADED : Fld :=
  { base := 0x1d0000, stride := 0, cnt := 1, lsb := 1, width := 1, acc := .w1c }
def Reg.UPD_STAT_ACTIVATED : Fld :=
  { base := 0x1d0000, stride := 0, cnt := 1, lsb := 0, width := 1, acc := .w1c }
/-- UPD_FW_RUN, chapter 19. -/
def Reg.UPD_FW_RUN_SLOT : Fld :=
  { base := 0x1d0004, stride := 0, cnt := 1, lsb := 0, width := 1, acc := .ro }
/-- UPD_FW_SLOT, chapter 19. -/
def Reg.UPD_FW_SLOT_REASON : Fld :=
  { base := 0x1d0008, stride := 8, cnt := 2, lsb := 24, width := 8, acc := .ro }
def Reg.UPD_FW_SLOT_TRIES : Fld :=
  { base := 0x1d0008, stride := 8, cnt := 2, lsb := 16, width := 2, acc := .ro }
def Reg.UPD_FW_SLOT_STATE : Fld :=
  { base := 0x1d0008, stride := 8, cnt := 2, lsb := 0, width := 3, acc := .ro }
/-- UPD_FW_VER, chapter 19. -/
def Reg.UPD_FW_VER_FW_VER : Fld :=
  { base := 0x1d000c, stride := 8, cnt := 2, lsb := 0, width := 32, acc := .ro }
/-- UPD_FW_SVN, chapter 19. -/
def Reg.UPD_FW_SVN_FLOOR : Fld :=
  { base := 0x1d0018, stride := 0, cnt := 1, lsb := 16, width := 7, acc := .ro, home := .fuse }
def Reg.UPD_FW_SVN_RUN : Fld :=
  { base := 0x1d0018, stride := 0, cnt := 1, lsb := 0, width := 7, acc := .ro }
/-- UPD_ACT, chapter 19. -/
def Reg.UPD_ACT_PAUSE_MS : Fld :=
  { base := 0x1d001c, stride := 0, cnt := 1, lsb := 16, width := 16, acc := .ro }
def Reg.UPD_ACT_PREP_MS : Fld :=
  { base := 0x1d001c, stride := 0, cnt := 1, lsb := 0, width := 16, acc := .ro }
/-- UPD_FW_LIFE, chapter 19. -/
def Reg.UPD_FW_LIFE_ACTS : Fld :=
  { base := 0x1d0020, stride := 0, cnt := 1, lsb := 16, width := 16, acc := .ro, home := .backup, snap := true }
def Reg.UPD_FW_LIFE_FALLBACKS : Fld :=
  { base := 0x1d0020, stride := 0, cnt := 1, lsb := 0, width := 16, acc := .ro, home := .backup, snap := true }

def regTableDev0 : List Fld :=
  [Reg.DEV_PART_PART, Reg.DEV_PART_SILREV, Reg.DEV_ID_LO_ID, Reg.DEV_ID_HI_ID, Reg.DEV_BRIDGE_DOWN_CNT,
   Reg.DEV_BRIDGE_RETRY_CNT, Reg.DEV_BRIDGE_UP, Reg.DEV_TRUMP_FLAG_CLAMP, Reg.DEV_TRUMP_STATE_CARD_VER,
   Reg.DEV_TRUMP_STATE_SLOTS_LEFT, Reg.DEV_TRUMP_STATE_FROZEN, Reg.DEV_TRUMP_STATE_HELD,
   Reg.DEV_TRUMP_CNT_COUNT]

def regTablePwr0 : List Fld :=
  [Reg.PWR_STATE_WAKE_SRC, Reg.PWR_STATE_STATE, Reg.PWR_REQ_REQ, Reg.PWR_WAKE_TIMER, Reg.PWR_WAKE_SAFETY,
   Reg.PWR_WAKE_SVCBTN, Reg.PWR_WAKE_SERVICE, Reg.PWR_WAKE_SPI, Reg.PWR_WAKE_CHAIN, Reg.PWR_WAKE_PROX,
   Reg.PWR_WAKE_PILOT, Reg.PWR_RSTCAUSE_CAUSE, Reg.PWR_RSTCAUSE_PREV, Reg.PWR_RSTCAUSE_COUNT,
   Reg.PWR_CLKSTAT_EVT_CNT, Reg.PWR_CLKSTAT_MT_MCLK, Reg.PWR_CLKSTAT_TCLK_OK, Reg.PWR_CLKSTAT_BCLK_OK,
   Reg.PWR_CLKSTAT_MCLK_OK, Reg.PWR_CLKSTAT_FCLK_LOSS, Reg.PWR_CLKSTAT_HOST_PLL, Reg.PWR_CLKSTAT_LINK_PLL,
   Reg.PWR_CLKSTAT_TCLK_DRIFT, Reg.PWR_CLKSTAT_TCLK_STOP, Reg.PWR_CLKSTAT_BCLK_FAULT,
   Reg.PWR_CLKSTAT_MCLK_FAULT, Reg.PWR_CLKCNT_BCLK, Reg.PWR_CLKCNT_MCLK, Reg.PWR_SUPSTAT_EVT_CNT,
   Reg.PWR_SUPSTAT_VCOL_DROP, Reg.PWR_SUPSTAT_VSTO_DROP, Reg.PWR_SUPSTAT_VBB_DROP, Reg.PWR_SUPSTAT_VCOL_OK,
   Reg.PWR_SUPSTAT_VSTO_OK, Reg.PWR_SUPSTAT_VBB_OK, Reg.PWR_BKSTAT_VBAT_MV, Reg.PWR_BKSTAT_BK_LOST,
   Reg.PWR_BKSTAT_VBAT_LOW, Reg.PWR_BKSTAT_MTIME_GAP, Reg.PWR_BKSTAT_RTC_VALID]

def regTablePwr1 : List Fld :=
  [Reg.PWR_PFW_PF_CNT, Reg.PWR_PFW_SAVE_T, Reg.PWR_PFW_START_WAIT, Reg.PWR_PFW_DIP, Reg.PWR_PFW_ACTIVE,
   Reg.PWR_SVC_LAST_MS, Reg.PWR_SVC_FAIL_CNT, Reg.PWR_SVC_HELD, Reg.PWR_SVC_FAILED, Reg.PWR_SVC_RECOVERY,
   Reg.PWR_SVC_ATTENTION]

def regTableUpd0 : List Fld :=
  [Reg.UPD_DECK_STAT_BARE, Reg.UPD_DECK_STAT_FALLBACK, Reg.UPD_DECK_STAT_PREF, Reg.UPD_DECK_STAT_RUN,
   Reg.UPD_DECK_STAT_B_OK, Reg.UPD_DECK_STAT_A_OK, Reg.UPD_DECK_REJ_REASON, Reg.UPD_DECK_REJ_CARD,
   Reg.UPD_DECK_REJOFF_OFFSET, Reg.UPD_DECK_SERIAL_SERIAL, Reg.UPD_DECK_FLOOR_FLOOR,
   Reg.UPD_DECK_BOOT_BAY_MS, Reg.UPD_DECK_BOOT_DECK_MS, Reg.UPD_DECK_DIG_DIGEST, Reg.UPD_STAT_EVT_CNT,
   Reg.UPD_STAT_NO_FW, Reg.UPD_STAT_PENDING, Reg.UPD_STAT_PAUSE, Reg.UPD_STAT_TRIAL, Reg.UPD_STAT_FALLBACK,
   Reg.UPD_STAT_CHK_FAIL, Reg.UPD_STAT_LOADED, Reg.UPD_STAT_ACTIVATED, Reg.UPD_FW_RUN_SLOT,
   Reg.UPD_FW_SLOT_REASON, Reg.UPD_FW_SLOT_TRIES, Reg.UPD_FW_SLOT_STATE, Reg.UPD_FW_VER_FW_VER,
   Reg.UPD_FW_SVN_FLOOR, Reg.UPD_FW_SVN_RUN, Reg.UPD_ACT_PAUSE_MS, Reg.UPD_ACT_PREP_MS, Reg.UPD_FW_LIFE_ACTS,
   Reg.UPD_FW_LIFE_FALLBACKS]

def regTableDlr0 : List Fld :=
  [Reg.DLR_STAT_EVT_CNT, Reg.DLR_STAT_ARB_SAT, Reg.DLR_STAT_CE_BUDGET, Reg.DLR_STAT_CE_QFULL,
   Reg.DLR_STAT_LE_LATE, Reg.DLR_STAT_ME_OVR, Reg.DLR_ME_OVR_COUNT, Reg.DLR_COMMIT_GO, Reg.DLR_COMMIT_GROUP,
   Reg.DLR_CMT_LAST_APPLIED_CNT, Reg.DLR_CMT_LAST_GROUP, Reg.DLR_PEND_PENDING, Reg.DLR_LE_MAX_DEC,
   Reg.DLR_CE_MAX_START_MS, Reg.DLR_CE_MAX_WAIT, Reg.DLR_ARB_SAT, Reg.DLR_WEIGHT_W3, Reg.DLR_WEIGHT_W2,
   Reg.DLR_WEIGHT_W1, Reg.DLR_WEIGHT_W0, Reg.DLR_HAND_ENGINE, Reg.DLR_HAND_CLASS, Reg.DLR_HAND_WAIT,
   Reg.DLR_HAND_STATE]

def regTableSns0 : List Fld :=
  [Reg.SNS_STAT_EVT_CNT, Reg.SNS_STAT_MCK_FAULT, Reg.SNS_STAT_SEAL_REF, Reg.SNS_STAT_OVR_ANY,
   Reg.SNS_STAT_LOSS_ANY, Reg.SNS_LOSS_LOSS, Reg.SNS_OVR_OVR, Reg.SNS_FLAG_EVT_OVR, Reg.SNS_FLAG_EVT_LOSS2,
   Reg.SNS_FLAG_EVT_LOSS1, Reg.SNS_FLAG_EVT_LOSS0, Reg.SNS_LOST_LOST, Reg.SNS_ROMADDR_LEN,
   Reg.SNS_ROMADDR_ID, Reg.SNS_ROMADDR_TAP, Reg.SNS_ROMDATA_COEF, Reg.SNS_GRP_USED, Reg.SNS_GRP_MCK_ON,
   Reg.SNS_GRP_SAMPLE_PH, Reg.SNS_CFG_ROLE, Reg.SNS_CFG_SENSOR, Reg.SNS_CFG_CIC_ORDER, Reg.SNS_CFG_MCOMP,
   Reg.SNS_CFG_PCOMP, Reg.SNS_CFG_QSEL, Reg.SNS_CFG_INTEG_K, Reg.SNS_CFG_NOM60, Reg.SNS_CFG_POLE,
   Reg.SNS_CFG_BAY, Reg.SNS_CFG_HOME_GROUP, Reg.SNS_DLY_REAL, Reg.SNS_DLY_DLY, Reg.SNS_SSTAT_CAUSE,
   Reg.SNS_SSTAT_SLEW, Reg.SNS_SSTAT_SETTLE, Reg.SNS_SSTAT_OVR, Reg.SNS_SSTAT_LOST, Reg.SNS_DENS_ONES,
   Reg.SNS_LATM_LAT, Reg.SNS_LATP_LAT]

def regTableSns1 : List Fld :=
  [Reg.SNS_LOSSCNT_LOSS, Reg.SNS_LOSSCNT_OVR_CNT, Reg.SNS_SETL_MET, Reg.SNS_SETL_PRT]

def regTableMtr0 : List Fld :=
  [Reg.MTR_CFG_KIND, Reg.MTR_CFG_ACC, Reg.MTR_CFG_SMODE, Reg.MTR_CFG_IMP_ONLY, Reg.MTR_CFG_CHECKS,
   Reg.MTR_CFG_ISTREAM, Reg.MTR_CFG_VSTREAM, Reg.MTR_SEQ_SEQ, Reg.MTR_CYC_LO_COUNT, Reg.MTR_CYC_HI_COUNT,
   Reg.MTR_STAT_EVT_CNT, Reg.MTR_STAT_VMISS, Reg.MTR_STAT_FREERUN, Reg.MTR_STAT_NOLOAD, Reg.MTR_STAT_VALID,
   Reg.MTR_STAT_CHK_DEV, Reg.MTR_STAT_REV, Reg.MTR_STAT_VMISS_EV, Reg.MTR_STAT_INCOMP, Reg.MTR_STAT_FORCED,
   Reg.MTR_FREQ_FREQ, Reg.MTR_VRMS_VRMS, Reg.MTR_IRMS_IRMS, Reg.MTR_P_P, Reg.MTR_Q_Q, Reg.MTR_S_S,
   Reg.MTR_CYCT_DUR, Reg.MTR_EA_IMP_LO_TOTAL, Reg.MTR_EA_IMP_HI_TOTAL, Reg.MTR_EA_EXP_LO_TOTAL,
   Reg.MTR_EA_EXP_HI_TOTAL, Reg.MTR_ER_Q1_LO_TOTAL, Reg.MTR_ER_Q1_HI_TOTAL, Reg.MTR_ER_Q2_LO_TOTAL,
   Reg.MTR_ER_Q2_HI_TOTAL, Reg.MTR_ER_Q3_LO_TOTAL, Reg.MTR_ER_Q3_HI_TOTAL, Reg.MTR_ER_Q4_LO_TOTAL,
   Reg.MTR_ER_Q4_HI_TOTAL, Reg.MTR_ES_IMP_LO_TOTAL]

def regTableMtr1 : List Fld :=
  [Reg.MTR_ES_IMP_HI_TOTAL, Reg.MTR_ES_EXP_LO_TOTAL, Reg.MTR_ES_EXP_HI_TOTAL, Reg.MTR_INV_LO_COUNT,
   Reg.MTR_INV_HI_COUNT, Reg.MTR_LIFE_REV_EP, Reg.MTR_LIFE_VMISS_EP, Reg.MTR_CYINV_INV, Reg.MTR_CHK_WIN,
   Reg.MTR_CHK_DEV, Reg.MTR_END_LO_MS_LO, Reg.MTR_END_LO_FRAC, Reg.MTR_END_HI_MS_HI, Reg.MTR_CPT_CFG_N,
   Reg.MTR_CPT_CFG_UNIT, Reg.MTR_CPT_SEQ_VALUE, Reg.MTR_CPT_EA_IMP_VALUE, Reg.MTR_CPT_EA_EXP_VALUE,
   Reg.MTR_CPT_ER_IND_VALUE, Reg.MTR_CPT_ER_CAP_VALUE, Reg.MTR_CPT_ES_VALUE, Reg.MTR_LIM_CREEP,
   Reg.MTR_LIM_VNOM, Reg.MTR_CHKCFG_ZC_HYST, Reg.MTR_CHKCFG_CHK_TOL, Reg.MTR_CHKCFG_CHK_CYC,
   Reg.MTR_VFS_VALUE, Reg.MTR_IFS_VALUE, Reg.MTR_GAIN_V_VALUE, Reg.MTR_GAIN_I_VALUE, Reg.MTR_OFS_V_VALUE,
   Reg.MTR_OFS_I_VALUE]

def regTableBil0 : List Fld :=
  [Reg.BIL_STAT_EVT_CNT, Reg.BIL_STAT_LS_FAIL, Reg.BIL_STAT_SEALED, Reg.BIL_STAT_TIME_BEHIND,
   Reg.BIL_STAT_UNALIGNED, Reg.BIL_STAT_MT_GAP, Reg.BIL_STAT_COPY_NEW, Reg.BIL_STAT_SAVE_FAIL,
   Reg.BIL_STAT_SHORT, Reg.BIL_STAT_PEND_DONE, Reg.BIL_STAT_STEP, Reg.BIL_STAT_PERIOD, Reg.BIL_TARIFF_SRC,
   Reg.BIL_TARIFF_ACTIVE, Reg.BIL_OVR_TARIFF, Reg.BIL_OVR_ACTIVE, Reg.BIL_OVR_PENDING,
   Reg.BIL_OVR_START_SECONDS, Reg.BIL_OVR_END_SECONDS, Reg.BIL_PERIOD_NUMBER, Reg.BIL_DEMAND_INDEX,
   Reg.BIL_DEMAND_SHORT_RUN, Reg.BIL_DEMAND_LENGTH, Reg.BIL_WALL_LO_MS, Reg.BIL_WALL_HI_MS, Reg.BIL_MT_LO_MS,
   Reg.BIL_MT_HI_MS, Reg.BIL_SAVE_AGE_MS, Reg.BIL_SAVE_FAIL_CNT, Reg.BIL_SAVE_COPY, Reg.BIL_SAVE_FINAL,
   Reg.BIL_LOSS_BOUND, Reg.BIL_LOSS_TAIL_MS, Reg.BIL_CMD_CTR_VALUE, Reg.BIL_KSR_VALUE, Reg.BIL_LEGAL_QUEUE,
   Reg.BIL_LEGAL_ITEM, Reg.BIL_LEGAL_BAY, Reg.BIL_LEGAL_RUNNING]

def regTableBay0 : List Fld :=
  [Reg.BAY_CFG_TYPE, Reg.BAY_CFG_PP_MODE, Reg.BAY_CFG_WSEN_POL, Reg.BAY_CFG_BIDIR, Reg.BAY_CFG_ALLOW_D,
   Reg.BAY_CFG_HLC, Reg.BAY_CFG_FREE, Reg.BAY_CFG_COIL_CH, Reg.BAY_CFG_LOCK_CH, Reg.BAY_CFG_LOCK_FB,
   Reg.BAY_LIM_IMAX, Reg.BAY_LIM_IDEF, Reg.BAY_TIM0_T_CLOSE, Reg.BAY_TIM0_T_OPEN, Reg.BAY_TIM0_T_LOCK,
   Reg.BAY_TIM1_T_STOP, Reg.BAY_TIM1_CABLE_A, Reg.BAY_TIM1_T_AUTH, Reg.BAY_TIM2_PAUSE_MAX, Reg.BAY_SEQ_SEQ,
   Reg.BAY_PILOT_VHIGH, Reg.BAY_PILOT_VLOW, Reg.BAY_PSTAT_REC, Reg.BAY_PSTAT_RAW, Reg.BAY_PSTAT_MODE,
   Reg.BAY_PSTAT_SLEWING, Reg.BAY_PSTAT_DUTY, Reg.BAY_PROX_CODE, Reg.BAY_PROX_OHM, Reg.BAY_FB_LOCKED,
   Reg.BAY_FB_GRANT, Reg.BAY_FB_GATE, Reg.BAY_FB_WSEN, Reg.BAY_FB_WELD_OK, Reg.BAY_FB_SAFE_OK,
   Reg.BAY_FB_PROT_OK, Reg.BAY_FB_PILOT_OK, Reg.BAY_FB_ENABLED, Reg.BAY_EVT_EVT_CNT, Reg.BAY_EVT_CMD_DROP]

def regTableBay1 : List Fld :=
  [Reg.BAY_EVT_HLC_FB, Reg.BAY_EVT_UNDER_LOAD, Reg.BAY_EVT_GRANT_REF, Reg.BAY_EVT_CLOSE_FAIL,
   Reg.BAY_EVT_WELD, Reg.BAY_EVT_LOCK_FAIL, Reg.BAY_EVT_PILOT_FAULT, Reg.BAY_EVT_PP_FAULT,
   Reg.BAY_EVT_SESS_END, Reg.BAY_STATE_REASON, Reg.BAY_STATE_CLOSING_H, Reg.BAY_STATE_PAUSED_H,
   Reg.BAY_STATE_ACTIVE_H, Reg.BAY_STATE_STATE, Reg.BAY_SESS_NUMBER, Reg.BAY_LIFE_LOADBRK, Reg.BAY_LIFE_WELD,
   Reg.BAY_LIFE_CLOSEF, Reg.BAY_OFFER_EFF, Reg.BAY_OFFER_OFFER, Reg.BAY_CMD_CMD, Reg.BAY_PWM_SH_MODE,
   Reg.BAY_PWM_SH_DUTY, Reg.BAY_PWM_CMT_GO, Reg.BAY_DC_CFG_PORT, Reg.BAY_DC_CFG_NODE, Reg.BAY_DC_CFG_NBR,
   Reg.BAY_DC_CFG_DBR, Reg.BAY_DC_CFG_VMAX, Reg.BAY_DC_CFG_PMAX, Reg.BAY_DC_STAT_STATE,
   Reg.BAY_DC_STAT_FAULT, Reg.BAY_DC_STAT_CODE, Reg.BAY_DC_STAT_LOST, Reg.BAY_DC_STAT_ONLINE,
   Reg.BAY_DC_MEAS_V_OUT, Reg.BAY_DC_MEAS_I_OUT, Reg.BAY_DC_ERR_CRC, Reg.BAY_DC_ERR_CNT]

def regTablePrt0 : List Fld :=
  [Reg.PRT_STAT_EVT_CNT, Reg.PRT_STAT_MCLK_BLIND, Reg.PRT_STAT_CLR_REF, Reg.PRT_STAT_AUTO_CLR,
   Reg.PRT_STAT_BLIND_ANY, Reg.PRT_STAT_LATCH_ANY, Reg.PRT_SEQ_SEQ, Reg.PRT_LATCH_LATCHED, Reg.PRT_EVT_TRIP,
   Reg.PRT_CLR_KINDS, Reg.PRT_CLR_GO, Reg.PRT_CLR_INST, Reg.PRT_FDR_ALLOC, Reg.PRT_FDR_FEED_A,
   Reg.PRT_CFG_DC_EN, Reg.PRT_CFG_AUTO, Reg.PRT_CFG_IAN_LO, Reg.PRT_CFG_IAN_DECK, Reg.PRT_IAN_IAN,
   Reg.PRT_RES_AC, Reg.PRT_RES_DC, Reg.PRT_OC_IPK, Reg.PRT_OC_LIM, Reg.PRT_RED_CAP, Reg.PRT_RED_BELOW_S,
   Reg.PRT_INS_RISO, Reg.PRT_INS_STATE, Reg.PRT_INS_INJ, Reg.PRT_INS_CHECK, Reg.PRT_LAT_AUTO_CNT,
   Reg.PRT_LAT_KINDS, Reg.PRT_LIFE_RAC, Reg.PRT_LIFE_RDC, Reg.PRT_LIFE_OC, Reg.PRT_LIFE_INS]

def regTableLnk0 : List Fld :=
  [Reg.LNK_STAT_EVT_CNT, Reg.LNK_STAT_FAILED, Reg.LNK_TEST_GO, Reg.LNK_TEST_RUNNING, Reg.LNK_TEST_PASS,
   Reg.LNK_MASK_MASK_IDX, Reg.LNK_VSTAT_STATE, Reg.LNK_VSTAT_PROTO, Reg.LNK_VSTAT_TLS, Reg.LNK_VSTAT_PNC,
   Reg.LNK_VSTAT_ATTEN, Reg.LNK_VSTAT_TRY, Reg.LNK_VATT_APPLIED, Reg.LNK_VATT_ATT, Reg.LNK_CATT_APPLIED,
   Reg.LNK_CATT_ATT, Reg.LNK_VCNT_RX, Reg.LNK_VCNT_ERR, Reg.LNK_VEVT_SLAC_DUP, Reg.LNK_VEVT_PROTO_ERR,
   Reg.LNK_VEVT_TLS_FAIL, Reg.LNK_VEVT_LINK_LOSS, Reg.LNK_VEVT_SLAC_FAIL, Reg.LNK_VPEER_LO_MAC_LO,
   Reg.LNK_VPEER_HI_MAC_HI, Reg.LNK_CSTAT_ROLE, Reg.LNK_CSTAT_POS_UNKNOWN, Reg.LNK_CSTAT_CHAIN_IN,
   Reg.LNK_CSTAT_CHAIN_OUT, Reg.LNK_CSTAT_ADDR, Reg.LNK_CSTAT_COORD, Reg.LNK_CSTAT_CHAIN_ID,
   Reg.LNK_CCFG_PRIORITY, Reg.LNK_CCFG_MODE, Reg.LNK_CCFG_POSITION, Reg.LNK_CCFG_RELAY_EN,
   Reg.LNK_CCFG_SLOT_SYM, Reg.LNK_CCFG_INTLV_SYM, Reg.LNK_CALLOC_APPLIED, Reg.LNK_CALLOC_RECEIVED]

def regTableLnk1 : List Fld :=
  [Reg.LNK_CBUDGET_BUDGET, Reg.LNK_CBUDGET_SRC, Reg.LNK_CBUDGET_POSTS, Reg.LNK_CEVT_BUDGET_MISM,
   Reg.LNK_CEVT_ADDR_MOVED, Reg.LNK_CEVT_JOIN_REF, Reg.LNK_CEVT_AUTH_ERR, Reg.LNK_CEVT_DROP,
   Reg.LNK_CEVT_YIELD, Reg.LNK_CEVT_ELECTED, Reg.LNK_CEVT_BEACON_LOSS, Reg.LNK_CCNT_DROP, Reg.LNK_CCNT_RETRY,
   Reg.LNK_CCNT_CRC, Reg.LNK_CLIFE_ELECT, Reg.LNK_CLIFE_LOSS, Reg.LNK_CCMD_CMD, Reg.LNK_CROSTER_PRESENT,
   Reg.LNK_CROSTER_HELD, Reg.LNK_CROSTER_ALLOC]

def regTableLsw0 : List Fld :=
  [Reg.LSW_STAT_EVT_CNT, Reg.LSW_STAT_CLR_VOID, Reg.LSW_STAT_SHED_EV, Reg.LSW_STAT_TEST_DONE,
   Reg.LSW_STAT_LATCH_ANY, Reg.LSW_STAT_FAULT_ANY, Reg.LSW_FLT_ANY, Reg.LSW_CLR_GO, Reg.LSW_CLR_CH,
   Reg.LSW_TEST_GO, Reg.LSW_TEST_RUNNING, Reg.LSW_BANK_I_MA, Reg.LSW_BANK_SHED_CNT, Reg.LSW_BANK_OVL,
   Reg.LSW_LINE_MODE, Reg.LSW_LINE_LEVEL, Reg.LSW_LINE_OFF_T, Reg.LSW_LINE_ON_T, Reg.LSW_CFG_KIND,
   Reg.LSW_CFG_SRC_IDX, Reg.LSW_CFG_INVERT, Reg.LSW_CFG_FUNC, Reg.LSW_CFG_POLICY, Reg.LSW_CFG_RETRY,
   Reg.LSW_CFG_INRUSH, Reg.LSW_CFG_DT_MAX, Reg.LSW_CFG2_RETRY_DS, Reg.LSW_CFG2_OL_MA, Reg.LSW_CFG2_OFFTEST,
   Reg.LSW_CTL_MAXCLASS, Reg.LSW_CTL_DECKCLASS, Reg.LSW_CTL_CLASS, Reg.LSW_ST_STATE, Reg.LSW_ST_APPLIED,
   Reg.LSW_ST_RETRY_LEFT, Reg.LSW_ST_EVT_CNT, Reg.LSW_ST_SYMP, Reg.LSW_ST_SHED, Reg.LSW_ST_SHORT_VBB,
   Reg.LSW_ST_OPEN_OFF]

def regTableLsw1 : List Fld :=
  [Reg.LSW_ST_OPEN_ON, Reg.LSW_ST_TABS, Reg.LSW_ST_THERM, Reg.LSW_ST_OC, Reg.LSW_MEAS_I_MA, Reg.LSW_MEAS_TJ,
   Reg.LSW_MEAS_DT, Reg.LSW_LIFE_FAULTS, Reg.LSW_LIFE_LATCH, Reg.LSW_LIFE_SYMP]

def regTableSaf0 : List Fld :=
  [Reg.SAF_STAT_EVT_CNT, Reg.SAF_STAT_SRST_REF, Reg.SAF_STAT_SRST_STUCK, Reg.SAF_STAT_SC_FAULT,
   Reg.SAF_STAT_FAULT_EV, Reg.SAF_STAT_DEMAND_EV, Reg.SAF_STAT_FAULT_ANY, Reg.SAF_STAT_STO_ANY,
   Reg.SAF_ARCH_ARCH, Reg.SAF_IN_RUN, Reg.SAF_INFLT_DISC, Reg.SAF_PERM_PERM, Reg.SAF_SRST_LAST_MS,
   Reg.SAF_SRST_STUCK_CNT, Reg.SAF_SRST_HELD, Reg.SAF_INCFG_IN_EN, Reg.SAF_INCFG_POL, Reg.SAF_INCFG_STOP_CAT,
   Reg.SAF_INCFG_RESTART, Reg.SAF_INCFG_T_DISC, Reg.SAF_AXCFG_AX_EN, Reg.SAF_AXCFG_DRV_PORT,
   Reg.SAF_AXCFG_DRV_NODE, Reg.SAF_AXCFG_RES_UM, Reg.SAF_AXLIM_DECEL, Reg.SAF_AXLIM_T_LAG,
   Reg.SAF_AXLIM_SPEED_MAX, Reg.SAF_AXLIM2_V_TOL, Reg.SAF_AXLIM2_V_STAND, Reg.SAF_AXLIM2_T_STAND,
   Reg.SAF_SPD_MODE, Reg.SAF_SPD_V_CMD, Reg.SAF_AXSTAT_STATE, Reg.SAF_AXSTAT_CAUSE, Reg.SAF_AXSTAT_APPLIED,
   Reg.SAF_AXSTAT_BRAKE_REL, Reg.SAF_AXSTAT_STOB, Reg.SAF_AXSTAT_STOA, Reg.SAF_AXSTAT_DRV_ONLINE,
   Reg.SAF_AXMEAS_SPEED]

def regTableSaf1 : List Fld :=
  [Reg.SAF_AXMEAS_ENV, Reg.SAF_AXPOS_POS, Reg.SAF_AXLIFE_DEMANDS, Reg.SAF_AXLIFE_FAULTS]

def regTableNfc0 : List Fld :=
  [Reg.NFC_STAT_EVT_CNT, Reg.NFC_STAT_TABLE_READY, Reg.NFC_STAT_FIELD_ON, Reg.NFC_STAT_TAG_FIELD,
   Reg.NFC_STAT_UNCORR, Reg.NFC_STAT_LATE, Reg.NFC_STAT_TBL_LOST, Reg.NFC_STAT_CKPT_FAIL,
   Reg.NFC_STAT_DELTA_REJ, Reg.NFC_STAT_OVER8, Reg.NFC_STAT_MULTI, Reg.NFC_STAT_PRES, Reg.NFC_CFG_READER_EN,
   Reg.NFC_CFG_RATE_MAX, Reg.NFC_CFG_TAG_EN, Reg.NFC_CFG_KINDS, Reg.NFC_CFG_AUTH_MODE, Reg.NFC_CFG_DKEY_IDX,
   Reg.NFC_CFG_POLL_MS, Reg.NFC_CFG_T_PEND, Reg.NFC_CFG2_T_HOST, Reg.NFC_PRES_PRES_NO, Reg.NFC_PRES_RESULT,
   Reg.NFC_PRES_BAY, Reg.NFC_PRES_KIND, Reg.NFC_PRES_TIME_INV, Reg.NFC_PRES_PARTIAL, Reg.NFC_PRES_PROFILE,
   Reg.NFC_PRES_HASH_HASH, Reg.NFC_VERDICT_PRES_NO, Reg.NFC_VERDICT_VERDICT, Reg.NFC_VERDICT_BAY,
   Reg.NFC_VERDICT_USE_BAY, Reg.NFC_TBL_CNT_COUNT, Reg.NFC_TBL_GEN_GEN, Reg.NFC_TBL_STAT_STASH,
   Reg.NFC_TBL_STAT_WALK_MAX, Reg.NFC_TBL_STAT_CKPT, Reg.NFC_TBL_STAT_JOURNAL, Reg.NFC_LOOKUP_MAX_NS]

def regTableNfc1 : List Fld :=
  [Reg.NFC_LOOKUP_COUNT, Reg.NFC_DELTA_REASON, Reg.NFC_DELTA_RECORDS, Reg.NFC_TAGSTAT_OPEN,
   Reg.NFC_TAGSTAT_PAGE, Reg.NFC_TAGSTAT_RESULT, Reg.NFC_TAGSTAT_AUTH_LOCK, Reg.NFC_TAGSTAT_FIELD,
   Reg.NFC_TAGSTAT_BUSY, Reg.NFC_TAGCMD_GO, Reg.NFC_TAGCMD_OP, Reg.NFC_TAGCMD_PAGE, Reg.NFC_TAGUID_LO_UID,
   Reg.NFC_TAGUID_HI_UID, Reg.NFC_TAGDATA_DATA]

def regTableDsp0 : List Fld :=
  [Reg.DSP_STAT_EVT_CNT, Reg.DSP_STAT_EPTH_FLT_EV, Reg.DSP_STAT_ABORT, Reg.DSP_STAT_CRACK_L_EV,
   Reg.DSP_STAT_CRACK_E_EV, Reg.DSP_ECTL_SWAP, Reg.DSP_ECTL_APPLIED, Reg.DSP_ECTL_I_COL, Reg.DSP_ESTAT_FRAME,
   Reg.DSP_ESTAT_SCAN, Reg.DSP_ESTAT_SWAP_PEND, Reg.DSP_ESTAT_FRONT, Reg.DSP_ESTAT_CRACK_E,
   Reg.DSP_LSTAT_WINDOW, Reg.DSP_LSTAT_SINCE_FULL, Reg.DSP_LSTAT_BAND, Reg.DSP_LSTAT_PHASE,
   Reg.DSP_LSTAT_FULL, Reg.DSP_LSTAT_PEND, Reg.DSP_LSTAT_DEFER, Reg.DSP_LSTAT_NEUTRAL, Reg.DSP_LSTAT_RV,
   Reg.DSP_LSTAT_EPTH_FAULT, Reg.DSP_LSTAT_CRACK_L, Reg.DSP_LCMD_FULL, Reg.DSP_LTEMP_TEMP,
   Reg.DSP_LLIFE_UPDATES, Reg.DSP_ELIFE_HOURS, Reg.DSP_WFADDR_ID, Reg.DSP_WFADDR_FRAME, Reg.DSP_WFDATA_M,
   Reg.DSP_WFDATA_DATA, Reg.DSP_LIMG_SEG]

def regTableSec0 : List Fld :=
  [Reg.SEC_STAT_EVT_CNT, Reg.SEC_STAT_RESTART_REQ, Reg.SEC_STAT_KEYS_AVAIL, Reg.SEC_STAT_DEV_KEY,
   Reg.SEC_STAT_PUF_FAIL, Reg.SEC_STAT_CTR_MISM, Reg.SEC_STAT_DBG_REF, Reg.SEC_STAT_DBG_GRANT,
   Reg.SEC_STAT_KUM_REJ, Reg.SEC_STAT_KUM_OK, Reg.SEC_LC_LC, Reg.SEC_LC_SEALED, Reg.SEC_LC_FUSES,
   Reg.SEC_LC_SVC_CNT, Reg.SEC_KEYCTR_BACKUP, Reg.SEC_KEYCTR_CTR, Reg.SEC_KEYRES_REASON, Reg.SEC_KEYRES_OP,
   Reg.SEC_KEYRES_KEY_ID, Reg.SEC_DBG_FULL_CNT, Reg.SEC_DBG_LEFT_MIN, Reg.SEC_DBG_SRC, Reg.SEC_DBG_REQ,
   Reg.SEC_DBG_LEVEL, Reg.SEC_DBGRES_RESULT, Reg.SEC_DBG_NONCE_NONCE, Reg.SEC_MFW_DIGEST,
   Reg.SEC_KEYMAP_LOADED]

def regTableHst0 : List Fld :=
  [Reg.HST_STAT_EVT_CNT, Reg.HST_STAT_BULK_ABORT, Reg.HST_STAT_EVT_LOST, Reg.HST_STAT_AUTH_FAIL,
   Reg.HST_STAT_FRAME_ERR, Reg.HST_STAT_LAPSE, Reg.HST_STAT_HANDOVER, Reg.HST_STAT_AUCTION,
   Reg.HST_STAT_NO_DECL, Reg.HST_OWNER_DECL, Reg.HST_OWNER_TARGET, Reg.HST_OWNER_HO_LEFT, Reg.HST_OWNER_AUCT,
   Reg.HST_OWNER_RANK, Reg.HST_CTL_NET_OFF, Reg.HST_SESS_STATE, Reg.HST_SESS_XPORT, Reg.HST_SESS_DECLARER,
   Reg.HST_SESS_BID, Reg.HST_SESS_SUB, Reg.HST_SESS_RANK, Reg.HST_SESS_CLIENT, Reg.HST_SESS_IDLE,
   Reg.HST_SCNT_RX, Reg.HST_SCNT_ERR, Reg.HST_EVTSEQ_SEQ, Reg.HST_SVC_WINDOW_S, Reg.HST_SVC_SEC,
   Reg.HST_SVC_BAUD, Reg.HST_LIFE_AUCTIONS, Reg.HST_LIFE_LAPSES]

def regTableMem0 : List Fld :=
  [Reg.MEM_STAT_EVT_CNT, Reg.MEM_STAT_LIST_FULL, Reg.MEM_STAT_KITTY_EMPTY, Reg.MEM_STAT_LATE_D,
   Reg.MEM_STAT_LATE_S, Reg.MEM_STAT_UE_D, Reg.MEM_STAT_CE_D, Reg.MEM_STAT_UE_S, Reg.MEM_STAT_CE_S,
   Reg.MEM_SERR_CE, Reg.MEM_SERR_UE, Reg.MEM_SADDR_ADDR, Reg.MEM_DERR_CE, Reg.MEM_DERR_UE,
   Reg.MEM_DADDR_ADDR, Reg.MEM_DSTAT_TRAIN_FAIL, Reg.MEM_DSTAT_SIZE4, Reg.MEM_DSTAT_READY,
   Reg.MEM_SCRUB_LAST_D, Reg.MEM_SCRUB_LAST_S, Reg.MEM_LIFE_UE_D, Reg.MEM_LIFE_UE_S, Reg.MEM_ECCT_GO,
   Reg.MEM_ECCT_EN, Reg.MEM_ECCT_OP, Reg.MEM_ECCT_DONE, Reg.MEM_ECCT_CHK, Reg.MEM_ECCT_ADDR_ADDR,
   Reg.MEM_ECCT_DLO_DATA, Reg.MEM_ECCT_DHI_DATA, Reg.MEM_APBASE_BASE, Reg.MEM_CAPCFG_GO, Reg.MEM_CAPCFG_PATH,
   Reg.MEM_CAPCFG_NCH, Reg.MEM_CAPCFG_SAMPLES, Reg.MEM_CAPSTAT_STATE, Reg.MEM_CAPSTAT_DONE_K,
   Reg.MEM_CAPSTAT_INV, Reg.MEM_CAPSEL_STREAM, Reg.MEM_CQ_POP]

def regTableMem1 : List Fld :=
  [Reg.MEM_CQ_RESV, Reg.MEM_CQ_COUNT, Reg.MEM_CQREC0_TAG, Reg.MEM_CQREC0_CH, Reg.MEM_CQREC0_STATUS,
   Reg.MEM_CQREC1_BYTES, Reg.MEM_KITTY_USED, Reg.MEM_TE_SADDR_ADDR, Reg.MEM_TE_SSHAPE_LINES,
   Reg.MEM_TE_SSHAPE_LINE_W, Reg.MEM_TE_SSTRIDE_STRIDE_W, Reg.MEM_TE_DADDR_ADDR, Reg.MEM_TE_DSHAPE_LINES,
   Reg.MEM_TE_DSHAPE_LINE_W, Reg.MEM_TE_DSTRIDE_STRIDE_W, Reg.MEM_TE_CTL_GO, Reg.MEM_TE_CTL_REQ,
   Reg.MEM_TE_CTL_TAG, Reg.MEM_TE_STAT_STATE, Reg.MEM_TE_STAT_BYTES]

/-- The fields of one register set, and those of the tamper records. -/
def regTableSet (s : Nat) : List Fld :=
  [Reg.setLo s, Reg.setHi s, Reg.setTotLo s, Reg.setTotHi s, Reg.setMdW s, Reg.setMdWall s, Reg.setMdMtLo s,
   Reg.setMdMtHi s, Reg.setSeq s, Reg.setCfgKind s, Reg.setCfgElems s]

/-- Every register field of the spec's tables. -/
def regTable : List Fld :=
  (List.range 17).flatMap regTableSet ++ (List.range 8).map Reg.tcWord ++
  regTableDev0 ++ regTablePwr0 ++ regTablePwr1 ++ regTableUpd0 ++ regTableDlr0 ++ regTableSns0 ++
  regTableSns1 ++ regTableMtr0 ++ regTableMtr1 ++ regTableBil0 ++ regTableBay0 ++ regTableBay1 ++
  regTablePrt0 ++ regTableLnk0 ++ regTableLnk1 ++ regTableLsw0 ++ regTableLsw1 ++ regTableSaf0 ++
  regTableSaf1 ++ regTableNfc0 ++ regTableNfc1 ++ regTableDsp0 ++ regTableSec0 ++ regTableHst0 ++
  regTableMem0 ++ regTableMem1

end Sys2Proof.Machine
end

