-- ==== Sys2Proof/Machine/State.lean ====
section
/-!
DEFINITION. The state of the KL-1640 as plain data: its register fields in sparse maps, the state behind them chapter by
chapter, and the queue of commands waiting. `State.reset` is the state when RESET_N is released after a power-on.
-/

namespace Sys2Proof.Machine
open Sys2Proof

/-- A step never ends in a fault: no rule of the spec stops the device. -/
inductive Fault where
  deriving DecidableEq, Repr

/-- Why a step is refused. -/
inductive Refusal where
  /-- Raised by a dispatch arm whose command has no meaning yet; safe, since nothing happens. -/
  | notModelled (mnemonic : String)
  deriving DecidableEq, Repr

/-- The status codes of R472, in the order of their values. -/
inductive Status where
  | ok | lenRange | crc | typ | version | range | addr | busy | state | notDeclarer | sig | bind | rollback | trump
  | sealed | bare
  deriving DecidableEq, Repr, Inhabited

/-- One direction of the bridge: repeats spent on the flit in flight, and idle flits sent (R17, R18). -/
structure BridgeDir where
  retry : Nat := 0
  idle  : Nat := 0
  deriving DecidableEq, Repr, Inhabited

/-- A flit of class TRIP waiting in the logic-to-power direction (R17, R30): latches of a protection instance (R274), or
the safety controllers' disagreement (R371). -/
inductive TripReq where
  | latch (inst : Nat) (kinds : BitVec 6)
  | safety
  deriving DecidableEq, Repr, Inhabited

/-- The die bridge (R17-R21): both directions, which die declared it down, and the TRIP flits enqueued. -/
structure BridgeState where
  toPower   : BridgeDir := {}
  toLogic   : BridgeDir := {}
  downPower : Bool := false
  downLogic : Bool := false
  trips     : List TripReq := []
  deriving DecidableEq, Repr, Inhabited

/-- Where the logic die stands (R47, R75, R76, R96, R100). -/
inductive Phase where
  | held      -- the logic die is held in reset
  | startDue  -- it is released and the start sequence is the next thing to run
  | startWait -- the start sequence waits for PFWARN_N (R75)
  | bare      -- bare mode (R96)
  | run       -- an accepted deck runs
  deriving DecidableEq, Repr, Inhabited

/-- Clock checks, reset requests and button presses of the clocks, supplies and reset chapter. -/
structure PwrState where
  phase      : Phase := .startDue
  vpd5       : Bool := true   -- VPD5 above its brownout threshold
  vp12       : Bool := true   -- VP12 and VN12 within their thresholds
  hold       : Bool := false  -- the device is in HOLD
  off        : Bool := false  -- the device is in OFF
  porFired   : Bool := true   -- the backup power-on detector has fired since the last start (R67)
  holdPassed : Bool := false  -- the power die lost its supply since the last start (R77)
  firstCause : Option Nat := none -- the first reset cause since the last start (R77)
  resetLow   : Bool := false  -- RESET_N is recognised low
  pllLost    : Bool := false  -- the core PLL has lost lock
  bclkHold   : Bool := false  -- held under R525
  bmonPass   : Nat := 0       -- consecutive passing BMON windows while held (R525)
  mclkFail   : Nat := 0       -- consecutive failed MCLK windows
  mclkGood   : Nat := 0       -- consecutive passing MCLK windows since a fault, to 100
  mclkFault  : Bool := false  -- sensing is stopped by an MCLK fault (R59)
  bclkFail   : Nat := 0       -- consecutive failed windows of BCLK against MCLK
  bclkFlag   : Bool := false  -- BCLK_FAULT is to be set at the next start
  tclkFail   : Nat := 0       -- consecutive TCLK presence windows without an edge
  driftFail  : Nat := 0       -- consecutive failed windows of TCLK against MCLK
  tclkGone   : Bool := false  -- TCLK does not run
  tclkBack   : Bool := false  -- TCLK has returned and meter time goes back at the next millisecond
  mclkMs     : Nat := 0       -- MCLK cycles of the millisecond in progress when TCLK stopped
  linkPll    : Bool := true   -- the link PLL is locked
  hostPll    : Bool := true   -- the host PLL is locked
  fclk       : Bool := true   -- FCLK runs
  idleMs     : Nat := 0       -- the idle timer (R526), ms
  sbEntry    : Bool := false  -- entry into STANDBY is in progress (R64)
  timerWake  : Bool := false  -- in LEAN for a billing-timer wake (R66)
  pfLow      : Bool := false  -- PFWARN_N is recognised low
  svcStart   : Option Nat := none -- meter time at which the press in progress began (R78)
  svcStale   : Option Nat := none -- SVCBTN_N has read low since RESET_N rose at this meter time (R79)
  svcDone    : Bool := false  -- the press in progress was recognised as failed closed
  vbbOk      : BitVec 6 := 63 -- bank supplies above their brownout level
  vstoOk     : Bool := true
  vcolOk     : Bool := true
  sbAt       : Nat := 0      -- meter time of entry into STANDBY (R474)
  startAt    : Nat := 0      -- meter time of the present start (R107)
  fuseRows   : List (Nat × Nat) := [] -- rows of the fuse map of the Kitty (R481)
  bidOpen    : Option Nat := none -- meter time at which the service-port bid window ends (R78)
  deriving DecidableEq, Repr, Inhabited

/-- One input sampled under R69: the registered level. -/
structure TamperIn where
  level : Bool := false
  deriving DecidableEq, Repr, Inhabited



/-- A card of the running deck (R83): its type, version, flags, and payload. -/
structure Card where
  typ     : Nat
  version : Nat
  flags   : Nat
  payload : List Nat
  deriving DecidableEq, Repr, Inhabited

/-- The deck (chapter 04): the bytes of the two deck slots of the boot flash, the cards of the running deck, and the slot
written by the last DECK_LOAD completed since the start. -/
structure DeckState where
  flash  : Vector (List Nat) 2 := Vector.replicate 2 []
  cards  : List Card := []
  loaded : Option Nat := none
  deriving DecidableEq, Repr, Inhabited

/-- One piece of work of a link hand (R111): its link class 1-3, the LCLK cycle of its event, the tricks it has waited for an
engine, whether a trick has begun it, and the payload of a received frame (R113). -/
structure LinkWork where
  cls     : Nat
  event   : Nat := 0
  waited  : Nat := 0
  begun   : Bool := false
  payload : List Nat := []
  deriving DecidableEq, Repr, Inhabited

/-- A link hand H64-H95: the work waiting for an engine, and the work and the LE of the trick in progress. -/
structure LinkHand where
  work    : List LinkWork := []
  serving : Option LinkWork := none
  engine  : Option Nat := none
  deriving DecidableEq, Repr, Inhabited

/-- A crypto request that holds a hand (R114-R117): hand number, crypto class 1-4, issue number, the CE that serves it in the
trick in progress, and the tricks it has waited for its first trick. -/
structure CeReq where
  hand    : Nat
  cls     : Nat
  no      : Nat := 0
  engine  : Option Nat := none
  served  : Bool := false
  waited  : Nat := 0
  deriving DecidableEq, Repr, Inhabited

/-- A CE's count of the window: its tricks and the tricks each class has received (R114). -/
structure CeWindow where
  tricks : Nat := 0
  given  : Vector Nat 4 := Vector.replicate 4 0
  deriving DecidableEq, Repr, Inhabited

/-- A request waiting at an arbiter (R127): its master, its target, its age ticket in 5 ns, and whether it is saturated. -/
structure ArbReq where
  master    : Nat
  target    : Nat := 0
  ticket    : Nat
  saturated : Bool := false
  deriving DecidableEq, Repr, Inhabited

/-- The turn of an arbiter's weighted round robin (R128): the master that has it and the consecutive grants it has received. -/
structure ArbTurn where
  master : Nat := 0
  used   : Nat := 0
  deriving DecidableEq, Repr, Inhabited

/-- The interconnect (R126-R129): the time in ICLK cycles, the requests waiting at the cluster arbiters and those forwarded to
the global arbiters, in order of arrival, and the turns of the cluster arbiters and of each target's global arbiter. -/
structure ArbState where
  now       : Nat := 0
  waiting   : List ArbReq := []
  forwarded : List ArbReq := []
  cluster   : Vector ArbTurn 6 := Vector.replicate 6 {}
  global    : List (Nat × ArbTurn) := []
  deriving DecidableEq, Repr, Inhabited

/-- The Dealer (R108-R125). `shadow` holds the shadow content as (group, field key, value), `staged` the staging copies. -/
structure DealerState where
  shadow  : List (Nat × Nat × Nat) := []
  staged  : List (Nat × List (Nat × Nat)) := []
  links   : Vector LinkHand 32 := Vector.replicate 32 {}
  edges   : Nat := 0                  -- LE trick edges since the start: the LCLK cycle of a trick's edge over 6,400
  reqs    : List CeReq := []          -- requests holding a hand
  queue   : List (Nat × Nat) := []    -- class and issue number of the requests waiting for a crypto hand, in issue order
  issued  : Nat := 0                  -- requests issued since the start
  windows : Vector CeWindow 2 := Vector.replicate 2 {}
  budget  : Vector Nat 16 := Vector.replicate 16 0 -- class-3 tricks used by each bay's session-start set (R118)
  startT  : Vector Nat 16 := Vector.replicate 16 0 -- CE tricks each bay's session start has had work pending (R119)
  above    : Vector Bool 16 := Vector.replicate 16 false -- the bay's set has passed 640 tricks
  arb     : ArbState := {}
  deriving DecidableEq, Repr, Inhabited

/-- The integrator of an air-cored-coil path (R156, R157): the DC blocker's last input and output, the integrator's last
output, and the pre-roll in progress as the periods taken and the sum of their inputs. -/
structure Integ where
  x   : Int := 0
  b   : Int := 0
  y   : Int := 0
  pre : Option (Nat × Int) := none
  deriving DecidableEq, Repr, Inhabited

/-- One decimation path of a stream (R139): the cascade's integrators and combs, the compensator's history of cascade
outputs, the coil integrator, whether the path is marked SETTLE and for how many outputs more, its last output and
whether it is valid. -/
structure PathState where
  acc    : List Int := []
  comb   : List Int := []
  hist   : List Int := []
  integ  : Integ := {}
  settle : Bool := false
  left   : Nat := 0
  out    : Int := 0
  valid  : Bool := false
  deriving DecidableEq, Repr, Inhabited

/-- A stream (chapter 06): its delay line as a number whose bit j is the bit captured j periods ago, the two paths, the
metrology outputs after the delay stage, the ones of the running metrology window, the running loss window, the counts
of bad and good windows, and whether the stream is lost or settling after a recovery. -/
structure StreamState where
  line     : Nat := 0
  met      : PathState := {}
  prt      : PathState := {}
  last     : Int := 0
  hist     : List Int := []
  quad     : Int := 0
  ones     : Nat := 0
  clip     : Bool := false
  held     : Bool := false   -- a value of the protection path was held in the running metrology window (R142)
  winOnes  : Nat := 0
  winBits  : Nat := 0
  bad      : Nat := 0
  good     : Nat := 0
  lost     : Bool := false
  lostAt   : Nat := 0        -- protection outputs delivered at the last declaration of loss (R148)
  recovery : Bool := false
  deriving DecidableEq, Repr, Inhabited

/-- The sensing chapter: the streams, and the deliveries of each path since the start (R159). -/
structure SensingState where
  streams : Vector StreamState 96 := Vector.replicate 96 {}
  metN    : Nat := 0
  prtN    : Nat := 0
  deriving DecidableEq, Repr, Inhabited

/-- A sample of an element (R168): v, i and q in units of 2^-61 mV and µA, whether it is valid, and the meter time it
represents in units of 2^-16 ms. -/
structure Sample where
  v     : Int := 0
  i     : Int := 0
  q     : Int := 0
  valid : Bool := false
  at_   : Int := 0
  deriving DecidableEq, Repr, Inhabited

/-- The running sums of a cycle (R175), each sample weighted by its part in units of 2^-16; `inv` counts the invalid
samples of which the cycle has received a part. -/
structure Sums where
  vi  : Int := 0
  qi  : Int := 0
  vv  : Int := 0
  ii  : Int := 0
  w   : Nat := 0
  inv : Nat := 0
  deriving DecidableEq, Repr, Inhabited

/-- A completed cycle waiting to be published (R187): what the snapshot group will hold. -/
structure CycleSnap where
  cycles  : Nat := 0
  endAt   : Int := 0
  freq    : Nat := 0
  vrms    : Nat := 0
  irms    : Nat := 0
  p       : Int := 0
  q       : Int := 0
  s       : Nat := 0
  dur     : Nat := 0
  totals  : Vector Nat 8 := Vector.replicate 8 0
  inv     : Nat := 0
  cyinv   : Nat := 0
  valid   : Bool := false
  noload  : Bool := false
  deriving DecidableEq, Repr, Inhabited

/-- A check window (R186): cycles, energy of the check and the billing element, valid time of each, any invalid sample. -/
structure CheckWin where
  n   : Nat := 0
  ec  : Int := 0
  eb  : Int := 0
  wc  : Nat := 0
  wb  : Nat := 0
  inv : Bool := false
  deriving DecidableEq, Repr, Inhabited

/-- An element hand (chapter 07). Times within cycles are in units of T / 589,824, in which 1/45 s, 1/50 s and 1/60 s
are whole. -/
structure ElemState where
  running  : Bool := false   -- a cycle is in progress
  age      : Nat := 0        -- from the last boundary to the start of the next sample's interval
  first    : Bool := true    -- the cycle in progress is a first cycle (R171)
  freerun  : Bool := false
  startF   : Bool := false   -- the cycle in progress began at a forced boundary
  armed    : Bool := false   -- v has fallen to or below -H since the last boundary (R170)
  prev     : Sample := {}
  sums     : Sums := {}
  tau      : Option Nat := none -- duration of the previous cycle if it was locked (R176)
  dead     : Bool := false   -- a whole cycle has ended with no valid sample in the present stretch (R171)
  held     : Option Sample := none -- the sample in whose interval a forced boundary falls
  pending  : Option Sample := none -- the sample delivered at the last ME trick edge, whose slot has not ended (R109)
  overrun  : Bool := false   -- the slot overran (R110)
  cycles   : Nat := 0
  invTotal : Nat := 0
  totals   : Vector Nat 8 := Vector.replicate 8 0
  residue  : Vector Nat 8 := Vector.replicate 8 0 -- in units of 1 / energyDen
  lastEp   : Int := 0        -- EPk of the last cycle, for its check elements
  lastW    : Nat := 0
  lastInv  : Bool := false
  low      : Nat := 0        -- consecutive cycles below 50 % of VNOM
  high     : Nat := 0        -- consecutive cycles at or above 60 % of VNOM
  vmiss    : Bool := false
  revOpen  : Bool := false
  revQuiet : Nat := 0
  win      : CheckWin := {}
  winDone  : Option CheckWin := none
  chkWin   : Nat := 0        -- MTRn_CHK.WIN and DEV, published with the next cycle
  chkDev   : Int := 0
  cptCount : Nat := 0
  cptDue   : Option (Vector Nat 8) := none -- the totals at the end of the cycle that latches (R189)
  cptSeq   : Nat := 0
  cpt      : Vector Nat 5 := Vector.replicate 5 0
  pub      : List CycleSnap := []
  upTo     : Option Int := none -- meter time of the last sample taken, in 2^-16 ms (R183)
  lifeRev  : Nat := 0        -- MTRn_LIFE as last published (R187)
  lifeVm   : Nat := 0
  deriving DecidableEq, Repr, Inhabited

/-- A maximum demand (R209): watts, and the interval's end in wall time (s) and meter time (ms). -/
structure MaxDemand where
  w    : Nat := 0
  wall : Nat := 0
  mt   : Nat := 0
  deriving DecidableEq, Repr, Inhabited

/-- A register set (R195): 72 registers of 48 bits, their residues in micro-units, and the maximum demands. -/
structure RegSet where
  reg : Vector Nat 72 := Vector.replicate 72 0
  res : Vector Nat 72 := Vector.replicate 72 0
  md  : Vector MaxDemand 18 := Vector.replicate 18 {}
  deriving DecidableEq, Repr, Inhabited

/-- A cycle the ledger unit has taken (R194): the element and its set, the eight energies in micro-units, its end instant
in 2^-16 ms of meter time, and whether it held an invalid sample. -/
structure Take where
  elem : Nat
  set  : Nat
  en   : Vector Nat 8
  at_  : Int
  inv  : Bool
  deriving DecidableEq, Repr, Inhabited

/-- The actions due at one boundary instant (R216): the instant in meter time and wall time, the outgoing tariff, whether
the demand interval ends and ends short, the number of the period in force, the periods that end, and whether they close at a
restore; `done` marks actions that have run and that no completed save covers yet. -/
structure Due where
  at_     : Int := 0
  mt      : Nat := 0
  wall    : Nat := 0
  wallOk  : Bool := false
  tariff  : Nat := 0
  demand  : Bool := false
  short   : Bool := false
  number  : Nat := 0
  periods : Nat := 0
  restore : Bool := false
  done    : Bool := false
  deriving DecidableEq, Repr, Inhabited

/-- A remote override (R205): its tariff, START and END in ms of wall time, END 0 for none. -/
structure Override where
  tariff : Nat
  start  : Nat
  stop   : Nat
  deriving DecidableEq, Repr, Inhabited

/-- One bank of the residual accumulators (R221): its tags and, for each set, the eight energies in micro-units. -/
structure ResidBank where
  index   : Int := 0
  tariff  : Nat := 0
  period  : Nat := 0
  lastEnd : Int := 0
  en      : Vector (Vector Nat 8) 17 := Vector.replicate 17 (Vector.replicate 8 0)
  deriving DecidableEq, Repr, Inhabited

/-- A working copy of the legal store (R218, R219), with meter time at its save's start and the attribution it was taken under. -/
structure WorkCopy where
  seq      : Nat
  mt       : Nat
  sets     : Vector RegSet 17
  ivl      : Vector (Nat × Nat) 17
  ivlIdx   : Int
  tariff   : Nat
  period   : Nat
  deriving DecidableEq, Repr, Inhabited

/-- A final record (R220): the residual banks and the one in use, the pending-action marks, meter time, and the sequence number
of the working copy that it adds to. -/
structure FinalRec where
  banks  : Vector ResidBank 2
  bankOn : Bool
  due    : List Due
  mt     : Nat
  seq    : Nat
  deriving DecidableEq, Repr, Inhabited

/-- A closed billing period (R210, R211). -/
structure PeriodRec where
  number    : Nat
  flags     : Nat
  startWall : Nat
  endWall   : Nat
  endMt     : Nat
  sets      : Vector RegSet 17
  deriving DecidableEq, Repr, Inhabited

/-- A tamper record (R226). -/
structure TamperRec where
  count     : Nat := 0
  firstWall : Nat := 0
  firstMt   : Nat := 0
  lastWall  : Nat := 0
  lastMt    : Nat := 0
  info      : Nat := 0
  deriving DecidableEq, Repr, Inhabited

/-- The content of the sealed copy (R98, R155, R166, R227): each item is a kind, an instance and its sealed bytes. -/
structure SealedItem where
  kind  : Nat
  inst  : Nat
  bytes : List Nat
  deriving DecidableEq, Repr, Inhabited

/-- The legal store (R218). -/
structure LegalStore where
  formatted  : Bool := false
  floor      : Nat := 0
  deckDigest : Option (List Nat) := none
  sealed     : Option (List SealedItem) := none
  period     : Nat := 0
  perIdx     : Option Int := none   -- place of the current period in the calendar
  perStart   : Nat := 0
  perFlags   : Nat := 0
  override   : Option Override := none -- the override active
  pending    : Option Override := none -- the override waiting for START
  cmdCtr     : Nat := 0
  ksrSeq     : Nat := 0
  sessionNo  : Nat := 0
  lastMt     : Nat := 0
  sessions   : Vector (Option (Nat × Nat)) 16 := Vector.replicate 16 none -- sessions with a start reading (R258): number and start reading
  finals     : Vector (Option FinalRec) 2 := Vector.replicate 2 none
  finalB     : Bool := false          -- the final record slot written last is B
  tamper     : Vector TamperRec 16 := Vector.replicate 16 {}
  copies     : Vector (Option WorkCopy) 2 := Vector.replicate 2 none
  ring       : List PeriodRec := []   -- newest first, at most 24
  deriving DecidableEq, Repr, Inhabited

/-- A save in progress (R219): the copy being written, its content, and the residual banks it covers. -/
structure SaveRun where
  slot  : Nat
  copy  : WorkCopy
  banks : Vector ResidBank 2
  deriving DecidableEq, Repr, Inhabited

/-- What a reading shows of its instant (R231): tariff, FLAGS but for bit 3, meter time, wall time and period number. -/
structure ReadStamp where
  tariff : Nat := 0
  flags  : Nat := 0
  mt     : Nat := 0
  wall   : Nat := 0
  period : Nat := 0
  deriving DecidableEq, Repr, Inhabited

/-- The reading of a bay's session under way (R230): the instant of the first grant and what the device showed then, whether
the start reading is still due (`startAt`), the energies of cycles ending after the grant, the opening instant, the elements whose
first cycle after it is still to come, the energies of cycles after that, and what the start reading gave. -/
structure ReadState where
  grantAt   : Int := 0
  stamp     : ReadStamp := {}
  startAt   : Option Int := none
  lateStart : Vector Nat 18 := Vector.replicate 18 0
  openAt    : Option Int := none
  waiting   : List Nat := []
  lateStop  : Vector Nat 18 := Vector.replicate 18 0
  inv       : Bool := false
  number    : Nat := 0
  startImp  : Nat := 0
  deriving DecidableEq, Repr, Inhabited

/-- A session reading waiting for its signature (R232): the hand that signs, the first 64 bytes, and whether its class-1 request
has been issued. -/
structure KsrPending where
  hand  : Nat
  bytes : List Nat
  sent  : Bool := false
  deriving DecidableEq, Repr, Inhabited

/-- The ledger unit and the billing state of the logic die (chapter 08). -/
structure LedgerState where
  sets      : Vector RegSet 17 := Vector.replicate 17 {}
  last      : Vector (Option (Vector Nat 8)) 64 := Vector.replicate 64 none
  tariff    : Nat := 0
  ivl       : Vector (Nat × Nat) 17 := Vector.replicate 17 (0, 0)
  ivlIdx    : Int := 0           -- the demand interval in progress, counted on the local grid
  ivlShort  : Bool := true
  ivlAt     : Nat := 0           -- meter time at which the demand interval in progress began
  due       : List Due := []     -- boundaries whose actions have not run, oldest first (R216)
  unsaved   : List Due := []     -- boundaries whose actions have run and that no completed save covers yet
  deferred  : List Take := []    -- cycles ending after a boundary whose actions have not run
  behind    : Bool := false      -- TIME_BEHIND
  save      : Option SaveRun := none
  saveRetry : Bool := false
  saveAt    : Nat := 0           -- meter time of the last completed save
  perSaveAt : Nat := 0           -- meter time of the last periodic save's turn (R219)
  saveSlot  : Nat := 0           -- the copy last written
  failCnt   : Nat := 0
  lsFail    : Bool := false
  ready     : Bool := false      -- the legal store has been reconciled (R101)
  seq       : Nat := 0           -- SEQ of the group of the global registers (R33, R197)
  read      : Vector ReadState 16 := Vector.replicate 16 {} -- the bays' sessions in progress
  done      : Vector (List ReadState) 16 := Vector.replicate 16 [] -- ended sessions whose stop readings are due, oldest first
  lastStop  : Vector Nat 16 := Vector.replicate 16 0 -- session energy of each bay's last stop reading (R234)
  ksr       : List KsrPending := []
  ksrOut    : List (List Nat) := []  -- signed readings released, newest first
  nimb      : Nat := 0           -- consecutive imbalanced feeder cycles
  nbal      : Nat := 0
  nimbOpen  : Bool := false
  deriving DecidableEq, Repr, Inhabited

/-- The legal display run (R235): whether one is in progress, its bay, the item shown, whether a press is waiting for the
update in progress, the queued bays, the bay of the most recent session end and the meter time at which the last panel update
ended; `half` says that the second half of an identity
item is shown. -/
structure LegalRun where
  running : Bool := false
  bay     : Option Nat := none
  item    : Nat := 0
  press   : Bool := false
  half    : Bool := false
  queue   : List Nat := []
  lastEnd : Option Nat := none
  shownAt : Nat := 0
  deriving DecidableEq, Repr, Inhabited

/-- The HSL's part of a bay (R240-R253): the mode and duty applied in the period in progress and those committed, the
classification of the pilot, the proximity windows, the contactor feedback with the deck's values it is read with, the
weld latch, the gate and the grant. -/
structure HslBay where
  mode     : Nat := 0
  duty     : Nat := 0
  cmdMode  : Nat := 0
  cmdDuty  : Nat := 0
  raw      : Nat := 0
  rawN     : Nat := 0
  rec_     : Nat := 0
  high     : Option Int := none
  low      : Option Int := none
  prox     : Nat := 0
  proxRaw  : Nat := 0
  proxN    : Nat := 0
  ohm      : Nat := 0
  wOn      : Bool := false  -- a deck has been applied since the power die was powered (R253)
  wPol     : Bool := false
  tOpen    : Nat := 0
  wRaw     : Bool := false
  wRun     : Nat := 0
  wsen     : Option Bool := none -- the recognised feedback: closed, open, or not yet recognised
  wsenAt   : Nat := 0       -- meter time of its last change
  weldOk   : Bool := false
  weldDecl : Bool := false  -- a weld fault is declared and WELD_OK has not been set since
  offAt    : Option Nat := none -- meter time from which T_OPEN counts
  gate     : Bool := false
  grant    : Bool := false
  deriving DecidableEq, Repr, Inhabited

/-- What a high-level session of a bay has told the session machine (R257, R263, R264, R302). -/
structure HlcState where
  up       : Bool := false
  failed   : Bool := false
  stop     : Bool := false
  stopDone : Bool := false
  pause    : Bool := false
  power    : Bool := false
  contract : Bool := false
  bidir    : Bool := false  -- bidirectional power transfer has been agreed (R263)
  zero     : Bool := false  -- zero power is commanded (R263)
  export_  : Nat := 0       -- the bound of the export current in 0.1 A (R263)
  rev      : Bool := false  -- reverse flow is commanded
  vPresent : Nat := 0
  vMax     : Nat := 0
  vReq     : Nat := 0
  iReq     : Nat := 0
  pReq     : Nat := 0
  deriving DecidableEq, Repr, Inhabited

/-- A DC bay's stack (R264-R268): the counters of the two received identifiers and of CMD, the run of accepted STATUS
messages, the meter time of the last one, the onsets of the deviations, the stage of the sequence of R264 and its start,
the meter time of MODE 0 at a stop, the last CMD, and whether the stack has faulted. -/
structure DcState where
  statCnt  : Option Nat := none
  faultCnt : Option Nat := none
  cmdCnt   : Nat := 0
  okRun    : Nat := 0
  statAt   : Nat := 0
  vDev     : Option Nat := none
  iDev     : Option Nat := none
  stage    : Nat := 0  -- 0 none, 1 cable check, 2 its result, 3 precharge, 4 complete, 5 cable result, 6 power delivery
  since    : Nat := 0
  stopAt   : Option Nat := none
  lastCmd  : List Nat := []
  fault    : Bool := false
  deriving DecidableEq, Repr, Inhabited

/-- Why a session is paused (R257). -/
inductive PauseBy where
  | vehicle | offer | command | hlc
  deriving DecidableEq, Repr, Inhabited

/-- A bay's session machine (R256-R262). -/
structure BayState where
  entered    : Nat := 0        -- meter time of entry into the state
  auth       : Bool := false
  carried    : Bool := false   -- an authorisation given in ENDED carries over
  lockOn     : Bool := false
  locked     : Bool := false
  lockFb     : Bool := false   -- LOCK_FB as latched into the snapshot
  lockLow    : Nat := 0        -- consecutive snapshots with LOCK_FB low after confirmation
  cmd        : Option Nat := none
  cardCmd    : Option Nat := none -- an authorisation by a credential, with its ID_HASH (R384)
  cardFirst  : Bool := false   -- the authorisation by a credential came before the command that waits (R261)
  weld       : Bool := false   -- a weld fault stands declared, as latched into the snapshot
  authHash   : Option Nat := none -- the authorising ID_HASH (R384)
  carryHash  : Option Nat := none -- that of an authorisation that carries over
  grantReq   : Bool := false   -- a grant is on its way to the HSL
  granted    : Bool := false   -- the session has had its first grant
  pausedBy   : Option PauseBy := none
  undefSince : Option Nat := none
  undef      : Bool := false   -- UNDEF recognised for 100 ms
  basic      : Bool := false   -- fallen back from high-level communication (HLC 1)
  faultClr   : Bool := false
  localStop  : Bool := false
  offerAt    : Nat := 0        -- meter time of the last entry into OFFER (R323)
  hand       : Option (Fin 3) := none  -- the hand that holds the session: active, paused, closing
  move       : Option (Fin 3) := none  -- the hand it is to move to
  closing    : Bool := false           -- the closing hand holds a session that has ended
  hlc        : HlcState := {}
  dc         : DcState := {}
  deriving DecidableEq, Repr, Inhabited

/-- One instance of the protection unit (chapter 10): the last W outputs of the residual current and of each phase
current, newest first; the confirmation counts; the outputs since each residual value was last at half its threshold;
the outputs since an input was last invalid; the limit L with the value it follows, the values replaced within the grace
and the value firmware has passed; the cap. -/
structure ProtInst where
  res     : List Int := []
  phases  : Vector (List Int) 3 := Vector.replicate 3 []
  racN    : Nat := 0
  rdcN    : Nat := 0
  oc1N    : Nat := 0
  oc2N    : Nat := 0
  acLow   : Nat := 0
  dcLow   : Nat := 0
  validN  : Nat := 0
  lim     : Nat := 0
  follow  : Nat := 0
  olds    : List (Nat × Nat) := []  -- replaced values and the meter time of their fall
  passed  : Option Nat := none
  first   : Bool := true
  cap     : Option Nat := none
  capDue  : Bool := false           -- a stage 1 waits for the end of the activation pause
  below   : Option Nat := none      -- meter time from which the current has stayed at or below the cap
  quietAc : Bool := false           -- IAC below half its threshold for 1 s, as last latched into the snapshot (R289, R32)
  quietDc : Bool := false
  deriving DecidableEq, Repr, Inhabited

/-- Insulation measurement of a DC bay (R284-R286): the phase, the outputs taken in it, the sums of the last 500 ms, those
of S0, the last result in kΩ, its judgement, results since the cable-check part began, and whether a part is running. -/
structure InsState where
  inj   : Bool := false
  n     : Nat := 0
  sumP  : Int := 0
  sumN  : Int := 0
  sumPP : Int := 0
  p0    : Int := 0
  n0    : Int := 0
  pp0   : Int := 0
  riso  : Nat := 0
  state : Nat := 0
  low   : Bool := false
  warn  : Bool := false
  shown : Bool := false   -- `low` as last latched into the snapshot (R32)
  full  : Nat := 0
  check : Bool := false
  deriving DecidableEq, Repr, Inhabited

/-- The protection unit. -/
structure ProtState where
  inst : Vector ProtInst 17 := Vector.replicate 17 {}
  ins  : Vector InsState 16 := Vector.replicate 16 {}
  deriving DecidableEq, Repr, Inhabited

/-- A post in the coordinator's roster (R314-R321): address, identity, the values of its join request and last report, the
allocation last published and held[p], the meter time of its last frame, and the round that lowered it with its time. -/
structure RosterEntry where
  addr   : Nat
  ident  : Nat
  floor  : Nat := 0
  feedA  : Nat := 0
  demand : Nat := 0
  ifeed  : Nat := 0
  round  : Nat := 0
  alloc  : Nat := 0
  held   : Nat := 0
  lastRx : Nat := 0
  more   : Bool := false
  low    : Option (Nat × Nat) := none
  deriving DecidableEq, Repr, Inhabited

/-- A chain frame sent: its frame-control bits 95:0 (R308), CTR, TYPE and body, what the body of a join request or a budget
report carries (R317, R320), and the bytes of its payload region (R309). -/
structure ChainTx where
  fc     : Nat
  ctr    : Nat
  typ    : Nat
  body   : List Nat
  fields : List Nat := []
  region : List Nat := []
  deriving DecidableEq, Repr, Inhabited

/-- A unicast frame waiting for its ack, with its flow, sequence and the repetitions sent (R315). -/
structure TxWait where
  flow  : Nat
  seq   : Nat
  reps  : Nat := 0
  frame : ChainTx
  deriving DecidableEq, Repr, Inhabited

/-- A relayed connection on a flow (R326): whether this post is the relay or the target, the other post's address, the
bytes waiting to be sent and those delivered, and whether an open or a close frame is still to be sent. -/
structure FlowState where
  relay   : Bool := false
  peer    : Nat := 0
  txq     : List (List Nat) := []
  rx      : List Nat := []
  opening : Bool := false
  closing : Bool := false
  deriving DecidableEq, Repr, Inhabited

/-- The chain link (R305-R327). -/
structure ChainState where
  since     : Nat := 0    -- meter time of entry into the role
  lastBeacon : Nat := 0
  coordId   : Nat := 0
  coordRank : Nat := 0    -- PRIORITY of the coordinator heard
  roster    : List RosterEntry := []
  heard     : List (Nat × Nat) := [] -- address and allocation in the last beacon heard
  round     : Nat := 0
  rxRound   : Nat := 0    -- the round of the allocation applied (R320)
  beaconNo  : Nat := 0
  slots     : List Nat := []  -- SLOT_OWNER of the period
  rot       : Nat := 0    -- rotation of slots over the roster
  rotEntry  : Nat := 0    -- rotation of roster entries in beacons
  rotFlow   : Nat := 0    -- rotation of relay flows in own slots
  answer    : Option (Nat × Nat × Nat) := none -- identity, address and result for the next beacon
  joinAt    : Option Nat := none -- meter time of the last join request
  joinN     : Nat := 0    -- join requests sent, which picks the free wait
  refused   : Bool := false
  noPos     : Bool := false -- joining without position (R318)
  leave     : Option Nat := none -- the address that the post is leaving (R319, R330)
  leaveSent : Bool := false -- its leave frame has been sent
  lastRep   : Nat := 0    -- meter time of the last budget report
  pending   : Option Nat := none -- an allocation on its way to the HSL
  clamped   : Option Nat := none -- the allocation value last counted under trump class 7
  peers     : List (Nat × Nat) := [] -- last accepted CTR of each sender identity
  wait      : List TxWait := []
  seqs      : Vector Nat 16 := Vector.replicate 16 0
  flows     : Vector (Option FlowState) 16 := Vector.replicate 16 none
  sent      : Option ChainTx := none -- the frame sent last
  acked     : Option Nat := none     -- frame-control bits of the ack sent last
  line      : List (List Nat) := []  -- the symbols driven last: the phase of each used carrier, in units of π/1,024 (R306)
  level     : List Int := []         -- the level of each used carrier then, in halves of 1 dBm/Hz (R297)
  key       : Option (List Nat) := none -- the chain key in the chain cipher unit (R310)
  deriving DecidableEq, Repr, Inhabited

/-- A SLAC run that a vehicle link has answered (R300): source address and run identifier, the soundings announced and received,
their attenuations added up for each of the 58 carrier groups, and the attenuation report once it is sent. -/
structure SlacRun where
  src    : Nat
  id     : Nat
  sounds : Nat := 0
  got    : Nat := 0
  sum    : List Nat := List.replicate 58 0
  report : Option (List Nat) := none
  deriving DecidableEq, Repr, Inhabited

/-- What a vehicle link answers (R299-R302). -/
inductive VehReply where
  | slacParm (src run : Nat)
  | attenReport (src run : Nat) (groups : List Nat)
  | slacMatch (mac run : Nat) (key : BitVec 128)
  | validateUnsupported (src : Nat)
  | joinRefused (mac : Nat)
  | protocolChosen (proto : Nat)
  deriving DecidableEq, Repr, Inhabited

/-- A vehicle link (R299-R303): the meter times of the attempt, the match and the last valid frame, the network membership key,
the run answered, the runs left to another bay, and the answer sent last. -/
structure VLinkState where
  slacAt  : Nat := 0
  matchAt : Nat := 0
  frameAt : Nat := 0
  nmk     : Option (BitVec 128) := none
  run     : Option SlacRun := none
  left    : List (Nat × Nat) := []
  sent    : Option VehReply := none
  rxq     : List (List Nat) := []  -- payloads of decoded frames, queued for firmware (R113)
  deriving DecidableEq, Repr, Inhabited

/-- The links. `certs` holds the open certificate requests as REQ_ID and bay, `reqNo` the last REQ_ID given (R302), `draws` the
number of membership keys drawn, which picks the free key (R299). -/
structure LinkState where
  vehicle : Vector VLinkState 16 := Vector.replicate 16 {}
  chain   : ChainState := {}
  certs   : List (Nat × Nat) := []
  reqNo   : Nat := 0
  draws   : Nat := 0
  deriving DecidableEq, Repr, Inhabited

/-- A load-switch channel as the power die holds it (chapter 12): the payload of its LSW card, the output and its inrush
window, the class commanded and the class in force, the meter time of the last switch-on, a retry wait with the meter time of
its trip, the latch, the remaining budget, an off-state test in progress (1 at start or on LSW_TEST, 2 before a retry), the
output it is frozen at while the HSL is in its reset state (R347) with the meter time of that, the flags of trips in Reset,
its last measured junction and case temperatures in tenths of a degree, the meter time at which its last inrush window ended,
whether it waits for the thermal condition of R339, and the meter time of its test's start with its input then. -/
structure LswChan where
  cfg    : Option (List Nat) := none
  out    : Bool := false
  window : Bool := false
  cmd    : Nat := 0
  cls    : Nat := 0
  onAt   : Nat := 0
  wait   : Bool := false
  tripAt : Nat := 0
  latch  : Bool := false
  retry  : Nat := 0
  test   : Nat := 0
  hold   : Option Bool := none
  holdAt : Nat := 0
  late   : BitVec 8 := 0
  tj     : Int := 0
  caseT  : Int := 0
  winEnd : Nat := 0
  hot    : Bool := false
  testAt : Nat := 0
  testIn : Bool := false
  deriving DecidableEq, Repr, Inhabited

/-- The load switches: the channels, the filtered LSIN levels (R332), the levels of the host lines and the meter times of their
last changes (R333), whether the step "Cards applied" has granted the channels their inputs (R348), and each bank's last meter
time of shedding (R341). -/
structure LswState where
  chan    : Vector LswChan 48 := Vector.replicate 48 {}
  lsin    : BitVec 8 := 0
  level   : Vector Bool 48 := Vector.replicate 48 false
  granted : Bool := false
  lineAt  : Vector Nat 48 := Vector.replicate 48 0
  shedAt  : Vector Nat 6 := Vector.replicate 6 0
  deriving DecidableEq, Repr, Inhabited


/-- A safety input (R351-R354): the accepted levels of its two channels, whether it is demanded, whether a manual restart is
pending, since when the channels disagree, and whether both have been demanded together since its discrepancy fault. -/
structure SafIn where
  a     : Bool := false
  b     : Bool := false
  dem   : Bool := false
  pend  : Bool := false
  disAt : Option Nat := none
  both  : Bool := false
  deriving DecidableEq, Repr, Inhabited

/-- An axis (R360-R367): MODE and applied speed; the meter time at which STO was released, and whether its brake-release line
is on; the counts of the last 8 ms, newest first; the counts of each ms while R362 watches for standstill; the movement since
STO was applied; the meter time of the last encoder fault; the stop in progress with v0 in eighths of a mm/s and its
standstill checks; the readbacks; the meter times of the last test pulses; the drive link. -/
structure Axis where
  mode    : Nat := 0
  cmd     : Nat := 0
  rel     : Option Nat := none
  hist    : List Int := []
  still   : List Nat := []
  moved   : Int := 0
  encAt   : Option Nat := none
  stopAt  : Option Nat := none
  v0      : Nat := 0
  standN  : Nat := 0
  readBad : Bool := false
  pulseA  : Nat := 0
  pulseB  : Nat := 0
  cnt     : Option Nat := none
  okRun   : Nat := 0
  rxAt    : Nat := 0
  lost    : Bool := false
  drive   : Nat := 0
  txCnt   : Nat := 0
  txAt    : Nat := 0
  last    : List Nat := []
  deriving DecidableEq, Repr, Inhabited

/-- The safety functions (chapter 13): whether inputs are evaluated, the inputs, the axes, the SRST press in progress (its
start, whether it has been classified as stuck, and whether SRST has read high since the HSL left its reset state), and the
safety core: a fault, a fault held until the next start, the meter time of the last fault, a self-test in progress and whether
the last one passed. -/
structure SafState where
  on       : Bool := false
  inp      : Vector SafIn 18 := Vector.replicate 18 {}
  axis     : Vector Axis 16 := Vector.replicate 16 {}
  press    : Option Nat := none
  stuck    : Bool := false
  stale    : Bool := false
  scFault  : Bool := false
  scHeld   : Bool := false
  scAt     : Option Nat := none
  scTest   : Bool := false
  scPassed : Bool := false
  deriving DecidableEq, Repr, Inhabited



/-- The content of the credential table (R387, R388): its slots by slot number (bucket times 4 plus way) as 16-byte
little-endian numbers, the stash, and the counter that chooses the way to displace. -/
structure CredTable where
  slots : List (Nat × Nat) := []
  stash : List Nat := []
  disp  : Nat := 0
  deriving DecidableEq, Repr, Inhabited

/-- A copy of the table in the eMMC (R392). -/
structure CredImage where
  gen   : Nat
  slots : List (Nat × Nat)
  stash : List Nat
  deriving DecidableEq, Repr, Inhabited

/-- An accepted delta in the journal (R390, R392): its generations, CLEAR, and its records as OP and entry. -/
structure CredDelta where
  from_   : Nat
  to_     : Nat
  clear   : Bool
  records : List (Nat × Nat)
  deriving DecidableEq, Repr, Inhabited

/-- The credentials of the eMMC (R392): the two images, which image is the newer, and the journal, oldest first. -/
structure CredStore where
  imgA    : Option CredImage := none
  imgB    : Option CredImage := none
  journal : List CredDelta := []
  deriving DecidableEq, Repr, Inhabited

/-- What an undecided presentation waits for (R385, R394): the Declarer's verdict, or the table. -/
inductive PresWait where
  | verdict | table
  deriving DecidableEq, Repr, Inhabited

/-- An accepted credential held as pending (R384): its ID_HASH, the bays that its profile admits, and since when. -/
structure PendCred where
  hash  : Nat
  admits : Nat
  since : Nat := 0
  deriving DecidableEq, Repr, Inhabited

/-- Reader and credentials (chapter 14): the credentials seen at the last poll, the latest presentation's ID_HASH and
meter time, what it waits for, the pending credential, the table, a checkpoint in progress, one to be retried, and the meter times
of the last failure of one and of the last poll. -/
structure NfcState where
  seen  : List (Nat × List Nat) := []
  hash  : Nat := 0
  at_   : Nat := 0
  wait  : Option PresWait := none
  pend  : Option PendCred := none
  table : CredTable := {}
  ckpt  : Option CredImage := none
  retry : Bool := false
  failAt : Nat := 0
  pollAt : Option Nat := none
  deriving DecidableEq, Repr, Inhabited

/-- A page write of the tag in progress, by the field or from the wired side (R398). -/
structure TagWrite where
  wired : Bool
  page  : Nat
  data  : List Nat
  deriving DecidableEq, Repr, Inhabited

/-- The tag (R395-R399): its EEPROM as a sparse map from byte address to byte, the AID it answers to, the field session, the
pages it has opened, the nonces of a CHAL not yet answered by a MUTA, the session key with NT and the command counter,
failed MUTA of the field session, the lock, nonces drawn, a page write in progress, a wired write that waits with the meter time
of its GO, and its last response. -/
structure TagState where
  mem    : List (Nat × Nat) := []
  aid    : List Nat := []
  open_  : Bool := false
  opened : List Nat := []
  chal   : Option (List Nat × List Nat) := none
  key    : Option (List Nat × List Nat) := none
  ctr    : Nat := 0
  fails  : Nat := 0
  locked : Bool := false
  drawn  : Nat := 0
  write  : Option TagWrite := none
  wired  : Option (Nat × List Nat) := none
  wiredAt : Nat := 0
  resp   : List Nat := []
  deriving DecidableEq, Repr, Inhabited


/-- A content request of the legal panel (R414): an item of R234 with its arguments, the half of an identity item, or all
segments white (bare mode); `full` marks one that must be full, `free` one that the budget never defers (R413, R416). -/
structure LegalReq where
  code  : Nat
  arg   : Option Nat
  tariff : Nat := 0
  half  : Bool := false
  full  : Bool := false
  free  : Bool := false
  deriving DecidableEq, Repr, Inhabited

/-- A legal update in progress (R409): its target image without RV_SEG, its start in meter time, the waveform ROM entry, its
main-phase frames, and the physical index of RV_SEG. -/
structure LegalUpdate where
  target : Nat
  start  : Nat
  wave   : Nat := 0
  frames : Nat
  rv     : Option Nat
  deriving DecidableEq, Repr, Inhabited

/-- The glass of the legal panel, which keeps its image unpowered (R408): the image after the last completed update, and the
reading-valid mark. -/
structure LegalGlass where
  image : Nat := 0
  rv    : Bool := false
  deriving DecidableEq, Repr, Inhabited

/-- The displays (chapter 15): the two frame buffers as sparse maps of word offset to word; frames scanned towards the next
hour of scanning; counts of consecutive failed and passed checks of the emissive and the legal crack loop; the legal update
in progress, the pending slot, the request that waits under R416, the meter times of the updates of the last 60 minutes; a
full update requested by DSP_LCMD; the band in force and whether one has been valid; the restart refresh still due. -/
structure DisplayState where
  buf     : Vector (List (Nat × Nat)) 2 := Vector.replicate 2 []
  frames  : Nat := 0
  failE   : Nat := 0
  passE   : Nat := 0
  failL   : Nat := 0
  passL   : Nat := 0
  upd     : Option LegalUpdate := none
  pend    : Option LegalReq := none
  defer   : Option LegalReq := none
  starts  : List Nat := []
  full    : Bool := false
  band    : Nat := 0
  bandOk  : Bool := false
  refresh : Bool := false
  deriving DecidableEq, Repr, Inhabited


/-- A key blob of the key region (R430) with its material in plain and, for BIND 1, the digests it is bound to (R426). The
model keeps the plain material: no reader sees it except through the operations that use a key. -/
structure KeyBlob where
  keyId : Nat
  kind  : Nat
  bind  : Nat
  ctr   : Nat
  mat   : List Nat
  mFw   : List Nat := []
  mDeck : List Nat := []
  deriving DecidableEq, Repr, Inhabited

/-- Keys, lifecycle and debug (chapter 16): whether FULL has been granted since the start (DBG of R426), whether ROOT is
valid, whether the device key has been generated, the key region, KEY_IDs held in the slots of CE0-CE1, M_FW and M_DECK, the
trump digests recorded in fuses (R26, oldest first; all ones for a slot whose recording failed), nonces drawn, the end of the
debug level in meter time, and the TAP: its instruction, the boundary-scan chain, whether EXTEST drives it, and what was last
shifted out. -/
structure SecState where
  full    : Bool := false
  root    : Bool := false
  devKey  : Bool := false
  entries : List (Nat × KeyBlob) := []
  slots   : List Nat := []
  mFw     : List Nat := List.replicate 32 0
  mDeck   : List Nat := List.replicate 32 0
  digests : List (List Nat) := []
  drawn   : Nat := 0
  until_  : Option Nat := none
  ir      : Nat := 2
  scan    : BitVec 243 := 0
  extest  : Bool := false
  tdo     : List Nat := []
  deriving DecidableEq, Repr, Inhabited

/-- An event record (R466). -/
structure EventRec where
  seq   : Nat
  boot  : Nat
  block : Nat
  reg   : Nat
  bit   : Nat
  inst  : Nat
  info  : List Nat
  mt    : Nat
  wall  : Nat
  deriving DecidableEq, Repr, Inhabited

/-- A bulk transfer (R465): the command's code, TOTAL, ARG, the bytes received, newest first in blocks, and the meter time
of the last. -/
structure Bulk where
  code  : Nat
  total : Nat
  arg   : Nat
  data  : List (List Nat) := []
  got   : Nat := 0
  last  : Nat
  deriving DecidableEq, Repr, Inhabited

/-- A host session (R453): STATE, XPORT, CLIENT and rank of R477, its place among the bids of the running Auction, whether
events are pushed, SEQ of the last frame accepted and sent, the meter time of the last valid frame, the SEQ of the next event
record, the relay flow it runs over, its bulk transfer and the frames held for an SPI host. -/
structure Session where
  state  : Nat := 0
  xport  : Nat := 0
  client : Nat := 15
  rank   : Nat := 0
  bid    : Option Nat := none
  sub    : Bool := false
  rxSeq  : Nat := 0
  txSeq  : Nat := 0
  last   : Nat := 0
  cursor : Nat := 1
  relay  : Option Nat := none
  bulk   : Option Bulk := none
  tx     : List (List Nat) := []
  deriving DecidableEq, Repr, Inhabited

/-- A response (R457): its session, TYPE, TAG, SEQ, status and what follows the status. -/
structure Response where
  sess   : Nat
  type   : Nat
  tag    : Nat
  seq    : Nat
  status : Status
  data   : List Nat
  deriving DecidableEq, Repr, Inhabited

/-- The host ports (chapter 17): the event ring, newest first; the sessions; the Declarer; a pending HANDOVER with its
meter time; the start of the running Auction and the bids made in it; the last response; the client entries unusable since
the ports came up; what the device last shifted out on HS_MISO; and whether HS_IRQ_N is low after a wake by the port. -/
structure HostState where
  ring   : List EventRec := []
  sess   : Vector Session 6 := Vector.replicate 6 {}
  decl   : Option Nat := none
  target : Option (Nat × Nat) := none
  auct   : Option Nat := none
  bids   : Nat := 0
  resp   : Option Response := none
  badKey : BitVec 8 := 0
  miso   : List Nat := []
  woke   : Bool := false
  deriving DecidableEq, Repr, Inhabited



/-- A capture in progress (R489): its path (true for protection), its streams, the samples wanted and those written. -/
structure CaptureRun where
  prot  : Bool
  chans : List Nat
  total : Nat
  k     : Nat := 0
  deriving DecidableEq, Repr, Inhabited

/-- One side of a transfer's descriptor (R491). -/
structure TransferSide where
  addr   : Nat
  lineW  : Nat
  stride : Nat
  lines  : Nat
  deriving DecidableEq, Repr, Inhabited

/-- A transfer in progress (R491-R493): its sides, its request and TAG, the words moved, the last word written, and the
status that has stopped it. -/
structure TransferRun where
  src   : TransferSide
  dst   : TransferSide
  req   : Nat
  tag   : Nat
  moved : Nat := 0
  last  : Nat := 0
  fail  : Option Status := none
  deriving DecidableEq, Repr, Inhabited

/-- A completion record (R494). -/
structure CqRecord where
  tag    : Nat
  ch     : Nat
  status : Status
  bytes  : Nat
  deriving DecidableEq, Repr, Inhabited

/-- Memory (chapter 18). `sram` and `dram` hold the 64-bit words of the host areas and the capture buffer under their word
index (transfer address over 8): the data, and in bits 71:64 the difference of the stored check bits from those of the data,
each as its difference from what an unlisted word holds (`dramGen` counts the pauses after which the DRAM host area is not
guaranteed, R497). `rows` lists the SRAM rows corrected in the lap with the bit position; `ueDue` says that a restart for an uncorrectable error
is due. `free` counts the free words read of memory that the model does not hold. -/
structure MemState where
  sram    : List (Nat × Nat) := []
  dram    : List (Nat × Nat) := []
  dramGen : Nat := 0
  rows    : List (Nat × Nat) := []
  ueDue   : Bool := false
  free    : Nat := 0
  cap     : Option CaptureRun := none
  te      : Vector (Option TransferRun) 2 := Vector.replicate 2 none
  cq      : List CqRecord := []
  deriving DecidableEq, Repr, Inhabited


/-- A valid copy of the boot header (R502). -/
structure BootHeader where
  seq    : Nat
  pref   : Nat
  states : Vector Nat 2
  tries  : Nat
  bare   : List Nat
  deriving DecidableEq, Repr, Inhabited

/-- Firmware update (chapter 19): the two copies of the boot header, the bytes last written into the firmware slots, failed
boots of the trial slot, whether a trial image ran at the last reset, and of the present start: the pending phase since, the pause and its start, the slot that ran before,
the image start in the pause, the boot of the running image, and that image's METRO_MIN and METRO_MAX. -/
structure UpdState where
  hdr     : Vector (Option BootHeader) 2 := Vector.replicate 2 none
  img     : Vector (List Nat) 2 := Vector.replicate 2 []
  fails   : Nat := 0
  ran     : Bool := false
  pendAt  : Nat := 0
  pause   : Bool := false
  pauseAt : Nat := 0
  from_   : Nat := 0
  readyAt : Option Nat := none
  bootAt  : Nat := 0
  metro   : Nat × Nat := (0, 0)
  deriving DecidableEq, Repr, Inhabited

/-- The parts of the hard-wired safety logic (chapters 01, 09, 10, 13): the held trump card, the bays' gates and pilots,
the protection latches of the 16 bays and the feeder, and each bay's safety permission. -/
structure HslState where
  trump : Option (List Nat) := none
  bays  : Vector HslBay 16 := Vector.replicate 16 {}
  latch : Vector (BitVec 6) 17 := Vector.replicate 17 0
  safe  : Vector Bool 16 := Vector.replicate 16 false
  brake : Vector Bool 16 := Vector.replicate 16 false -- the brake-release lines (R331, R360)
  deriving DecidableEq, Repr, Inhabited

/-- What the eMMC user area keeps beside the key region (which `SecState` holds): the CTR reserve of the chain link (R309) and the
credentials (R392). -/
structure EmmcState where
  chainReserve : Nat := 0
  cred : CredStore := {}
  deriving DecidableEq, Repr, Inhabited


/-- The backup domain's clock and inputs (R60, R67, R69): meter time, its fractional accumulator, wall time as an
offset to meter time, whether TCLK stopped in HOLD, and the inputs SEAL (index 0) and TAMPER0-TAMPER3. -/
structure BackupState where
  ms        : Nat := 0
  frac      : Nat := 0
  wallOff   : Int := 0
  wallValid : Bool := false
  tclkStop  : Bool := false
  inputs    : Vector TamperIn 5 := Vector.replicate 5 {}
  banks     : Vector ResidBank 2 := Vector.replicate 2 {} -- the residual accumulators (R221)
  bankOn    : Bool := false -- the second bank is in use
  resetAt   : Nat := 0 -- meter time at which the HSL took its reset state (R221)
  lost      : Bool := false -- the contents were lost since the last reconciliation (R222)
  gap       : Bool := false -- meter time had a gap since then (R224)
  cut       : Bool := false -- the main supply was lost since then (R222)
  wallLostAt : Nat := 0 -- meter time at which wall time became invalid (R200)
  late      : List (Nat × Nat × Nat × Nat) := [] -- tamper occurrences still to be recorded (R216, R226): code, INFO, wall time in s, meter time
  tamperCfg : Nat × Nat := (15, 3) -- ACTIVE_HIGH and ENABLE of the tamper inputs (R227)
  sealDue   : Bool := false -- a closing of the seal registered in HOLD waits to be recorded (R439)
  mirror    : Vector (BitVec 6) 17 := Vector.replicate 17 0 -- the mirror of the protection latches (R273)
  chainCtr  : Nat := 0 -- CTR of the chain link (R309)
  safPend   : BitVec 18 := 0 -- the mirror of pending manual demands (R374)
  safFaults : Vector (BitVec 13) 16 := Vector.replicate 16 0 -- the faults held by each axis, by cause (R368, R374)
  repair    : List (Nat × Nat) := [] -- the repair list: bank and row (R481)
  autos     : Vector (List Nat) 17 := Vector.replicate 17 [] -- meter times of automatic clears (R290)
  latchAt   : Vector (Vector (Option Nat) 4) 17 := Vector.replicate 17 (Vector.replicate 4 none) -- when each kind was set (R290)
  autoSt    : Vector (Vector Nat 4) 17 := Vector.replicate 17 (Vector.replicate 4 0) -- 0 not judged, 1 waits for its condition, 2 never clears itself
  deriving DecidableEq, Repr, Inhabited

/-- Everything but the queue of commands. `regs`, `bregs` and `fregs` hold the register fields kept in logic, in the backup
domain and in fuses: pairs of a field's key and its difference from its reset value (exclusive or), keys rising and no
difference zero. `snap` holds the fields of the second snapshot group (R33) as last published, `snapSeq` that group's SEQ. `reply` is the status of the
last access or command. -/
structure Chip where
  regs   : List (Nat × Nat) := []
  bregs  : List (Nat × Nat) := []
  fregs  : List (Nat × Nat) := []
  snap   : List (Nat × Nat) := []
  snapSeq : Nat := 0
  reply  : Status := .ok
  pwr    : PwrState := {}
  bridge : BridgeState := {}
  backup : BackupState := {}
  dlr    : DealerState := {}
  sns    : SensingState := {}
  mtr    : Vector ElemState 64 := Vector.replicate 64 {}
  bil    : LedgerState := {}
  store  : LegalStore := {}
  legal  : LegalRun := {}
  hsl    : HslState := {}
  prt    : ProtState := {}
  bay    : Vector BayState 16 := Vector.replicate 16 {}
  canOff : Vector Bool 2 := Vector.replicate 2 false
  lnk    : LinkState := {}
  lsw    : LswState := {}
  saf    : SafState := {}
  deck   : DeckState := {}
  upd    : UpdState := {}
  hst    : HostState := {}
  emmc   : EmmcState := {}
  sec    : SecState := {}
  nfc    : NfcState := {}
  tag    : TagState := {}
  mem    : MemState := {}
  dsp    : DisplayState := {}
  glass  : LegalGlass := {}
  deriving DecidableEq, Repr, Inhabited

/-- The state of the machine: the device and the commands waiting for it, first in, first out. -/
structure State extends Chip where
  pending : List Instr := []
  deriving DecidableEq, Repr, Inhabited

/-- R13: the state when RESET_N is released after the first power-on: every field at its reset value. -/
def State.reset : State := {}

end Sys2Proof.Machine
end

