-- ==== Sys2Proof/Machine/Ops.lean ====
section
/-!
DEFINITION. The operations over register fields: the sparse maps that hold them, reading and setting a field, saturating
counters, and the phases of the two dies.
-/

namespace Sys2Proof.Machine
open Sys2Proof

/-! ### Sparse maps: keys strictly rising, no entry zero -/

/-- The entry at key `k`; 0 where none is listed. -/
def mapGet : List (Nat × Nat) → Nat → Nat
  | [], _ => 0
  | (a, v) :: m, k => if k = a then v else mapGet m k

/-- The map without an entry at key `k`. -/
def mapDel (m : List (Nat × Nat)) (k : Nat) : List (Nat × Nat) := m.filter fun e => e.1 != k

/-- The map with a value other than 0 at key `k`. -/
def mapIns : List (Nat × Nat) → Nat → Nat → List (Nat × Nat)
  | [], k, v => [(k, v)]
  | (a, w) :: m, k, v =>
    if k < a then (k, v) :: (a, w) :: m
    else if k = a then (k, v) :: m
    else (a, w) :: mapIns m k v

/-- The map with `v` at key `k`; 0 removes the entry. -/
def mapPut (m : List (Nat × Nat)) (k v : Nat) : List (Nat × Nat) := if v = 0 then mapDel m k else mapIns m k v

/-- The canonical form: keys strictly rising from `lo`, no entry zero. -/
def mapWfFrom : Nat → List (Nat × Nat) → Bool
  | _, [] => true
  | lo, (a, v) :: m => lo ≤ a && v != 0 && mapWfFrom (a + 1) m

def mapWf (m : List (Nat × Nat)) : Bool := mapWfFrom 0 m

/-! ### Register fields -/

/-- The map that keeps a field (R13). -/
def Chip.mapOf (h : Home) (c : Chip) : List (Nat × Nat) :=
  match h with
  | .vol => c.regs
  | .backup => c.bregs
  | .fuse => c.fregs

def Chip.withMap (h : Home) (m : List (Nat × Nat)) (c : Chip) : Chip :=
  match h with
  | .vol => { c with regs := m }
  | .backup => { c with bregs := m }
  | .fuse => { c with fregs := m }

/-- The value of field `f`, instance `i`. -/
def getF (f : Fld) (i : Nat) (c : Chip) : Nat := mapGet (c.mapOf f.home) (fkey f i) ^^^ f.rst

/-- Field `f`, instance `i`, takes `v`, kept in the field's width. -/
def setF (f : Fld) (i v : Nat) (c : Chip) : Chip :=
  c.withMap f.home (mapPut (c.mapOf f.home) (fkey f i) ((v % 2 ^ f.width) ^^^ f.rst))

/-- A field kept in logic, named by its key and its reset value, takes `v`. -/
def putReg (key v rst : Nat) (c : Chip) : Chip := { c with regs := mapPut c.regs key (v ^^^ rst) }

/-- One bit of a field. -/
def setBitF (f : Fld) (i k : Nat) (b : Bool) (c : Chip) : Chip :=
  let v := getF f i c
  setF f i (if v.testBit k == b then v else v ^^^ 2 ^ k) c

/-- A counter rises by `n`, saturating at `max`. -/
def addSat (f : Fld) (i max n : Nat) (c : Chip) : Chip := setF f i (min (getF f i c + n) max) c

/-- Whether a field holds the word at `addr`, and as which instance. -/
def Fld.instAt (f : Fld) (addr : Nat) : Option Nat :=
  if addr < f.base then none
  else if f.stride = 0 then (if addr = f.base then some 0 else none)
  else
    let i := (addr - f.base) / f.stride
    if (addr - f.base) % f.stride = 0 ∧ i < f.cnt then some i else none

/-- The fields of the word at `addr` with their instances. -/
def fieldsAt (addr : Nat) : List (Fld × Nat) :=
  regTable.filterMap fun f => (f.instAt addr).map fun i => (f, i)

/-- The word at `addr` as its fields hold it, published copies apart. -/
def regWord (addr : Nat) (c : Chip) : Nat :=
  (fieldsAt addr).foldl (fun w fi => w + getF fi.1 fi.2 c * 2 ^ fi.1.lsb) 0

/-! ### The second snapshot group, R33 -/

/-- Whether `key` belongs to a field of the second snapshot group kept in home `h`. -/
def snapKey (h : Home) (key : Nat) : Bool :=
  regTable.any fun f => f.snap && f.home == h && key % 32 == f.lsb && (f.instAt (key / 32)).isSome

/-- The second group is published: each of its fields takes its present value, and the group's SEQ rises by one. -/
def publishSecond (c : Chip) : Chip :=
  let m := (c.regs.filter fun e => snapKey .vol e.1).foldl (fun m e => mapPut m e.1 e.2) []
  { c with
    snap := (c.bregs.filter fun e => snapKey .backup e.1).foldl (fun m e => mapPut m e.1 e.2) m
    snapSeq := (c.snapSeq + 1) % 4294967296 }

/-- What a read of a field returns: the published copy for a field of the second group, else the present value. -/
def readF (f : Fld) (i : Nat) (c : Chip) : Nat :=
  if f.snap then mapGet c.snap (fkey f i) ^^^ f.rst else getF f i c

/-! ### The dies -/

/-- R51: the power die is powered: VPD5, VP12 and VN12 within their thresholds. -/
def Chip.powered (c : Chip) : Bool := c.pwr.vpd5 && c.pwr.vp12

/-- R17-R20: flits cross the bridge: both dies are supplied, the logic die is out of reset, and neither has declared it down. -/
def Chip.bridgeUp (c : Chip) : Bool :=
  c.pwr.vpd5 && c.pwr.vp12 && c.pwr.phase != .held && !c.bridge.downPower && !c.bridge.downLogic

/-- R18: a flit towards the power die is delivered; the next one begins with no repeat spent. -/
def flitSent (c : Chip) : Chip :=
  { c with bridge := { c.bridge with toPower := { c.bridge.toPower with retry := 0 } } }

/-- R18: a flit towards the logic die is delivered. -/
def flitRead (c : Chip) : Chip :=
  { c with bridge := { c.bridge with toLogic := { c.bridge.toLogic with retry := 0 } } }

/-- R62, R73: every supply is in range. A bank without a configured channel has its supply tied to ground (R54) and counts as
in range. -/
def Chip.suppliesOk (c : Chip) : Bool :=
  c.powered && c.pwr.vstoOk && c.pwr.vcolOk &&
    (List.range 6).all fun b => c.pwr.vbbOk.getLsbD b ||
      (List.range 8).all fun k => ((c.lsw.chan[8 * b + k]?.getD {}).cfg).isNone

/-- The logic die is out of reset. -/
def Chip.logicUp (c : Chip) : Bool := c.pwr.phase != .held

/-- Wall time in ms (R60). -/
def Chip.wall (c : Chip) : Int := c.backup.ms + c.backup.wallOff

/-- Wall time as records carry it: 0 while invalid. -/
def wallMs (c : Chip) : Nat := if c.backup.wallValid then c.wall.toNat else 0

/-- The meter-time instant now, in 2^-16 ms. -/
def nowFine (c : Chip) : Int := 65536 * (c.backup.ms : Int)

/-- DEV_ID, the device identity. -/
def deviceId (c : Chip) : Nat := getF Reg.DEV_ID_LO_ID 0 c + 2 ^ 32 * getF Reg.DEV_ID_HI_ID 0 c

/-- R229: SEAL reads sealed while its registered level is low. -/
def sealed (c : Chip) : Bool := !c.backup.inputs[0].level

end Sys2Proof.Machine
end

