-- ==== Sys2Proof/Machine/Khp.lean ====
section
/-!
DEFINITION. The frames the device sends (R457, R458), its status codes (R472) and the bytes of event records (R466).
-/

namespace Sys2Proof.Machine
open Sys2Proof

/-- R472: the code of a status. -/
def Status.code (s : Status) : Nat :=
  match s with
  | .ok => 0
  | .lenRange => 1
  | .crc => 2
  | .typ => 3
  | .version => 4
  | .range => 5
  | .addr => 6
  | .busy => 7
  | .state => 8
  | .notDeclarer => 9
  | .sig => 10
  | .bind => 11
  | .rollback => 12
  | .trump => 13
  | .sealed => 14
  | .bare => 15

/-- R457: a frame of the device; FLAGS holds RESPONSE. -/
def khpFrame (type s flags tag seq : Nat) (payload : List Nat) : List Nat :=
  Byte.le 2 0x4B48 ++ [1, type, s, flags] ++ Byte.le 2 tag ++ Byte.le 4 seq ++ Byte.le 4 payload.length ++ payload

/-- The bytes a record takes in the event ring. -/
def EventRec.bytes (r : EventRec) : Nat := 32 + (r.info.length + 3) / 4 * 4

/-- R466: the bytes of a record. -/
def EventRec.data (r : EventRec) : List Nat :=
  Byte.le 4 r.seq ++ Byte.le 2 r.boot ++ Byte.le 2 r.block ++ Byte.le 2 r.reg ++ [r.bit % 256, r.inst % 256] ++
  Byte.le 2 r.info.length ++ [0, 0] ++ Byte.le 8 r.mt ++ Byte.le 8 r.wall ++ r.info ++
  List.replicate ((4 - r.info.length % 4) % 4) 0

/-- The newest records that fit into `room` bytes; `rs` holds the newest first. -/
def ringFit : Nat → List EventRec → List EventRec
  | _, [] => []
  | room, r :: rs => if r.bytes ≤ room then r :: ringFit (room - r.bytes) rs else []

/-- R466: what a reader at `cursor` gets in at most `room` bytes: the records skipped because the ring has lost them, the
records, and the next cursor. -/
def ringRead (cursor room : Nat) (ring : List EventRec) : Nat × List EventRec × Nat :=
  let oldest := match ring.getLast? with
    | some r => r.seq
    | none => cursor
  let at_ := max cursor oldest
  let recs := ringFit room (ring.filter fun r => at_ ≤ r.seq).reverse
  (oldest - cursor, recs, at_ + recs.length)

/-- A frame for the host of session `s`: an SPI session's waits for its READ, a relayed one's for a slot of its flow (R326). -/
def framesOut (s : Nat) (x : Session) (frame : List Nat) : List (List Nat) :=
  if s = 4 ∨ x.relay.isSome then x.tx ++ [frame] else x.tx

/-- R466: one session to which events are pushed gets an EVENT frame with the records from its cursor on; an SPI session's
frame waits for its host. Whether records were lost to it. -/
def pushEvents (s : Nat) (c : Chip) : Chip × Bool :=
  let x : Session := c.hst.sess[s]?.getD {}
  if !x.sub then (c, false)
  else
    let r := ringRead x.cursor 1048572 c.hst.ring
    let body := Byte.le 4 r.1 ++ r.2.1.flatMap EventRec.data
    let frame := khpFrame 0x30 s 0 0 (x.txSeq + 1) body
    let x := { x with txSeq := x.txSeq + 1, cursor := r.2.2, tx := framesOut s x frame }
    ({ c with hst := { c.hst with sess := c.hst.sess.setIfInBounds s x } }, r.1 != 0)

end Sys2Proof.Machine
end

