-- ==== Sys2Proof/Machine/Flags.lean ====
section
/-!
DEFINITION. Flags, their group counts and the event records they leave (R466, R467), tamper records (R226).
-/

namespace Sys2Proof.Machine
open Sys2Proof

/-- R467: hardware sets bit `k` of a flag field; the group's EVT_CNT adds one. -/
def flagBit (f : Fld) (i k : Nat) (cnt : Fld) (ci : Nat) (c : Chip) : Chip :=
  addSat cnt ci 255 1 (setBitF f i k true c)

/-- R467: hardware sets flag bit `k` of the field; for a flag of one bit `k` is 0. -/
def flagF (f : Fld) (i k : Nat) (cnt : Fld) (ci : Nat) (c : Chip) : Chip := flagBit f i k cnt ci c

/-- R466: the records from their cursors on go to the sessions to which events are pushed. -/
def pushAll (c : Chip) : Chip :=
  (List.range 5).foldl (fun c s =>
    let r := pushEvents s c
    if r.2 then flagF Reg.HST_STAT_EVT_LOST 0 0 Reg.HST_STAT_EVT_CNT 0 r.1 else r.1) c

/-- R466: an event record is appended to the ring of 2 MiB; the oldest records are overwritten. -/
def eventRec (block reg bit inst : Nat) (info : List Nat) (c : Chip) : Chip :=
  let seq := getF Reg.HST_EVTSEQ_SEQ 0 c + 1
  let r : EventRec :=
    { seq := seq, boot := getF Reg.PWR_RSTCAUSE_COUNT 0 c, block := block, reg := reg, bit := bit, inst := inst
      info := info, mt := c.backup.ms, wall := wallMs c }
  pushAll (setF Reg.HST_EVTSEQ_SEQ 0 seq { c with hst := { c.hst with ring := ringFit 2097152 (r :: c.hst.ring) } })

/-- The record of bit `k` of flag field `f`, instance `i`. -/
def eventBit (f : Fld) (i k inst : Nat) (info : List Nat) (c : Chip) : Chip :=
  let w := fkey f i / 32
  eventRec (w / 65536) (w % 65536) (f.lsb + k) inst info c

/-- The record of flag field `f`, instance `i`. -/
def eventF (f : Fld) (i inst : Nat) (info : List Nat) (c : Chip) : Chip := eventBit f i 0 inst info c

/-- A flag is set and leaves its record. -/
def flagEvent (f : Fld) (i : Nat) (cnt : Fld) (ci inst : Nat) (info : List Nat) (c : Chip) : Chip :=
  eventF f i inst info (flagF f i 0 cnt ci c)

/-- R226: an occurrence of tamper code `code` with its INFO word joins its record, stamped with wall time in s and meter time. -/
def tamperPut (code info wall mt : Nat) (c : Chip) : Chip :=
  let t := c.store.tamper[code - 1]?.getD {}
  let t : TamperRec :=
    if t.count = 0 then { count := 1, firstWall := wall, firstMt := mt, lastWall := wall, lastMt := mt, info := info }
    else { t with count := min (t.count + 1) 0xFFFFFFFF, lastWall := wall, lastMt := mt, info := info }
  { c with store := { c.store with tamper := c.store.tamper.setIfInBounds (code - 1) t } }

/-- R226: an occurrence is kept in the retention RAM with its stamp until it can be recorded. -/
def tamperLater (code info : Nat) (c : Chip) : Chip :=
  { c with backup := { c.backup with late := c.backup.late ++ [(code, info, wallMs c / 1000, c.backup.ms)] } }

/-- R226, R216: a tamper event now. At a boundary whose actions have not run it is recorded after them. -/
def tamper (code info : Nat) (c : Chip) : Chip :=
  if c.bil.due.any fun d => d.mt == c.backup.ms then tamperLater code info c
  else tamperPut code info (wallMs c / 1000) c.backup.ms c

/-- R216, R226: the occurrences kept are recorded, with the times of their registration. -/
def lateTamper (c : Chip) : Chip :=
  c.backup.late.foldl (fun c x => tamperPut x.1 x.2.1 x.2.2.1 x.2.2.2 c) { c with backup := { c.backup with late := [] } }

end Sys2Proof.Machine
end

