-- ==== Sys2Proof/Machine/Operands.lean ====
section
/-!
DEFINITION. What the running deck gives: its cards and their fields with the defaults of their home chapters, and who may
write.
-/

namespace Sys2Proof.Machine
open Sys2Proof

/-! ### Cards -/

/-- R89: the types whose cards carry an instance. -/
def instCard (typ : Nat) : Bool := [0x10, 0x11, 0x13, 0x30, 0x31, 0x40, 0x60, 0x70].contains typ

/-- The payload of the card of a type; instance cards carry their number in the first two bytes (R84). -/
def cardPayload (typ inst : Nat) (c : Chip) : Option (List Nat) :=
  (c.deck.cards.find? fun k => k.typ == typ && (!instCard typ || Byte.u16 k.payload 0 == inst)).map (·.payload)

def cardU8 (typ inst off dflt : Nat) (c : Chip) : Nat :=
  match cardPayload typ inst c with
  | some p => Byte.u8 p off
  | none => dflt

def cardU16 (typ inst off dflt : Nat) (c : Chip) : Nat :=
  match cardPayload typ inst c with
  | some p => Byte.u16 p off
  | none => dflt

def cardU32 (typ inst off dflt : Nat) (c : Chip) : Nat :=
  match cardPayload typ inst c with
  | some p => Byte.u32 p off
  | none => dflt

/-! ### What is configured -/

def elemConfigured (e : Nat) (c : Chip) : Bool := getF Reg.MTR_CFG_KIND e c != 0
def bayConfigured (n : Nat) (c : Chip) : Bool := getF Reg.BAY_CFG_TYPE n c != 0

/-- A billing element: KIND 1 or 2 (R165). -/
def elemBilling (e : Nat) (c : Chip) : Bool := getF Reg.MTR_CFG_KIND e c == 1 || getF Reg.MTR_CFG_KIND e c == 2

/-- OWNER of an element's card: a bay 0-15 or the feeder 16. -/
def ownerOf (e : Nat) (c : Chip) : Nat := cardU8 0x0011 e 7 0xFF c

/-- The billing elements of a bay or of the feeder, lowest first (R163). -/
def instElems (n : Nat) (c : Chip) : List Nat :=
  (List.range 64).filter fun e => elemBilling e c && ownerOf e c == n

/-- The elements fed by stream `s` that bill. -/
def streamBilled (s : Nat) (c : Chip) : Bool :=
  (List.range 64).any fun e => elemBilling e c &&
    (getF Reg.MTR_CFG_ISTREAM e c == s || getF Reg.MTR_CFG_VSTREAM e c == s)

/-- Whether `e` is the lowest billing element fed by its voltage stream. -/
def lowestFed (e : Nat) (c : Chip) : Bool :=
  elemBilling e c && (List.range e).all fun d =>
    !(elemBilling d c && getF Reg.MTR_CFG_VSTREAM d c == getF Reg.MTR_CFG_VSTREAM e c)

/-- The chain link is enabled by the CHAIN card (R327). -/
def chainOn (c : Chip) : Bool := cardU8 0x0051 0 0 0 c == 1

/-- R124: the channel of a link group is configured: a vehicle link with its bay, the chain link when it is enabled. -/
def linkConfigured (n : Nat) (c : Chip) : Bool := bayConfigured n c
def chainConfigured (c : Chip) : Bool := chainOn c

/-! ### The held trump card, R24, R27, R28, R91 -/

def held (c : Chip) : Bool := c.hsl.trump.isSome
def trumpU8 (off : Nat) (c : Chip) : Nat := Byte.u8 (c.hsl.trump.getD []) off
def trumpU16 (off : Nat) (c : Chip) : Nat := Byte.u16 (c.hsl.trump.getD []) off

/-- R28, R31: a command outside a trump limit of class `k`: the class's flag is set and its counter rises. -/
def trumpEvent (k : Nat) (c : Chip) : Chip :=
  addSat Reg.DEV_TRUMP_CNT_COUNT k 0xFFFFFFFF 1 (setBitF Reg.DEV_TRUMP_FLAG_CLAMP 0 k true c)

/-- The HSL's record of a bay. -/
def hslBay (n : Nat) (c : Chip) : HslBay := c.hsl.bays[n]?.getD {}
def hslBayPut (n : Nat) (x : HslBay) (c : Chip) : Chip :=
  { c with hsl := { c.hsl with bays := c.hsl.bays.setIfInBounds n x } }

/-! ### Lifecycle and keys, R438, R446 -/

/-- R438: the lifecycle code, from the fuses PROV (bit 0), FIELD (bit 1), RETIRED (bit 2) and SEAL. -/
def lifecycle (c : Chip) : Nat :=
  let f := getF Reg.SEC_LC_FUSES 0 c
  if f.testBit 2 then 4
  else if f.testBit 1 then (if sealed c then 2 else 3)
  else if f.testBit 0 then 1
  else 0

def inService (c : Chip) : Bool := lifecycle c == 3

/-- R446: since a FULL debug grant and until the next start every authorisation is treated as absent. -/
def authBlocked (c : Chip) : Bool := c.sec.full

/-! ### Power states, R63-R66, R526 -/

/-- POWER.IDLE_S, the time before RUN passes to LEAN. -/
def Chip.idleS (c : Chip) : Nat := cardU16 0x0003 0 2 300 c

def inStandby (c : Chip) : Bool := c.pwr.phase == .run && getF Reg.PWR_STATE_STATE 0 c == 3

/-- R526: entry into RUN starts the idle timer from zero. -/
def enterRun (c : Chip) : Chip :=
  setF Reg.PWR_STATE_STATE 0 1 { c with pwr := { c.pwr with idleMs := 0, timerWake := false } }

/-- R526: an activity event starts the idle timer from zero and moves LEAN to RUN. -/
def activity (c : Chip) : Chip :=
  if c.pwr.phase != .run then c
  else if getF Reg.PWR_STATE_STATE 0 c = 2 then enterRun c
  else { c with pwr := { c.pwr with idleMs := 0 } }

/-- R474: the timers of a session do not run in STANDBY. -/
def sessResume (c : Chip) : Chip :=
  let dt := c.backup.ms - c.pwr.sbAt
  { c with hst := { c.hst with sess := c.hst.sess.map fun x => { x with last := x.last + dt } } }

/-- R66: wake source `k` of PWR_WAKE is enabled in STANDBY. -/
def wakes (k : Nat) (c : Chip) : Bool := inStandby c && (regWord 0x10008 c).testBit k

/-- R66: wake source `k` of PWR_WAKE wakes the device from STANDBY if it is enabled; the billing timer, source 7, into
LEAN. -/
def standbyWakeFrom (k : Nat) (c : Chip) : Chip :=
  if wakes k c then
    let c := setF Reg.PWR_STATE_WAKE_SRC 0 k (sessResume c)
    if k = 7 then setF Reg.PWR_STATE_STATE 0 2 { c with pwr := { c.pwr with timerWake := true } } else enterRun c
  else c

/-- R505: a firmware activation is pending: no grant is sent and no session is admitted into CONNECTED. -/
def actPending (c : Chip) : Bool := getF Reg.UPD_STAT_PENDING 0 c == 1

/-! ### Writers -/

/-- The session is the Declarer (R469). -/
def isDeclarer (s : Nat) (c : Chip) : Bool := c.hst.decl == some s

/-- R81, R96 and their like: a write is taken from the Declarer or from firmware, and from no session in bare mode. -/
def writerStatus (who : Writer) (c : Chip) : Status :=
  match who with
  | .firmware => if c.pwr.phase = .run then .ok else .state
  | .session s =>
    if c.pwr.phase = .bare then .bare
    else if c.pwr.phase ≠ .run then .state
    else if isDeclarer s.val c then .ok else .notDeclarer

/-- A command or a write that its sender may make runs `f`; the answer is its status. -/
def asWriter (who : Writer) (f : Chip → Chip × Status) (c : Chip) : Chip :=
  match writerStatus who c with
  | .ok => let r := f c; { r.1 with reply := r.2 }
  | e => { c with reply := e }

end Sys2Proof.Machine
end

