-- ==== Sys2Proof/Machine/Session.lean ====
section
/-!
DEFINITION. Host sessions (chapter 17): the transports, opening and closing a session, bulk transfers that end with it, and the
loss of ownership.
-/

namespace Sys2Proof.Machine
open Sys2Proof

def sess (s : Nat) (c : Chip) : Session := c.hst.sess[s]?.getD {}
def sessPut (s : Nat) (x : Session) (c : Chip) : Chip :=
  { c with hst := { c.hst with sess := c.hst.sess.setIfInBounds s x } }

/-- R474: whether the host ports take frames at all. -/
def hostUp (c : Chip) : Bool := (c.pwr.phase == .run && !c.upd.pause) || c.pwr.phase == .bare

/-- R502: the valid copy of the boot header with the higher SEQ. -/
def newestHdr (c : Chip) : Option BootHeader :=
  match c.upd.hdr[0], c.upd.hdr[1] with
  | some a, some b => if a.seq < b.seq then some b else some a
  | some a, none => some a
  | none, b => b

/-- R508: the recovery loader runs. -/
def loaderRuns (c : Chip) : Bool := getF Reg.UPD_STAT_NO_FW 0 c == 1

/-- R502, R503: a byte of the host settings in force: the HOST card, or BARE_HOST in bare mode. The recovery loader and a device
with no valid boot header run the service port alone. -/
def hostU8 (off dflt : Nat) (c : Chip) : Nat :=
  if c.pwr.phase = .bare then
    (if loaderRuns c then 0 else match newestHdr c with
      | some h => Byte.u8 h.bare off
      | none => 0)
  else cardU8 0x00A0 0 off dflt c

/-- R473, R475, R474: Ethernet port `p` runs. -/
def portUp (p : Nat) (c : Chip) : Bool :=
  hostUp c && c.pwr.hostPll && !inStandby c && !c.sec.full && (hostU8 0 0 c).testBit p &&
    !(getF Reg.HST_CTL_NET_OFF 0 c).testBit p

/-- R473: the SPI host port runs. -/
def spiUp (c : Chip) : Bool := hostUp c && hostU8 1 0 c == 1

/-- A network port is up (R326). -/
def netUp (c : Chip) : Bool := portUp 0 c || portUp 1 c

/-- R453: the lowest free network session. -/
def freeNet (c : Chip) : Option Nat := (List.range 4).find? fun s => (sess s c).state == 0

/-- R326, R453: a relayed connection finds a free network session. -/
def relayRoom (c : Chip) : Bool := hostUp c && !inStandby c && !c.sec.full && (freeNet c).isSome

/-! ### Frames and commands, R455-R464 -/

/-- R457, R460: the answer to a request; on the SPI host port it waits for its READ, also once the session has closed. -/
def respond (type : Nat) (rq : Request) (st : Status) (data : List Nat) (c : Chip) : Chip :=
  let s := rq.sess.val
  let x := sess s c
  let seq := x.txSeq + 1
  let frame := khpFrame type s 1 rq.tag.toNat seq (Byte.le 2 st.code ++ [0, 0] ++ data)
  let r : Response := { sess := s, type := type, tag := rq.tag.toNat, seq := seq, status := st, data := data }
  let c := { c with reply := st, hst := { c.hst with resp := some r } }
  if x.state = 0 then (if s = 4 then sessPut s { x with tx := x.tx ++ [frame] } c else c)
  else sessPut s { x with txSeq := seq, tx := framesOut s x frame } c

/-- R474: HS_IRQ_N goes low once the transaction that woke the device is over; the next one releases it. -/
def wakeIrq (s : Nat) (on : Bool) (c : Chip) : Chip := if s = 4 then { c with hst := { c.hst with woke := on } } else c

/-- R453, R459, R526: a frame of a session is accepted. -/
def frameTake (s : Nat) (c : Chip) : Chip :=
  let c := wakeIrq s false c
  let x := sess s c
  activity (addSat Reg.HST_SCNT_RX s 65535 1 (sessPut s { x with rxSeq := x.rxSeq + 1, last := c.backup.ms } c))

/-- R474: a frame reaches a port. In STANDBY the one that wakes the device is discarded; the network is off there. -/
def onPort (s : Nat) (f : Chip → Chip) (c : Chip) : Chip :=
  if inStandby c then (if 4 ≤ s then wakeIrq s (wakes (s - 1) c) (standbyWakeFrom (s - 1) c) else c)
  else if hostUp c then f c else c

/-- A frame of an open session that passes R459. -/
def onFrame (s : Nat) (f : Chip → Chip) (c : Chip) : Chip :=
  onPort s (fun c => if (sess s c).state = 2 then f (frameTake s c) else c) c

/-- R96, R464, R508: where a command acts: with a deck only, in bare mode too, or under the recovery loader too. -/
inductive Acts where
  | run
  | bare
  | loader
  deriving DecidableEq, Repr

/-- Whether the present mode admits a command. -/
def Acts.here (a : Acts) (c : Chip) : Bool :=
  if c.pwr.phase != .bare then true else if loaderRuns c then a == .loader else a != .run

/-- R464, R96: a request of an open session that a command answers; `decl` marks one for the Declarer only. -/
def hostReq (type : Nat) (rq : Request) (decl : Bool) (acts : Acts) (f : Chip → Chip × Status × List Nat) : Chip → Chip :=
  onFrame rq.sess.val fun c =>
    if !acts.here c then respond type rq .bare [] c
    else if decl ∧ !isDeclarer rq.sess.val c then respond type rq .notDeclarer [] c
    else
      let r := f c
      respond type rq r.2.1 r.2.2 r.1

/-- R464: a COMMAND. -/
def hostCmd (rq : Request) (decl : Bool) (acts : Acts) (f : Chip → Chip × Status × List Nat) : Chip → Chip :=
  hostReq 0x20 rq decl acts f

/-- A command whose answer is its status. -/
def statusCmd (rq : Request) (decl : Bool) (acts : Acts) (f : Chip → Chip × Status) : Chip → Chip :=
  hostCmd rq decl acts fun c =>
    let r := f c
    (r.1, r.2, [])

/-- R465: a command "by bulk" whose transfer is complete; it answers the BULK_CLOSE. -/
def bulkCmd (rq : Request) (acts : Acts) (f : Chip → Chip × Status) : Chip → Chip :=
  hostReq 0x42 rq true acts fun c =>
    let r := f c
    (r.1, r.2, [])

/-! ### Bulk transfers and ownership, R465, R470 -/

/-- R465: a session's bulk transfer is aborted. -/
def bulkAbort (s : Nat) (c : Chip) : Chip :=
  let x := sess s c
  if x.bulk.isSome then
    flagF Reg.HST_STAT_BULK_ABORT 0 0 Reg.HST_STAT_EVT_CNT 0 (sessPut s { x with bulk := none } c)
  else c

/-- R465, R470: there is no Declarer: a pending HANDOVER lapses and the Declarer's bulk transfer is aborted. -/
def declDrop (c : Chip) : Chip :=
  match c.hst.decl with
  | none => c
  | some s => bulkAbort s { c with hst := { c.hst with decl := none, target := none } }

/-! ### Opening and closing, R453 -/

/-- A session closes: its transfer is aborted, its ownership and a HANDOVER that names it end. -/
def sessClose (s : Nat) (c : Chip) : Chip :=
  if (sess s c).state = 0 then c
  else
    let c := bulkAbort s c
    let c := if c.hst.decl = some s then declDrop c else c
    let c := if c.hst.target.map (·.1) = some s then { c with hst := { c.hst with target := none } } else c
    sessPut s {} c

/-- R326: the session of a relayed connection closes with its flow. -/
def relaySessionClose (f : Nat) (c : Chip) : Chip :=
  match (List.range 4).find? fun s => (sess s c).relay == some f with
  | none => c
  | some s => sessClose s c

/-- R326, R453: a relayed connection takes the lowest free network session, to be opened by OPEN. -/
def relaySessionOpen (f : Nat) (c : Chip) : Chip :=
  match freeNet c with
  | none => c
  | some s =>
    sessPut s { state := 1, xport := 2, rank := cardU8 0x00A0 0 8 0 c, relay := some f, last := c.backup.ms
                cursor := getF Reg.HST_EVTSEQ_SEQ 0 c + 1 } c

end Sys2Proof.Machine
end

