-- ==== Sys2Proof/Machine/Keys.lean ====
section
/-!
DEFINITION. Keys and where they are held (R426-R432): the key region, the fixed and working keys, and which of them unwrap.
-/

namespace Sys2Proof.Machine
open Sys2Proof

/-- R428: the fixed entry of a key. -/
def fixedEntry (id : Nat) : Option Nat :=
  if id = 0x10 then some 0
  else if id = 0x11 then some 1
  else if 0x20 ≤ id ∧ id ≤ 0x23 then some (id - 0x20 + 2)
  else if id = 0x24 then some 6
  else if 0x28 ≤ id ∧ id ≤ 0x2B then some (id - 0x28 + 7)
  else none

/-- R428: the working keys. -/
def workingKey (id : Nat) : Bool :=
  (0x30 ≤ id && id ≤ 0x33) || id == 0x40 || id == 0x41 || (0x100 ≤ id && id ≤ 0x1FF)

/-- R428: the KINDs a key may have. -/
def kindsOf (id : Nat) : List Nat :=
  if id = 0x10 then [5]
  else if id = 0x11 ∨ id = 0x24 ∨ (0x28 ≤ id ∧ id ≤ 0x2B) then [4]
  else if 0x20 ≤ id ∧ id ≤ 0x23 then [4, 5]
  else if id = 0x30 then [3]
  else if id = 0x31 then [2]
  else if id = 0x32 ∨ id = 0x33 then [1]
  else if id = 0x40 ∨ id = 0x41 then [6, 7]
  else if 0x100 ≤ id ∧ id ≤ 0x1FF then [1, 2, 3, 4, 5, 6, 7]
  else []

/-- R428: the length of a KIND's material. -/
def kindLen (kind : Nat) : Nat :=
  match kind with
  | 1 => 16
  | 2 => 32
  | 3 => 32
  | 4 => 64
  | 5 => 96
  | 6 => 32
  | 7 => 48
  | _ => 0

/-- R432: the pairs of KEY_ID and ENTRY of the KEYS card. -/
def keyPairs (c : Chip) : List (Nat × Nat) :=
  match cardPayload 0x00C0 0 c with
  | none => []
  | some p => (List.range (Byte.u16 p 0)).map fun k => (Byte.u16 p (4 + 4 * k), Byte.u16 p (6 + 4 * k))

/-- The entry in which a key is looked for: the fixed one, or the one the KEYS card names. -/
def keyEntry (id : Nat) (c : Chip) : Option Nat :=
  match fixedEntry id with
  | some e => some e
  | none => ((keyPairs c).find? fun q => q.1 == id).map (·.2)

/-- The blob of an entry. -/
def blobAt (e : Nat) (c : Chip) : Option KeyBlob := (c.sec.entries.find? fun q => q.1 == e).map (·.2)

/-- R426: the first bytes of a context: LCC, 0xFF once retired, and DBG, 2 once FULL has been granted since the start. -/
def keyContext (c : Chip) : List Nat := [if lifecycle c = 4 then 0xFF else 1, if c.sec.full then 2 else 0]

/-- R426: KD(label, ctx) = HMAC-SHA-256(ROOT, label, 0, ctx). -/
def deriveKey (label : String) (ctx : List Nat) : List Nat :=
  hmac256 ((List.range 32).map fun k => (Config.rootByte k).toNat) (label.toList.map (·.toNat) ++ 0 :: ctx)

/-- R426: KW_DEV, KW_KEY, KW_MEAS and KF. -/
def kwDev (c : Chip) : List Nat := deriveKey "WRAP-DEV" (keyContext c)
def kwKey (c : Chip) : List Nat := deriveKey "WRAP-KEY" (keyContext c)
def kwMeas (c : Chip) : List Nat := deriveKey "WRAP-MEAS" (keyContext c ++ c.sec.mFw ++ c.sec.mDeck)
def sealingKey (c : Chip) : List Nat := deriveKey "FW-SEAL" (keyContext c ++ c.sec.mFw ++ c.sec.mDeck)

/-- R426, R430: a blob unwraps while ROOT is valid, no FULL grant has been made since the start, the device is not retired
and, for BIND 1, firmware and deck are those it is bound to. -/
def blobOpens (b : KeyBlob) (c : Chip) : Bool :=
  c.sec.root && !c.sec.full && lifecycle c != 4 &&
    (b.bind == 0 || (b.mFw == c.sec.mFw && b.mDeck == c.sec.mDeck))

/-- R429, R431: the key, where its entry holds a blob of that KEY_ID and a KIND it may have, and the blob unwraps. -/
def keyFind (id : Nat) (c : Chip) : Option KeyBlob :=
  match keyEntry id c with
  | none => none
  | some e => (blobAt e c).filter fun b => b.keyId == id && (kindsOf id).contains b.kind && blobOpens b c

def keyHeld (id : Nat) (c : Chip) : Bool := (keyFind id c).isSome

/-- The bytes of a key that unwraps. -/
def keyBytes (id : Nat) (c : Chip) : Option (List Nat) := (keyFind id c).map (·.mat)

/-- R450: SEC_KEYMAP shows whether an entry of the 1,024 unwrapped at its last read. -/
def keymapNote (e : Nat) (c : Chip) : Chip :=
  let ok := match blobAt e c with
    | none => false
    | some b => blobOpens b c
  if e < 1024 then setBitF Reg.SEC_KEYMAP_LOADED (e / 32) (e % 32) ok c else c

/-- R431: KC reads a key's blob and moves the key into a slot; of 32 slots the one used longest ago is released. -/
def keyLoad (id : Nat) (c : Chip) : Chip :=
  match keyEntry id c with
  | none => c
  | some e =>
    let c := keymapNote e c
    if keyHeld id c then
      { c with sec := { c.sec with slots := (id :: c.sec.slots.filter fun k => k != id).take 32 } }
    else c

/-- R431: the slot of a key that is erased or replaced is cleared. -/
def slotClear (id : Nat) (c : Chip) : Chip := { c with sec := { c.sec with slots := c.sec.slots.filter fun k => k != id } }

/-- R425, R426, R446, R450: the device key pairs are present and unwrap. -/
def devKeyOk (c : Chip) : Bool := c.sec.devKey && c.sec.root && !c.sec.full && lifecycle c != 4

/-- R446, R450: KEYS_AVAIL. -/
def keysAvail (c : Chip) : Bool := c.sec.root && !c.sec.full

end Sys2Proof.Machine
end

