-- ==== Sys2Proof/Machine/Switch.lean ====
section
/-!
DEFINITION. The load-switch channels in the power die (chapter 12): their inputs, their outputs, trips, retries, latches and
the off-state test.
-/

namespace Sys2Proof.Machine
open Sys2Proof

def lsw (k : Nat) (c : Chip) : LswChan := c.lsw.chan[k]?.getD {}
def lswPut (k : Nat) (x : LswChan) (c : Chip) : Chip :=
  { c with lsw := { c.lsw with chan := c.lsw.chan.setIfInBounds k x } }

/-- R332: the filtered level of an LSIN ball. -/
def lsinHigh (k : Nat) (c : Chip) : Bool := c.lsw.lsin.getLsbD k

/-! ### Fields of the LSW card, R334 -/

def LswChan.u8 (x : LswChan) (off : Nat) : Nat := Byte.u8 (x.cfg.getD []) off
def LswChan.kind (x : LswChan) : Nat := x.u8 4
def LswChan.src (x : LswChan) : Nat := x.u8 5
def LswChan.func (x : LswChan) : Nat := x.u8 7
def LswChan.budget (x : LswChan) : Nat := x.u8 0xD
def LswChan.waitMs (x : LswChan) : Nat := 100 * Byte.u16 (x.cfg.getD []) 0xE
def LswChan.offTest (x : LswChan) : Bool := x.u8 0x10 == 1

/-! ### The input and the output, R331, R336 -/

/-- R331: the level of the one input a channel follows. -/
def lswInput (x : LswChan) (c : Chip) : Bool :=
  match x.kind with
  | 0 => lsinHigh x.src c != (x.u8 6 == 1)
  | 1 => if x.src < 16 then (hslBay x.src c).gate else c.hsl.brake[x.src - 16]?.getD false
  | _ =>
    if x.src < 16 then
      let i : InsState := c.prt.ins[x.src]?.getD {}
      i.inj
    else c.lsw.level[x.src]?.getD false

/-- LSW_ST.STATE of a channel. -/
def LswChan.state (x : LswChan) : Nat :=
  if x.cfg.isNone then 0
  else if x.latch then 5
  else if x.test != 0 then 6
  else if x.wait then 4
  else if x.out then (if x.window then 3 else 2)
  else 1

/-- LSW_ST and LSW_TEST.RUNNING show the channel. -/
def lswShow (k : Nat) (c : Chip) : Chip :=
  if !c.lsw.granted then c
  else
    let x := lsw k c
    let c := setF Reg.LSW_ST_STATE k x.state (setF Reg.LSW_ST_APPLIED k x.cls (setF Reg.LSW_ST_RETRY_LEFT k x.retry c))
    setF Reg.LSW_TEST_RUNNING 0 ((List.range 48).any fun j => (lsw j c).test != 0).toNat c

/-- R339: the channel's last temperatures allow it to switch on again. -/
def lswCool (x : LswChan) : Bool := x.tj - x.caseT < 10 * ((x.u8 0xB : Int) - 15) && x.tj < 1600

/-- R336, R339, R347: what the output is to be, supply apart. A frozen channel keeps its output. -/
def lswWanted (x : LswChan) (c : Chip) : Bool :=
  match x.hold with
  | some b => b
  | none => c.lsw.granted && x.cfg.isSome && lswInput x c && !x.wait && !x.latch && (!x.hot || lswCool x)

/-- R343, R344: an input that turns on ends the channel's test, whose result is discarded; before a retry the channel then
follows its input. -/
def testAbort (k : Nat) (c : Chip) : Chip :=
  let x := lsw k c
  let inp := lswInput x c
  if x.test = 0 ∨ inp = x.testIn then c
  else if inp then lswShow k (lswPut k { x with test := 0, wait := x.wait && x.test != 2 } c)
  else lswPut k { x with testIn := false } c

/-- R336-R338: the output follows its conditions. A switch-on opens an inrush window and takes the class commanded. -/
def lswDrive (k : Nat) (c : Chip) : Chip :=
  let x := lsw k c
  let on := lswWanted x c && c.powered && c.pwr.vbbOk.getLsbD (k / 8)
  if on && !x.out then
    lswShow k (lswPut k { x with
      out := true, window := x.u8 0xA != 0, cls := x.cmd, onAt := c.backup.ms, winEnd := c.backup.ms, test := 0, hot := false } c)
  else if !on && x.out then lswShow k (lswPut k { x with out := false, window := false } c)
  else c

def lswEval (k : Nat) (c : Chip) : Chip := lswDrive k (testAbort k c)

/-- Every channel follows its input. -/
def lswAll (c : Chip) : Chip := (List.range 48).foldl (fun c k => lswEval k c) c

/-! ### Trips, R337-R347 -/

/-- The flag at bit `b` of LSW_ST (R350). -/
def lswStBit (b : Nat) : Fld := { Reg.LSW_ST_OC with lsb := b }

/-- A trip's flag and its lifetime count; a trip in Reset is kept for the next start (R347). -/
def lswFlag (k bit : Nat) (c : Chip) : Chip :=
  if c.lsw.granted then
    let c := flagBit (lswStBit bit) k 0 Reg.LSW_ST_EVT_CNT k c
    if bit = 6 ∨ bit = 7 then addSat Reg.LSW_LIFE_SYMP k 255 1 c else addSat Reg.LSW_LIFE_FAULTS k 65535 1 c
  else
    let x := lsw k c
    lswPut k { x with late := x.late ||| BitVec.ofNat 8 (2 ^ bit) } c

/-- R344: a channel latches off. -/
def lswLatch (k : Nat) (c : Chip) : Chip :=
  addSat Reg.LSW_LIFE_LATCH k 255 1 (lswPut k { lsw k c with latch := true, wait := false, test := 0 } c)

/-- R344, R347: a channel trips off with flag `bit` of LSW_ST; `own` is false for SYMP and SHED. In Reset there is no
retry. -/
def lswTrip (k bit : Nat) (own : Bool) (c : Chip) : Chip :=
  let x := lsw k c
  let c := lswFlag k bit c
  let latch := x.budget == 0 || (own && x.retry == 0)
  let x := { lsw k c with
    out := false, window := false, wait := !latch && x.hold.isNone, tripAt := c.backup.ms
    retry := if own then x.retry - 1 else x.retry, hold := x.hold.map fun _ => false }
  let c := lswPut k x c
  lswShow k (if latch then lswLatch k c else c)

/-- R337: the limiter engages: inside the window the channel stays on, outside it trips with OC. -/
def limiterEngage (k : Nat) (c : Chip) : Chip :=
  let x := lsw k c
  if x.out && !x.window then lswTrip k 0 true c else c

/-- R337: the inrush window of INRUSH ms ends; a channel still limiting trips with OC. -/
def inrushEnd (k : Nat) (engaged : Bool) (c : Chip) : Chip :=
  let x := lsw k c
  if !x.window ∨ c.backup.ms < x.onAt + x.u8 0xA then c
  else if engaged then lswTrip k 0 true c
  else lswShow k (lswPut k { x with window := false, winEnd := c.backup.ms } c)

/-- R339, R340: the junction passes a limit. The trip is the channel's own if its peak of the last 10 ms is the highest of
its bank, else it is sympathetic. -/
def thermalTrip (k : Nat) (tj caseT : Int) (peaks : Vector Int 8) (c : Chip) : Chip :=
  let x := { lsw k c with tj := tj, caseT := caseT }
  let c := lswPut k x c
  let own := (List.range 8).all fun j => peaks[j]?.getD 0 ≤ peaks[k % 8]?.getD 0
  let abs := 1750 ≤ tj
  if !c.powered || !x.out || !(abs || 10 * (x.u8 0xB : Int) < tj - caseT) then c
  else
  let c := lswPut k { x with hot := true } c
  if own then lswTrip k (if abs then 2 else 1) true c
  else lswTrip k 7 false c

/-- R341: no channel of a bank has been inside its inrush window over the last `t` ms. -/
def bankQuiet (b t : Nat) (c : Chip) : Bool :=
  (List.range 8).all fun j => let x := lsw (8 * b + j) c; !x.out || (!x.window && decide (x.winEnd + t ≤ c.backup.ms))

/-- R341: the bank sum has exceeded 8.0 A for tBANK, 1.00 s, with no channel of the bank in its window; shedding begins. -/
def bankOverload (b : Nat) (c : Chip) : Chip :=
  if !c.lsw.granted || getF Reg.LSW_BANK_OVL b c == 1 || !bankQuiet b 1000 c then c
  else setF Reg.LSW_BANK_OVL b 1 { c with lsw := { c.lsw with shedAt := c.lsw.shedAt.setIfInBounds b c.backup.ms } }

/-- R341: the channel a bank sheds next. -/
def shedPick (b : Nat) (c : Chip) : Option Nat :=
  ((List.range 8).reverse.map fun j => 8 * b + j).find? fun k =>
    let x := lsw k c
    x.out && x.kind != 1 && x.func == 0

/-- R341: every tSHED, 20 ms, one channel is shed, until the sum is at or below 8.0 A. DEDUCED: the first one tSHED after shedding
has begun (log 70). -/
def bankShed (b sumMa : Nat) (c : Chip) : Chip :=
  if getF Reg.LSW_BANK_OVL b c = 0 ∨ c.backup.ms < c.lsw.shedAt[b]?.getD 0 + 20 then c
  else if sumMa ≤ 8000 then setF Reg.LSW_BANK_OVL b 0 c
  else match shedPick b c with
    | none => c
    | some k =>
      let c := { c with lsw := { c.lsw with shedAt := c.lsw.shedAt.setIfInBounds b c.backup.ms } }
      let c := flagF Reg.LSW_STAT_SHED_EV 0 0 Reg.LSW_STAT_EVT_CNT 0 (addSat Reg.LSW_BANK_SHED_CNT b 255 1 c)
      lswTrip k 6 false c

/-- R342: the current has stayed below OL_MA for tOLON, 100 ms, with the channel on outside its window. -/
def openLoadOn (k : Nat) (c : Chip) : Chip :=
  let x := lsw k c
  if c.lsw.granted && x.out && !x.window && x.u8 0xC != 0 && decide (x.winEnd + 100 ≤ c.backup.ms) then
    flagBit (lswStBit 3) k 0 Reg.LSW_ST_EVT_CNT k c
  else c

/-! ### The off-state test and retries, R343, R344 -/

/-- R343: the channels a test run covers: OFFTEST 1 with the input off, or waiting to retry. -/
def testRun (c : Chip) : Chip :=
  (List.range 48).foldl (fun c k =>
    let x := lsw k c
    if x.cfg.isSome && x.offTest && !x.out && !x.latch && x.test == 0 && (x.wait || !lswInput x c) then
      lswShow k (lswPut k { x with test := 1, testAt := c.backup.ms, testIn := lswInput x c } c)
    else c) c

/-- R343: a write to LSW_TEST. -/
def lswTestWrite (go : Bool) (c : Chip) : Chip × Status :=
  if !go then (c, .ok)
  else if getF Reg.LSW_TEST_RUNNING 0 c = 1 then (c, .busy)
  else (testRun c, .ok)

/-- R343, R344: the test of a channel ends after tOFFT, 2.0 ms. Before a retry SHORT_VBB latches the channel; else it follows its input. -/
def offTestDone (k pullMv freeMv vbbMv : Nat) (c : Chip) : Chip :=
  let x := lsw k c
  if x.test = 0 ∨ c.backup.ms < x.testAt + 2 then c
  else
    let short := 3000 ≤ freeMv
    let c := if 6 * vbbMv ≤ 10 * pullMv then flagBit (lswStBit 4) k 0 Reg.LSW_ST_EVT_CNT k c else c
    let c := if short then flagBit (lswStBit 5) k 0 Reg.LSW_ST_EVT_CNT k c else c
    let c := lswPut k { x with test := 0, wait := x.wait && x.test == 1 } c
    let c := if short && x.test == 2 then lswLatch k c else lswEval k c
    let c := lswShow k c
    if getF Reg.LSW_TEST_RUNNING 0 c = 0 then flagF Reg.LSW_STAT_TEST_DONE 0 0 Reg.LSW_STAT_EVT_CNT 0 c else c

/-- R344: RETRY_DS has passed since the trip and the thermal condition is met. -/
def lswRetry (k : Nat) (tj caseT : Int) (c : Chip) : Chip :=
  let x := { lsw k c with tj := tj, caseT := caseT }
  let c := lswPut k x c
  if !x.wait || x.test == 2 || c.backup.ms < x.tripAt + x.waitMs || !lswCool x then c
  else if x.offTest then lswShow k (lswPut k { x with test := 2, testAt := c.backup.ms, testIn := lswInput x c } c)
  else
    let c := lswPut k { x with wait := false } c
    lswShow k (lswEval k c)

/-- R344: on for tBUDGET without a trip, the channel gets its budget back. -/
def budgetRestore (k : Nat) (c : Chip) : Chip :=
  let x := lsw k c
  if x.out && x.onAt + 10000 ≤ c.backup.ms then lswShow k (lswPut k { x with retry := x.budget } c) else c

/-- R345, R346: LSW_CLR, checked in order; a trip of the channel in the same cycle voids the clear. -/
def lswClear (k : Nat) (go trip : Bool) (c : Chip) : Chip × Status :=
  let x := lsw k c
  if !go then (c, .ok)
  else if 48 ≤ k ∨ x.cfg.isNone then (c, .range)
  else if !lswCool x then (c, .state)
  else if x.func == 1 && lswInput x c then (c, .state)
  else if trip then (flagF Reg.LSW_STAT_CLR_VOID 0 0 Reg.LSW_STAT_EVT_CNT 0 c, .ok)
  else
    let c := lswPut k { x with latch := false, retry := x.budget } c
    (lswShow k (lswEval k c), .ok)

/-! ### Class, R338 -/

/-- R338: a write of LSW_CTL.CLASS. A lower class takes effect at once, a higher one at the next switch-on. -/
def classWrite (who : Writer) (k v : Nat) (c : Chip) : Chip × Status :=
  let max := getF Reg.LSW_CTL_MAXCLASS k c
  let refused : Bool := match who with
    | .session _ => decide (getF Reg.LSW_CTL_DECKCLASS k c < v)
    | .firmware => false
  if refused then (c, .range)
  else
    let c := if max < v then trumpEvent 3 c else c
    let v := min v max
    let x := lsw k c
    let c := lswPut k { x with cmd := v, cls := min x.cls v } (setF Reg.LSW_CTL_CLASS k v c)
    (lswShow k c, .ok)

/-! ### Host lines, R333 -/

/-- A host line changes its level. -/
def lineLevel (l : Nat) (on : Bool) (c : Chip) : Chip :=
  lswAll { c with lsw := { c.lsw with
    level := c.lsw.level.setIfInBounds l on, lineAt := c.lsw.lineAt.setIfInBounds l c.backup.ms } }

/-- A line takes a mode; MODE 2 begins with the on phase. -/
def lineApply (l mode onT offT : Nat) (c : Chip) : Chip :=
  let c := setF Reg.LSW_LINE_MODE l mode (setF Reg.LSW_LINE_ON_T l onT (setF Reg.LSW_LINE_OFF_T l offT c))
  lineLevel l (mode != 0) c

/-- A line that a FUNC 3 channel selects. -/
def lockLine (l : Nat) (c : Chip) : Bool :=
  (List.range 48).any fun k => let x := lsw k c; x.cfg.isSome && x.func == 3 && x.kind == 2 && x.src == l

/-- R333: a write of LSW_LINE, rejected whole in the cases the rule lists. -/
def lineWrite (who : Writer) (l mode onT offT : Nat) (c : Chip) : Chip × Status :=
  let lock : Bool := match who with
    | .session _ => lockLine l c
    | .firmware => false
  if l < 16 ∨ 48 ≤ l ∨ 3 ≤ mode ∨ lock then (c, .range)
  else if mode = 2 ∧ (onT < 10 ∨ 1000 < onT ∨ offT < 10 ∨ 1000 < offT) then (c, .range)
  else (lineApply l mode onT offT c, .ok)

/-- R333: a blink phase, ON_T or OFF_T in units of 10 ms, ends. -/
def lineToggle (l : Nat) (c : Chip) : Chip :=
  let on := c.lsw.level[l]?.getD false
  let t := 10 * (if on then getF Reg.LSW_LINE_ON_T l c else getF Reg.LSW_LINE_OFF_T l c)
  if c.lsw.granted && getF Reg.LSW_LINE_MODE l c == 2 && decide (c.lsw.lineAt[l]?.getD 0 + t ≤ c.backup.ms) then
    lineLevel l (!on) c
  else c

/-- R255: the session machine drives the lock line of its bay's LOCK_CH. -/
def lockDrive (n : Nat) (on : Bool) (c : Chip) : Chip :=
  let k := getF Reg.BAY_CFG_LOCK_CH n c
  let x := lsw k c
  if k < 48 ∧ x.kind = 2 then lineApply x.src on.toNat 0 0 c else c

/-! ### Reset, supplies and start, R62, R346-R348 -/

/-- R347: the HSL takes its reset state: DROP channels go off, HOLD channels freeze, host lines go off. -/
def lswReset (c : Chip) : Chip :=
  let chan := c.lsw.chan.map fun x =>
    if x.cfg.isSome && x.u8 9 == 1 then
      match x.hold with
      | some _ => { x with test := 0 }
      | none => { x with hold := some x.out, holdAt := c.backup.ms, test := 0, wait := false }
    else { x with out := false, window := false, test := 0, wait := false, hold := some false }
  { c with lsw := { c.lsw with chan := chan, level := Vector.replicate 48 false, granted := false } }

/-- R49: a HOLD channel switches off within 1.95-2.00 s after the HSL took its reset state. -/
def holdTimeout (k : Nat) (c : Chip) : Chip :=
  let x := lsw k c
  if x.hold == some true && x.holdAt + 1950 ≤ c.backup.ms then
    lswPut k { x with hold := some false, out := false, window := false } c
  else c

/-- R49: in bare mode every channel is off. -/
def lswBare (c : Chip) : Chip :=
  { c with lsw := { c.lsw with chan := c.lsw.chan.map fun x => { x with hold := some false, out := false, window := false } } }

/-- R344, R348: the power die loses its supply: channels off, latches and configurations lost. -/
def lswLost (c : Chip) : Chip :=
  { c with lsw := { c.lsw with chan := Vector.replicate 48 {}, level := Vector.replicate 48 false, granted := false } }

/-- R347: the flags of a trip in Reset are reported at the start. -/
def lswReport (k : Nat) (c : Chip) : Chip :=
  let late := (lsw k c).late
  let c := (List.range 8).foldl (fun c b => if late.getLsbD b then lswFlag k b c else c) c
  lswPut k { lsw k c with late := 0 } c

/-- R338: LSW_CLASS_MAX of the held trump card. -/
def classMax (k : Nat) (c : Chip) : Nat := trumpU8 (0x44 + k / 2) c / 16 ^ (k % 2) % 16

/-- The registers of one channel take its card. -/
def lswRegs (k : Nat) (c : Chip) : Chip :=
  let x := lsw k c
  let p := x.cfg.getD []
  let c := setF Reg.LSW_CFG_KIND k x.kind (setF Reg.LSW_CFG_SRC_IDX k x.src (setF Reg.LSW_CFG_INVERT k (x.u8 6) c))
  let c := setF Reg.LSW_CFG_FUNC k x.func (setF Reg.LSW_CFG_POLICY k (x.u8 9) (setF Reg.LSW_CFG_RETRY k x.budget c))
  let c := setF Reg.LSW_CFG_INRUSH k (x.u8 0xA) (setF Reg.LSW_CFG_DT_MAX k (x.u8 0xB) c)
  let c := setF Reg.LSW_CFG2_RETRY_DS k (Byte.u16 p 0xE) (setF Reg.LSW_CFG2_OL_MA k (x.u8 0xC)
    (setF Reg.LSW_CFG2_OFFTEST k (x.u8 0x10) c))
  setF Reg.LSW_CTL_MAXCLASS k (classMax k c) (setF Reg.LSW_CTL_DECKCLASS k (x.u8 8) (setF Reg.LSW_CTL_CLASS k (x.u8 8) c))

/-- R343, R347, R348: the step "Cards applied": each channel takes its card, trips in Reset are reported, the off-state test
runs and the channels are granted their inputs. -/
def lswCards (c : Chip) : Chip :=
  let c := (List.range 48).foldl (fun c k =>
    let x := lsw k c
    let p := cardPayload 0x0060 k c
    let x := { x with cfg := p, hold := none, test := 0, wait := false }
    let cls := x.u8 8
    lswRegs k (lswPut k { x with cmd := cls, cls := if x.out then min x.cls cls else cls, retry := if x.latch then x.retry else x.budget } c)) c
  let c := { c with lsw := { c.lsw with granted := true } }
  let c := (List.range 48).foldl (fun c k => lswShow k (lswReport k c)) c
  lswAll (testRun c)

/-- R339: the temperatures that the power die measures; a channel that has cooled may switch on again. -/
def lswTemps (m : SwitchMeas) (c : Chip) : Chip :=
  lswAll ((List.range 48).foldl (fun c k =>
    lswPut k { lsw k c with tj := m.tj[k]?.getD 0, caseT := m.caseT[k / 8]?.getD 0 } c) c)

/-- R20, R350: the measured currents and temperatures of the channels and banks, while the bridge carries them. -/
def lswMeasure (m : SwitchMeas) (c : Chip) : Chip :=
  if !c.lsw.granted || !c.powered then c
  else if !c.bridgeUp then lswTemps m c
  else
    let c := lswTemps m c
    let c := (List.range 48).foldl (fun c k =>
      let tj := m.tj[k]?.getD 0
      let cs := m.caseT[k / 8]?.getD 0
      setF Reg.LSW_MEAS_I_MA k (min (m.ma[k]?.getD 0) 65535) (setF Reg.LSW_MEAS_TJ k (min (divNear tj 10 + 40).toNat 255)
        (setF Reg.LSW_MEAS_DT k (min (divNear (tj - cs) 10).toNat 255) c))) c
    (List.range 6).foldl (fun c b =>
      let sum := (List.range 8).foldl (fun a j => a + m.ma[8 * b + j]?.getD 0) 0
      setF Reg.LSW_BANK_I_MA b (min sum 65535) c) c

/-- R332: an LSIN level is accepted; it serves channels, lock feedback and the legal button. -/
def lsinTake (ball : Fin 8) (level : Bool) (c : Chip) : Chip :=
  let m := BitVec.ofNat 8 (2 ^ ball.val)
  lswAll { c with lsw := { c.lsw with lsin := if level then c.lsw.lsin ||| m else c.lsw.lsin &&& ~~~m } }

end Sys2Proof.Machine
end

