-- ==== Sys2Proof/Machine/Hsl.lean ====
section
/-!
DEFINITION. The hard-wired safety logic (chapters 01, 09, 10): the held trump card, trump events, the gate line of each
bay, its closing conditions and the protection latches with their mirror.
-/

namespace Sys2Proof.Machine
open Sys2Proof

/-! ### The bays at the HSL -/

/-- R252: BAY_ENABLE of the trump card. -/
def bayEnabled (n : Nat) (c : Chip) : Bool := (trumpU16 0x40 c).testBit n

/-- R252: the recognised class is C or D. -/
def pilotOk (n : Nat) (c : Chip) : Bool := (hslBay n c).rec_ == 3 || (hslBay n c).rec_ == 4

def latchOf (n : Nat) (c : Chip) : BitVec 6 := c.hsl.latch[n]?.getD 0

/-- R273: neither the bay nor the feeder holds a latch of any kind. -/
def protOk (n : Nat) (c : Chip) : Bool := latchOf n c == 0 && latchOf 16 c == 0

/-- R252: the bay's safety permission (Safety functions of the cable retractors). -/
def safeOk (n : Nat) (c : Chip) : Bool := c.hsl.safe[n]?.getD false

/-- R252: every closing condition except the grant. -/
def closingOk (n : Nat) (c : Chip) : Bool :=
  bayEnabled n c && pilotOk n c && protOk n c && (hslBay n c).weldOk && safeOk n c

/-- R230: an opening of the contactor is confirmed now. -/
def openNote (n : Nat) (c : Chip) (r : ReadState) : ReadState :=
  { r with openAt := some (nowFine c), waiting := instElems n c, lateStop := Vector.replicate 18 0 }

/-- R230, R258: an opening of the contactor is confirmed: the readings of the session, ended or in progress, note it. -/
def openingSeen (n : Nat) (c : Chip) : Chip :=
  let d := c.bil.done[n]?.getD []
  let r := c.bil.read[n]?.getD {}
  if d.any fun r => r.openAt.isNone then
    { c with bil := { c.bil with
      done := c.bil.done.setIfInBounds n (d.map fun r => if r.openAt.isNone then openNote n c r else r) } }
  else if r.number ≠ 0 then { c with bil := { c.bil with read := c.bil.read.setIfInBounds n (openNote n c r) } }
  else c

/-- R230: the contactor closes again; an opening noted earlier is not the session's last. -/
def closingSeen (n : Nat) (c : Chip) : Chip :=
  let r := c.bil.read[n]?.getD {}
  let r := { r with openAt := none, waiting := [], lateStop := Vector.replicate 18 0 }
  { c with bil := { c.bil with read := c.bil.read.setIfInBounds n r } }

/-- R29: the gate line goes off and the grant is not held over. R230: a contactor already recognised open is confirmed open then;
with WELD_OK 0 no opening can be confirmed, and the gate-off instant stands in its place. -/
def gateOff (n : Nat) (c : Chip) : Chip :=
  let b := hslBay n c
  if b.gate then
    let c := lswAll (hslBayPut n { b with gate := false, grant := false, offAt := some c.backup.ms } c)
    if b.wsen = some false ∨ !b.weldOk then openingSeen n c else c
  else hslBayPut n { b with grant := false } c

/-- R29: permission is withdrawn from a bay whose closing conditions, the grant among them, no longer hold together. -/
def recheck (n : Nat) (c : Chip) : Chip :=
  if (hslBay n c).gate && !(closingOk n c && (hslBay n c).grant) then gateOff n c else c

def recheckAll (c : Chip) : Chip := (List.range 16).foldl (fun c n => recheck n c) c

/-- Contactor permission of every bay is withdrawn. -/
def withdrawAll (c : Chip) : Chip := (List.range 16).foldl (fun c n => gateOff n c) c

/-! ### Latches, R272-R274 -/

/-- The bit of each kind of R272. -/
def kindBit (k : Nat) : BitVec 6 := BitVec.ofNat 6 (2 ^ k)

/-- Latches of an instance, with their mirror in the backup domain (R273). -/
def putLatch (n : Nat) (v : BitVec 6) (c : Chip) : Chip :=
  { c with hsl := { c.hsl with latch := c.hsl.latch.setIfInBounds n v }
           backup := { c.backup with mirror := c.backup.mirror.setIfInBounds n v } }

/-- R290: when a kind of an instance was set, and how its automatic clear stands. -/
def autoNote (n k : Nat) (at_ : Option Nat) (st : Nat) (c : Chip) : Chip :=
  let a := c.backup.latchAt[n]?.getD (Vector.replicate 4 none)
  let s := c.backup.autoSt[n]?.getD (Vector.replicate 4 0)
  { c with backup := { c.backup with
    latchAt := c.backup.latchAt.setIfInBounds n (a.setIfInBounds k at_)
    autoSt := c.backup.autoSt.setIfInBounds n (s.setIfInBounds k st) } }

/-- R291: the kinds of an instance in TRIP flits on their way. -/
def tripWaiting (n : Nat) (c : Chip) : BitVec 6 :=
  c.bridge.trips.foldl (fun (m : BitVec 6) t => match t with
    | .latch i k => if i = n then m ||| k else m
    | .safety => m) 0

/-- R273, R288, R289: a clear sent in class SAFETY acts on the latches where it reaches the HSL; a TRIP flit on its way for a kind comes
first and makes the clear of that kind void (R291). -/
def latchClear (n : Nat) (kinds : BitVec 6) (c : Chip) : Chip :=
  if c.bridgeUp then flitSent (putLatch n (latchOf n c &&& ~~~(kinds &&& ~~~tripWaiting n c)) c) else c

/-- R274: the lifetime count of a kind. -/
def latchLife (n k : Nat) (c : Chip) : Chip :=
  match k with
  | 0 => addSat Reg.PRT_LIFE_RAC n 255 1 c
  | 1 => addSat Reg.PRT_LIFE_RDC n 255 1 c
  | 2 => addSat Reg.PRT_LIFE_OC n 255 1 c
  | _ => addSat Reg.PRT_LIFE_INS n 255 1 c

/-- R274: one kind is set at the HSL: event bit, lifetime count and event record; BLIND has none of them (R288). -/
def latchOne (n k : Nat) (c : Chip) : Chip :=
  if (latchOf n c).getLsbD k then c
  else
    let c := putLatch n (latchOf n c ||| kindBit k) c
    if 4 ≤ k then c
    else
      let c := autoNote n k (some c.backup.ms) 0 c
      let c := addSat Reg.PRT_STAT_EVT_CNT 0 255 1 (setBitF Reg.PRT_EVT_TRIP 0 n true c)
      eventBit Reg.PRT_EVT_TRIP 0 n n [] (latchLife n k c)

/-- R274, R30: the HSL sets the latches a TRIP flit names and withdraws permission. -/
def latchTrip (n : Nat) (kinds : BitVec 6) (c : Chip) : Chip :=
  recheckAll ((List.range 6).foldl (fun c k => if kinds.getLsbD k then latchOne n k c else c) c)

/-- R274: the protection unit enqueues one TRIP flit for the kinds that are not latched and not on their way; R20: none once the
logic die has declared the bridge down. -/
def tripSend (n : Nat) (kinds : BitVec 6) (c : Chip) : Chip :=
  let new := kinds &&& ~~~(latchOf n c ||| tripWaiting n c)
  if new = 0 ∨ c.bridge.downLogic then c else { c with bridge := { c.bridge with trips := c.bridge.trips ++ [.latch n new] } }

/-- R273: the HSL restores the latches from the mirror when the power die is powered. -/
def restoreLatches (c : Chip) : Chip := { c with hsl := { c.hsl with latch := c.backup.mirror } }

end Sys2Proof.Machine
end

