-- ==== Sys2Proof/Machine/Settle.lean ====
section
/-!
DEFINITION. What the power die settles at the end of every step: permission is withdrawn where a closing condition does not hold
(R29, R252), and each load-switch channel follows its input (R331, R336); and the step of a command.
-/

namespace Sys2Proof.Machine
open Sys2Proof

/-- R29, R251, R252, R331: the HSL evaluates the closing conditions in every cycle, and each channel follows its input. -/
def settle (c : Chip) : Chip := lswAll (recheckAll c)

/-- The step of a command whose effect is `f`; the queue stays. -/
def State.run (f : Chip → Chip) (s : State) : Host.Outcome State Fault Refusal :=
  .next { toChip := settle (f s.toChip), pending := s.pending }

end Sys2Proof.Machine
end

