-- ==== Sys2Proof/Machine/Dealer.lean ====
section
/-!
DEFINITION. The Dealer, hands and tricks (chapter 05): link tricks, crypto tricks, shadow registers and commits, and the
interconnect arbiter. The metrology trick is in Sys2Proof/Machine/Metrology.lean.
-/

namespace Sys2Proof.Machine
open Sys2Proof

/-! ### Link tricks, R111-R113 -/

def linkHand (h : Nat) (c : Chip) : LinkHand := c.dlr.links[h]?.getD {}
def linkPut (h : Nat) (x : LinkHand) (c : Chip) : Chip :=
  { c with dlr := { c.dlr with links := c.dlr.links.setIfInBounds h x } }

/-- The pending work of a hand, the work in service with it. -/
def LinkHand.all (h : LinkHand) : List LinkWork := h.serving.toList ++ h.work

/-- The link class a hand is dealt by: the highest class, L1 first, among its pending work. -/
def LinkHand.cls (h : LinkHand) : Nat := h.all.foldl (fun a w => min a w.cls) 4

/-- The LCLK cycle of a hand's oldest pending event, from which its age counts. -/
def LinkHand.oldest (h : LinkHand) : Option Nat := (h.all.map (·.event)).min?

/-- The work a hand is served next: of its highest class, the oldest event. -/
def LinkHand.next (h : LinkHand) : Option LinkWork :=
  h.work.foldl (fun best w => match best with
    | none => some w
    | some b => if w.cls < b.cls ∨ (w.cls = b.cls ∧ w.event < b.event) then some w else some b) none

/-- R131: CLASS, WAIT and STATE of a link hand from its work. DESIGN CHOICE: a hand with no work left waits for its next event
and shows CLASS and WAIT 0 (log 57). -/
def linkShow (h : Nat) (c : Chip) : Chip :=
  let hd := linkHand h c
  let put := fun (st cls wait : Nat) => setF Reg.DLR_HAND_STATE (64 + h) st (setF Reg.DLR_HAND_CLASS (64 + h) cls
    (setF Reg.DLR_HAND_WAIT (64 + h) (min wait 255) c))
  match hd.serving, hd.next with
  | some w, _ => put 2 w.cls w.waited
  | none, some w => put (if hd.work.any (·.begun) then 4 else 1) w.cls w.waited
  | none, none => put 3 0 0

/-- R120: the link hands that may be dealt: none in the activation pause or without the link PLL; the chain link and wake
detection alone in STANDBY. -/
def linkCandidates (c : Chip) : List Nat :=
  if c.pwr.phase ≠ .run ∨ !c.pwr.linkPll ∨ c.upd.pause then []
  else if getF Reg.PWR_STATE_STATE 0 c = 3 then (List.range 16).map (· + 16)
  else List.range 32

/-- R120: the link hands that may not be dealt are idle, without work. -/
def linksIdle (c : Chip) : Chip :=
  let cand := linkCandidates c
  (List.range 32).foldl (fun c h =>
    if cand.contains h then c
    else setF Reg.DLR_HAND_STATE (64 + h) 0 (setF Reg.DLR_HAND_CLASS (64 + h) 0
      (setF Reg.DLR_HAND_WAIT (64 + h) 0 (linkPut h {} c)))) c

/-- R111: an event at LCLK cycle `lclk` of the trick in progress makes link hand `h` (0-31 for H64-H95) ready with work of class
`cls`, for the trick's end. An event in the cycle of a trick's edge is cycle 0 of the trick that begins there. -/
def linkWork (h cls lclk : Nat) (payload : List Nat) (c : Chip) : Chip :=
  if !(linkCandidates c).contains h then c
  else
    let hd := linkHand h c
    let w : LinkWork := { cls := cls, event := 6400 * c.dlr.edges + lclk, payload := payload }
    linkShow h (linkPut h { hd with work := hd.work ++ [w] } c)

/-- R113, R131: a decoded frame of vehicle link `h`: its payload is queued for firmware, and DEC takes the time from its end to
this trick edge, rounded up to 0.01 µs. -/
def frameDecoded (h : Nat) (w : LinkWork) (c : Chip) : Chip :=
  let v := c.lnk.vehicle[h]?.getD {}
  let c := { c with lnk := { c.lnk with vehicle := c.lnk.vehicle.setIfInBounds h { v with rxq := v.rxq ++ [w.payload] } } }
  let cycles := 6400 * (c.dlr.edges + 1) - w.event
  let t := min ((cycles + 7) / 8) 65535
  let c := if getF Reg.DLR_LE_MAX_DEC 0 c < t then setF Reg.DLR_LE_MAX_DEC 0 t c else c
  if 76800 < cycles then flagF Reg.DLR_STAT_LE_LATE 0 0 Reg.DLR_STAT_EVT_CNT 0 c else c

/-- R111: the end of a trick for one link hand: work that is done leaves it, work that is not is saved. -/
def linkFinish (finished : BitVec 32) (h : Nat) (c : Chip) : Chip :=
  let hd := linkHand h c
  match hd.serving with
  | none => c
  | some w =>
    if finished.getLsbD h then
      let c := linkPut h { hd with serving := none, engine := none } c
      linkShow h (if w.cls = 1 ∧ h < 16 then frameDecoded h w c else c)
    else linkShow h (linkPut h { work := { w with begun := true } :: hd.work, serving := none, engine := none } c)

/-- R111: whether hand `h` is dealt before hand `b`: lower class, then the older event, then the lower number. -/
def linkBefore (c : Chip) (h b : Nat) : Bool :=
  let x := linkHand h c
  let y := linkHand b c
  let ex := x.oldest.getD 0
  let ey := y.oldest.getD 0
  x.cls < y.cls || (x.cls == y.cls && (ex < ey || (ex == ey && h < b)))

/-- The ready link hand that R111 deals next, among the hands of `cand`. -/
def pickLink (c : Chip) (cand : List Nat) : Option Nat :=
  cand.foldl (fun best h =>
    if (linkHand h c).work.isEmpty then best
    else match best with
      | none => some h
      | some b => if linkBefore c h b then some h else some b) none

/-- Engine LE`e` serves link hand `h` for the trick. -/
def serveLink (e h : Nat) (c : Chip) : Chip :=
  let hd := linkHand h c
  match hd.next with
  | none => c
  | some w => linkShow h (setF Reg.DLR_HAND_ENGINE (64 + h) (2 + e)
      (linkPut h { work := hd.work.erase w, serving := some w, engine := some e } c))

/-- Deals engines LE`e`, … to the candidates; at most one of them is a chain-link hand (R112). -/
def dealLinks (c : Chip) : List Nat → List Nat → Chip
  | [], _ => c
  | e :: es, cand =>
    match pickLink c cand with
    | none => c
    | some h => dealLinks (serveLink e h c) es (if h < 16 then cand.filter (· != h) else cand.filter (· < 16))

/-- R131: the work that no engine serves in the trick has waited one more. -/
def linkWait (h : Nat) (c : Chip) : Chip :=
  let hd := linkHand h c
  if hd.work.isEmpty then c
  else linkShow h (linkPut h { hd with work := hd.work.map fun w => { w with waited := w.waited + 1 } } c)

/-- R111: an LE trick edge. `finished` says which hands in service have completed their work in the trick that ends, and `events`
what has become ready in it beside the frames. -/
def leTrick (finished : BitVec 32) (events : List LinkEvent) (c : Chip) : Chip :=
  if c.pwr.phase ≠ .run ∨ !c.pwr.linkPll then linksIdle c
  else
    let c := events.foldl (fun c e => linkWork e.hand.val (if e.estim then 3 else 2) e.lclk.val [] c) (linksIdle c)
    let c := (List.range 32).foldl (fun c h => linkFinish finished h c) c
    let c := { c with dlr := { c.dlr with edges := c.dlr.edges + 1 } }
    (List.range 32).foldl (fun c h => linkWait h c) (dealLinks c (List.range 6) (linkCandidates c))

/-! ### Crypto tricks, R114-R119 -/

/-- R114: the ante of each crypto class per window. -/
def ceAnte (cls : Nat) : Nat := if cls = 4 then 2 else 4

/-- R120: the CEs run: not in STANDBY. -/
def ceRuns (c : Chip) : Bool := c.pwr.phase == .run && getF Reg.PWR_STATE_STATE 0 c != 3

/-- R120: whether requests of a class are dealt: class 1 only in the activation pause. -/
def ceServes (c : Chip) (cls : Nat) : Bool := ceRuns c && (!c.upd.pause || cls == 1)

/-- R115: the request of class `cls` issued first, among those no CE serves in this trick. -/
def ceFirst (cls : Nat) (c : Chip) : Option CeReq :=
  c.dlr.reqs.foldl (fun best r =>
    if r.cls ≠ cls ∨ r.engine.isSome then best
    else match best with
      | none => some r
      | some b => if r.no < b.no then some r else some b) none

/-- A class with pending work that no CE serves in this trick. -/
def cePending (c : Chip) (cls : Nat) : Bool := ceServes c cls && (ceFirst cls c).isSome

/-- R114: a CE's window at the next trick: a new one begins after 16 tricks. -/
def CeWindow.current (w : CeWindow) : CeWindow := if 16 ≤ w.tricks then {} else w

/-- R114: the class CE `e` serves: the highest with pending work still owed its ante, else the highest with work. -/
def ceClass (e : Nat) (c : Chip) : Option Nat :=
  let w := (c.dlr.windows[e]?.getD {}).current
  match [1, 2, 3, 4].find? fun k => cePending c k && w.given[k - 1]?.getD 0 < ceAnte k with
  | some k => some k
  | none => [1, 2, 3, 4].find? fun k => cePending c k

/-- The bay of a session hand H96-H143. -/
def handBay (hand : Nat) : Nat := (hand - 96) / 3

/-- Request `r` is served by CE `e` in this trick; a class-3 trick counts against the bay's session-start set (R118), and the
first one ends the wait that DLR_CE_MAX reports (R131). -/
def ceServe (e : Nat) (r : CeReq) (c : Chip) : Chip :=
  let c := { c with dlr := { c.dlr with
    reqs := c.dlr.reqs.map fun q => if q = r then { q with engine := some e, served := true } else q } }
  let c := setF Reg.DLR_HAND_STATE r.hand 2 (setF Reg.DLR_HAND_ENGINE r.hand (8 + e)
    (setF Reg.DLR_HAND_CLASS r.hand (r.cls - 1) c))
  if r.cls ≠ 3 then c
  else
    let b := handBay r.hand
    let c := { c with dlr := { c.dlr with budget := c.dlr.budget.setIfInBounds b (c.dlr.budget[b]?.getD 0 + 1) } }
    let w := min r.waited 65535
    if !r.served ∧ getF Reg.DLR_CE_MAX_WAIT 0 c < w then setF Reg.DLR_CE_MAX_WAIT 0 w c else c

/-- R114: one CE is dealt for the trick, which its window counts. -/
def ceDeal (e : Nat) (c : Chip) : Chip :=
  let w := (c.dlr.windows[e]?.getD {}).current
  let put := fun (w : CeWindow) (c : Chip) => { c with dlr := { c.dlr with windows := c.dlr.windows.setIfInBounds e w } }
  match ceClass e c with
  | none => put { w with tricks := w.tricks + 1 } c
  | some k =>
    let c := put { tricks := w.tricks + 1, given := w.given.setIfInBounds (k - 1) (w.given[k - 1]?.getD 0 + 1) } c
    match ceFirst k c with
    | none => c
    | some r => ceServe e r c

/-- R114: a window of 16 tricks ends and the antes start again. -/
def ceWindowEnd (c : Chip) : Chip :=
  { c with dlr := { c.dlr with windows := c.dlr.windows.map CeWindow.current } }

/-- The lowest free crypto hand H144-H159 (R117). -/
def freeCryptoHand (c : Chip) : Option Nat :=
  ((List.range 16).map (· + 144)).find? fun h => !c.dlr.reqs.any fun r => r.hand == h

/-- R118: the class-3 request of a bay's session-start set that is outstanding. -/
def ceSetWork (bay : Nat) (c : Chip) : Option CeReq := c.dlr.reqs.find? fun r => r.cls == 3 && handBay r.hand == bay

/-- R118: a bay's session-start set is over its 640 tricks: DLR_STAT.CE_BUDGET is set, once for the set. -/
def ceOver (bay : Nat) (c : Chip) : Chip :=
  if c.dlr.above[bay]?.getD false then c
  else flagF Reg.DLR_STAT_CE_BUDGET 0 0 Reg.DLR_STAT_EVT_CNT 0
    { c with dlr := { c.dlr with above := c.dlr.above.setIfInBounds bay true } }

/-- R118: request `r` goes on in class 4 on crypto hand `h`; its session hand is free. -/
def ceMove (r : CeReq) (h : Nat) (c : Chip) : Chip :=
  let c := { c with dlr := { c.dlr with
    reqs := c.dlr.reqs.map fun q => if q = r then { q with hand := h, cls := 4 } else q } }
  let c := setF Reg.DLR_HAND_STATE h (getF Reg.DLR_HAND_STATE r.hand c) (setF Reg.DLR_HAND_CLASS h 3
    (setF Reg.DLR_HAND_WAIT h (getF Reg.DLR_HAND_WAIT r.hand c) c))
  if h = r.hand then c
  else setF Reg.DLR_HAND_STATE r.hand 0 (setF Reg.DLR_HAND_CLASS r.hand 0 (setF Reg.DLR_HAND_WAIT r.hand 0 c))

/-- R118: work of a session start beyond 640 class-3 tricks runs in class 4, on a crypto hand. DESIGN CHOICE: while none is free
it stays on its session hand, in class 4 (log 58). -/
def ceBudgetBay (bay : Nat) (c : Chip) : Chip :=
  match ceSetWork bay c with
  | none => c
  | some r =>
    if c.dlr.budget[bay]?.getD 0 < 640 then c else ceMove r ((freeCryptoHand c).getD r.hand) (ceOver bay c)

def ceBudget (bay : Fin 16) (c : Chip) : Chip := ceBudgetBay bay.val c

/-- R119, R131: a trick of a request's wait and of the time a bay's session start has had class-3 work pending. -/
def ceCount (c : Chip) : Chip :=
  let c := c.dlr.reqs.foldl (fun c r => if r.engine.isNone then addSat Reg.DLR_HAND_WAIT r.hand 255 1 c else c) c
  let startT := (List.range 16).foldl (fun (t : Vector Nat 16) b =>
    if (ceSetWork b c).isSome then t.setIfInBounds b (t[b]?.getD 0 + 1) else t) c.dlr.startT
  { c with dlr := { c.dlr with
    startT := startT
    reqs := c.dlr.reqs.map fun r => if r.engine.isNone ∧ !r.served then { r with waited := r.waited + 1 } else r } }

/-- R114, R115: a CE trick edge: a request in progress is saved in its hand, work beyond a session-start budget changes class, and
both CEs are dealt again. -/
def ceTrick (c : Chip) : Chip :=
  if !ceRuns c then c
  else
    let c := c.dlr.reqs.foldl (fun c r => if r.engine.isSome then setF Reg.DLR_HAND_STATE r.hand 4 c else c) c
    let c := { c with dlr := { c.dlr with reqs := c.dlr.reqs.map fun r => { r with engine := none } } }
    let c := (List.range 16).foldl (fun c b => ceBudgetBay b c) c
    ceCount (ceDeal 1 (ceDeal 0 c))

/-- A request takes a hand and becomes ready. -/
def ceAdmit (hand cls no : Nat) (c : Chip) : Chip :=
  setF Reg.DLR_HAND_STATE hand 1 (setF Reg.DLR_HAND_CLASS hand (cls - 1) (setF Reg.DLR_HAND_WAIT hand 0
    { c with dlr := { c.dlr with reqs := c.dlr.reqs ++ [{ hand := hand, cls := cls, no := no }] } }))

/-- The number of the request being issued, which orders the requests of a class (R115). -/
def ceNext (c : Chip) : Chip := { c with dlr := { c.dlr with issued := c.dlr.issued + 1 } }

/-- Whether a hand holds an outstanding request. -/
def ceHeld (hand : Nat) (c : Chip) : Bool := c.dlr.reqs.any fun r => r.hand == hand

/-- R117: a session hand holds at most one outstanding request. -/
def ceSession (hand cls : Nat) (c : Chip) : Chip × Status :=
  if ceHeld hand c then (c, .busy) else (ceAdmit hand cls c.dlr.issued (ceNext c), .ok)

/-- R117: a request for a crypto hand takes one, waits in the queue of 64, or is refused with E_BUSY. -/
def ceShared (cls : Nat) (c : Chip) : Chip × Status :=
  match freeCryptoHand c with
  | some h => (ceAdmit h cls c.dlr.issued (ceNext c), .ok)
  | none =>
    if c.dlr.queue.length < 64 then
      (ceNext { c with dlr := { c.dlr with queue := c.dlr.queue ++ [(cls, c.dlr.issued)] } }, .ok)
    else (flagF Reg.DLR_STAT_CE_QFULL 0 0 Reg.DLR_STAT_EVT_CNT 0 c, .busy)

/-- R118: a vehicle request is class-3 work of the session-start set, or class-4 work beyond its 640 tricks. -/
def ceVehicle (bay : Nat) (c : Chip) : Chip × Status :=
  if 640 ≤ c.dlr.budget[bay]?.getD 0 then
    let r := ceShared 4 c
    (if r.2 = .ok then ceOver bay r.1 else r.1, r.2)
  else ceSession (96 + 3 * bay) 3 c

/-- R117, R118: a crypto request is issued by its source. -/
def ceIssue (src : CeSource) (c : Chip) : Chip × Status :=
  match src with
  | .signing bay slot => ceSession (96 + 3 * bay.val + slot.val) 1 c
  | .host => ceShared 2 c
  | .vehicle bay => ceVehicle bay.val c
  | .other => ceShared 4 c

def ceRequest (src : CeSource) (c : Chip) : Chip :=
  if c.pwr.phase ≠ .run then c else let r := ceIssue src c; { r.1 with reply := r.2 }

/-- R131: the session-start CE time of a bay in whole ms. DESIGN CHOICE: rounded up (log 57). -/
def startMs (bay : Nat) (c : Chip) : Nat := min ((64 * (c.dlr.startT[bay]?.getD 0) + 999) / 1000) 65535

/-- R117: an operation completes; its hand is released and the oldest waiting request takes a crypto hand. DESIGN CHOICE: a
released hand shows STATE, CLASS and WAIT 0 (log 57). -/
def ceDone (hand : Nat) (c : Chip) : Chip :=
  match c.dlr.reqs.find? fun r => r.hand == hand with
  | none => c
  | some r =>
    let c := { c with dlr := { c.dlr with reqs := c.dlr.reqs.filter fun r => r.hand != hand } }
    let c := setF Reg.DLR_HAND_STATE hand 0 (setF Reg.DLR_HAND_CLASS hand 0 (setF Reg.DLR_HAND_WAIT hand 0 c))
    if hand < 144 then
      let ms := startMs (handBay hand) c
      if r.cls = 3 ∧ getF Reg.DLR_CE_MAX_START_MS 0 c < ms then setF Reg.DLR_CE_MAX_START_MS 0 ms c else c
    else match c.dlr.queue with
      | [] => c
      | k :: ks => ceAdmit hand k.1 k.2 { c with dlr := { c.dlr with queue := ks } }

/-- R118: a bay's session starts with a new session-start set. -/
def ceSessionStart (bay : Nat) (c : Chip) : Chip :=
  { c with dlr := { c.dlr with
    budget := c.dlr.budget.setIfInBounds bay 0, startT := c.dlr.startT.setIfInBounds bay 0
    above := c.dlr.above.setIfInBounds bay false } }

/-! ### Shadow registers and commits, R121-R125 -/

/-- PENDING of a commit group. -/
def pendingGroup (g : Nat) (c : Chip) : Bool := (getF Reg.DLR_PEND_PENDING (g / 32) c).testBit (g % 32)

/-- R124: a write to a shadowed field: refused while its group is pending, else it becomes the shadow content. -/
def shadowWrite (g key v : Nat) (c : Chip) : Chip × Status :=
  if pendingGroup g c then (c, .busy)
  else ({ c with dlr := { c.dlr with shadow := (g, key, v) :: c.dlr.shadow.filter fun e => e.2.1 != key } }, .ok)

/-- The shadow content of a field, if one has been written since the start. -/
def shadowOf (key : Nat) (c : Chip) : Option Nat := (c.dlr.shadow.find? fun e => e.2.1 == key).map (·.2.2)

/-- R124: whether a group's channel is configured by the deck. -/
def groupConfigured (g : Nat) (c : Chip) : Bool :=
  if g < 64 then elemConfigured g c
  else if g < 80 then linkConfigured (g - 64) c
  else if g < 96 then chainConfigured c
  else if g < 112 then bayConfigured (g - 96) c
  else false

/-- R122, R124: a commit copies the group's shadow content to staging and sets PENDING, or is refused. -/
def commitGroup (g : Nat) (c : Chip) : Chip × Status :=
  if 112 ≤ g ∨ groupConfigured g c = false then (c, .range)
  else if pendingGroup g c then (c, .busy)
  else
    let copy := (c.dlr.shadow.filter fun e => e.1 == g).map fun e => (e.2.1, e.2.2)
    let c := { c with dlr := { c.dlr with staged := (g, copy) :: c.dlr.staged.filter fun e => e.1 != g } }
    (setBitF Reg.DLR_PEND_PENDING (g / 32) (g % 32) true c, .ok)

/-- A write to DLR_COMMIT (R122, R131); GO 0 has no effect. -/
def dlrCommitWrite (g : Nat) (go : Bool) (c : Chip) : Chip × Status := if go then commitGroup g c else (c, .ok)

def dlrCommit (who : Writer) (g : Nat) (go : Bool) (c : Chip) : Chip :=
  match writerStatus who c with
  | .ok => let r := dlrCommitWrite g go c; { r.1 with reply := r.2 }
  | e => { c with reply := e }

/-- R122: at the hand-over boundary the staging copy takes effect as a whole; PENDING clears and DLR_CMT_LAST records
the group. What the home chapters do with the values is `commitHome`. -/
def commitTake (g : Nat) (c : Chip) : Chip :=
  match c.dlr.staged.find? fun e => e.1 == g with
  | none => c
  | some (_, copy) =>
    let c := copy.foldl (fun c kv => putReg kv.1 kv.2 0 c) c
    let c := { c with dlr := { c.dlr with staged := c.dlr.staged.filter fun e => e.1 != g } }
    let c := setBitF Reg.DLR_PEND_PENDING (g / 32) (g % 32) false c
    let n := getF Reg.DLR_CMT_LAST_APPLIED_CNT 0 c
    setF Reg.DLR_CMT_LAST_GROUP 0 g (setF Reg.DLR_CMT_LAST_APPLIED_CNT 0 ((n + 1) % 65536) c)

/-- R125: a reset, a bridge loss or a HSL reset state discards every staging copy and clears every PENDING bit. -/
def discardCommits (c : Chip) : Chip :=
  let c := (List.range 4).foldl (fun c k => setF Reg.DLR_PEND_PENDING k 0 c) c
  { c with dlr := { c.dlr with staged := [] } }

/-! ### Interconnect fairness, R126-R129 -/

/-- R126: request class of a master: 0 RT, 1 NORMAL, 2 BULK. -/
def masterClass (m : Nat) : Nat :=
  if m = 4 ∨ m = 6 ∨ (7 ≤ m ∧ m ≤ 14) then 0 else if m = 17 ∨ m = 18 then 2 else 1

/-- R126: cluster of a master. -/
def masterCluster (m : Nat) : Nat :=
  if m ≤ 3 then 0 else if m ≤ 6 then 1 else if m ≤ 8 then 2 else if m ≤ 14 then 3 else if m ≤ 18 then 4 else 5

/-- R127: a request's age, modulo 65,536. -/
def arbAge (now : Nat) (r : ArbReq) : Nat := (now + 65536 - r.ticket % 65536) % 65536

/-- R128: the class a request competes in: a saturated BULK request competes as NORMAL. -/
def arbClass (r : ArbReq) : Nat :=
  if r.saturated ∧ masterClass r.master = 2 then 1 else masterClass r.master

/-- R128: whether an unsaturated request `a` is chosen before an unsaturated request `b` of its class. -/
def arbBefore (weight : Nat → Nat) (now : Nat) (a b : ArbReq) : Bool :=
  let x := arbAge now a
  let y := arbAge now b
  if x ≠ y then y < x
  else if weight a.master ≠ weight b.master then weight b.master < weight a.master
  else a.master < b.master

/-- R128: the master whose turn it is among the masters of `ms`: the one that has it while its weight lasts, else the next in
master-number order. -/
def arbTurn (weight : Nat → Nat) (t : ArbTurn) (ms : List Nat) : ArbTurn :=
  if ms.contains t.master ∧ t.used < weight t.master then { t with used := t.used + 1 }
  else match ((List.range 24).map fun k => (t.master + 1 + k) % 24).find? ms.contains with
    | some m => { master := m, used := 1 }
    | none => t

/-- R128: what an arbiter chooses among the requests of `rs`: the highest class; in it a saturated request by weighted round robin,
else the unsaturated request of the greatest age. -/
def arbPick (weight : Nat → Nat) (now : Nat) (t : ArbTurn) (rs : List ArbReq) : Option (ArbReq × ArbTurn) :=
  let top := rs.filter fun r => arbClass r == rs.foldl (fun a q => min a (arbClass q)) 3
  let sat := top.filter (·.saturated)
  if sat.isEmpty then
    (top.foldl (fun (best : Option ArbReq) r => match best with
      | none => some r
      | some b => if arbBefore weight now r b then some r else some b) none).map fun r => (r, t)
  else
    let t' := arbTurn weight t (sat.map (·.master))
    (sat.find? fun r => r.master == t'.master).map fun r => (r, t')

/-- The weight of a master, as the DEALER card or its default gives it (R130). -/
def masterWeight (m : Nat) (c : Chip) : Nat :=
  match m % 4 with
  | 0 => getF Reg.DLR_WEIGHT_W0 (m / 4) c
  | 1 => getF Reg.DLR_WEIGHT_W1 (m / 4) c
  | 2 => getF Reg.DLR_WEIGHT_W2 (m / 4) c
  | _ => getF Reg.DLR_WEIGHT_W3 (m / 4) c

def arbPut (a : ArbState) (c : Chip) : Chip := { c with dlr := { c.dlr with arb := a } }

/-- The time of the tickets, in units of 4 ICLK cycles (R127). -/
def ArbState.time (a : ArbState) : Nat := a.now / 4

/-- R127, R129: a master issues a request, with its ticket; an RT master with 4 outstanding holds it back. -/
def arbIssue (i : ArbIssue) (a : ArbState) : ArbState :=
  let m := i.master.val
  if masterClass m = 0 ∧ 4 ≤ ((a.waiting ++ a.forwarded).filter fun r => r.master == m).length then a
  else { a with waiting := a.waiting ++ [{ master := m, target := i.target, ticket := a.time % 65536 }] }

/-- R127: whether a request becomes saturated. -/
def arbRipe (sat now : Nat) (r : ArbReq) : Bool := !r.saturated && sat ≤ arbAge now r

/-- R127, R129: the requests whose age has reached SAT are marked saturated, and DLR_STAT.ARB_SAT is set for each. -/
def arbMark (c : Chip) : Chip :=
  let a := c.dlr.arb
  let sat := getF Reg.DLR_ARB_SAT 0 c
  let ripe := ((a.waiting ++ a.forwarded).filter (arbRipe sat a.time)).length
  let mark := fun (r : ArbReq) => if arbRipe sat a.time r then { r with saturated := true } else r
  (List.range ripe).foldl (fun c _ => flagF Reg.DLR_STAT_ARB_SAT 0 0 Reg.DLR_STAT_EVT_CNT 0 c)
    (arbPut { a with waiting := a.waiting.map mark, forwarded := a.forwarded.map mark } c)

/-- R128: the global arbiter of target `t` grants one request. -/
def arbGrant (weight : Nat → Nat) (t : Nat) (a : ArbState) : ArbState :=
  let turn := ((a.global.find? fun g => g.1 == t).map (·.2)).getD {}
  match arbPick weight a.time turn (a.forwarded.filter fun r => r.target == t) with
  | none => a
  | some (r, turn') => { a with forwarded := a.forwarded.erase r, global := (t, turn') :: a.global.filter fun g => g.1 != t }

/-- R128: the arbiter of cluster `k` forwards one request, with its ticket, to the global arbiter of its target. -/
def arbForward (weight : Nat → Nat) (k : Nat) (a : ArbState) : ArbState :=
  match arbPick weight a.time (a.cluster[k]?.getD {}) (a.waiting.filter fun r => masterCluster r.master == k) with
  | none => a
  | some (r, turn') =>
    { a with waiting := a.waiting.erase r, forwarded := a.forwarded ++ [r], cluster := a.cluster.setIfInBounds k turn' }

/-- R126-R129: one ICLK cycle of the interconnect, in which the requests of `issues` are issued. -/
def arbCycle (issues : List ArbIssue) (c : Chip) : Chip :=
  let c := arbMark (arbPut (issues.foldl (fun a i => arbIssue i a) c.dlr.arb) c)
  let w := fun (m : Nat) => masterWeight m c
  let a := c.dlr.arb
  let a := (a.forwarded.map (·.target)).eraseDups.foldl (fun a t => arbGrant w t a) a
  let a := (List.range 6).foldl (fun a k => arbForward w k a) a
  arbPut { a with now := a.now + 1 } c

/-- R127: the interconnect's traffic up to the saturation of a request: for each entry, so many cycles with the same requests issued
in each of them. -/
def arbTraffic (traffic : List (Nat × List ArbIssue)) (c : Chip) : Chip :=
  if !c.logicUp then c
  else traffic.foldl (fun c e => (List.range e.1).foldl (fun c _ => arbCycle e.2 c) c) c

def execLeTrickEdge (e : LinkEdge) (s : State) : Host.Outcome State Fault Refusal := s.run (leTrick e.finished e.events)
def execCeTrickEdge (s : State) : Host.Outcome State Fault Refusal := s.run ceTrick
def execCeWindowEnd (s : State) : Host.Outcome State Fault Refusal := s.run ceWindowEnd
def execCeRequest (src : CeSource) (s : State) : Host.Outcome State Fault Refusal := s.run (ceRequest src)
def execCeBudgetExceeded (bay : Fin 16) (s : State) : Host.Outcome State Fault Refusal := s.run (ceBudget bay)
def execDlrCommit (who : Writer) (g : Nat) (go : Bool) (s : State) : Host.Outcome State Fault Refusal :=
  s.run (dlrCommit who g go)
def execArbSaturate (traffic : List (Nat × List ArbIssue)) (s : State) : Host.Outcome State Fault Refusal :=
  s.run (arbTraffic traffic)

end Sys2Proof.Machine
end

