-- ==== Sys2Proof/Machine/Rom.lean ====
section
/-!
DEFINITION. The compensation and quadrature ROM (R143, R145, R146, R524). The coefficients are computed from the
formulas of R145 and R524 in units of 2^-28; the table of a linear-phase or quadrature entry holds one half of it.
-/

namespace Sys2Proof.Machine

/-- R524: LM3, coefficients 0 to 15; coefficient 30 - j equals coefficient j. -/
def romLm3 : List Int :=
  [-161553, 492822, -849592, 1252476, -1728422, 2315474, -3070883, 4085973, -5515353, 7638805, -11004688,
   16801594, -27971346, 53261859, -126737617, 450816358]

/-- R524: LM4, coefficients 0 to 15; coefficient 30 - j equals coefficient j. -/
def romLm4 : List Int :=
  [-335135, 1022110, -1761229, 2594487, -3576517, 4783948, -6331167, 8398789, -11288551, 15536764, -22168480,
   33325108, -54012533, 97762504, -208637350, 557809960]

/-- R524: LM5, coefficients 0 to 15; coefficient 30 - j equals coefficient j. -/
def romLm5 : List Int :=
  [-650751, 1984181, -3417187, 5029631, -6924827, 9246631, -12207825, 16140572, -21591637, 29513864, -41679407,
   61647660, -97257647, 167742596, -325609580, 704502908]

/-- R524: LP3, coefficients 0 to 7; coefficient 14 - j equals coefficient j. -/
def romLp3 : List Int :=
  [-1347033, 4318600, -8265892, 14463440, -25903573, 51362558, -124915635, 449010526]

/-- R524: MM3, coefficients 0 to 11. -/
def romMm3 : List Int :=
  [417327590, -222500619, 120137813, -70550976, 44829675, -30380378, 21672264, -16106947, 12373372, -9765829,
   7882434, -6482943]

/-- R524: MM4, coefficients 0 to 11. -/
def romMm4 : List Int :=
  [485451829, -342866733, 215811844, -138190118, 92373342, -64535464, 46901414, -35257961, 27274693, -21616237,
   17487838, -14398991]

/-- R524: MM5, coefficients 0 to 11. -/
def romMm5 : List Int :=
  [567016984, -495325576, 356101189, -247505391, 174244654, -125862252, 93482312, -71287329, 55668398,
   -44392723, 36057582, -29762392]

/-- R524: MP3, coefficients 0 to 7. -/
def romMp3 : List Int :=
  [421289282, -222427746, 120085983, -70516844, 44806735, -30364365, 21660656, -16098245]

/-- R145: QS0, h[D + i] for i = 1, 3, 5, …; h[D - i] is its negative and even i give 0. -/
def romQs0 : List Int :=
  [170862321, 56876828, 34033520, 24210749, 18728418, 15219298, 12772974, 10964633, 9569419, 8457186, 7547398,
   6787561, 6142002, 5585637, 5100321, 4672606, 4292318, 3951619, 3644374, 3365715, 3111729, 2879237, 2665626,
   2468731] ++
  [2286741, 2118129, 1961598, 1816036, 1680486, 1554116, 1436201, 1326102, 1223254, 1127154, 1037352, 953442,
   875057, 801860, 733547, 669834, 610460, 555181, 503772, 456018, 411721, 370689, 332744, 297716] ++
  [265441, 235765, 208540, 183622, 160877, 140172, 121383, 104387, 89071, 75320, 63030, 52096, 42420, 33907,
   26467, 20014]

/-- R145: QS1, h[D + i] for i = 1, 3, 5, …; h[D - i] is its negative and even i give 0. -/
def romQs1 : List Int :=
  [170882806, 56938238, 34135720, 24353515, 18911437, 15442170, 13035212, 11265668, 9908595, 8833770, 7960579,
   7236452, 6625643, 6103000, 5650313, 5254071, 4904042, 4592333, 4312761, 4060410, 3831328, 3622296, 3430671,
   3254259] ++
  [3091226, 2940027, 2799350, 2668075, 2545240, 2430014, 2321675, 2219595, 2123220, 2032067, 1945706, 1863757,
   1785882, 1711779, 1641178, 1573836, 1509534, 1448075, 1389279, 1332985, 1279044, 1227321, 1177693, 1130047]
   ++
  [1084278, 1040293, 998002, 957323, 918182, 880508, 844237, 809307, 775662, 743249, 712019, 681925, 652923,
   624973, 598035, 572072, 547051, 522938, 499701, 477312, 455741, 434962, 414949, 395677] ++
  [377123, 359263, 342076, 325541, 309637, 294345, 279647, 265523, 251956, 238930, 226427, 214432, 202928,
   191901, 181336, 171218, 161533, 152268, 143410, 134944, 126860, 119144, 111784, 104769] ++
  [98086, 91725, 85675, 79925, 74464, 69282, 64369, 59715, 55311, 51147, 47215, 43504, 40007, 36715, 33620,
   30713, 27986, 25433, 23044, 20814, 18735, 16800, 15002, 13334] ++
  [11792, 10367, 9054, 7848, 6742, 5731, 4811, 3975]

/-- R145: QS2, h[D + i] for i = 1, 3, 5, …; h[D - i] is its negative and even i give 0. -/
def romQs2 : List Int :=
  [170886961, 56950700, 34156479, 24382555, 18948736, 15487699, 13088937, 11327546, 9978580, 8911808, 8046610,
   7330410, 6727456, 6212591, 5767598, 5378961, 5036442, 4732144, 4459876, 4214719, 3992715, 3790640, 3605845,
   3436134] ++
  [3279666, 3134893, 3000498, 2875357, 2758504, 2649105, 2546434, 2449858, 2358822, 2272839, 2191476, 2114351,
   2041123, 1971487, 1905172, 1841933, 1781548, 1723820, 1668567, 1615626, 1564848, 1516098, 1469251, 1424195]
   ++
  [1380824, 1339044, 1298767, 1259911, 1222402, 1186170, 1151151, 1117286, 1084519, 1052800, 1022079, 992313,
   963460, 935480, 908338, 881998, 856429, 831601, 807485, 784055, 761284, 739150, 717630, 696703] ++
  [676349, 656547, 637282, 618534, 600289, 582530, 565243, 548413, 532028, 516074, 500538, 485410, 470679,
   456332, 442360, 428754, 415503, 402598, 390031, 377793, 365875, 354270, 342971, 331970] ++
  [321259, 310832, 300682, 290803, 281188, 271831, 262726, 253868, 245251, 236869, 228717, 220790, 213082,
   205590, 198308, 191230, 184354, 177674, 171186, 164885, 158767, 152829, 147066, 141474] ++
  [136050, 130788, 125687, 120742, 115949, 111305, 106807, 102451, 98234, 94152, 90203, 86382, 82688, 79117,
   75665, 72331, 69111, 66002, 63001, 60106, 57314, 54622, 52028, 49530] ++
  [47123, 44807, 42579, 40435, 38375, 36395, 34494, 32668, 30917, 29237, 27627, 26084, 24607, 23193, 21841,
   20548, 19314, 18135, 17010, 15938, 14916, 13943, 13017, 12136] ++
  [11300, 10506, 9753, 9040, 8364, 7725, 7121, 6551, 6013, 5507, 5030, 4582, 4162, 3768, 3399, 3055, 2733, 2433,
   2155, 1896, 1657, 1435, 1231, 1044]

/-- R145: QS3, h[D + i] for i = 1, 3, 5, …; h[D - i] is its negative and even i give 0. -/
def romQs3 : List Int :=
  [170888543, 56955445, 34164385, 24393619, 18962953, 15505062, 13109439, 11351178, 10005333, 8941668, 8079566,
   7366447, 6766559, 6254743, 5812780, 5427154, 5087626, 4786296, 4516973, 4274737, 4055627, 3856420, 3674466,
   3507565] ++
  [3353877, 3211853, 3080174, 2957715, 2843510, 2736723, 2636627, 2542588, 2454051, 2370526, 2291581, 2216832,
   2145938, 2078593, 2014525, 1953487, 1895259, 1839640, 1786449, 1735523, 1686712, 1639879, 1594900, 1551661]
   ++
  [1510057, 1469993, 1431380, 1394136, 1358186, 1323461, 1289895, 1257430, 1226010, 1195582, 1166099, 1137517,
   1109792, 1082886, 1056763, 1031388, 1006729, 982755, 959439, 936754, 914674, 893176, 872237, 851837] ++
  [831956, 812575, 793675, 775241, 757256, 739704, 722573, 705847, 689514, 673562, 657978, 642752, 627872,
   613329, 599113, 585215, 571625, 558335, 545337, 532623, 520186, 508018, 496112, 484462] ++
  [473062, 461906, 450986, 440299, 429838, 419597, 409573, 399760, 390154, 380749, 371541, 362526, 353701,
   345060, 336600, 328318, 320209, 312270, 304498, 296889, 289440, 282148, 275009, 268022] ++
  [261182, 254487, 247935, 241522, 235246, 229104, 223094, 217214, 211460, 205831, 200325, 194938, 189669,
   184516, 179477, 174549, 169731, 165020, 160415, 155914, 151514, 147214, 143013, 138907] ++
  [134897, 130979, 127153, 123415, 119766, 116203, 112725, 109330, 106017, 102784, 99629, 96552, 93550, 90623,
   87768, 84985, 82272, 79628, 77052, 74541, 72096, 69714, 67395, 65137] ++
  [62939, 60800, 58718, 56693, 54723, 52808, 50945, 49135, 47375, 45665, 44004, 42391, 40824, 39303, 37827,
   36395, 35006, 33658, 32351, 31084, 29857, 28667, 27515, 26399] ++
  [25319, 24274, 23263, 22284, 21338, 20424, 19540, 18686, 17862, 17066, 16297, 15556, 14841, 14152, 13487,
   12847, 12231, 11637, 11066, 10517, 9989, 9481, 8993, 8525] ++
  [8075, 7644, 7230, 6834, 6454, 6090, 5742, 5409, 5091, 4787, 4496, 4219, 3955, 3703, 3463, 3235, 3017, 2811,
   2615, 2429, 2252, 2085, 1927, 1777] ++
  [1636, 1502, 1376, 1258, 1146, 1042, 943, 851, 765, 684, 609, 539, 474, 414, 358, 306]

/-- R143: the taps of a ROM entry 0-11. -/
def romLen (id : Nat) : Nat := [31, 31, 31, 15, 12, 12, 12, 8, 255, 511, 767, 1023].getD id 0

/-- A symmetric entry from its first half. -/
def symRom (half : List Int) (taps j : Nat) : Int :=
  half.getD (if j < half.length then j else taps - 1 - j) 0

/-- A quadrature entry from its odd coefficients (R145). -/
def oddRom (odd : List Int) (d j : Nat) : Int :=
  let i : Int := (j : Int) - d
  if i.natAbs % 2 = 0 then 0
  else
    let v := odd.getD (i.natAbs / 2) 0
    if 0 < i then v else -v

/-- R146: coefficient `j` of entry `id`, in units of 2^-28; 0 at or beyond the entry's taps. -/
def romCoef (id j : Nat) : Int :=
  if romLen id ≤ j then 0
  else match id with
    | 0 => symRom romLm3 31 j
    | 1 => symRom romLm4 31 j
    | 2 => symRom romLm5 31 j
    | 3 => symRom romLp3 15 j
    | 4 => romMm3.getD j 0
    | 5 => romMm4.getD j 0
    | 6 => romMm5.getD j 0
    | 7 => romMp3.getD j 0
    | 8 => oddRom romQs0 127 j
    | 9 => oddRom romQs1 255 j
    | 10 => oddRom romQs2 383 j
    | 11 => oddRom romQs3 511 j
    | _ => 0

end Sys2Proof.Machine
end

