-- ==== Sys2Proof/Machine/Sensing.lean ====
section
/-!
DEFINITION. Sensing streams and decimation (chapter 06): capture, delay, the two decimation paths, compensation, the
air-cored-coil integrator, stream loss and recovery, settling and the delay writes.
-/

namespace Sys2Proof.Machine
open Sys2Proof

/-! ### Arithmetic of the stages, R142 -/

/-- R142: a value that exceeds the output range of `w` bits is held at the largest value of its sign. -/
def holdRange (w : Nat) (v : Int) : Int :=
  let m : Int := 2 ^ (w - 1)
  if m - 1 < v then m - 1 else if v < -m then -m else v

/-- Whether a value is held at the limit of its range. -/
def atLimit (w : Nat) (v : Int) : Bool := holdRange w v != v

/-- A value kept in `w` bits of two's complement. -/
def wrapBits (w : Nat) (v : Int) : Int :=
  let m : Int := 2 ^ w
  let r := v % m
  if 2 * r < m then r else r - m

/-- The cascade's integrators take one input (R139), each adding the output of the one before it. -/
def integrate (w : Nat) : List Int → Int → List Int
  | [], _ => []
  | a :: as, x => let a' := wrapBits w (a + x); a' :: integrate w as a'

/-- The combs take one decimated value and give the difference of order N. -/
def combs (w : Nat) : List Int → Int → List Int × Int
  | [], v => ([], v)
  | d :: ds, v => let r := combs w ds (wrapBits w (v - d)); (v :: r.1, r.2)

/-- A FIR response of `n` taps on a history with the newest value first, in units of 2^-28 (R143). -/
def fir (id n : Nat) (hist : List Int) : Int :=
  ((List.range n).foldl (fun (a : Int × List Int) j =>
    match a.2 with
    | [] => a
    | x :: xs => (a.1 + romCoef id j * x, xs)) (0, hist)).1

/-! ### A stream's settings -/

def streamRole (s : Nat) (c : Chip) : Nat := getF Reg.SNS_CFG_ROLE s c
def streamOrder (s : Nat) (c : Chip) : Nat := getF Reg.SNS_CFG_CIC_ORDER s c
def streamOn (s : Nat) (c : Chip) : Bool := streamRole s c != 0
def streamK (s : Nat) (c : Chip) : Nat := getF Reg.SNS_CFG_INTEG_K s c
def streamHz (s : Nat) (c : Chip) : Nat := if getF Reg.SNS_CFG_NOM60 s c = 1 then 60 else 50

/-- R144: the ROM entry of the metrology compensator. -/
def metEntry (s : Nat) (c : Chip) : Nat :=
  if getF Reg.SNS_CFG_MCOMP s c = 1 then streamOrder s c + 1 else streamOrder s c - 3

/-- R144: the ROM entry of the protection compensator, if any. -/
def prtEntry (s : Nat) (c : Chip) : Option Nat :=
  match getF Reg.SNS_CFG_PCOMP s c with
  | 1 => some 3
  | 2 => some 7
  | _ => none

/-- R145: the QSEL shared by every configured stream of role 1 and 7; QS0 when there is none. -/
def quadSel (c : Chip) : Nat :=
  match (List.range 96).find? fun s => streamRole s c == 1 || streamRole s c == 7 with
  | some s => getF Reg.SNS_CFG_QSEL s c
  | none => 0

/-- R145: the alignment delay D_Q in output periods. -/
def alignDelay (c : Chip) : Nat := (romLen (8 + quadSel c) - 1) / 2

/-- R158: settling length of the metrology path, integrator pre-roll included. DESIGN CHOICE: the table gives roles 3 and 6 no
metrology length; they have that of roles 4 and 5 (log 59). -/
def setlMet (s : Nat) (c : Chip) : Nat :=
  let base := streamOrder s c + romLen (metEntry s c) - 1
  let q := match streamRole s c with
    | 2 => alignDelay c
    | 1 => 2 * alignDelay c
    | 7 => 2 * alignDelay c
    | _ => 0
  base + q + (if streamK s c = 0 then 0 else 1024)

/-- R158: settling length of the protection path, integrator pre-roll included. -/
def setlPrt (s : Nat) (c : Chip) : Nat :=
  (match prtEntry s c with
    | some 3 => 17
    | some _ => 10
    | none => 3) + (if streamK s c = 0 then 0 else 40960)

/-- R143, R158: group delay of a compensator in hundredths of an output period; of a minimum-phase entry at NOM_HZ. -/
def entryDelay (id : Nat) : Nat :=
  match id with
  | 0 => 1500 | 1 => 1500 | 2 => 1500 | 3 => 700
  | 4 => 120 | 5 => 126 | 6 => 132 | 7 => 58
  | _ => 0

/-- R158: metrology latency in 1/64 MDCLK periods, rounded to nearest; 0 for roles 3 and 6. -/
def latMet (s : Nat) (c : Chip) : Nat :=
  let r := streamRole s c
  if r = 0 ∨ r = 3 ∨ r = 6 then 0
  else
    streamOrder s c * 2559 * 32 + (entryDelay (metEntry s c) * 163840 + 50) / 100 +
      (if r = 4 ∨ r = 5 then 0 else alignDelay c * 163840)

/-- R158: protection latency in 1/64 MDCLK periods, rounded to nearest. -/
def latPrt (s : Nat) (c : Chip) : Nat :=
  if streamRole s c = 0 then 0
  else 3 * 63 * 32 + match prtEntry s c with
    | some e => (entryDelay e * 4096 + 50) / 100
    | none => 0

/-! ### The air-cored-coil integrator, R156, R157 -/

/-- Pi times 10^40, truncated: the irrational factor of R156. -/
def piE40 : Int := 31415926535897932384626433832795028841971

/-- The guard bits below an output's unit that the integrator keeps (R156 states none: `Config.integGuard`). -/
def integStep (k hz rate : Nat) (x : Int) (g : Integ) : Integ × Int :=
  let sc : Int := 2 ^ Config.integGuard
  let leak := fun (v : Int) => v - divNear v (2 ^ k)
  let xs := x * sc
  let b := xs - g.x + leak g.b
  let y := leak g.y + divNear (piE40 * hz * (b + g.b)) (10 ^ 40 * rate)
  ({ g with x := xs, b := b, y := y }, divNear y sc)

/-- R157: during the pre-roll the path's next `len` inputs are summed; the integrator's output is not yet formed. DESIGN CHOICE:
it reads 0 until then (log 59). -/
def integRun (len k hz rate : Nat) (x : Int) (g : Integ) : Integ × Int :=
  match g.pre with
  | some (n, sum) => (if n < len then { g with pre := some (n + 1, sum + x) } else g, 0)
  | none => integStep k hz rate x g

/-- R157: the pre-roll of `len` inputs ends: the DC blocker's state is their mean and the integrator starts from zero. -/
def integStart (len : Nat) (g : Integ) : Integ :=
  match g.pre with
  | none => g
  | some (n, sum) =>
    if n < len then g else { x := divNear (sum * 2 ^ Config.integGuard) len, b := 0, y := 0, pre := none }

/-! ### The protection path, R139-R142 -/

/-- One captured bit goes through the delay line into both cascades (R133, R139, R152). The loss window (R147) takes 256 bits.
DESIGN CHOICE: it counts the captured bit, before the delay line (log 59). -/
def captureBit (whole order : Nat) (st : StreamState) (bit : Bool) : StreamState :=
  let line := (2 * st.line + bit.toNat) % 2 ^ 256
  let one := line.testBit whole
  let x : Int := if one then 1 else -1
  { st with
    line := line
    met := { st.met with acc := integrate (12 * order + 2) st.met.acc x }
    prt := { st.prt with acc := integrate 20 st.prt.acc x }
    ones := st.ones + one.toNat
    winOnes := if st.winBits < 256 then st.winOnes + bit.toNat else st.winOnes
    winBits := min (st.winBits + 1) 256 }

/-- R139, R141, R156, R159: protection output `n` of a configured stream from its next 64 bits; the third is the first delivered. -/
def protectionStream (n : Nat) (bits : BitVec 64) (s : Nat) (c : Chip) (st : StreamState) : StreamState :=
  let order := streamOrder s c
  let whole := getF Reg.SNS_DLY_REAL s c / 64
  let st := (List.range 64).foldl (fun st j => captureBit whole order st (bits.getLsbD j)) st
  let r := combs 20 st.prt.comb (st.prt.acc.getLast?.getD 0)
  if n < 3 then { st with prt := { st.prt with comb := r.1 } }
  else
    let raw := divNear (r.2 * 2 ^ 23) (64 ^ 3)
    let v0 := holdRange 24 raw
    let hist := (v0 :: st.prt.hist).take 15
    let comp := match prtEntry s c with
      | some e => divNear (fir e (romLen e) hist) (2 ^ 28)
      | none => v0
    let v1 := holdRange 24 comp
    let k := streamK s c
    let iv := if k = 0 then (st.prt.integ, v1) else integRun 40960 (k + 5) (streamHz s c) 320000 v1 st.prt.integ
    { st with
      held := st.held || atLimit 24 raw || atLimit 24 comp || atLimit 24 iv.2
      prt := { st.prt with
        comb := r.1, hist := hist, integ := iv.1, out := holdRange 24 iv.2
        valid := !st.lost && !st.prt.settle
        left := st.prt.left - 1 } }

/-- R141: a protection output of every configured stream; the protection unit is served after it. -/
def sensingProtection (bits : Vector (BitVec 64) 96) (c : Chip) : Chip :=
  let n := c.sns.prtN + 1
  let streams := Vector.ofFn fun (s : Fin 96) =>
    if streamOn s.val c then protectionStream n bits[s] s.val c c.sns.streams[s] else c.sns.streams[s]
  { c with sns := { c.sns with streams := streams, prtN := n } }

/-! ### The metrology path -/

/-- R139-R145, R152, R156: the stages after the cascade `r` of a metrology output that is delivered. -/
def metStages (first : Bool) (s : Nat) (c : Chip) (st : StreamState) (r : List Int × Int) : StreamState :=
  let order := streamOrder s c
  let raw := divNear (r.2 * 2 ^ 31) (2560 ^ order)
  let v0 := holdRange 32 raw
  let hist := (v0 :: st.met.hist).take 31
  let e := metEntry s c
  let comp := divNear (fir e (romLen e) hist) (2 ^ 28)
  let v1 := holdRange 32 comp
  let k := streamK s c
  let iv := if k = 0 then (st.met.integ, v1) else integRun 1024 k (streamHz s c) 8000 v1 st.met.integ
  let v2 := holdRange 32 iv.2
  let w := getF Reg.SNS_DLY_REAL s c % 64
  let y := divNear (v2 * 163840 - (v2 - st.last) * w) 163840
  let v3 := holdRange 32 y
  let ac := streamRole s c == 1 || streamRole s c == 2 || streamRole s c == 7
  let q := quadSel c
  let h := (v3 :: st.hist).take (if ac then romLen (8 + q) else 1)
  let quad := if streamRole s c = 1 ∨ streamRole s c = 7 then divNear (fir (8 + q) (romLen (8 + q)) h) (2 ^ 28) else 0
  let clip := atLimit 32 raw || atLimit 32 comp || atLimit 32 iv.2 || atLimit 32 y || atLimit 32 quad
  { st with
    met := { st.met with
      comb := r.1, hist := hist, integ := iv.1
      out := if ac then h.getD (alignDelay c) 0 else v3
      valid := !st.lost && !st.met.settle && c.pwr.mclkFail == 0
      left := if first then st.met.left else st.met.left - 1 }
    last := v2, hist := h, quad := holdRange 32 quad, clip := clip }

/-- R151, R159: a metrology window of a configured stream ends: its output, from the stream's N-th on, and whether the window is
overrange. -/
def metStream (first : Bool) (s : Nat) (c : Chip) (st : StreamState) : StreamState × Bool :=
  let order := streamOrder s c
  let r := combs (12 * order + 2) st.met.comb (st.met.acc.getLast?.getD 0)
  let x := if c.sns.metN < order then { st with met := { st.met with comb := r.1 }, clip := false } else metStages first s c st r
  ({ x with ones := 0, held := false }, st.ones < 256 || 2304 < st.ones || x.clip || st.held)

/-- R151: an overrange window sets the stream's bits and counts. -/
def overrange (s : Nat) (c : Chip) : Chip :=
  let c := setBitF Reg.SNS_OVR_OVR (s / 32) (s % 32) true c
  let c := addSat Reg.SNS_FLAG_EVT_OVR 0 255 1 c
  setF Reg.SNS_SSTAT_OVR s 1 (addSat Reg.SNS_LOSSCNT_OVR_CNT s 65535 1 c)

/-- R154: SLEW reads 1 while REAL differs from DLY. -/
def slewShow (s : Nat) (c : Chip) : Chip :=
  setF Reg.SNS_SSTAT_SLEW s (getF Reg.SNS_DLY_REAL s c != getF Reg.SNS_DLY_DLY s c).toNat c

/-- R154: the realised delay moves toward the committed DLY by at most one whole period at a trick edge. -/
def slewStep (s : Nat) (c : Chip) : Chip :=
  let real := getF Reg.SNS_DLY_REAL s c
  let dly := getF Reg.SNS_DLY_DLY s c
  let w := if real / 64 < dly / 64 then real / 64 + 1 else if dly / 64 < real / 64 then real / 64 - 1 else real / 64
  slewShow s (if real = dly then c else setF Reg.SNS_DLY_REAL s (if w = dly / 64 then dly else 64 * w + real % 64) c)

/-- The highest CIC_ORDER configured (R159). -/
def maxOrder (c : Chip) : Nat := (List.range 96).foldl (fun m s => max m (streamOrder s c)) 0

/-- R159: whether the delivery in hand is at or after the first ME trick edge. -/
def edgeServes (c : Chip) : Bool := maxOrder c ≤ c.sns.metN

/-- One configured stream at a delivery: its output, its window's ones and overrange, then the delay slew. -/
def metDeliver (s : Nat) (c : Chip) : Chip :=
  if !streamOn s c then c
  else
    let st := c.sns.streams[s]?.getD {}
    let r := metStream (!(edgeServes c)) s c st
    let c := { c with sns := { c.sns with streams := c.sns.streams.setIfInBounds s r.1 } }
    let c := setF Reg.SNS_DENS_ONES s st.ones c
    let c := if r.2 then overrange s c else setF Reg.SNS_SSTAT_OVR s 0 c
    slewStep s c

/-- R141: the bits of the next metrology output are in: every fortieth protection output ends on the bit of a metrology output. -/
def metDue (c : Chip) : Bool := c.sns.prtN == 40 * (c.sns.metN + 1)

/-- R141, R149: the sensing paths stand at a metrology output boundary. -/
def metBoundary (c : Chip) : Bool := c.sns.prtN == 40 * c.sns.metN

/-- R109, R141: metrology sample n of all streams is delivered. -/
def sensingEdge (c : Chip) : Chip :=
  let c := { c with sns := { c.sns with metN := c.sns.metN + 1 } }
  let c := (List.range 96).foldl (fun c s => metDeliver s c) c
  let any := (List.range 96).any fun s => streamOn s c && getF Reg.SNS_SSTAT_OVR s c == 1
  setF Reg.SNS_STAT_OVR_ANY 0 any.toNat c

/-! ### Loss, recovery and settling, R147-R150, R158 -/

/-- Whether any configured stream is lost, as SNS_STAT shows it. -/
def lossAny (c : Chip) : Chip :=
  let any := (List.range 96).any fun s => (c.sns.streams[s]?.getD {}).lost
  setF Reg.SNS_STAT_LOSS_ANY 0 any.toNat c

/-- SNS_LOST, SNS_STATn.LOST and SNS_STATn.SETTLE follow the stream. -/
def showStream (s : Nat) (c : Chip) : Chip :=
  let st := c.sns.streams[s]?.getD {}
  let c := setBitF Reg.SNS_LOST_LOST (s / 32) (s % 32) st.lost c
  let c := setF Reg.SNS_SSTAT_LOST s st.lost.toNat c
  lossAny (setF Reg.SNS_SSTAT_SETTLE s (st.met.settle || st.prt.settle).toNat c)

/-- R150: a declaration of loss and its effects. Of two causes in one period the higher number is recorded (R148). DESIGN CHOICE:
causes between two protection outputs arise in one period; a further cause later, on a stream already lost, is no new declaration,
leaves CAUSE and starts the count of good windows again (log 60). -/
def declareLost (s cause : Nat) (c : Chip) : Chip :=
  let st := c.sns.streams[s]?.getD {}
  if !streamOn s c then c
  else if st.lost then
    let c := { c with sns := { c.sns with streams := c.sns.streams.setIfInBounds s { st with good := 0 } } }
    if st.lostAt = c.sns.prtN ∧ getF Reg.SNS_SSTAT_CAUSE s c < cause then setF Reg.SNS_SSTAT_CAUSE s cause c else c
  else
    let st := { st with lost := true, lostAt := c.sns.prtN, good := 0, bad := 0, recovery := false }
    let c := { c with sns := { c.sns with streams := c.sns.streams.setIfInBounds s st } }
    let c := setBitF Reg.SNS_LOSS_LOSS (s / 32) (s % 32) true c
    let c := match s / 32 with
      | 0 => addSat Reg.SNS_FLAG_EVT_LOSS0 0 255 1 c
      | 1 => addSat Reg.SNS_FLAG_EVT_LOSS1 0 255 1 c
      | _ => addSat Reg.SNS_FLAG_EVT_LOSS2 0 255 1 c
    let c := addSat Reg.SNS_LOSSCNT_LOSS s 65535 1 (setF Reg.SNS_SSTAT_CAUSE s cause c)
    let c := eventBit Reg.SNS_LOSS_LOSS (s / 32) (s % 32) s [] c
    let c := if streamBilled s c then tamper 9 s c else c
    showStream s c

/-- R148, R59: every configured stream is declared lost with cause 3. -/
def streamsLostAll (c : Chip) : Chip := (List.range 96).foldl (fun c s => declareLost s 3 c) c

/-- R147, R149: the end of a 256-period window of a stream. -/
def lossWindow (s : Fin 96) (c : Chip) : Chip :=
  let st := c.sns.streams[s]
  if !streamOn s.val c ∨ st.winBits < 256 then c
  else
    let bad := st.winOnes < 8 || st.winBits < st.winOnes + 8
    let st := { st with winOnes := 0, winBits := 0 }
    let put := fun (x : StreamState) => { c with sns := { c.sns with streams := c.sns.streams.set s x } }
    if bad then
      if st.lost then put { st with good := 0 }
      else if st.recovery then showStream s.val (put { st with lost := true, good := 0, recovery := false })
      else if 1 ≤ st.bad then declareLost s.val 1 (put { st with bad := 0 })
      else put { st with bad := 1 }
    else if st.lost then put { st with good := if c.pwr.mclkFault then 0 else min (st.good + 1) 512, bad := 0 }
    else put { st with bad := 0 }

/-- A path starts to settle, with the pre-roll of an air-cored coil (R157, R158). -/
def settlePath (len k : Nat) (p : PathState) : PathState :=
  { p with settle := true, left := len, integ := if k = 0 then p.integ else { pre := some (0, 0) } }

/-- R149: after 512 good windows a lost stream recovers, at a metrology output boundary, and both paths settle. -/
def recoverAt (s : Nat) (c : Chip) : Chip :=
  let st := c.sns.streams[s]?.getD {}
  if st.lost ∧ 512 ≤ st.good ∧ metBoundary c then
    let k := streamK s c
    let st := { st with
      lost := false, good := 0, recovery := true
      met := settlePath (setlMet s c) k st.met
      prt := settlePath (setlPrt s c) k st.prt }
    showStream s { c with sns := { c.sns with streams := c.sns.streams.setIfInBounds s st } }
  else c

def recoverStream (s : Fin 96) (c : Chip) : Chip := recoverAt s.val c

/-- R149: the recovery point is the first metrology output boundary at or after the 512th good window. -/
def sensingRecover (c : Chip) : Chip := (List.range 96).foldl (fun c s => recoverAt s c) c

/-- R158: the settling length of a path ends. -/
def settleDone (s : Fin 96) (path : SensePath) (c : Chip) : Chip :=
  let st := c.sns.streams[s]
  let st := match path with
    | .metrology => if st.met.left = 0 then { st with met := { st.met with settle := false } } else st
    | .protection => if st.prt.left = 0 then { st with prt := { st.prt with settle := false } } else st
  let st := if st.met.settle || st.prt.settle then st else { st with recovery := false }
  showStream s.val { c with sns := { c.sns with streams := c.sns.streams.set s st } }

/-- R157: the pre-roll of 1,024 metrology or 40,960 protection periods ends and the path's integrator starts. -/
def prerollDone (s : Fin 96) (c : Chip) : Chip :=
  let st := c.sns.streams[s]
  { c with sns := { c.sns with streams := c.sns.streams.set s { st with
    met := { st.met with integ := integStart 1024 st.met.integ }
    prt := { st.prt with integ := integStart 40960 st.prt.integ } } } }

/-- R148: an MCK readback fault of a group declares its configured streams lost with cause 2. -/
def mckFault (g : Fin 6) (c : Chip) : Chip :=
  if getF Reg.SNS_GRP_MCK_ON g.val c = 0 then c
  else
    let c := flagF Reg.SNS_STAT_MCK_FAULT 0 g.val Reg.SNS_STAT_EVT_CNT 0 c
    (List.range 16).foldl (fun c j => declareLost (16 * g.val + j) 2 c) c

/-- R153: a write to SNS_DLYn.DLY, checked against the seal, the pending group and the trim range, in that order. -/
def dlyWrite (s v : Nat) (c : Chip) : Chip × Status :=
  let g := getF Reg.SNS_CFG_HOME_GROUP s c
  let deck := cardU16 0x0010 s 0x10 0 c
  let trim := cardU16 0x0010 s 0x12 0 c
  if sealed c ∧ streamBilled s c then
    (flagF Reg.SNS_STAT_SEAL_REF 0 0 Reg.SNS_STAT_EVT_CNT 0 (tamper 10 0 c), .sealed)
  else if streamOn s c ∧ pendingGroup g c then (c, .busy)
  else if v < deck - trim ∨ min 16383 (deck + trim) < v then (c, .range)
  else shadowWrite g (fkey Reg.SNS_DLY_DLY s) v c

/-- A write of the row's own: stream 96 or more is out of range (R5), a value above 16,383 too. -/
def snsDly (who : Writer) (s v : Nat) (c : Chip) : Chip :=
  match writerStatus who c with
  | .ok =>
    if 96 ≤ s then { c with reply := .range }
    else let r := dlyWrite s v c; { r.1 with reply := r.2 }
  | e => { c with reply := e }

/-- R146: SNS_ROMADDR.LEN and SNS_ROMDATA follow SNS_ROMADDR; ID 12-15 is rejected (R162). -/
def romAddrWrite (id tap : Nat) (c : Chip) : Chip × Status :=
  if 12 ≤ id then (c, .range)
  else
    (setF Reg.SNS_ROMADDR_ID 0 id (setF Reg.SNS_ROMADDR_TAP 0 tap (setF Reg.SNS_ROMADDR_LEN 0 (romLen id) c)), .ok)

/-- R146: what SNS_ROMDATA reads. -/
def romData (c : Chip) : Nat :=
  ((romCoef (getF Reg.SNS_ROMADDR_ID 0 c) (getF Reg.SNS_ROMADDR_TAP 0 c)) % 2 ^ 32).toNat

/-- R159: the sensing paths begin at "Cards applied": cascades of the configured order, empty delay lines, both paths
settling. -/
def sensingStart (c : Chip) : Chip :=
  let streams := Vector.ofFn fun (s : Fin 96) =>
    if streamOn s.val c then
      let k := streamK s.val c
      let n := streamOrder s.val c
      { (default : StreamState) with
        met := settlePath (setlMet s.val c) k { acc := List.replicate n 0, comb := List.replicate n 0 }
        prt := settlePath (setlPrt s.val c) k { acc := List.replicate 3 0, comb := List.replicate 3 0 } }
    else {}
  let c := { c with sns := { streams := streams, metN := 0, prtN := 0 } }
  (List.range 96).foldl (fun c s => if streamOn s c then showStream s c else c) c

def execLossWindowEnd (s : Fin 96) (σ : State) : Host.Outcome State Fault Refusal := σ.run (lossWindow s)
def execMckFault (g : Fin 6) (s : State) : Host.Outcome State Fault Refusal := s.run (mckFault g)
def execStreamRecovery (s : Fin 96) (σ : State) : Host.Outcome State Fault Refusal := σ.run (recoverStream s)
def execSettleEnd (s : Fin 96) (path : SensePath) (σ : State) : Host.Outcome State Fault Refusal :=
  σ.run (settleDone s path)
def execIntegPrerollEnd (s : Fin 96) (σ : State) : Host.Outcome State Fault Refusal := σ.run (prerollDone s)
def execSnsDlyWrite (who : Writer) (s v : Nat) (σ : State) : Host.Outcome State Fault Refusal := σ.run (snsDly who s v)

end Sys2Proof.Machine
end

