-- ==== Sys2Proof/Machine/Metrology.lean ====
section
/-!
DEFINITION. Metrology (chapter 07): scaling, boundaries, the quantities of a cycle, accumulation, episodes, check windows,
publication and the KL-0410 latch of one element. Energies are exact integers in units of 1 / `energyDen` of a µWh.
-/

namespace Sys2Proof.Machine
open Sys2Proof

/-! ### Settings of an element -/

def elemKind (e : Nat) (c : Chip) : Nat := getF Reg.MTR_CFG_KIND e c
def elemV (e : Nat) (c : Chip) : Nat := getF Reg.MTR_CFG_VSTREAM e c
def elemI (e : Nat) (c : Chip) : Nat := getF Reg.MTR_CFG_ISTREAM e c
def elemGet (e : Nat) (c : Chip) : ElemState := c.mtr[e]?.getD {}
def elemPut (e : Nat) (x : ElemState) (c : Chip) : Chip := { c with mtr := c.mtr.setIfInBounds e x }

/-- A 32-bit register value read as two's complement. -/
def signed32 (v : Nat) : Int := if v < 2 ^ 31 then v else (v : Int) - 2 ^ 32

/-- The voltage stream's nominal frequency. -/
def elemHz (e : Nat) (c : Chip) : Nat := streamHz (elemV e c) c

/-! ### Constants of time and energy -/

/-- T in units of T / 589,824. -/
def perT : Nat := 589824

/-- 1/45 s, the timeout of R171, in the same units. -/
def timeout45 : Nat := perT * 8000 / 45

/-- µWh per unit of Σ W·V·I is 125 / `energyDen`: W is in 2^-16, V and I in 2^-61 mV and µA, T is 125 µs and 1 µWh is
3.6 mJ (R168, R175, R177). -/
def energyDen : Nat := 36 * 10 ^ 11 * 2 ^ 138

/-- Σ W·V·I over Σ W gives mW after division by this. -/
def powerDen : Nat := 2 ^ 122 * 10 ^ 6

/-! ### Scaling, R168 -/

/-- The sample of element `e` at a trick edge whose meter time is `now`, in units of 2^-16 ms (R168, R169, R185). -/
def elemSample (e : Nat) (now : Int) (c : Chip) : Sample :=
  let sv := c.sns.streams[elemV e c]?.getD {}
  let si := c.sns.streams[elemI e c]?.getD {}
  let gv : Int := getF Reg.MTR_GAIN_V_VALUE e c
  let gi := signed32 (getF Reg.MTR_GAIN_I_VALUE e c)
  let vfs : Int := getF Reg.MTR_VFS_VALUE e c
  let ifs : Int := getF Reg.MTR_IFS_VALUE e c
  { v := gv * (sv.met.out - signed32 (getF Reg.MTR_OFS_V_VALUE e c)) * vfs
    i := gi * (si.met.out - signed32 (getF Reg.MTR_OFS_I_VALUE e c)) * ifs
    q := gv * sv.quad * vfs
    valid := sv.met.valid && si.met.valid && !c.pwr.mclkFault
    at_ := now - divNear (getF Reg.SNS_LATM_LAT (elemV e c) c) 20 }

/-! ### The quadrature gain, R176 -/

/-- sin(2πx/n) in units of 2^-80 for a phase of x/n turns, by its series after reduction to an eighth of a turn. -/
def sinSeries (fuel : Nat) (x2 term : Int) (k : Nat) : Int :=
  match fuel with
  | 0 => 0
  | f + 1 => term + sinSeries f x2 (-(divNear (divNear (term * x2) (2 ^ 80)) ((k + 1) * (k + 2)))) (k + 2)

/-- sin of an angle of `x` / `n` turns, |angle| at most a quarter turn, in units of 2^-80. -/
def sinQuarter (x : Int) (n : Nat) : Int :=
  let a := divNear (2 * piE40 * x * 2 ^ 80) (10 ^ 40 * n)
  sinSeries 30 (divNear (a * a) (2 ^ 80)) a 1

/-- sin(2π · k / n) in units of 2^-80. -/
def sinTurn (k n : Nat) : Int :=
  let r := 4 * (k % n)
  let m : Int := k % n
  if r ≤ n then sinQuarter m n
  else if r ≤ 3 * n then sinQuarter ((n : Int) - 2 * m) (2 * n)
  else sinQuarter (m - n) n

/-- G(f) of R176 in units of 2^-80 at f = `f100` / 100 Hz. -/
def quadGain (q f100 : Nat) : Int :=
  let d := (romLen (8 + q) - 1) / 2
  2 * (List.range ((d + 1) / 2)).foldl (fun (a : Int) j =>
    let i := 2 * j + 1
    a + divNear (romCoef (8 + q) (d + i) * sinTurn (f100 * i) 800000) (2 ^ 28)) 0

/-- R176: G for a cycle: interpolated at the frequency of the previous locked cycle, held to 45-65 Hz, else at NOM_HZ. -/
def cycleGain (q hz : Nat) (tau : Option Nat) : Int :=
  match tau with
  | none => quadGain q (100 * hz)
  | some t =>
    let n := 100 * 8000 * perT
    if n ≤ 4500 * t then quadGain q 4500
    else if 6500 * t ≤ n then quadGain q 6500
    else
      let k := n / t
      let g := quadGain q k
      g + divNear ((quadGain q (k + 1) - g) * (n % t : Nat)) t

/-! ### Sums and the quantities of a cycle, R172, R175, R177 -/

/-- A part of `w` / 2^16 of a sample goes to a cycle. A part of zero is no part (R172, R185). -/
def addPart (x : Sample) (w : Nat) (s : Sums) : Sums :=
  if w = 0 then s
  else if x.valid then
    { s with vi := s.vi + w * x.v * x.i, qi := s.qi + w * x.q * x.i, vv := s.vv + w * x.v * x.v
             ii := s.ii + w * x.i * x.i, w := s.w + w }
  else { s with inv := s.inv + 1 }

/-- The nearest integer to the square root of a / b. -/
def sqrtNear (a b : Nat) : Nat :=
  let n := Nat.sqrt (a / b)
  if (2 * n + 1) ^ 2 * b ≤ 4 * a then n + 1 else n

/-- The energies of a cycle: EPk and EQk and ESk as numerators over `energyDen`. -/
structure CycleEnergy where
  ep : Int
  eq : Int
  es : Nat
  deriving DecidableEq, Repr

/-- R175: energies; 0 when no sample is valid. `g` is the quadrature gain, 0 for a DC element. -/
def cycleEnergy (smode : Nat) (g : Int) (s : Sums) : CycleEnergy :=
  let ep := 125 * s.vi
  let eq := if g = 0 then 0 else divNear (125 * s.qi * 2 ^ 80) g.natAbs
  let es := if smode = 0 then sqrtNear (ep.natAbs ^ 2 + eq.natAbs ^ 2) 1
            else 125 * sqrtNear (s.vv.natAbs * s.ii.natAbs) 1
  { ep := ep, eq := eq, es := es }

/-- R179: the quadrant of a cycle, 1 to 4. -/
def quadrant (ep eq : Int) : Nat :=
  if 0 ≤ ep then (if 0 ≤ eq then 1 else 4) else (if 0 ≤ eq then 2 else 3)

/-- R182: an energy joins a total through its residue. -/
def carry (k : Nat) (amount : Nat) (x : ElemState) : ElemState :=
  let n := x.residue[k]?.getD 0 + amount
  { x with
    totals := x.totals.setIfInBounds k ((x.totals[k]?.getD 0 + n / energyDen) % 2 ^ 64)
    residue := x.residue.setIfInBounds k (n % energyDen) }

/-- R180: the totals a cycle's energies join. -/
def accumulate (acc : Nat) (en : CycleEnergy) (x : ElemState) : ElemState :=
  if acc = 0 then
    let x := carry (if 0 ≤ en.ep then 0 else 1) en.ep.natAbs x
    let x := carry (1 + quadrant en.ep en.eq) en.eq.natAbs x
    carry (if 0 ≤ en.ep then 6 else 7) en.es x
  else
    let x := carry 0 en.ep.natAbs x
    let x := carry (if 0 ≤ en.eq then 2 else 5) en.eq.natAbs x
    carry 6 en.es x

/-- R181: both powers below CREEP. -/
def noLoad (creep : Nat) (en : CycleEnergy) (w : Nat) : Bool :=
  0 < creep && (w == 0 ||
    (en.ep.natAbs < 125 * creep * w * powerDen && en.eq.natAbs < 125 * creep * w * powerDen))

/-- R175, R177: the reported quantities of a cycle, `locked` with its duration `tau`. -/
def cycleSnap (smode : Nat) (locked dc : Bool) (tau : Nat) (endAt : Int) (en : CycleEnergy) (nl : Bool) (s : Sums)
    (x : ElemState) : CycleSnap :=
  let w := s.w
  let d := 125 * w * powerDen
  { cycles := x.cycles + 1
    endAt := endAt
    freq := if locked && !dc && w != 0 then (divNear (8000000 * perT) tau).toNat else 0
    vrms := if w = 0 then 0 else sqrtNear s.vv.natAbs (w * 2 ^ 122)
    irms := if w = 0 then 0 else sqrtNear s.ii.natAbs (w * 2 ^ 122)
    p := if w = 0 then 0 else divNear en.ep d
    q := if w = 0 then 0 else divNear en.eq d
    s := if w = 0 then 0
         else if smode = 0 then sqrtNear (en.ep.natAbs ^ 2 + en.eq.natAbs ^ 2) (d ^ 2)
         else sqrtNear (s.vv.natAbs * s.ii.natAbs) ((w * powerDen) ^ 2)
    dur := if w = 0 then 0 else (divNear (125000 * tau) perT).toNat
    totals := x.totals
    inv := x.invTotal
    cyinv := s.inv
    valid := w != 0
    noload := nl }

/-! ### The end of a cycle, R171-R184 -/

/-- R174: the voltage-missing episodes of an AC billing element. -/
def vmissStep (e : Nat) (s : Sums) (c : Chip) : Chip :=
  if elemKind e c ≠ 1 ∨ s.w = 0 then c
  else
    let x := elemGet e c
    let vn := getF Reg.MTR_LIM_VNOM e c
    let low := s.vv.natAbs < s.w * (50 * vn * 2 ^ 61) ^ 2
    let high := s.w * (60 * vn * 2 ^ 61) ^ 2 ≤ s.vv.natAbs
    let nl := if low then x.low + 1 else 0
    let nh := if high then x.high + 1 else 0
    let c := elemPut e { x with low := nl, high := nh } c
    if !x.vmiss ∧ 10 ≤ nl then
      let c := elemPut e { x with low := nl, high := 0, vmiss := true } c
      let c := flagF Reg.MTR_STAT_VMISS_EV e 0 Reg.MTR_STAT_EVT_CNT e c
      let c := addSat Reg.MTR_LIFE_VMISS_EP e 65535 1 c
      if lowestFed e c then tamper 7 (elemV e c) c else c
    else if x.vmiss ∧ 10 ≤ nh then elemPut e { x with low := 0, high := nh, vmiss := false } c
    else c

/-- R184: reverse cycles and episodes of an import-only element. -/
def reverseStep (e : Nat) (en : CycleEnergy) (nl : Bool) (c : Chip) : Chip :=
  if getF Reg.MTR_CFG_IMP_ONLY e c = 0 then c
  else
    let x := elemGet e c
    if !nl ∧ en.ep < 0 then
      let c := elemPut e { x with revOpen := true, revQuiet := 0 } c
      if x.revOpen then c
      else
        let c := flagF Reg.MTR_STAT_REV e 0 Reg.MTR_STAT_EVT_CNT e c
        let c := addSat Reg.MTR_LIFE_REV_EP e 65535 1 c
        if elemBilling e c then tamper 8 0 c else c
    else
      let n := x.revQuiet + 1
      elemPut e { x with revQuiet := n, revOpen := x.revOpen && n < 500 } c

/-- R186: a cycle joins the check window of a check element; a complete window waits for its comparison. -/
def checkStep (e : Nat) (ep : Int) (s : Sums) (c : Chip) : Chip :=
  if elemKind e c ≠ 3 then c
  else
    let x := elemGet e c
    let b := elemGet (getF Reg.MTR_CFG_CHECKS e c) c
    let w : CheckWin := { n := x.win.n + 1, ec := x.win.ec + ep, eb := x.win.eb + b.lastEp, wc := x.win.wc + s.w
                          wb := x.win.wb + b.lastW, inv := x.win.inv || s.inv != 0 || b.lastInv }
    if getF Reg.MTR_CHKCFG_CHK_CYC e c ≤ w.n then elemPut e { x with win := {}, winDone := some w } c
    else elemPut e { x with win := w } c

/-- Ends the cycle in progress of element `e` with the sums `s`, duration `tau` and end instant `endAt`. The rest of
the state of the new cycle is set by the caller. -/
def cycleEnd (e : Nat) (forced : Bool) (tau : Nat) (endAt : Int) (s : Sums) (c : Chip) : Chip :=
  let x := elemGet e c
  let dc := elemKind e c == 2 || (elemKind e c == 3 && elemKind (getF Reg.MTR_CFG_CHECKS e c) c == 2)
  let locked := !forced && !x.startF && !x.first
  let g := if dc then 0 else cycleGain (quadSel c) (elemHz e c) (if x.first || x.startF then none else x.tau)
  let smode := getF Reg.MTR_CFG_SMODE e c
  let en := cycleEnergy smode g s
  let nl := noLoad (getF Reg.MTR_LIM_CREEP e c) en s.w
  let x := if nl then x else accumulate (getF Reg.MTR_CFG_ACC e c) en x
  let snap := cycleSnap smode locked dc tau endAt en nl s x
  let n := getF Reg.MTR_CPT_CFG_N e c
  let cptN := x.cptCount + 1
  let x := { x with
    cycles := x.cycles + 1, pub := x.pub ++ [snap], lastEp := en.ep, lastW := s.w, lastInv := s.inv != 0
    tau := if locked then some tau else none
    dead := s.w == 0
    cptCount := if n = 0 then 0 else if n ≤ cptN then 0 else cptN
    cptDue := if n != 0 && n ≤ cptN then some x.totals else x.cptDue }
  let c := elemPut e x c
  let c := if forced && !dc then flagF Reg.MTR_STAT_FORCED e 0 Reg.MTR_STAT_EVT_CNT e c else c
  checkStep e en.ep s (reverseStep e en nl (vmissStep e s c))

/-- The boundary of a sample's interval: where it falls, from the interval's start, and what it is. -/
inductive Boundary where
  | none
  | crossing (off : Nat)   -- an accepted crossing ends the cycle
  | ignored                -- an accepted crossing too soon after the last boundary
  | forced (off : Nat)     -- a forced boundary
  | restart                -- the first valid sample after a dead stretch, or at start (R171)
  deriving DecidableEq, Repr

/-- The part of a sample, in 2^-16, up to an offset within its interval (R172). -/
def partOf (off : Nat) : Nat := (divNear off 9).toNat

/-- The instant of a boundary at offset `off`, in 2^-16 ms: the sample's instant less what is left of T. -/
def boundaryAt (x : Sample) (off : Nat) : Int := x.at_ - divNear (perT - off : Nat) 72

/-- R170: whether v has fallen to or below -H: H is ZC_HYST % of VNOM times the square root of 2. -/
def armsAt (e : Nat) (x : Sample) (c : Chip) : Bool :=
  let h := getF Reg.MTR_CHKCFG_ZC_HYST e c * getF Reg.MTR_LIM_VNOM e c * 2 ^ 61
  x.valid && x.v < 0 && 2 * h ^ 2 ≤ x.v.natAbs ^ 2

/-- Ends the cycle at offset `off` of sample `x`'s interval and begins the next one with the rest of the sample. -/
def splitAt (e : Nat) (forced : Bool) (off : Nat) (x : Sample) (c : Chip) : Chip :=
  let st := elemGet e c
  let w := partOf off
  let c := cycleEnd e forced (st.age + off) (boundaryAt x off) (addPart x w st.sums) c
  let st := elemGet e c
  elemPut e { st with
    age := perT - off, first := false, startF := forced, freerun := forced, armed := armsAt e x c
    sums := addPart x (65536 - w) {}, held := none, prev := x } c

/-- R171: whether the forced boundary of a running AC element falls in the interval of the next sample. -/
def forcedDue (e : Nat) (c : Chip) : Option Nat :=
  let st := elemGet e c
  let lim := if st.freerun then 8000 * perT / elemHz e c else timeout45
  if st.running ∧ lim ≤ st.age + perT then some (lim - st.age) else none

/-- R170: an accepted positive-going zero crossing, and its offset in the interval, computed to 2^-16 of T. -/
def crossing (e : Nat) (x : Sample) (c : Chip) : Option Nat :=
  let st := elemGet e c
  if st.armed ∧ st.prev.valid ∧ x.valid ∧ st.prev.v ≤ 0 ∧ 0 < x.v then
    some (9 * (65536 - (divNear (65536 * x.v) (x.v - st.prev.v).natAbs).toNat))
  else none

/-- R171: the boundary in the interval of sample `x` of AC billing element `e`. -/
def boundaryOf (e : Nat) (x : Sample) (c : Chip) : Boundary :=
  let st := elemGet e c
  if !st.running then (if x.valid then .restart else .none)
  else if x.valid ∧ st.dead ∧ st.sums.w = 0 then .restart
  else match crossing e x c with
    | some off =>
      if st.first ∨ st.freerun ∨ 8000 * perT ≤ 65 * (st.age + off) then .crossing off
      else match forcedDue e c with
        | some f => .forced f
        | none => .ignored
    | none =>
      match forcedDue e c with
      | some f => .forced f
      | none => .none

/-- R171: a first cycle begins at the start of the sample's interval; a cycle in progress ends there with a forced
boundary. The sample's products fall into the new cycle whole. -/
def restartCycle (e : Nat) (x : Sample) (c : Chip) : Chip :=
  let st := elemGet e c
  let c := if st.running then cycleEnd e true st.age (boundaryAt x 0) st.sums c else c
  let st := elemGet e c
  elemPut e { st with
    running := true, first := true, startF := false, freerun := false, armed := armsAt e x c, dead := false
    age := perT, sums := addPart x 65536 {}, prev := x, held := none } c

/-- A sample that holds no boundary joins the cycle in progress whole. -/
def joinCycle (e : Nat) (x : Sample) (c : Chip) : Chip :=
  let st := elemGet e c
  if !st.running then elemPut e { st with prev := x } c
  else
    elemPut e { st with
      age := st.age + perT, sums := addPart x 65536 st.sums, prev := x
      armed := st.armed || armsAt e x c, dead := st.dead && !x.valid } c

/-- The check elements of billing element `e`. -/
def checkersOf (e : Nat) (c : Chip) : List Nat :=
  (List.range 64).filter fun k => elemKind k c == 3 && getF Reg.MTR_CFG_CHECKS k c == e

/-- Applies a boundary to one element with its own sample (R171-R173). A forced boundary holds the sample until it is
placed for the element and its check elements together. -/
def applyBoundary (b : Boundary) (e : Nat) (x : Sample) (c : Chip) : Chip :=
  match b with
  | .none => joinCycle e x c
  | .crossing off => splitAt e false off x c
  | .ignored =>
    let c := joinCycle e x c
    let st := elemGet e c
    elemPut e { st with armed := armsAt e x c } c
  | .forced _ => let st := elemGet e c; elemPut e { st with held := some x } c
  | .restart => restartCycle e x c

/-- R173: a DC element's cycles are exactly 160 samples, counted from its first valid sample. -/
def dcSample (e : Nat) (x : Sample) (c : Chip) : Chip :=
  let st := elemGet e c
  if !st.running ∧ !x.valid then c
  else
    let st := { st with running := true, first := false, startF := false, age := st.age + perT
                        sums := addPart x 65536 st.sums }
    let c := elemPut e st c
    if 160 * perT ≤ st.age then
      let c := cycleEnd e false st.age (boundaryAt x perT) st.sums c
      let st := elemGet e c
      elemPut e { st with age := 0, sums := {} } c
    else c

/-- R185: an invalid sample is counted and sets INCOMP. -/
def countInvalid (e : Nat) (x : Sample) (c : Chip) : Chip :=
  let st := elemGet e c
  let st := { st with overrun := false }
  if x.valid then elemPut e st c
  else
    let c := elemPut e { st with invTotal := (st.invTotal + 1) % 2 ^ 64 } c
    flagF Reg.MTR_STAT_INCOMP e 0 Reg.MTR_STAT_EVT_CNT e c

/-- R171: the forced boundary held by element `e` is placed, for it and for its check elements. -/
def placeForced (e : Nat) (c : Chip) : Chip :=
  match (elemGet e c).held, forcedDue e c with
  | some x, some off =>
    let ks := checkersOf e c
    let c := splitAt e true off x c
    ks.foldl (fun c k => match (elemGet k c).held with
      | some y => splitAt k true off y c
      | none => c) c
  | _, _ => c

/-- The sample of an element whose slot is in progress; an overrun of the slot makes it invalid (R110, R185). -/
def slotSample (e : Nat) (c : Chip) : Sample :=
  let st := elemGet e c
  let x := st.pending.getD {}
  { x with valid := x.valid && !st.overrun }

/-- The sample of an element is taken out of its slot; an invalid one is counted (R185). -/
def slotTake (e : Nat) (c : Chip) : Chip :=
  let x := slotSample e c
  countInvalid e x (elemPut e { elemGet e c with pending := none, upTo := some x.at_ } c)

/-- R109, R171, R173: the slots of a billing element and of its check elements end: they take the sample delivered at the last edge,
and a forced boundary in its interval is placed. -/
def elemTrick (e : Nat) (c : Chip) : Chip :=
  if !elemBilling e c ∨ (elemGet e c).pending.isNone then c
  else
    let x := slotSample e c
    let ys := (checkersOf e c).map fun k => (k, slotSample k c)
    let c := ys.foldl (fun c ky => slotTake ky.1 c) (slotTake e c)
    if elemKind e c = 2 then ys.foldl (fun c ky => dcSample ky.1 ky.2 c) (dcSample e x c)
    else
      let b := boundaryOf e x c
      placeForced e (ys.foldl (fun c ky => applyBoundary b ky.1 ky.2 c) (applyBoundary b e x c))

/-- R109: sample n is delivered to an element at a trick edge whose meter time is `now`. -/
def elemDeliver (now : Int) (c : Chip) (e : Nat) : Chip :=
  if !elemConfigured e c then c else elemPut e { elemGet e c with pending := some (elemSample e now c) } c

/-! ### Publication and the KL-0410 latch, R187-R190 -/

/-- R189: the compatibility counters are latched from the totals of the cycle that latches. -/
def cptLatch (e : Nat) (c : Chip) : Chip :=
  let x := elemGet e c
  match x.cptDue with
  | none => c
  | some totals =>
    let u := max 1 (getF Reg.MTR_CPT_CFG_UNIT e c)
    let t := fun (k : Nat) => totals[k]?.getD 0
    let f := fun (n : Nat) => n / u % 2 ^ 32
    elemPut e { x with
      cptDue := none, cptSeq := (x.cptSeq + 1) % 2 ^ 32
      cpt := #v[f (t 0), f (t 1), f (t 2 + t 4), f (t 3 + t 5), f (t 6 + t 7)] } c

/-- A signed value as a 32-bit register field. -/
def word32 (v : Int) : Nat := (v % 2 ^ 32).toNat

/-- Writes a 64-bit value to a LO and HI pair. -/
def setPair (lo hi : Fld) (i v : Nat) (c : Chip) : Chip := setF hi i (v / 2 ^ 32 % 2 ^ 32) (setF lo i (v % 2 ^ 32) c)

/-- R187: the oldest completed cycle of element `e` is published into its snapshot group and SEQ rises. -/
def publishCycle (e : Nat) (s : CycleSnap) (c : Chip) : Chip :=
  let x := elemGet e c
  let c := setF Reg.MTR_SEQ_SEQ e ((getF Reg.MTR_SEQ_SEQ e c + 1) % 2 ^ 32) c
  let c := setPair Reg.MTR_CYC_LO_COUNT Reg.MTR_CYC_HI_COUNT e s.cycles c
  let c := setF Reg.MTR_STAT_VMISS e x.vmiss.toNat (setF Reg.MTR_STAT_FREERUN e x.freerun.toNat c)
  let c := setF Reg.MTR_STAT_NOLOAD e s.noload.toNat (setF Reg.MTR_STAT_VALID e s.valid.toNat c)
  let c := setF Reg.MTR_FREQ_FREQ e s.freq (setF Reg.MTR_VRMS_VRMS e s.vrms (setF Reg.MTR_IRMS_IRMS e s.irms c))
  let c := setF Reg.MTR_P_P e (word32 s.p) (setF Reg.MTR_Q_Q e (word32 s.q) (setF Reg.MTR_S_S e s.s c))
  let c := setF Reg.MTR_CYCT_DUR e s.dur c
  let c := setPair Reg.MTR_EA_IMP_LO_TOTAL Reg.MTR_EA_IMP_HI_TOTAL e s.totals[0] c
  let c := setPair Reg.MTR_EA_EXP_LO_TOTAL Reg.MTR_EA_EXP_HI_TOTAL e s.totals[1] c
  let c := setPair Reg.MTR_ER_Q1_LO_TOTAL Reg.MTR_ER_Q1_HI_TOTAL e s.totals[2] c
  let c := setPair Reg.MTR_ER_Q2_LO_TOTAL Reg.MTR_ER_Q2_HI_TOTAL e s.totals[3] c
  let c := setPair Reg.MTR_ER_Q3_LO_TOTAL Reg.MTR_ER_Q3_HI_TOTAL e s.totals[4] c
  let c := setPair Reg.MTR_ER_Q4_LO_TOTAL Reg.MTR_ER_Q4_HI_TOTAL e s.totals[5] c
  let c := setPair Reg.MTR_ES_IMP_LO_TOTAL Reg.MTR_ES_IMP_HI_TOTAL e s.totals[6] c
  let c := setPair Reg.MTR_ES_EXP_LO_TOTAL Reg.MTR_ES_EXP_HI_TOTAL e s.totals[7] c
  let c := setPair Reg.MTR_INV_LO_COUNT Reg.MTR_INV_HI_COUNT e s.inv (setF Reg.MTR_CYINV_INV e (min s.cyinv 65535) c)
  let c := setF Reg.MTR_CHK_WIN e x.chkWin (setF Reg.MTR_CHK_DEV e (x.chkDev % 65536).toNat c)
  let t := (s.endAt % 2 ^ 64).toNat
  let c := setF Reg.MTR_END_LO_MS_LO e (t / 2 ^ 16 % 2 ^ 16) (setF Reg.MTR_END_LO_FRAC e (t % 2 ^ 16) c)
  let c := setF Reg.MTR_END_HI_MS_HI e (t / 2 ^ 32 % 2 ^ 32) c
  let c := elemPut e { x with lifeRev := getF Reg.MTR_LIFE_REV_EP e c, lifeVm := getF Reg.MTR_LIFE_VMISS_EP e c } c
  let c := setF Reg.MTR_CPT_SEQ_VALUE e x.cptSeq (setF Reg.MTR_CPT_EA_IMP_VALUE e x.cpt[0] c)
  let c := setF Reg.MTR_CPT_EA_EXP_VALUE e x.cpt[1] (setF Reg.MTR_CPT_ER_IND_VALUE e x.cpt[2] c)
  setF Reg.MTR_CPT_ER_CAP_VALUE e x.cpt[3] (setF Reg.MTR_CPT_ES_VALUE e x.cpt[4] c)

/-- R186: a complete check window is compared; DEV is in 0.01 %, rounded to nearest. -/
def checkCompare (e : Nat) (c : Chip) : Chip :=
  let x := elemGet e c
  match x.winDone with
  | none => c
  | some w =>
    let c := elemPut e { x with winDone := none } c
    let small := fun (en : Int) (t : Nat) => en.natAbs < 125 * 10 * getF Reg.MTR_LIM_CREEP e c * t * powerDen
    if w.inv ∨ (small w.ec w.wc ∧ small w.eb w.wb) ∨ w.eb = 0 then c
    else
      let d := divNear (10000 * (w.ec - w.eb)) w.eb.natAbs
      let dev := if 32767 < d then 32767 else if d < -32767 then -32767 else d
      let c := elemPut e { x with winDone := none, chkWin := (x.chkWin + 1) % 65536, chkDev := dev } c
      if getF Reg.MTR_CHKCFG_CHK_TOL e c * w.eb.natAbs < 10000 * (w.ec - w.eb).natAbs then
        eventF Reg.MTR_STAT_CHK_DEV e e [] (flagF Reg.MTR_STAT_CHK_DEV e 0 Reg.MTR_STAT_EVT_CNT e c)
      else c

/-- R190: a write to MTRn_CPT_CFG.N. -/
def cptWrite (e n : Nat) (c : Chip) : Chip × Status :=
  if elemKind e c ≠ 0 ∧ pendingGroup e c then (c, .busy)
  else if n = 0 ∨ 4000 < n ∨ cardU16 0x0011 e 0x16 0 c = 0 then (c, .range)
  else shadowWrite e (fkey Reg.MTR_CPT_CFG_N e) n c

def cptCfgWrite (who : Writer) (e n : Nat) (c : Chip) : Chip :=
  match writerStatus who c with
  | .ok =>
    if 64 ≤ e then { c with reply := .range }
    else let r := cptWrite e n c; { r.1 with reply := r.2 }
  | s => { c with reply := s }

/-- R110: an ME slot ends with its work unfinished; the element's result for that sample is invalid. DESIGN CHOICE: the command
stands between the ME_TRICK_EDGE that begins its trick and the next one, so the sample is the one delivered last (log 61). -/
def slotOverrun (e : Fin 64) (c : Chip) : Chip :=
  let c := flagF Reg.DLR_STAT_ME_OVR 0 0 Reg.DLR_STAT_EVT_CNT 0 c
  let c := addSat Reg.DLR_ME_OVR_COUNT 0 0xFFFFFFFF 1 c
  let st := elemGet e.val c
  elemPut e.val { st with overrun := st.overrun || st.pending.isSome } c

/-- R171: the timeout of a cycle that is not in free-run: its slot ends, and the forced boundary is placed if it falls in the sample's
interval; the element then enters free-run. -/
def cycleTimeout (e : Fin 64) (c : Chip) : Chip := if (elemGet e.val c).freerun then c else elemTrick e.val c

/-- R171: the boundary every 1 / NOM_HZ of a free-run element, placed at its slot's end. -/
def freerunBoundary (e : Fin 64) (c : Chip) : Chip := if (elemGet e.val c).freerun then elemTrick e.val c else c

def execMeSlotOverrun (e : Fin 64) (s : State) : Host.Outcome State Fault Refusal := s.run (slotOverrun e)
def execCycleTimeout (e : Fin 64) (s : State) : Host.Outcome State Fault Refusal := s.run (cycleTimeout e)
def execFreerunBoundary (e : Fin 64) (s : State) : Host.Outcome State Fault Refusal := s.run (freerunBoundary e)
def execCheckWindowEnd (e : Fin 64) (s : State) : Host.Outcome State Fault Refusal := s.run (checkCompare e.val)
def execCptLatch (e : Fin 64) (s : State) : Host.Outcome State Fault Refusal := s.run (cptLatch e.val)
def execCptCfgWrite (who : Writer) (e n : Nat) (s : State) : Host.Outcome State Fault Refusal := s.run (cptCfgWrite who e n)

end Sys2Proof.Machine
end

