-- ==== Sys2Proof/Machine/Billing.lean ====
section
/-!
DEFINITION. Billing registers, tariffs and the legal store (chapter 08): the ledger unit, local time and tariffs, demand,
billing periods, clock steps, saves and session readings. The legal display run is in Sys2Proof/Machine/Legal.lean.
-/

namespace Sys2Proof.Machine
open Sys2Proof

/-! ### The calendar, R199 -/

/-- A civil date. -/
structure Date where
  year  : Int
  month : Nat
  day   : Nat
  deriving DecidableEq, Repr

/-- The date of a day counted from 2000-01-01. -/
def dateOf (days : Int) : Date :=
  let z := days + 730425
  let era := z / 146097
  let doe := (z % 146097).toNat
  let yoe := (doe - doe / 1460 + doe / 36524 - doe / 146096) / 365
  let doy := doe - (365 * yoe + yoe / 4 - yoe / 100)
  let mp := (5 * doy + 2) / 153
  let m := if mp < 10 then mp + 3 else mp - 9
  { year := (yoe : Int) + era * 400 + (if m ≤ 2 then 1 else 0), month := m, day := doy - (153 * mp + 2) / 5 + 1 }

/-- The day of a date, counted from 2000-01-01. -/
def dayOf (y : Int) (m d : Nat) : Int :=
  let y := if m ≤ 2 then y - 1 else y
  let era := y / 400
  let yoe := (y % 400).toNat
  let doy := (153 * (if 2 < m then m - 3 else m + 9) + 2) / 5 + d - 1
  era * 146097 + ((yoe * 365 + yoe / 4 - yoe / 100 + doy : Nat) : Int) - 730425

/-- The weekday of a day, Monday being 1; 2000-01-01 was a Saturday. -/
def weekdayOf (days : Int) : Nat := ((days + 5) % 7).toNat + 1

def msPerDay : Int := 86400000

/-- The UTC instant, in ms, of one end of summer time in a year: the WEEK-th WEEKDAY of MONTH at HOUR, WEEK 5 the last. -/
def dstInstant (p : List Nat) (o : Nat) (year : Int) : Int :=
  let m := Byte.u8 p o
  let week := Byte.u8 p (o + 1)
  let wd := Byte.u8 p (o + 2)
  let first := dayOf year m 1
  let next := if m = 12 then dayOf (year + 1) 1 1 else dayOf year (m + 1) 1
  let d1 := first + ((wd : Int) - weekdayOf first) % 7
  let d := d1 + 7 * ((week : Int) - 1)
  let d := if d < next then d else d - 7
  d * msPerDay + 3600000 * Byte.u8 p (o + 3)

/-- The TARIFF card's payload, if the deck has one. -/
def tariffCard (c : Chip) : Option (List Nat) := cardPayload 0x0020 0 c

def stdOfs (c : Chip) : Int := match tariffCard c with | some p => 60000 * Byte.s16 p 0 | none => 0
def dstOfs (c : Chip) : Int := match tariffCard c with | some p => 60000 * (Byte.u16 p 2 : Nat) | none => 0

/-- R199: the summer time that begins in a year, from its start to its end, which may lie in the next year. -/
def dstSummer (p : List Nat) (year : Int) : Int × Int :=
  let a := dstInstant p 4 year
  let b := dstInstant p 8 year
  (a, if a ≤ b then b else dstInstant p 8 (year + 1))

/-- R199: the summers that may bear on an instant: those that begin in its UTC year and in the year before. -/
def dstSummers (wall : Int) (c : Chip) : List (Int × Int) :=
  match tariffCard c with
  | none => []
  | some p =>
    if Byte.u8 p 4 = 0 then []
    else
      let y := (dateOf (wall / msPerDay)).year
      [dstSummer p y, dstSummer p (y - 1)]

/-- R199: whether summer time is in force. -/
def dstOn (wall : Int) (c : Chip) : Bool := (dstSummers wall c).any fun s => s.1 ≤ wall && wall < s.2

/-- R199: local time in ms. -/
def localMs (wall : Int) (c : Chip) : Int := wall + stdOfs c + (if dstOn wall c then dstOfs c else 0)

/-- R199: the local time that schedules follow: in the repeated span it stays just before the span's end, so that each
switch point and period end there takes effect at its first occurrence only. -/
def schedMs (wall : Int) (c : Chip) : Int :=
  match (dstSummers wall c).find? fun s => s.2 ≤ wall && wall < s.2 + dstOfs c with
  | some s => if dstOn wall c then localMs wall c else s.2 + stdOfs c + dstOfs c - 1
  | none => localMs wall c

/-! ### Tariffs, R203, R204 -/

/-- The tariff of a day profile at a local minute: that of the last switch point at or before it. -/
def profileTariff (p : List Nat) (profile minute : Nat) : Nat :=
  (List.range 12).foldl (fun t k =>
    let o := 16 + 48 * profile + 4 * k
    if Byte.u8 p (o + 2) ≠ 0 ∧ Byte.u16 p o ≤ minute then Byte.u8 p (o + 2) else t) 0

/-- R203: the profile of a local date. -/
def dateProfile (p : List Nat) (d : Date) (wd : Nat) : Nat :=
  let nd := Byte.u8 p 0xC
  let ns := Byte.u8 p 0xD
  let special := 16 + 48 * nd + 10 * ns
  let hit := (List.range (Byte.u8 p 0xE)).find? fun k =>
    let o := special + 4 * k
    (Byte.u8 p o == 0 || (Byte.u8 p o : Int) + 2000 == d.year) && Byte.u8 p (o + 1) == d.month &&
      Byte.u8 p (o + 2) == d.day
  match hit with
  | some k => Byte.u8 p (special + 4 * k + 3)
  | none =>
    let md := 32 * d.month + d.day
    let season := (List.range ns).foldl (fun s k =>
      let o := 16 + 48 * nd + 10 * k
      if 32 * Byte.u8 p o + Byte.u8 p (o + 1) ≤ md then k else s) (ns - 1)
    Byte.u8 p (16 + 48 * nd + 10 * season + 2 + (wd - 1))

/-- R203: the scheduled tariff at a wall time. -/
def scheduled (p : List Nat) (wall : Int) (c : Chip) : Nat :=
  let t := schedMs wall c
  let day := t / msPerDay
  profileTariff p (dateProfile p (dateOf day) (weekdayOf day)) ((t % msPerDay) / 60000).toNat

/-- R204: the tariff in force and the rule that decides, coded as BIL_TARIFF.SRC. -/
def tariffNow (c : Chip) : Nat × Nat :=
  if !c.backup.wallValid then (0, 2)
  else match c.store.override with
    | some o => (o.tariff, 1)
    | none =>
      match tariffCard c with
      | some p => (scheduled p c.wall c, 0)
      | none => (1, 3)

/-! ### Demand intervals and periods on the local grid, R208, R210 -/

def demandMin (c : Chip) : Nat := cardU8 0x0021 0 0 15 c

/-- R208: the demand interval in which a wall time lies, counted on the local grid (DST_OFS is a multiple of it). -/
def demandIdx (wall : Int) (c : Chip) : Int := (wall + stdOfs c) / (60000 * (demandMin c : Int))

/-- R210, R207: the billing period in which a wall time lies, counted in the calendar. -/
def periodIdx (wall : Int) (c : Chip) : Int :=
  let t := schedMs wall c - 60000 * (cardU16 0x0021 0 4 0 c : Int)
  let day := t / msPerDay
  match cardU8 0x0021 0 1 3 c with
  | 1 => day
  | 2 => (day + 5 - (cardU8 0x0021 0 2 1 c : Int) + 1) / 7
  | _ =>
    let d := dateOf day
    12 * d.year + d.month - (if d.day < cardU8 0x0021 0 2 1 c then 1 else 0)

/-- R200, R208: the interval in progress, aligned to the grid while wall time is valid, else counted on meter time. -/
def intervalIdx (c : Chip) : Int :=
  if c.backup.wallValid then demandIdx c.wall c
  else ((c.backup.ms - c.backup.wallLostAt) / (60000 * demandMin c) : Nat)

/-! ### The ledger unit, R194, R195 -/

/-- The register of a set that takes energy `k` of the eight (R195). -/
def regOf (tariff k : Nat) : Nat :=
  if k < 2 then 2 * tariff + k
  else if k < 6 then 18 + 4 * tariff + (k - 2)
  else 54 + 2 * tariff + (k - 6)

/-- R195: micro-units join a register through its residue; the register wraps at 2^48. -/
def addMicro (r amount : Nat) (s : RegSet) : RegSet :=
  let n := s.res[r]?.getD 0 + amount
  { s with reg := s.reg.setIfInBounds r ((s.reg[r]?.getD 0 + n / 100000) % 2 ^ 48)
           res := s.res.setIfInBounds r (n % 100000) }

/-- R195: TOT_IMP (`d` 0) or TOT_EXP (`d` 1) of a set. -/
def totOf (d : Nat) (s : RegSet) : Nat :=
  ((List.range 9).foldl (fun a t => a + s.reg[2 * t + d]?.getD 0) 0) % 2 ^ 48

def setOf (s : Nat) (c : Chip) : RegSet := c.bil.sets[s]?.getD {}

/-- R221: the energies of a cycle join a bank of the residual accumulators. -/
def bankAdd (t : Take) (b : ResidBank) : ResidBank :=
  let e := b.en[t.set]?.getD (Vector.replicate 8 0)
  let e' := Vector.ofFn fun (k : Fin 8) => (e[k] + t.en[k]) % 2 ^ 48
  { b with en := b.en.setIfInBounds t.set e', lastEnd := max b.lastEnd t.at_ }

/-- R221: the bank in use. -/
def activeBank (c : Chip) : Nat := if c.backup.bankOn then 1 else 0

/-- R221: a cycle joins bank `k`. -/
def bankTake (k : Nat) (t : Take) (c : Chip) : Chip :=
  let b := bankAdd t (c.backup.banks[k]?.getD {})
  { c with backup := { c.backup with banks := c.backup.banks.setIfInBounds k b } }

/-- The next period number; it wraps from 0xFFFF_FFFF to 1 (R210). -/
def nextPeriod (n : Nat) : Nat := if n = 0xFFFFFFFF then 1 else n + 1

/-- R214: the period number after `k` further ends. -/
def periodAfter (k n : Nat) : Nat := if k = 0 then n else (n + k - 1) % 0xFFFFFFFF + 1

/-- R214, R216: the periods that end at the boundaries whose actions have not run. -/
def periodsWaiting (c : Chip) : Nat := c.bil.due.foldl (fun a d => a + d.periods) 0

/-- R210: the number of the period in force, as it stands once the waiting actions have run. -/
def periodNow (c : Chip) : Nat := periodAfter (periodsWaiting c) c.store.period

/-- R221: no set of a bank holds energy. -/
def bankEmpty (b : ResidBank) : Bool := b.en.toList.all fun s => s.toList.all (· == 0)

/-- R221: a bank takes the tags of the attribution from now on. -/
def bankTag (k : Nat) (c : Chip) : Chip :=
  let b := c.backup.banks[k]?.getD {}
  let b : ResidBank := { b with index := c.bil.ivlIdx, tariff := c.bil.tariff, period := periodNow c }
  { c with backup := { c.backup with banks := c.backup.banks.setIfInBounds k b } }

/-- R221: the banks switch at a boundary instant. DESIGN CHOICE: a bank that still holds energy of an earlier attribution, because no
save has covered it since, takes the new tags as well (log 63). -/
def bankSwitch (c : Chip) : Chip :=
  let c := { c with backup := { c.backup with bankOn := !c.backup.bankOn } }
  bankTag (activeBank c) c

/-- R194, R195: a cycle is attributed to the tariff `tariff`, the interval in progress and the residual bank `bank`. -/
def applyTake (tariff : Nat) (t : Take) (c : Chip) : Chip :=
  let s := (List.range 8).foldl (fun s k => addMicro (regOf tariff k) (t.en[k]?.getD 0) s) (setOf t.set c)
  let iv := c.bil.ivl[t.set]?.getD (0, 0)
  { c with bil := { c.bil with
    sets := c.bil.sets.setIfInBounds t.set s
    ivl := c.bil.ivl.setIfInBounds t.set (iv.1 + t.en[0], iv.2 + t.en[1]) } }

/-- R230: what a cycle is to one session's readings. -/
def noteOne (tariff : Nat) (t : Take) (r : ReadState) : ReadState :=
  let add := fun (v : Vector Nat 18) =>
    (v.setIfInBounds (2 * tariff) (v[2 * tariff]?.getD 0 + t.en[0])).setIfInBounds (2 * tariff + 1)
      (v[2 * tariff + 1]?.getD 0 + t.en[1])
  let r := match r.startAt with
    | some a => if a < t.at_ then { r with lateStart := add r.lateStart } else r
    | none => r
  let r := match r.openAt with
    | some a =>
      if t.at_ ≤ a then r
      else if r.waiting.contains t.elem then { r with waiting := r.waiting.filter (· != t.elem) }
      else { r with lateStop := add r.lateStop }
    | none => r
  if t.inv then { r with inv := true } else r

/-- R230: what a cycle is to the readings of its bay's sessions, the one in progress and those that have ended. -/
def noteReading (tariff : Nat) (t : Take) (c : Chip) : Chip :=
  if 16 ≤ t.set then c
  else
    { c with bil := { c.bil with
      read := c.bil.read.setIfInBounds t.set (noteOne tariff t (c.bil.read[t.set]?.getD {}))
      done := c.bil.done.setIfInBounds t.set ((c.bil.done[t.set]?.getD []).map (noteOne tariff t)) } }

/-- R183, R216: a cycle is attributed by its end instant. One that ends by the oldest boundary whose actions have not run belongs to
the attribution that the boundary ended; a later one waits until those actions have run. -/
def attributeTake (t : Take) (c : Chip) : Chip :=
  match c.bil.due with
  | d :: _ =>
    if d.at_ < t.at_ then { c with bil := { c.bil with deferred := c.bil.deferred ++ [t] } }
    else noteReading d.tariff t (applyTake d.tariff t c)
  | [] => noteReading c.bil.tariff t (applyTake c.bil.tariff t c)

/-- R221: the bank that a cycle joins: the other one where a boundary not yet acted on came at or after its end. -/
def takeBank (t : Take) (c : Chip) : Nat :=
  if (c.bil.due.countP fun d => t.at_ ≤ d.at_) % 2 = 0 then activeBank c else 1 - activeBank c

/-- R194: the ledger unit takes a publish of billing element `e`. The first publish after a start sets the reference. -/
def ledgerTake (e : Nat) (s : CycleSnap) (c : Chip) : Chip :=
  if !elemBilling e c then c
  else match c.bil.last[e]?.getD none with
    | none => { c with bil := { c.bil with last := c.bil.last.setIfInBounds e (some s.totals) } }
    | some prev =>
      let en := Vector.ofFn fun (k : Fin 8) => (s.totals[k] + 2 ^ 64 - prev[k]) % 2 ^ 64
      let t : Take := { elem := e, set := ownerOf e c, en := en, at_ := s.endAt, inv := s.cyinv != 0 }
      let c := { c with bil := { c.bil with last := c.bil.last.setIfInBounds e (some s.totals) } }
      attributeTake t (bankTake (takeBank t c) t c)

/-- R228: neutral imbalance, judged at each publish of the feeder's phase L1. -/
def neutralStep (e : Nat) (c : Chip) : Chip :=
  let nimb := cardU16 0x0022 0 2 0 c
  if e ≠ 48 ∨ nimb = 0 ∨ !(elemBilling 48 c && elemBilling 49 c && elemBilling 50 c) then c
  else
    let v := fun (k : Nat) => getF Reg.MTR_VRMS_VRMS k c
    let hi := max (v 48) (max (v 49) (v 50))
    let lo := min (v 48) (min (v 49) (v 50))
    let up := [48, 49, 50].all fun k => 50 * getF Reg.MTR_LIM_VNOM k c ≤ v k
    let bad := up && lo * nimb < 1000 * (hi - lo)
    let n := if bad then c.bil.nimb + 1 else 0
    let g := if bad then 0 else c.bil.nbal + 1
    let was := c.bil.nimbOpen
    let open_ := if was then g < 50 else decide (50 ≤ n)
    let c := { c with bil := { c.bil with nimb := n, nbal := g, nimbOpen := open_ } }
    if open_ && !was then tamper 16 0 c else c

/-! ### Publication of the billing block, R197 -/

/-- The registers of one configured set. -/
def publishSet (s : Nat) (c : Chip) : Chip :=
  if getF (Reg.setCfgElems s) 0 c = 0 then c
  else
    let x := setOf s c
    let c := (List.range 72).foldl (fun c r =>
      let v := x.reg[r]?.getD 0
      setF (Reg.setHi s) r (v / 2 ^ 32) (setF (Reg.setLo s) r (v % 2 ^ 32) c)) c
    let c := (List.range 2).foldl (fun c d =>
      let v := totOf d x
      setF (Reg.setTotHi s) d (v / 2 ^ 32) (setF (Reg.setTotLo s) d (v % 2 ^ 32) c)) c
    let c := (List.range 18).foldl (fun c m =>
      let d := x.md[m]?.getD {}
      setF (Reg.setMdMtHi s) m (d.mt / 2 ^ 32) (setF (Reg.setMdMtLo s) m (d.mt % 2 ^ 32)
        (setF (Reg.setMdWall s) m d.wall (setF (Reg.setMdW s) m d.w c)))) c
    setF (Reg.setSeq s) 0 ((getF (Reg.setSeq s) 0 c + 1) % 2 ^ 32) c

/-- The tamper record of code `k` + 1. -/
def publishTamper (k : Nat) (c : Chip) : Chip :=
  let t := c.store.tamper[k]?.getD {}
  let put := fun (w v : Nat) (c : Chip) => setF (Reg.tcWord w) k v c
  put 7 t.info (put 6 (t.lastMt / 2 ^ 32) (put 5 (t.lastMt % 2 ^ 32) (put 4 t.lastWall
    (put 3 (t.firstMt / 2 ^ 32) (put 2 (t.firstMt % 2 ^ 32) (put 1 t.firstWall (put 0 t.count c)))))))

/-- R235: the legal display run as BIL_LEGAL shows it. -/
def runFields (c : Chip) : Chip :=
  let r := c.legal
  let c := setF Reg.BIL_LEGAL_QUEUE 0 r.queue.length (setF Reg.BIL_LEGAL_ITEM 0 (if r.running then r.item else 0xFF) c)
  setF Reg.BIL_LEGAL_BAY 0 (r.bay.getD 0) (setF Reg.BIL_LEGAL_RUNNING 0 r.running.toNat c)

/-- R33, R197: the group of the global registers of the block and the tamper records. -/
def publishGlobals (c : Chip) : Chip :=
  let tn := tariffNow c
  let c := runFields { c with bil := { c.bil with seq := (c.bil.seq + 1) % 2 ^ 32 } }
  let c := setF Reg.BIL_TARIFF_ACTIVE 0 c.bil.tariff (setF Reg.BIL_TARIFF_SRC 0 tn.2 c)
  let ov := match c.store.override with
    | some o => some (o, true)
    | none => c.store.pending.map fun o => (o, false)
  let c := match ov with
    | some (o, act) =>
      setF Reg.BIL_OVR_TARIFF 0 o.tariff (setF Reg.BIL_OVR_ACTIVE 0 act.toNat
        (setF Reg.BIL_OVR_PENDING 0 c.store.pending.isSome.toNat
          (setF Reg.BIL_OVR_START_SECONDS 0 (o.start / 1000) (setF Reg.BIL_OVR_END_SECONDS 0 (o.stop / 1000) c))))
    | none =>
      setF Reg.BIL_OVR_TARIFF 0 0 (setF Reg.BIL_OVR_ACTIVE 0 0 (setF Reg.BIL_OVR_PENDING 0 0
        (setF Reg.BIL_OVR_START_SECONDS 0 0 (setF Reg.BIL_OVR_END_SECONDS 0 0 c))))
  let c := setF Reg.BIL_PERIOD_NUMBER 0 c.store.period c
  let day := if c.backup.wallValid then (localMs c.wall c % msPerDay).toNat else c.backup.ms - c.backup.wallLostAt
  let c := setF Reg.BIL_DEMAND_INDEX 0 (day / (60000 * demandMin c) % 65536)
    (setF Reg.BIL_DEMAND_SHORT_RUN 0 c.bil.ivlShort.toNat (setF Reg.BIL_DEMAND_LENGTH 0 (demandMin c) c))
  let c := setPair Reg.BIL_WALL_LO_MS Reg.BIL_WALL_HI_MS 0 (wallMs c) c
  let c := setPair Reg.BIL_MT_LO_MS Reg.BIL_MT_HI_MS 0 c.backup.ms c
  let c := setF Reg.BIL_SAVE_AGE_MS 0 (min (c.backup.ms - c.bil.saveAt) 65535)
    (setF Reg.BIL_SAVE_FAIL_CNT 0 (min c.bil.failCnt 255) c)
  let c := setF Reg.BIL_SAVE_COPY 0 c.bil.saveSlot (setF Reg.BIL_SAVE_FINAL 0 (getF Reg.PWR_PFW_ACTIVE 0 c) c)
  let c := setF Reg.BIL_CMD_CTR_VALUE 0 c.store.cmdCtr (setF Reg.BIL_KSR_VALUE 0 c.store.ksrSeq c)
  let c := setF Reg.BIL_STAT_LS_FAIL 0 c.bil.lsFail.toNat (setF Reg.BIL_STAT_SEALED 0 (sealed c).toNat c)
  let c := setF Reg.BIL_STAT_TIME_BEHIND 0 c.bil.behind.toNat
    (setF Reg.BIL_STAT_UNALIGNED 0 (!c.backup.wallValid).toNat c)
  (List.range 16).foldl (fun c k => publishTamper k c) c

/-- R197: every set and the global group are published. -/
def publishBilling (c : Chip) : Chip := publishGlobals ((List.range 17).foldl (fun c s => publishSet s c) c)

/-! ### Saves, R219 -/

/-- The sequence number of a working copy; 0 for one that is not valid. -/
def copySeq (k : Nat) (c : Chip) : Nat := ((c.store.copies[k]?.getD none).map (·.seq)).getD 0

/-- R219: a save of the older working copy starts; until the copy is complete it fails its CRC. A store that R223 treats as failed
holds no registers to save, and boundary actions that wait have their own save when they have run (log 64). -/
def saveStart (c : Chip) : Chip :=
  if c.pwr.phase ≠ .run ∨ !c.powered ∨ !c.bil.ready ∨ c.bil.save.isSome ∨ !c.bil.due.isEmpty ∨ getF Reg.PWR_PFW_ACTIVE 0 c = 1 then c
  else
    let slot := if copySeq 0 c ≤ copySeq 1 c then 0 else 1
    let copy : WorkCopy := { seq := max (copySeq 0 c) (copySeq 1 c) + 1, mt := c.backup.ms, sets := c.bil.sets, ivl := c.bil.ivl
                             ivlIdx := c.bil.ivlIdx, tariff := c.bil.tariff, period := c.store.period }
    { c with
      store := { c.store with copies := c.store.copies.setIfInBounds slot none }
      bil := { c.bil with save := some { slot := slot, copy := copy, banks := c.backup.banks }, saveRetry := false } }

/-- R221: what a completed save covers leaves a bank. -/
def bankLess (a b : ResidBank) : ResidBank :=
  { a with en := Vector.ofFn fun (s : Fin 17) => Vector.ofFn fun (k : Fin 8) => a.en[s][k] - b.en[s][k] }

/-- R219: a save ends with its readback. -/
def saveEnd (ok : Bool) (c : Chip) : Chip :=
  match c.bil.save with
  | none => c
  | some s =>
    if ok then
      { c with
        store := { c.store with copies := c.store.copies.setIfInBounds s.slot (some s.copy), lastMt := c.backup.ms }
        backup := { c.backup with banks := Vector.ofFn fun (k : Fin 2) => bankLess c.backup.banks[k] s.banks[k] }
        bil := { c.bil with save := none, saveRetry := false, saveAt := c.backup.ms, saveSlot := s.slot, failCnt := 0
                            lsFail := false, unsaved := [] } }
    else
      let n := c.bil.failCnt + 1
      let c := { c with bil := { c.bil with save := none, saveRetry := true, failCnt := n
                                            lsFail := c.bil.lsFail || decide (3 ≤ n) } }
      flagF Reg.BIL_STAT_SAVE_FAIL 0 0 Reg.BIL_STAT_EVT_CNT 0 c

/-- R219: a failed save is repeated at the next second tick. -/
def saveAgain (c : Chip) : Chip := if c.bil.saveRetry then saveStart c else c

/-- R219, R66: 60 s of meter time after the last periodic save its turn comes again; in STANDBY the billing timer wakes the device
for it. -/
def periodicSave (c : Chip) : Chip :=
  if c.pwr.phase ≠ .run ∨ c.backup.ms < c.bil.perSaveAt + 60000 then c
  else saveStart (standbyWakeFrom 7 { c with bil := { c.bil with perSaveAt := c.backup.ms } })

/-! ### Boundary actions, R209, R210, R214, R216 -/

/-- R209: the demand of an energy in µWh over the nominal interval, in W. -/
def demandW (energy : Nat) (c : Chip) : Nat := (divNear (60 * energy) (demandMin c * 10 ^ 6)).toNat

/-- R209: one direction of one set at an interval end. -/
def demandDir (d : Due) (s k energy : Nat) (c : Chip) : Chip :=
  let x := setOf s c
  let m := 2 * d.tariff + k
  let w := demandW energy c
  if (x.md[m]?.getD {}).w < w then
    let md : MaxDemand := { w := w, wall := if d.wallOk then d.wall / 1000 else 0, mt := d.mt }
    { c with bil := { c.bil with sets := c.bil.sets.setIfInBounds s { x with md := x.md.setIfInBounds m md } } }
  else c

/-- R216, action 1: the demand interval ends. -/
def demandEnd (d : Due) (c : Chip) : Chip :=
  if !d.demand then c
  else
    let c := (List.range 17).foldl (fun c s =>
      let iv := c.bil.ivl[s]?.getD (0, 0)
      demandDir d s 1 iv.2 (demandDir d s 0 iv.1 c)) c
    let c := { c with bil := { c.bil with ivl := Vector.replicate 17 (0, 0) } }
    if d.short then
      flagF Reg.BIL_STAT_SHORT 0 0 Reg.BIL_STAT_EVT_CNT 0
        { c with store := { c.store with perFlags := c.store.perFlags ||| 4 } }
    else c

/-- R210, step 2: the maximum demands of a set are cleared. -/
def mdClear (s : RegSet) : RegSet := { s with md := Vector.replicate 18 {} }

/-- R210, R214: `n` periods end at the instant of `d`: the current one closes with its energy, each further one empty;
at most 24 empty records are written, and the number advances by all of them. -/
def periodClose (d : Due) (c : Chip) : Chip :=
  if d.periods = 0 then c
  else
    let rec_ : PeriodRec := {
      number := c.store.period
      flags := c.store.perFlags ||| (if d.restore then 8 else 0)
      startWall := c.store.perStart, endWall := d.wall, endMt := d.mt, sets := c.bil.sets }
    let sets := c.bil.sets.map mdClear
    let new := periodAfter d.periods c.store.period
    let empties := (List.range (min (d.periods - 1) 24)).map fun k =>
      { rec_ with number := (new + 0xFFFFFFFF - 2 - k) % 0xFFFFFFFF + 1
                  flags := 1 ||| (if d.restore then 8 else 0), startWall := d.wall, sets := sets }
    let c := { c with
      store := { c.store with
        ring := (empties ++ rec_ :: c.store.ring).take 24
        period := new, perStart := d.wall
        perFlags := if c.bil.tariff = 0 then 16 else 0
        perIdx := c.store.perIdx.map (· + d.periods) }
      bil := { c.bil with sets := sets } }
    flagF Reg.BIL_STAT_PERIOD 0 0 Reg.BIL_STAT_EVT_CNT 0 c

/-- R216: the actions due at a boundary, in their fixed order. -/
def dueActions (d : Due) (c : Chip) : Chip := periodClose d (demandEnd d c)

/-- R216: the actions of the oldest waiting boundary run; the cycles that waited are attributed anew, the groups are published, a
tamper event of the instant is recorded and a save starts. -/
def runDue (c : Chip) : Chip :=
  match c.bil.due with
  | [] => c
  | d :: rest =>
    let c := dueActions d c
    let waiting := c.bil.deferred
    let c := { c with bil := { c.bil with due := rest, deferred := [], unsaved := c.bil.unsaved ++ [{ d with done := true }] } }
    let c := publishBilling (waiting.foldl (fun c t => attributeTake t c) c)
    saveStart (if c.bil.due.isEmpty then lateTamper c else c)

/-- R183: every cycle of element `e` that ends by an instant is published: none waits, and the samples taken reach past it. -/
def elemPast (at_ : Int) (c : Chip) (e : Nat) : Bool :=
  let x := elemGet e c
  (x.pub.all fun s => decide (at_ < s.endAt)) && (match x.upTo with
    | some u => decide (at_ < u)
    | none => true)

/-- R216: whether the oldest waiting boundary's actions may run: no save is in progress, and every cycle ending by the instant is
published. -/
def dueReady (c : Chip) : Bool :=
  match c.bil.due with
  | [] => false
  | d :: _ => c.bil.save.isNone && (List.range 64).all fun e => !elemBilling e c || elemPast d.at_ c e

/-- Runs the waiting actions that are ready at once; BOUNDARY_ACTIONS runs the others. -/
def dueNow (c : Chip) : Chip := if dueReady c then runDue c else c

/-- R204: the tariff in force is settled anew; T0 is noted for the period's record. -/
def setTariff (c : Chip) : Chip :=
  let c := { c with bil := { c.bil with tariff := (tariffNow c).1 } }
  if c.bil.tariff = 0 then { c with store := { c.store with perFlags := c.store.perFlags ||| 16 } } else c

/-- R210, R213: periods that end now, beside those of the boundaries that wait: none while the clock is behind the current
period. -/
def periodsDue (c : Chip) : Nat :=
  if !c.backup.wallValid || c.bil.behind then 0
  else match c.store.perIdx with
    | none => 0
    | some i => (periodIdx c.wall c - i).toNat - periodsWaiting c

/-- R216: at a boundary instant the ledger unit switches attribution to the interval now, and the actions due wait to be run. `demand`
says that the interval in progress ends, `ends` that it ends on the grid; `wall` is the instant in wall time, `old` the outgoing
tariff. -/
def boundary (demand ends : Bool) (wall old periods : Nat) (c : Chip) : Chip :=
  let d : Due := { at_ := nowFine c, mt := c.backup.ms, wall := wall, wallOk := c.backup.wallValid, tariff := old
                   demand := demand, short := c.bil.ivlShort || !ends, number := periodNow c, periods := periods }
  bankSwitch { c with bil := { c.bil with
    due := c.bil.due ++ [d], ivlIdx := intervalIdx c, ivlAt := if demand then c.backup.ms else c.bil.ivlAt
    ivlShort := if demand then !ends || !c.backup.wallValid else c.bil.ivlShort } }

/-- R204: another tariff comes into force at the instant at which the interval in progress began: no interval ends. -/
def retariff (c : Chip) : Chip := bankTag (activeBank c) c

/-- R204, R208, R216: what falls due now is marked: an interval end on the grid, period ends, and a change of tariff, which closes the
interval short unless the interval began at this very instant. -/
def markBoundary (c : Chip) : Chip :=
  let ends := intervalIdx c != c.bil.ivlIdx
  let old := c.bil.tariff
  let c := setTariff c
  let n := periodsDue c
  let changed := c.bil.tariff != old
  if ends then boundary true true (wallMs c) old n c
  else if changed && c.bil.ivlAt != c.backup.ms then boundary true false (wallMs c) old n c
  else if n != 0 then boundary false true (wallMs c) old n c
  else if changed then retariff c
  else c

/-- R66, R216: the boundary rows mark what is due now; in STANDBY the billing timer wakes the device for it. -/
def boundaryNow (c : Chip) : Chip :=
  if c.pwr.phase ≠ .run then c
  else
    let m := markBoundary c
    if m.bil.due.length = c.bil.due.length then dueNow m else dueNow (standbyWakeFrom 7 m)

/-- R205: a pending override whose START has come becomes active and replaces the one in force. -/
def overrideBegin (c : Chip) : Chip :=
  match c.store.pending with
  | some o =>
    if c.backup.wallValid ∧ c.pwr.phase = .run ∧ (o.start : Int) ≤ c.wall then
      boundaryNow { c with store := { c.store with override := some o, pending := none } }
    else c
  | none => c

/-- R205: an active override reaches END and the schedule resumes. -/
def overrideStop (c : Chip) : Chip :=
  match c.store.override with
  | some o =>
    if o.stop ≠ 0 ∧ c.backup.wallValid ∧ c.pwr.phase = .run ∧ (o.stop : Int) ≤ c.wall then
      boundaryNow { c with store := { c.store with override := none } }
    else c
  | none => c

/-- R213: the start of the current period in wall time, and its place in the calendar, as they stand once the waiting actions have
run. -/
def periodBegin (c : Chip) : Nat := c.bil.due.foldl (fun a d => if d.periods = 0 then a else d.wall) c.store.perStart

/-- R213: whether wall time lies before the start of the current period. -/
def beforePeriod (c : Chip) : Bool :=
  decide (c.wall < (periodBegin c : Int)) ||
    (match c.store.perIdx with
      | some i => decide (periodIdx c.wall c < i + periodsWaiting c)
      | none => false)

/-- R213: wall time passes the current period's start again. -/
def timeBehindClear (c : Chip) : Chip :=
  if c.bil.behind ∧ c.backup.wallValid ∧ !beforePeriod c then { c with bil := { c.bil with behind := false } } else c

/-- R200: wall time becomes invalid, from now. -/
def wallStop (c : Chip) : Chip :=
  setF Reg.PWR_BKSTAT_RTC_VALID 0 0 { c with
    backup := { c.backup with wallValid := false, wallLostAt := if c.backup.wallValid then c.backup.ms else c.backup.wallLostAt } }

/-- R200, R204, R208: wall time becomes invalid while the deck runs: what falls due in the millisecond is marked first; then the tariff
is T0, and intervals run unaligned on meter time from now. -/
def wallLost (c : Chip) : Chip :=
  if c.pwr.phase ≠ .run ∨ !c.backup.wallValid then wallStop c
  else
    let c := markBoundary c
    let old := c.bil.tariff
    let c := setTariff (wallStop c)
    if c.bil.ivlAt = c.backup.ms then
      dueNow (retariff { c with bil := { c.bil with ivlIdx := intervalIdx c, ivlShort := true } })
    else dueNow (boundary true false (wallMs c) old 0 c)

/-! ### WALL_SET and TARIFF_SET, R205, R206, R212-R215 -/

/-- R205: overrides when wall time becomes valid: one whose END has passed is discarded, and a pending one whose START has passed ends
the active one and is active unless its END has passed too. -/
def overridesAt (wall : Int) (st : LegalStore) : LegalStore :=
  let live := fun (o : Override) => o.stop == 0 || wall < (o.stop : Int)
  match st.pending with
  | some o =>
    if (o.start : Int) ≤ wall then { st with override := (some o).filter live, pending := none }
    else { st with override := st.override.filter live }
  | none => { st with override := st.override.filter live }

/-- R213: TIME_BEHIND after a step, which a period's record notes (FLAGS bit 1). A store that has had no wall time takes its place in
the calendar. -/
def behindCheck (c : Chip) : Chip :=
  let c := if c.store.perIdx.isNone then { c with store := { c.store with perIdx := some (periodIdx c.wall c) } } else c
  if beforePeriod c then
    { c with bil := { c.bil with behind := true }, store := { c.store with perFlags := c.store.perFlags ||| 2 } }
  else { c with bil := { c.bil with behind := false } }

/-- Wall time takes a new value in ms. -/
def putWall (wall : Nat) (c : Chip) : Chip :=
  let c := { c with backup := { c.backup with wallOff := (wall : Int) - c.backup.ms, wallValid := true } }
  setF Reg.PWR_BKSTAT_RTC_VALID 0 1 { c with store := overridesAt wall c.store }

/-- R212: whether a step from the present wall time is significant: it exceeds 2 s or crosses a demand boundary. -/
def significant (new : Nat) (c : Chip) : Bool :=
  decide (2000 < ((new : Int) - c.wall).natAbs) || demandIdx new c != demandIdx c.wall c

/-- R213, R214: the tamper codes of a step: TC04 for a significant one back, TC05 for one forward of more than 1 h. -/
def stepTamper (new : Nat) (c : Chip) : Chip :=
  let step := (new : Int) - c.wall
  if significant new c ∧ step < 0 then tamper 4 0 c else if 3600000 < step then tamper 5 0 c else c

/-- R212-R215: wall time takes the value of an accepted WALL_SET. The interval in progress closes short on a significant step, where
wall time was invalid, and at a change of tariff; periods that the step passes close at it. -/
def stepTake (new : Nat) (c : Chip) : Chip :=
  let was := c.backup.wallValid
  let cut := !was || significant new c
  let wall := if was then wallMs c else new
  let old := c.bil.tariff
  let c := setTariff (behindCheck (putWall new (if was then stepTamper new c else c)))
  let n := periodsDue c
  let changed := c.bil.tariff != old
  let c :=
    if cut || n != 0 || (changed && c.bil.ivlAt != c.backup.ms) then boundary true false wall old n c
    else if changed then retariff c
    else c
  flagF Reg.BIL_STAT_STEP 0 0 Reg.BIL_STAT_EVT_CNT 0 c

/-- R212, R216: an accepted WALL_SET, after what falls due in its millisecond (order 4). Every step makes an event record. -/
def wallStep (new : Nat) (c : Chip) : Chip :=
  let was := c.backup.wallValid
  let c := stepTake new (if was then markBoundary c else c)
  dueNow (if was then eventF Reg.BIL_STAT_STEP 0 0xFF [] c else c)

/-- R206: the checks shared by the two signed commands, in order; the arguments are checked last by `argOk`. Without its
key the command is refused (R431, R446). -/
def signedCheck (sess cmd : Nat) (body : List Nat) (sigOk argOk : Bool) (c : Chip) : Status :=
  if !isDeclarer sess c then .notDeclarer
  else if body.length ≠ 104 then .lenRange
  else if !keyHeld 0x24 c then .state
  else if !sigOk then .sig
  else if Byte.u64 body 8 ≠ deviceId c then .bind
  else if Byte.u32 body 4 ≤ c.store.cmdCtr then .rollback
  else if Byte.u16 body 0 ≠ cmd ∨ Byte.u16 body 2 ≠ 0 ∨ !argOk then .range
  else .ok

/-- R206: an accepted command sets BIL_CMD_CTR in the legal store before it takes effect. -/
def takeCtr (body : List Nat) (c : Chip) : Chip :=
  { c with store := { c.store with cmdCtr := Byte.u32 body 4 } }

def wallSet (sess : Nat) (body : List Nat) (sigOk : Bool) (c : Chip) : Chip × Status :=
  let argOk := (List.range 16).all fun k => Byte.u8 body (0x18 + k) == 0
  match signedCheck sess 1 body sigOk argOk c with
  | .ok => (wallStep (Byte.u64 body 0x10) (takeCtr body c), .ok)
  | e => (c, e)

/-- R205: whether a wall time in ms lies on the local demand grid. -/
def onGrid (t : Nat) (c : Chip) : Bool := ((t : Int) + stdOfs c) % (60000 * (demandMin c : Int)) == 0

/-- R205: the argument conditions of TARIFF_SET; those on START and END bind a cancel too. -/
def tariffArgs (body : List Nat) (c : Chip) : Bool :=
  let t := Byte.u8 body 0x10
  let st := Byte.u64 body 0x18
  let en := Byte.u64 body 0x20
  ((List.range 7).all fun k => Byte.u8 body (0x11 + k) == 0) &&
  (t == 0xFF || (1 ≤ t && t ≤ 8)) &&
  (st == 0 || (c.backup.wallValid && onGrid st c && decide (c.wall < (st : Int)))) &&
  (en == 0 || (onGrid en c && decide (st < en) && (!c.backup.wallValid || decide (c.wall < (en : Int)))))

/-- R205: an override is set, replaced or cancelled. One that starts at once takes effect in this step, after a scheduled
switch due in the same millisecond (R216). DESIGN CHOICE: a cancel acts at once whatever its START (log 62). -/
def tariffApply (body : List Nat) (c : Chip) : Chip :=
  let t := Byte.u8 body 0x10
  let st := Byte.u64 body 0x18
  let o : Override := { tariff := t, start := st, stop := Byte.u64 body 0x20 }
  let c := markBoundary c
  if t = 0xFF then dueNow (markBoundary { c with store := { c.store with override := none, pending := none } })
  else if st = 0 then dueNow (markBoundary { c with store := { c.store with override := some o } })
  else dueNow { c with store := { c.store with pending := some o } }

def tariffSet (sess : Nat) (body : List Nat) (sigOk : Bool) (c : Chip) : Chip × Status :=
  match signedCheck sess 2 body sigOk (tariffArgs body c) c with
  | .ok => (tariffApply body (takeCtr body c), .ok)
  | e => (c, e)

/-! ### BILL_SNAP, R211 -/

/-- The 540 bytes of a set in a closed-period record. -/
def setBytes (start : Nat) (s : RegSet) : List Nat :=
  (List.range 72).flatMap (fun r => Byte.le 6 (s.reg[r]?.getD 0)) ++
  (List.range 18).flatMap fun m =>
    let d := s.md[m]?.getD {}
    Byte.le 4 d.w ++ Byte.le 2 ((d.wall - start / 1000) / 60)

/-- R211: the record of 9,216 bytes with its CRC-32C. -/
def periodBytes (r : PeriodRec) : List Nat :=
  let head := Byte.le 4 r.number ++ Byte.le 4 r.flags ++ Byte.le 8 r.startWall ++ Byte.le 8 r.endWall ++
    Byte.le 8 r.endMt
  let body := r.sets.toList.flatMap fun s => setBytes r.startWall s
  head ++ Byte.le 4 (crc32c (head ++ [0, 0, 0, 0] ++ body)) ++ body

/-- R211: the record INDEX places back from the most recent, or E_RANGE. -/
def billSnap (index : Nat) (c : Chip) : List Nat × Status :=
  if 24 ≤ index then ([], .range)
  else match c.store.ring[index]? with
    | some r => (periodBytes r, .ok)
    | none => ([], .range)

/-! ### Session readings, R230-R232 -/

/-- R230: TOT of a bay's set without the energies of later cycles. -/
def totLess (d : Nat) (late : Vector Nat 18) (s : RegSet) : Nat :=
  ((List.range 9).foldl (fun a t =>
    let r := 2 * t + d
    a + (100000 * s.reg[r]?.getD 0 + s.res[r]?.getD 0 - late[r]?.getD 0) / 100000) 0) % 2 ^ 48

/-- R231: what a reading shows of the instant now. -/
def stampNow (c : Chip) : ReadStamp :=
  { tariff := c.bil.tariff, mt := c.backup.ms, wall := wallMs c, period := periodNow c
    flags := (if c.backup.wallValid then 0 else 1) + (if c.bil.behind then 2 else 0) + (if sealed c then 0 else 4) +
      (if c.bil.lsFail then 16 else 0) }

/-- R231: the first 64 bytes of a KSR record. -/
def ksrBytes (kind bay imp exp_ : Nat) (s : ReadStamp) (r : ReadState) (c : Chip) : List Nat :=
  Byte.le 2 0x4B53 ++ [1, kind] ++ Byte.le 8 (deviceId c) ++ [bay, s.tariff] ++ Byte.le 2 (s.flags + if r.inv then 8 else 0) ++
  Byte.le 4 r.number ++ Byte.le 4 c.store.ksrSeq ++ Byte.le 8 s.mt ++ Byte.le 8 s.wall ++
  Byte.le 8 imp ++ Byte.le 8 exp_ ++ Byte.le 4 s.period ++ Byte.le 4 (getF Reg.UPD_DECK_SERIAL_SERIAL 0 c)

/-- R117, R232: the signing of the oldest reading of a hand that is not on its way is issued once the hand has no other request. -/
def ksrIssue (hand : Nat) (c : Chip) : Chip :=
  if !(c.bil.ksr.any fun k => k.hand == hand) ∨ (c.bil.ksr.any fun k => k.hand == hand && k.sent) then c
  else
    let r := ceSession hand 1 c
    if r.2 ≠ .ok then c
    else
      let i := c.bil.ksr.findIdx fun k => k.hand == hand
      { r.1 with bil := { r.1.bil with ksr := c.bil.ksr.modify i fun k => { k with sent := true } } }

/-- R232: KSR_SEQ rises in the legal store, and the record goes to its session hand for signing. -/
def takeReading (kind bay imp exp_ : Nat) (s : ReadStamp) (r : ReadState) (c : Chip) : Chip :=
  let c := { c with store := { c.store with ksrSeq := (c.store.ksrSeq + 1) % 2 ^ 32 } }
  let hand := 96 + 3 * bay + (if kind = 1 then 0 else 2)
  let k : KsrPending := { hand := hand, bytes := ksrBytes kind bay imp exp_ s r c }
  ksrIssue hand { c with bil := { c.bil with ksr := c.bil.ksr ++ [k] } }

/-- R230, R231: a session's start: the grant instant and what the device shows then are noted, and the device-wide session number
rises, from 1. -/
def readingOpen (bay : Nat) (c : Chip) : Chip :=
  let n := c.store.sessionNo + 1
  let r : ReadState := { startAt := some (nowFine c), grantAt := nowFine c, stamp := stampNow c, number := n }
  { c with store := { c.store with sessionNo := n }, bil := { c.bil with read := c.bil.read.setIfInBounds bay r } }

/-- R230, R258: the start reading, from every cycle ending at or before the grant instant. The legal store keeps the
session. -/
def startOf (bay : Nat) (r : ReadState) (c : Chip) : ReadState × Chip :=
  let s := setOf bay c
  let imp := totLess 0 r.lateStart s
  let r' := { r with startAt := none, startImp := imp, lateStart := Vector.replicate 18 0 }
  let c := { c with store := { c.store with sessions := c.store.sessions.setIfInBounds bay (some (r.number, imp)) } }
  (r', takeReading 1 bay imp (totLess 1 r.lateStart s) r.stamp r' c)

/-- R230: every cycle of a bay that ends at or before an instant is published and attributed. -/
def bayPast (bay : Nat) (at_ : Int) (c : Chip) : Bool :=
  ((instElems bay c).all (elemPast at_ c)) && !(c.bil.deferred.any fun t => t.set == bay && decide (t.at_ ≤ at_))

/-- R230: the start reading of a bay's session in progress, or of one that has ended before it was taken. It waits for the cycles
that end by the grant instant. -/
def startReading (bay : Nat) (c : Chip) : Chip :=
  let ready := fun (r : ReadState) => match r.startAt with
    | some a => bayPast bay a c
    | none => false
  let r := c.bil.read[bay]?.getD {}
  let d := c.bil.done[bay]?.getD []
  if ready r then
    let x := startOf bay r c
    { x.2 with bil := { x.2.bil with read := x.2.bil.read.setIfInBounds bay x.1 } }
  else match d.find? ready with
    | some r =>
      let x := startOf bay r c
      { x.2 with bil := { x.2.bil with
        done := x.2.bil.done.setIfInBounds bay (d.map fun q => if q.number = r.number then x.1 else q) } }
    | none => c

/-- R230: whether the stop reading of an ended session can be taken: every billing element of the bay has published the first cycle
after the opening, and the start reading is taken. -/
def stopReady (bay : Nat) (c : Chip) : Bool :=
  match (c.bil.done[bay]?.getD []).head? with
  | some r => r.startAt.isNone && r.openAt.isSome && r.waiting.isEmpty
  | none => false

/-- R230: the stop reading of the bay's oldest ended session. -/
def stopReadingTake (bay : Nat) (c : Chip) : Chip :=
  match c.bil.done[bay]?.getD [] with
  | [] => c
  | r :: rest =>
    let s := setOf bay c
    let imp := totLess 0 r.lateStop s
    let c := { c with
      store := { c.store with sessions := c.store.sessions.setIfInBounds bay none }
      bil := { c.bil with
        done := c.bil.done.setIfInBounds bay rest
        lastStop := c.bil.lastStop.setIfInBounds bay ((imp + 2 ^ 48 - r.startImp) % 2 ^ 48) } }
    takeReading 2 bay imp (totLess 1 r.lateStop s) (stampNow c) r c

/-- R232: the signing of a reading completes; the record with its signature is released. The signature's bytes come from
the meter-signing key, which the specification does not give: a free value (`Config.signByte`). While that key is unavailable
no reading is signed (R446). -/
def ksrRelease (hand : Nat) (c : Chip) : Chip :=
  match c.bil.ksr.find? fun k => k.hand == hand && k.sent with
  | none => c
  | some k =>
    let sig := (List.range 64).map fun j => (Config.signByte (Byte.u32 k.bytes 0x14) j).toNat
    { c with bil := { c.bil with
      ksr := c.bil.ksr.filter fun x => !(x.hand == hand && x.sent)
      ksrOut := if devKeyOk c then (k.bytes ++ sig) :: c.bil.ksrOut else c.bil.ksrOut } }

/-- R117, R232: a CE operation completes; one of class 1 in a session hand is a reading's signature. The hand is then free for a
reading that waits. -/
def ceRequestDone (hand : Nat) (c : Chip) : Chip :=
  match c.dlr.reqs.find? fun r => r.hand == hand with
  | none => c
  | some r =>
    let c := ceDone hand c
    ksrIssue hand (if r.cls = 1 ∧ hand < 144 then ksrRelease hand c else c)

/-! ### Final records, R220 -/

/-- R220: a final record is written to the slot not written last; PWR_PFW.SAVE_T takes its duration in 10 µs. -/
def finalWrite (tenUs : Nat) (c : Chip) : Chip :=
  if getF Reg.PWR_PFW_ACTIVE 0 c = 0 ∨ c.pwr.phase ≠ .run then c
  else
    let r : FinalRec := {
      banks := c.backup.banks, bankOn := c.backup.bankOn, due := c.bil.unsaved ++ c.bil.due, mt := c.backup.ms
      seq := max (copySeq 0 c) (copySeq 1 c) }
    let slot := if c.store.finalB then 0 else 1
    let c := { c with store := { c.store with
      finals := c.store.finals.setIfInBounds slot (some r), finalB := slot == 1, lastMt := c.backup.ms } }
    setF Reg.PWR_PFW_SAVE_T 0 (min tenUs 255) c

/-- R220: on a recognised warning any save in progress is abandoned. -/
def finalStart (c : Chip) : Chip := { c with bil := { c.bil with save := none } }

/-- R220: a recovered warning is followed by an ordinary save at once. -/
def finalStop (c : Chip) : Chip := saveStart c

def execTariffSwitch (s : State) : Host.Outcome State Fault Refusal := s.run boundaryNow
/-- R199: neither change of summer time is a clock step; what falls due at the instant is marked. -/
def execDstChange (s : State) : Host.Outcome State Fault Refusal := s.run boundaryNow
def execOverrideStart (s : State) : Host.Outcome State Fault Refusal := s.run overrideBegin
def execOverrideEnd (s : State) : Host.Outcome State Fault Refusal := s.run overrideStop
def execDemandIntervalEnd (s : State) : Host.Outcome State Fault Refusal := s.run boundaryNow
def execPeriodEnd (s : State) : Host.Outcome State Fault Refusal := s.run boundaryNow
def execTimeBehindClear (s : State) : Host.Outcome State Fault Refusal := s.run timeBehindClear
def execPeriodicSave (s : State) : Host.Outcome State Fault Refusal := s.run periodicSave
def execSaveRetry (s : State) : Host.Outcome State Fault Refusal := s.run saveAgain
def execStartReading (bay : Fin 16) (s : State) : Host.Outcome State Fault Refusal := s.run (startReading bay.val)
def execCeRequestDone (hand : Nat) (s : State) : Host.Outcome State Fault Refusal := s.run (ceRequestDone hand)
def execFinalRecordWritten (t : Nat) (s : State) : Host.Outcome State Fault Refusal := s.run (finalWrite t)
def execFinalRecordRefresh (t : Nat) (s : State) : Host.Outcome State Fault Refusal := s.run (finalWrite t)

end Sys2Proof.Machine
end

