-- ==== Sys2Proof/Machine/SwitchRows.lean ====
section
/-!
DEFINITION. The rows of the table that the load switches of chapter 12 take.
-/

namespace Sys2Proof.Machine
open Sys2Proof

def execLineBlinkToggle (l : Fin 48) (s : State) : Host.Outcome State Fault Refusal := s.run (lineToggle l.val)
def execLimiterEngage (k : Fin 48) (s : State) : Host.Outcome State Fault Refusal := s.run (limiterEngage k.val)
def execInrushEnd (k : Fin 48) (engaged : Bool) (s : State) : Host.Outcome State Fault Refusal :=
  s.run (inrushEnd k.val engaged)
def execThermalTrip (k : Fin 48) (tj caseT : Int) (peaks : Vector Int 8) (s : State) :
    Host.Outcome State Fault Refusal := s.run (thermalTrip k.val tj caseT peaks)
def execBankOverload (b : Fin 6) (s : State) : Host.Outcome State Fault Refusal := s.run (bankOverload b.val)
def execBankShed (b : Fin 6) (sumMa : Nat) (s : State) : Host.Outcome State Fault Refusal := s.run (bankShed b.val sumMa)
def execOpenLoadOn (k : Fin 48) (s : State) : Host.Outcome State Fault Refusal := s.run (openLoadOn k.val)
def execLswTest (who : Writer) (go : Bool) (s : State) : Host.Outcome State Fault Refusal :=
  s.run (asWriter who (lswTestWrite go))
def execOffTestDone (k : Fin 48) (pullMv freeMv vbbMv : Nat) (s : State) : Host.Outcome State Fault Refusal :=
  s.run (offTestDone k.val pullMv freeMv vbbMv)
def execLswRetry (k : Fin 48) (tj caseT : Int) (s : State) : Host.Outcome State Fault Refusal :=
  s.run (lswRetry k.val tj caseT)
def execRetryBudgetRestore (k : Fin 48) (s : State) : Host.Outcome State Fault Refusal := s.run (budgetRestore k.val)
def execLswClr (who : Writer) (k : Nat) (go trip : Bool) (s : State) : Host.Outcome State Fault Refusal :=
  s.run (asWriter who (lswClear k go trip))
def execHoldTimeout (k : Fin 48) (s : State) : Host.Outcome State Fault Refusal := s.run (holdTimeout k.val)

end Sys2Proof.Machine
end

