-- ==== Sys2Proof/Machine/Protection.lean ====
section
/-!
DEFINITION. Earth fault and bay protection (chapter 10): residual current, overcurrent, insulation monitoring, invalid
inputs, clearing of latches and the protection snapshot.
-/

namespace Sys2Proof.Machine
open Sys2Proof

def protGet (n : Nat) (c : Chip) : ProtInst := c.prt.inst[n]?.getD {}
def protPut (n : Nat) (x : ProtInst) (c : Chip) : Chip :=
  { c with prt := { c.prt with inst := c.prt.inst.setIfInBounds n x } }
def insGet (n : Nat) (c : Chip) : InsState := c.prt.ins[n]?.getD {}
def insPut (n : Nat) (x : InsState) (c : Chip) : Chip :=
  { c with prt := { c.prt with ins := c.prt.ins.setIfInBounds n x } }

/-- Whether the deck has a PROTECT card for an instance (R275). -/
def protConfigured (n : Nat) (c : Chip) : Bool := (cardPayload 0x0040 n c).isSome

def isDcBay (n : Nat) (c : Chip) : Bool := getF Reg.BAY_CFG_TYPE n c == 3

/-- The first stream of a role that names a bay. -/
def bayStream (role n : Nat) (c : Chip) : Option Nat :=
  (List.range 96).find? fun s => streamRole s c == role && getF Reg.SNS_CFG_BAY s c == n

/-- The role 6 stream of a pole of a DC bay. -/
def poleStream (pole n : Nat) (c : Chip) : Option Nat :=
  (List.range 96).find? fun s =>
    streamRole s c == 6 && getF Reg.SNS_CFG_BAY s c == n && getF Reg.SNS_CFG_POLE s c == pole

def prtOut (s : Nat) (c : Chip) : Int := (c.sns.streams[s]?.getD {}).prt.out
def prtValid (s : Nat) (c : Chip) : Bool := (c.sns.streams[s]?.getD {}).prt.valid

/-- R277: the window W of a stream. -/
def windowOf (s : Nat) (c : Chip) : Nat := if streamHz s c = 50 then 6400 else 5333

def sumSq (l : List Int) : Nat := l.foldl (fun a x => a + x.natAbs ^ 2) 0
def sumOf (l : List Int) : Int := l.foldl (fun a x => a + x) 0

/-- R287: the inputs of an instance. -/
def instInputs (n : Nat) (c : Chip) : List Nat :=
  let currents := (instElems n c).map fun e => elemI e c
  if n = 16 then currents
  else (bayStream 3 n c).toList ++ currents ++
    (if (hslBay n c).gate then (poleStream 0 n c).toList ++ (poleStream 1 n c).toList else [])

/-! ### Residual current, R277, R278 -/

/-- W² times IAC² and W times abs(IDC), with ir in units of 2^-23 of an output times RFS. -/
structure Residual where
  w  : Nat
  ac : Nat
  dc : Int
  deriving DecidableEq, Repr

def residualOf (w : Nat) (l : List Int) : Residual :=
  let s := sumOf l
  { w := w, ac := w * sumSq l - s.natAbs ^ 2, dc := s }

/-- IAC exceeds `num` / `den` of a threshold in 0.1 mA. -/
def acAbove (rfs thr num den : Nat) (r : Residual) : Bool :=
  (thr * 100 * num * 2 ^ 23 * r.w) ^ 2 < (den * rfs) ^ 2 * r.ac

/-- IAC is below half a threshold in 0.1 mA. -/
def acHalf (rfs thr : Nat) (r : Residual) : Bool := (2 * rfs) ^ 2 * r.ac < (thr * 100 * 2 ^ 23 * r.w) ^ 2

/-- abs(IDC) exceeds 6.0 mA. -/
def dcAbove (rfs : Nat) (r : Residual) : Bool := 6000 * 2 ^ 23 * r.w < rfs * r.dc.natAbs

/-- abs(IDC) is below 3.0 mA. -/
def dcHalf (rfs : Nat) (r : Residual) : Bool := rfs * r.dc.natAbs < 3000 * 2 ^ 23 * r.w

/-- R277, R278: the residual current of a bay at a protection output: the kinds confirmed. -/
def residualStep (n : Nat) (c : Chip) : Chip × BitVec 6 :=
  match bayStream 3 n c with
  | none => (c, 0)
  | some s =>
    let p := protGet n c
    let w := windowOf s c
    let l := (prtOut s c :: p.res).take w
    let r := residualOf w l
    let rfs := cardU32 0x0040 n 8 0 c
    let thr := getF Reg.PRT_IAN_IAN n c
    let a := acAbove rfs thr 1 1 r
    let d := dcAbove rfs r && getF Reg.PRT_CFG_DC_EN n c == 1
    let blind := (latchOf n c).getLsbD 4
    let p := { p with
      res := l
      racN := if a && !blind then p.racN + 1 else 0
      rdcN := if d && !blind then p.rdcN + 1 else 0
      acLow := if acHalf rfs thr r then p.acLow + 1 else 0
      dcLow := if dcHalf rfs r then p.dcLow + 1 else 0 }
    (protPut n p c, (if 201 ≤ p.racN then kindBit 0 else 0) ||| (if 201 ≤ p.rdcN then kindBit 1 else 0))

/-! ### Overcurrent, R280-R283 -/

/-- R280: a phase current at a protection output, in units of 2^-61 µA. -/
def phaseCurrent (e : Nat) (c : Chip) : Int :=
  signed32 (getF Reg.MTR_GAIN_I_VALUE e c) * (256 * prtOut (elemI e c) c - signed32 (getF Reg.MTR_OFS_I_VALUE e c)) *
    getF Reg.MTR_IFS_VALUE e c

/-- One ampere tenth in the same units. -/
def tenthAmp : Nat := 10 ^ 5 * 2 ^ 61

/-- The window of a phase: that of its stream. -/
def phaseWindow (n k : Nat) (c : Chip) : Nat :=
  match (instElems n c)[k]? with
  | some e => windowOf (elemI e c) c
  | none => 6400

/-- R282: some phase current exceeds `pct` % of L. -/
def overLimit (n pct lim : Nat) (p : ProtInst) (c : Chip) : Bool :=
  (List.range 3).any fun k =>
    phaseWindow n k c * (pct * lim * tenthAmp) ^ 2 < 10000 * sumSq (p.phases[k]?.getD [])

/-- R283: the highest phase current is at or below a cap. -/
def underCap (n cap : Nat) (p : ProtInst) (c : Chip) : Bool := !overLimit n 100 cap p c

/-- R283: a cap of ⌊0.8 L⌋ is set on a bay. -/
def setCap (n : Nat) (c : Chip) : Chip :=
  let p := protGet n c
  protPut n { p with cap := some (8 * p.lim / 10), below := none, capDue := false } c

/-- R283: stage 1 of an instance. In the activation pause it waits for the pause's end (R293). -/
def stage1 (n : Nat) (c : Chip) : Chip :=
  if c.upd.pause then protPut n { protGet n c with capDue := true } c
  else if n < 16 then setCap n c
  else
    let c := protPut 16 { protGet 16 c with capDue := false } c
    (List.range 16).foldl (fun c b => if (hslBay b c).gate then setCap b c else c) c

/-- R280-R283: overcurrent of an instance at a protection output. Each stage needs its factor exceeded on one output and
on every output of its time after it: 320,001 and 32,001 outputs. -/
def overcurrentStep (n : Nat) (c : Chip) : Chip × BitVec 6 :=
  let es := instElems n c
  let p := protGet n c
  let phases := Vector.ofFn fun (k : Fin 3) => match es[k.val]? with
    | some e => (phaseCurrent e c :: p.phases[k]).take (phaseWindow n k.val c)
    | none => []
  let p := { p with phases := phases }
  let blind := (latchOf n c).getLsbD 4
  let n1 := if overLimit n 110 p.lim p c && !blind then p.oc1N + 1 else 0
  let n2 := if overLimit n 125 p.lim p c && !blind then p.oc2N + 1 else 0
  let two := n2 == 32001
  let one := n1 == 320001
  let below := match p.cap with
    | some cap => if underCap n cap p c then (match p.below with | some t => some t | none => some c.backup.ms) else none
    | none => none
  let c := protPut n { p with oc1N := if one then 0 else n1, oc2N := n2, below := below } c
  let c := if (one && !two) || ((protGet n c).capDue && !c.upd.pause) then stage1 n c else c
  (c, if 32001 ≤ n2 then kindBit 2 else 0)

/-! ### Insulation monitoring, R284, R285 -/

/-- R284, tINS: a measurement state lasts 1 s, 320,000 protection outputs. -/
def insPhase : Nat := 320000

/-- R284: a protection output of a DC bay's pole voltages; the last 160,000 outputs of a state, those of its last 500 ms, are
averaged. -/
def insulationStep (n : Nat) (c : Chip) : Chip :=
  match poleStream 0 n c, poleStream 1 n c with
  | some sp, some sn =>
    let x := insGet n c
    let k := x.n + 1
    if insPhase < k then c
    else if k ≤ 160000 then insPut n { x with n := k } c
    else
      let e := (instElems n c).headD 0
      let pp := signed32 (getF Reg.MTR_GAIN_V_VALUE e c) *
        (256 * prtOut (elemV e c) c - signed32 (getF Reg.MTR_OFS_V_VALUE e c)) * getF Reg.MTR_VFS_VALUE e c
      insPut n { x with n := k, sumP := x.sumP + prtOut sp c, sumN := x.sumN + prtOut sn c, sumPP := x.sumPP + pp } c
  | _, _ => c

/-- R284: a conductance difference of 1 / (num/den - 1/rdiv) in Ω from kΩ resistors: none is infinite. -/
def insOhm (num den : Int) (rdiv : Nat) : Option (Int × Int) :=
  let num' := if den < 0 then -num else num
  let den' := if den < 0 then -den else den
  let diff := num' * rdiv - den'
  if diff ≤ 0 then none else some (den' * rdiv, diff)

/-- R284, steps 4-6, on the sums of the two states: RISO as a fraction of kΩ, none for infinite. The specification gives
no result where a division is by zero: the value there is free (`Config.freeRiso`). -/
def insResult (rinj rdiv : Nat) (p0 n0 p1 n1 : Int) : Option (Int × Int) :=
  let d := p0 * n1 - p1 * n0
  if d = 0 ∨ n0 = 0 then some ((Config.freeRiso p0 n0 p1 n1).toNat, 1)
  else
    let rp := insOhm (p1 * n0) (rinj * d) rdiv
    let rn := insOhm (-(p1 * p0)) (rinj * d) rdiv
    match rp, rn with
    | none, r => r
    | r, none => r
    | some a, some b => if a.1 * b.2 ≤ b.1 * a.2 then some a else some b

/-- Whether RISO is below a threshold in Ω/V of VMAX. -/
def insBelow (r : Option (Int × Int)) (thr vmax : Nat) : Bool :=
  match r with
  | none => false
  | some (a, b) => 1000 * a < (thr * vmax : Nat) * b

/-- R284, R285: the result of a cycle is judged. `full` counts towards the full result of a cable-check part (R286): the first end of a
cycle begins it, and a later one with a result completes it. -/
def insJudge (n : Nat) (x : InsState) (c : Chip) : Chip :=
  let floor : Int := 50000 * 2 ^ 61 * 160000
  if (x.pp0.natAbs : Int) < floor ∨ (x.sumPP.natAbs : Int) < floor then
    insPut n { x with state := 0, full := max x.full 1 } c
  else
    let r := insResult (cardU16 0x0040 n 0x14 1 c) (cardU16 0x0040 n 0x16 1 c) x.p0 x.n0 x.sumP x.sumN
    let vmax := getF Reg.BAY_DC_CFG_VMAX n c
    let low := insBelow r (cardU16 0x0040 n 0x12 0 c) vmax
    let warn := insBelow r (cardU16 0x0040 n 0x10 0 c) vmax
    let riso := match r with
      | none => 65535
      | some (a, b) => (min (divNear a b.toNat) 65535).toNat
    let x := { x with riso := riso, state := if low then 3 else if warn then 2 else 1, low := low, warn := warn
                      full := x.full + 1 }
    let c := insPut n x c
    if low then tripSend n (kindBit 3) c
    else if warn then eventF Reg.PRT_INS_STATE n n [] c
    else c

/-- R284: a measurement state ends after 1 s; the relay toggles and after S1 the result is computed and judged. -/
def insPhaseEnd (n : Nat) (c : Chip) : Chip :=
  if c.pwr.phase ≠ .run ∨ !isDcBay n c ∨ (insGet n c).n < insPhase then c
  else
    let x := insGet n c
    let fresh := { x with n := 0, sumP := 0, sumN := 0, sumPP := 0 }
    if x.inj then
      let c := insJudge n x c
      let y := insGet n c
      lswAll (insPut n { y with inj := false, n := 0, sumP := 0, sumN := 0, sumPP := 0 } c)
    else lswAll (insPut n { fresh with inj := true, p0 := x.sumP, n0 := x.sumN, pp0 := x.sumPP } c)

/-! ### Invalid inputs, R287, R288 -/

/-- R287: an invalid input sets BLIND through a TRIP flit and stops the counts. -/
def blindStep (n : Nat) (c : Chip) : Chip :=
  let p := protGet n c
  if (instInputs n c).all fun s => prtValid s c then protPut n { p with validN := p.validN + 1 } c
  else
    tripSend n (kindBit 4)
      (protPut n { p with validN := 0, racN := 0, rdcN := 0, oc1N := 0, oc2N := 0 } c)

/-- R287, R59: every configured instance is BLIND. -/
def blindAll (c : Chip) : Chip :=
  let c := setF Reg.PRT_STAT_MCLK_BLIND 0 c.pwr.mclkFault.toNat c
  (List.range 17).foldl (fun c n =>
    if protConfigured n c then
      let p := protGet n c
      tripSend n (kindBit 4) (protPut n { p with validN := 0, racN := 0, rdcN := 0, oc1N := 0, oc2N := 0 } c)
    else c) c

/-- R288, R292: BLIND and UNK clear when every input has been valid for tBLCLR, 38,400 outputs; the clear travels to the HSL. -/
def blindClear (n : Nat) (c : Chip) : Chip :=
  let p := protGet n c
  if c.pwr.phase = .run ∧ protConfigured n c ∧ 38400 ≤ p.validN ∧ !c.pwr.mclkFault ∧ latchOf n c &&& 0x30#6 ≠ 0 ∧ c.bridgeUp then
    let c := protPut n { p with racN := 0, rdcN := 0, oc1N := 0, oc2N := 0 } c
    setF Reg.PRT_STAT_MCLK_BLIND 0 0 (latchClear n 0x30#6 c)
  else c

/-- R278-R287: one protection output at one instance. Kinds confirmed on it travel in one flit. -/
def protStep (n : Nat) (c : Chip) : Chip :=
  if !protConfigured n c then c
  else
    let c := blindStep n c
    let r := if n < 16 then residualStep n c else (c, 0)
    let o := overcurrentStep n r.1
    let c := if n < 16 then insulationStep n o.1 else o.1
    let kinds := r.2 ||| o.2
    if kinds = 0 then c else tripSend n kinds c

/-- R141: the protection unit is served after a protection output of every stream. -/
def protectionUnit (c : Chip) : Chip :=
  if c.pwr.phase ≠ .run then c else (List.range 17).foldl (fun c n => protStep n c) c

/-! ### The limit L, R281 -/

/-- L is the highest value in force during the last tOCGRACE. -/
def limitOf (p : ProtInst) : Nat := p.olds.foldl (fun m o => max m o.1) p.follow

/-- R281: the value that L follows changes: a rise acts at once, a fall after tOCGRACE. -/
def limitFollow (n v : Nat) (c : Chip) : Chip :=
  let p := protGet n c
  if p.first then protPut n { p with first := false, follow := v, olds := [], lim := v } c
  else if v = p.follow then c
  else
    let olds := if v < p.follow then (p.follow, c.backup.ms) :: p.olds else p.olds
    let p := { p with follow := v, olds := olds }
    protPut n { p with lim := limitOf p } c

/-- R281: firmware passes a value to the protection unit; it takes effect at the ME trick edge of OC_LIMIT_UPDATE. -/
def limitPass (n v : Nat) (c : Chip) : Chip := protPut n { protGet n c with passed := some v } c

/-- R281: a passed value takes effect. -/
def ocLimitUpdate (n : Nat) (c : Chip) : Chip :=
  match (protGet n c).passed with
  | none => c
  | some v => limitFollow n v (protPut n { protGet n c with passed := none } c)

/-- R281: tOCGRACE, 5.0 s, after a fall the replaced value leaves L. -/
def ocGraceExpiry (n : Nat) (c : Chip) : Chip :=
  let p := protGet n c
  let p := { p with olds := p.olds.filter fun o => c.backup.ms < o.2 + 5000 }
  protPut n { p with lim := limitOf p } c

/-- R283: a cap is released after tCAPHOLD, 60 s, at or below it. -/
def capRelease (n : Nat) (c : Chip) : Chip :=
  let p := protGet n c
  match p.cap, p.below with
  | some _, some t => if t + 60000 ≤ c.backup.ms then protPut n { p with cap := none, below := none } c else c
  | _, _ => c

/-- R283: a cap ends with the session. -/
def capDrop (n : Nat) (c : Chip) : Chip := protPut n { protGet n c with cap := none, below := none } c

/-! ### Clearing latches, R289-R291 -/

/-- R289, condition 3: the residual value of a kind has stayed below half its threshold for the last 1 s. -/
def residualQuiet (n k : Nat) (c : Chip) : Bool :=
  let p := protGet n c
  320000 ≤ (if k = 0 then p.acLow else p.dcLow)

def anyGate (c : Chip) : Bool := (List.range 16).any fun b => (hslBay b c).gate

/-- R290: the current condition of an automatic clear. -/
def autoCond (n k : Nat) (c : Chip) : Bool :=
  if k < 2 then residualQuiet n k c else if n = 16 then !anyGate c else !(hslBay n c).gate

/-- R289, R32: condition 3 and the last insulation result as the latest snapshot holds them, and the gates of the bay snapshots. -/
def quietShown (n k : Nat) (c : Chip) : Bool := if k = 0 then (protGet n c).quietAc else (protGet n c).quietDc
def gateShown (c : Chip) : Bool := (List.range 16).any fun b => getF Reg.BAY_FB_GATE b c == 1

/-- R289: the checks on PRT_CLR, in order. -/
def prtClrCheck (n : Nat) (kinds : BitVec 6) (c : Chip) : Status :=
  let set := kinds &&& BitVec.ofNat 6 (getF Reg.PRT_LAT_KINDS n c)
  if 16 < n ∨ kinds.getLsbD 4 ∨ kinds.getLsbD 5 then .range
  else if n < 16 ∧ ([0, 1, 8, 9].contains (getF Reg.BAY_STATE_STATE n c)) = false then .state
  else if (set.getLsbD 0 ∧ !quietShown n 0 c) ∨ (set.getLsbD 1 ∧ !quietShown n 1 c) then .state
  else if set.getLsbD 3 ∧ (insGet n c).shown then .state
  else if n = 16 ∧ set.getLsbD 2 ∧ gateShown c then .state
  else .ok

def clrRefused (c : Chip) : Chip := flagF Reg.PRT_STAT_CLR_REF 0 0 Reg.PRT_STAT_EVT_CNT 0 c

/-- R289, R291: a write to PRT_CLR. In the activation pause it is not received (R293). -/
def prtClrWrite (n : Nat) (kinds : BitVec 6) (go : Bool) (c : Chip) : Chip × Status :=
  if !go then (c, .ok)
  else match prtClrCheck n kinds c with
    | .ok =>
      let void := tripWaiting n c &&& kinds
      let c := latchClear n kinds c
      (if void = 0 then c else clrRefused c, .ok)
    | e => (clrRefused c, e)

def prtClr (who : Writer) (n : Nat) (kinds : BitVec 6) (go : Bool) (c : Chip) : Chip :=
  if c.upd.pause then c
  else match writerStatus who c with
    | .ok => let r := prtClrWrite n kinds go c; { r.1 with reply := r.2 }
    | e => { c with reply := e }

/-- R290: the automatic clears of an instance within the last 24 h of meter time. -/
def autosLive (n : Nat) (c : Chip) : List Nat :=
  (c.backup.autos[n]?.getD []).filter fun t => c.backup.ms < t + 86400000

/-- R290, R291: an automatic clear takes place, unless a TRIP flit of the kind is on its way. -/
def autoDo (n k : Nat) (c : Chip) : Chip :=
  if (tripWaiting n c).getLsbD k then clrRefused c
  else
    let c := latchClear n (kindBit k) c
    let c := { c with backup := { c.backup with
      autos := c.backup.autos.setIfInBounds n (c.backup.ms :: autosLive n c) } }
    flagF Reg.PRT_STAT_AUTO_CLR 0 0 Reg.PRT_STAT_EVT_CNT 0 (autoNote n k none 0 c)

/-- R290: tPRAUTO, 60 s, after a latch was set it is considered for an automatic clear; one whose current condition alone
failed clears when it holds. Clears wait in the activation pause (R293). -/
def autoClear (n k : Nat) (c : Chip) : Chip :=
  let auto := getF Reg.PRT_CFG_AUTO n c
  if c.pwr.phase ≠ .run ∨ c.upd.pause ∨ !c.bridgeUp ∨ auto = 0 ∨ 3 ≤ k ∨ !(latchOf n c).getLsbD k then c
  else match (c.backup.latchAt[n]?.getD (Vector.replicate 4 none))[k]?.getD none with
    | none => c
    | some t =>
      if c.backup.ms < t + 60000 then c
      else match (c.backup.autoSt[n]?.getD (Vector.replicate 4 0))[k]?.getD 0 with
        | 0 =>
          if auto ≤ (autosLive n c).length then autoNote n k (some t) 2 c
          else if autoCond n k c then autoDo n k c
          else autoNote n k (some t) 1 c
        | 1 => if autoCond n k c then autoDo n k c else c
        | _ => c

/-- R279: a write to PRT_IAN: the group of the role 3 stream must not be pending, and the value lies in IAN_LO-IAN. -/
def ianWrite (n v : Nat) (c : Chip) : Chip × Status :=
  match bayStream 3 n c with
  | none => (c, .range)
  | some s =>
    let g := getF Reg.SNS_CFG_HOME_GROUP s c
    if pendingGroup g c then (c, .busy)
    else if v < getF Reg.PRT_CFG_IAN_LO n c ∨ getF Reg.PRT_CFG_IAN_DECK n c < v then (c, .range)
    else shadowWrite g (fkey Reg.PRT_IAN_IAN n) v c

def prtIanWrite (who : Writer) (n v : Nat) (c : Chip) : Chip :=
  match writerStatus who c with
  | .ok => if 16 < n then { c with reply := .range } else let r := ianWrite n v c; { r.1 with reply := r.2 }
  | e => { c with reply := e }

/-! ### The protection snapshot, R33, R295 -/

/-- A signed 16-bit field, saturating at ±32,767. -/
def sat16 (v : Int) : Nat := ((max (-32767) (min 32767 v)) % 65536).toNat

/-- The group's registers of one instance. -/
def publishInst (n : Nat) (c : Chip) : Chip :=
  let p := protGet n c
  let rfs := cardU32 0x0040 n 8 0 c
  let w := match bayStream 3 n c with
    | some s => windowOf s c
    | none => 1
  let r := residualOf w p.res
  let ac := min (sqrtNear (rfs ^ 2 * r.ac) ((100 * 2 ^ 23 * w) ^ 2)) 65535
  let dc := if getF Reg.PRT_CFG_DC_EN n c = 1 then sat16 (divNear (rfs * r.dc) (100 * 2 ^ 23 * w)) else 0
  let ipk := (List.range 3).foldl (fun m k =>
    max m (sqrtNear (sumSq (p.phases[k]?.getD [])) (phaseWindow n k c * tenthAmp ^ 2))) 0
  let c := if n < 16 then setF Reg.PRT_RES_AC n ac (setF Reg.PRT_RES_DC n dc c) else c
  let c := setF Reg.PRT_OC_IPK n (min ipk 65535) (setF Reg.PRT_OC_LIM n (min p.lim 65535) c)
  let c := if n < 16 then
      setF Reg.PRT_RED_CAP n (p.cap.getD 0xFFFF) (setF Reg.PRT_RED_BELOW_S n
        (match p.below with | some t => min ((c.backup.ms - t) / 1000) 65535 | none => 0) c)
    else c
  let c := if n < 16 then
      let x := insGet n c
      setF Reg.PRT_INS_RISO n x.riso (setF Reg.PRT_INS_STATE n x.state
        (setF Reg.PRT_INS_INJ n x.inj.toNat (setF Reg.PRT_INS_CHECK n x.check.toNat (insPut n { x with shown := x.low } c))))
    else c
  let c := protPut n { protGet n c with quietAc := residualQuiet n 0 c, quietDc := residualQuiet n 1 c } c
  setF Reg.PRT_LAT_KINDS n (latchOf n c).toNat (setF Reg.PRT_LAT_AUTO_CNT n (min (autosLive n c).length 255) c)

/-- R33: the protection snapshot is published at a 1 ms boundary of meter time. -/
def protectionSnapshot (c : Chip) : Chip :=
  if c.pwr.phase ≠ .run then c
  else
    let c := (List.range 17).foldl (fun c n => if protConfigured n c then publishInst n c else c) c
    let bits := (List.range 17).foldl (fun m n => if latchOf n c != 0 then m + 2 ^ n else m) 0
    let c := setF Reg.PRT_LATCH_LATCHED 0 bits c
    setF Reg.PRT_SEQ_SEQ 0 ((getF Reg.PRT_SEQ_SEQ 0 c + 1) % 2 ^ 32) c

/-- R295: the fields outside the snapshot group: whether any latch is set, whether any instance is BLIND, and L of the feeder. -/
def protShow (c : Chip) : Chip :=
  let any_ := (List.range 17).any fun n => latchOf n c != 0
  let blind := (List.range 17).any fun n => (latchOf n c).getLsbD 4
  let c := setF Reg.PRT_STAT_LATCH_ANY 0 any_.toNat (setF Reg.PRT_STAT_BLIND_ANY 0 blind.toNat c)
  if protConfigured 16 c then setF Reg.PRT_FDR_ALLOC 0 (protGet 16 c).lim c else c

/-- R293, R292, R281: the unit starts with the deck: every configured instance BLIND, and UNK where the mirror is void;
L of a bay is its IMAX and that of the feeder FEED_A. -/
def protectionStart (lost : Bool) (c : Chip) : Chip :=
  let c := { c with prt := {} }
  let c := if lost then { c with
      hsl := { c.hsl with latch := Vector.replicate 17 0 }
      backup := { c.backup with mirror := Vector.replicate 17 0 } } else c
  (List.range 17).foldl (fun c n =>
    if protConfigured n c then
      let lim := if n < 16 then getF Reg.BAY_LIM_IMAX n c else getF Reg.PRT_FDR_FEED_A 0 c
      let c := putLatch n (latchOf n c ||| kindBit 4 ||| (if lost then kindBit 5 else 0)) c
      protPut n { lim := lim, follow := lim, first := n < 16 } c
    else c) c

def execProtectionSnapshot (s : State) : Host.Outcome State Fault Refusal := s.run protectionSnapshot
def execBlindClear (n : Fin 17) (s : State) : Host.Outcome State Fault Refusal := s.run (blindClear n.val)
def execOcLimitUpdate (n : Fin 17) (s : State) : Host.Outcome State Fault Refusal := s.run (ocLimitUpdate n.val)
def execOcGraceExpiry (n : Fin 17) (s : State) : Host.Outcome State Fault Refusal := s.run (ocGraceExpiry n.val)
def execCapRelease (n : Fin 16) (s : State) : Host.Outcome State Fault Refusal := s.run (capRelease n.val)
def execInsPhaseEnd (n : Fin 16) (s : State) : Host.Outcome State Fault Refusal := s.run (insPhaseEnd n.val)
def execPrtClr (who : Writer) (n : Nat) (kinds : BitVec 6) (go : Bool) (s : State) : Host.Outcome State Fault Refusal :=
  s.run (prtClr who n kinds go)
def execAutoClear (n : Fin 17) (k : Fin 4) (s : State) : Host.Outcome State Fault Refusal :=
  s.run (autoClear n.val k.val)
def execPrtIanWrite (who : Writer) (n v : Nat) (s : State) : Host.Outcome State Fault Refusal :=
  s.run (prtIanWrite who n v)

end Sys2Proof.Machine
end

