-- ==== Sys2Proof/Machine/Bays.lean ====
section
/-!
DEFINITION. Bays (chapter 09): pilot output and measurement, proximity, contactor feedback and the closing gate, the session
machine, its commands, and the DC stacks on CAN FD.
-/

namespace Sys2Proof.Machine
open Sys2Proof

def bayGet (n : Nat) (c : Chip) : BayState := c.bay[n]?.getD {}
def bayPut (n : Nat) (x : BayState) (c : Chip) : Chip := { c with bay := c.bay.setIfInBounds n x }
def bayState (n : Nat) (c : Chip) : Nat := getF Reg.BAY_STATE_STATE n c
def dcPut (n : Nat) (x : DcState) (c : Chip) : Chip := bayPut n { bayGet n c with dc := x } c
def hlcPut (n : Nat) (x : HlcState) (c : Chip) : Chip := bayPut n { bayGet n c with hlc := x } c
def baySocket (n : Nat) (c : Chip) : Bool := getF Reg.BAY_CFG_PP_MODE n c == 1
def bayHlc (n : Nat) (c : Chip) : Nat := getF Reg.BAY_CFG_HLC n c

/-! ### Pilot output, R240-R243 -/

/-- R242: a commit at the HSL: a duty above DUTY_MAX is applied as DUTY_MAX; a rise above SLEW_MAX after a PWM period whose
duty is not 100 is spread. Each commit so treated counts once. -/
def pilotCommit (n : Nat) (c : Chip) : Chip :=
  let b := hslBay n c
  let m := getF Reg.BAY_PWM_SH_MODE n c
  let d := getF Reg.BAY_PWM_SH_DUTY n c
  let dmax := trumpU16 (2 * n) c
  let slew := trumpU16 (0x20 + 2 * n) c
  let above := m == 2 && dmax < d
  let d' := if above then dmax else d
  let spread := m == 2 && b.mode == 2 && b.duty != 100 && b.duty + slew < d'
  let c := if above then trumpEvent 0 c else c
  let c := if spread then trumpEvent 1 c else c
  hslBayPut n { b with cmdMode := m, cmdDuty := d' } c

/-- R242, R270: mode and duty of the period that starts; in the activation pause those of the last one. -/
def pilotApply (n : Nat) (c : Chip) : Chip :=
  let b := hslBay n c
  let slew := trumpU16 (0x20 + 2 * n) c
  let m := if !(held c && bayEnabled n c) then 0 else if c.upd.pause then b.mode else b.cmdMode
  let d := if c.upd.pause then b.duty else if m = 2 then
      if b.mode = 2 ∧ b.duty ≠ 100 ∧ b.duty + slew < b.cmdDuty then b.duty + slew else b.cmdDuty
    else b.cmdDuty
  hslBayPut n { b with mode := m, duty := d } c

/-- R243, R122: the bay's commit takes effect. None is sent in the activation pause (R270) or without the bridge (R15, R20). -/
def pilotTake (n : Nat) (c : Chip) : Chip :=
  if c.upd.pause || !c.bridgeUp then c
  else if (c.dlr.staged.find? fun e => e.1 == 96 + n).isSome then pilotCommit n (commitTake (96 + n) c) else c

/-! ### Pilot measurement, R245-R247 -/

/-- R245: sum and count of the samples of a window, `lo` to `hi` in half microseconds, both ends included. -/
def plateau (lo hi : Nat) (samples : List Int) : Option (Int × Nat) :=
  let l := ((List.range samples.length).zip samples).filter fun p => lo ≤ 2 * p.1 && 2 * p.1 ≤ hi
  if l.length < 8 then none else some (sumOf (l.map (·.2)), l.length)

/-- R245: the high plateau of a period. -/
def highPlateau (mode duty : Nat) (samples : List Int) : Option (Int × Nat) :=
  match mode with
  | 1 => plateau 30 1996 samples
  | 2 => if duty < 4 then none else plateau 30 (duty - 4) samples
  | _ => none

/-- R245: the low plateau of a PWM period. -/
def lowPlateau (mode duty : Nat) (samples : List Int) : Option (Int × Nat) :=
  if mode = 2 then plateau (duty + 30) 1996 samples else none

/-- Whether a mean of `p` lies between two bounds in mV, ends included. -/
def within (p : Int × Nat) (lo hi : Int) : Bool := lo * p.2 ≤ p.1 && p.1 ≤ hi * p.2

/-- R246: the class of a high plateau, with the low plateau of a PWM period if there is one. -/
def classOf (high : Int × Nat) (low : Option (Int × Nat)) : Nat :=
  let k :=
    if within high 11000 13000 then 1 else if within high 8000 10000 then 2 else if within high 5000 7000 then 3
    else if within high 2000 4000 then 4 else if within high (-1000) 1000 then 5 else 7
  match low with
  | some l => if 2 ≤ k ∧ k ≤ 4 ∧ -11000 * (l.2 : Int) < l.1 then 6 else k
  | none => k

/-- R245, R246: the raw class of a period. -/
def rawClass (mode duty prev : Nat) (samples : List Int) : Nat :=
  match mode with
  | 0 => 0
  | _ => match highPlateau mode duty samples with
    | none => prev
    | some h => classOf h (lowPlateau mode duty samples)

/-- R246, R247: the period just ended is classified; three consecutive periods of one raw class are recognised, N at
once. -/
def pilotMeasure (n : Nat) (samples : List Int) (c : Chip) : Chip :=
  let b := hslBay n c
  let raw := rawClass b.mode b.duty b.raw samples
  let run := if raw = b.raw then b.rawN + 1 else 1
  let mean := fun (p : Option (Int × Nat)) => p.map fun q => divNear q.1 q.2
  let recog := if raw = 0 then 0 else if 3 ≤ run then raw else b.rec_
  hslBayPut n { b with
    raw := raw, rawN := min run 3, rec_ := recog
    high := mean (highPlateau b.mode b.duty samples), low := mean (lowPlateau b.mode b.duty samples) } c

/-! ### Proximity, R249, R250 -/

/-- R249: the result of a window's mean voltage in mV, which is the resistance in Ω at 1.00 mA. -/
def proxClass (samples : List Nat) : Nat :=
  let p : Int × Nat := ((samples.foldl (· + ·) 0 : Nat), max samples.length 1)
  if 3500 * (p.2 : Int) < p.1 then 1 else if within p 1100 2400 then 2 else if within p 470 900 then 3
  else if within p 160 300 then 4 else if within p 70 130 then 5 else if p.1 < 40 * (p.2 : Int) then 6 else 7

/-- R249, R250: a 10 ms window ends; three consecutive windows that agree are recognised. A change wakes the device from STANDBY
(R66). -/
def proxWindow (n : Nat) (samples : List Nat) (c : Chip) : Chip :=
  if !c.powered then c
  else
    let b := hslBay n c
    if !baySocket n c then hslBayPut n { b with prox := 0, proxRaw := 0, proxN := 0, ohm := 0 } c
    else
      let k := proxClass samples
      let run := if k = b.proxRaw then b.proxN + 1 else 1
      let ohm := (divNear (samples.foldl (· + ·) 0 : Nat) (max samples.length 1)).toNat
      let new := if 3 ≤ run then k else b.prox
      let c := hslBayPut n { b with proxRaw := k, proxN := min run 3, prox := new, ohm := min ohm 65535 } c
      if new = b.prox then c else standbyWakeFrom 1 c

/-! ### Contactor feedback and WELD_OK, R253 -/

/-- R253: the recognised feedback changes. -/
def wsenChange (n : Nat) (closed : Bool) (c : Chip) : Chip :=
  let b := hslBay n c
  let off := if closed && !b.gate && b.offAt.isNone then some c.backup.ms else b.offAt
  let ok := b.weldOk || (!closed && !b.gate && !b.weldDecl)
  let c := hslBayPut n { b with wsen := some closed, wsenAt := c.backup.ms, offAt := off, weldOk := ok } c
  if closed then closingSeen n c else if b.gate then c else openingSeen n c

/-- R253: WSEN is sampled at a period start; ten consecutive samples that agree are recognised. -/
def wsenSample (n : Nat) (contact : Bool) (c : Chip) : Chip :=
  let b := hslBay n c
  if !b.wOn then c
  else
    let closed := contact != b.wPol
    let run := if closed = b.wRaw then b.wRun + 1 else 1
    let c := hslBayPut n { b with wRaw := closed, wRun := min run 10 } c
    if 10 ≤ run ∧ b.wsen ≠ some closed then wsenChange n closed c
    else
      let b := hslBay n c
      if b.wsen = some false ∧ !b.gate ∧ !b.weldOk ∧ !b.weldDecl then hslBayPut n { b with weldOk := true } c else c

/-- R253: the gate has been off for T_OPEN and WSEN is still recognised closed: a weld fault, declared once. -/
def weldFault (n : Nat) (c : Chip) : Chip :=
  let b := hslBay n c
  match b.offAt with
  | none => c
  | some t =>
    if !c.powered ∨ b.gate ∨ b.wsen ≠ some true ∨ b.weldDecl ∨ c.backup.ms < t + b.tOpen then c
    else
      let c := hslBayPut n { b with weldOk := false, weldDecl := true } c
      addSat Reg.BAY_LIFE_WELD n 255 1 (flagF Reg.BAY_EVT_WELD n 0 Reg.BAY_EVT_EVT_CNT n c)

/-! ### The bay snapshot, R248 -/

/-- A plateau as a register field: -32,768 for none. -/
def plateauField (p : Option Int) : Nat := ((p.getD (-32768)) % 65536).toNat

/-- LSIN level of the bay's LOCK_FB, high when locked. -/
def lockFbLevel (n : Nat) (c : Chip) : Bool :=
  let k := getF Reg.BAY_CFG_LOCK_FB n c
  k != 15 && lsinHigh k c

/-- R248: the bay snapshot is latched and published, and SEQ rises. -/
def baySnapshot (n : Nat) (c : Chip) : Chip :=
  let b := hslBay n c
  let c := setF Reg.BAY_PILOT_VHIGH n (plateauField b.high) (setF Reg.BAY_PILOT_VLOW n (plateauField b.low) c)
  let c := setF Reg.BAY_PSTAT_REC n b.rec_ (setF Reg.BAY_PSTAT_RAW n b.raw (setF Reg.BAY_PSTAT_MODE n b.mode c))
  let slewing := b.mode == 2 && b.duty < b.cmdDuty
  let c := setF Reg.BAY_PSTAT_DUTY n b.duty (setF Reg.BAY_PSTAT_SLEWING n slewing.toNat c)
  let c := setF Reg.BAY_PROX_CODE n b.prox (setF Reg.BAY_PROX_OHM n b.ohm c)
  let x := bayGet n c
  let c := setF Reg.BAY_FB_LOCKED n x.locked.toNat (setF Reg.BAY_FB_GRANT n b.grant.toNat
    (setF Reg.BAY_FB_GATE n b.gate.toNat (setF Reg.BAY_FB_WSEN n (b.wsen == some true).toNat c)))
  let c := setF Reg.BAY_FB_WELD_OK n b.weldOk.toNat (setF Reg.BAY_FB_SAFE_OK n (safeOk n c).toNat
    (setF Reg.BAY_FB_PROT_OK n (protOk n c).toNat (setF Reg.BAY_FB_PILOT_OK n (pilotOk n c).toNat
      (setF Reg.BAY_FB_ENABLED n (bayEnabled n c).toNat c))))
  let fb := lockFbLevel n c
  let x := bayGet n c
  let low := if x.lockOn && x.locked && !fb && getF Reg.BAY_CFG_LOCK_FB n c != 15 then x.lockLow + 1 else 0
  let c := bayPut n { x with lockFb := fb, lockLow := low, weld := b.weldDecl } c
  setF Reg.BAY_SEQ_SEQ n ((getF Reg.BAY_SEQ_SEQ n c + 1) % 2 ^ 32) c

/-- R240-R248, R253: a bay's pilot period starts. `samples` are CPn in mV at 0, 1, … 999 µs of the period just ended and
`contact` says whether the feedback contact is closed. The power die measures and gates without the logic die; the
snapshot is published while the deck runs and the logic die takes the power die's measurements (R20). A change of the recognised
class of a configured bay wakes the device from STANDBY (R66, R270). -/
def pilotPeriod (n : Nat) (samples : List Int) (contact : Bool) (c : Chip) : Chip :=
  if !c.powered then c
  else
    let old := (hslBay n c).rec_
    let c := pilotMeasure n samples c
    let c := pilotApply n (pilotTake n c)
    let b := hslBay n c
    let c := if b.mode = 0 then hslBayPut n { b with rec_ := 0 } c else c
    let c := recheck n (wsenSample n contact c)
    if c.pwr.phase = .run ∧ c.bridgeUp then
      let c := baySnapshot n (flitRead c)
      if bayConfigured n c ∧ (hslBay n c).rec_ ≠ old then standbyWakeFrom 0 c else c
    else c

/-! ### The grant, R252 -/

/-- R258, R231: the session's first grant takes its number; the start reading is taken at that instant. -/
def firstGrant (n : Nat) (c : Chip) : Chip :=
  let x := bayGet n c
  if x.granted then c
  else
    let c := readingOpen n (bayPut n { x with granted := true } c)
    setF Reg.BAY_SESS_NUMBER n c.store.sessionNo c

/-- R27: whether the trump card permits gating through a load-switch channel. -/
def gatePermit (k : Nat) (c : Chip) : Bool := (Byte.num (Byte.slice (c.hsl.trump.getD []) 0x5C 8)).testBit k

/-- R27, R252: the HSL receives a grant: the gate goes on, or the grant is refused under trump class 2; one for a channel without
gate permission is refused under class 3. None is sent in the activation pause (R270). -/
def contactorGrant (n : Nat) (c : Chip) : Chip :=
  let x := bayGet n c
  if !x.grantReq ∨ c.upd.pause ∨ !c.bridgeUp then c
  else
    let c := bayPut n { x with grantReq := false } c
    if !gatePermit (getF Reg.BAY_CFG_COIL_CH n c) c then trumpEvent 3 c
    else if closingOk n c then
      let b := hslBay n c
      lswAll (firstGrant n (hslBayPut n { b with grant := true, gate := true, offAt := none } c))
    else trumpEvent 2 (flagF Reg.BAY_EVT_GRANT_REF n 0 Reg.BAY_EVT_EVT_CNT n c)

/-- The grant of a bay is withdrawn by the session machine. -/
def grantDrop (n : Nat) (c : Chip) : Chip := gateOff n (bayPut n { bayGet n c with grantReq := false } c)

/-! ### The effective offer, R241 -/

/-- R241, R249: the cable rating in 0.1 A. A DC bay has none. -/
def cableRating (n : Nat) (c : Chip) : Nat :=
  if isDcBay n c then 0xFFFF
  else if !baySocket n c then 10 * getF Reg.BAY_TIM1_CABLE_A n c
  else match getF Reg.BAY_PROX_CODE n c with
    | 2 => 130
    | 3 => 200
    | 4 => 320
    | 5 => 320
    | _ => 0

/-- R320, R323: the bays counted in DEMAND: OFFER, CLOSING, CHARGING, or PAUSED paused by the vehicle. -/
def counted (n : Nat) (c : Chip) : Bool :=
  let st := bayState n c
  st == 3 || st == 4 || st == 5 || (st == 6 && (bayGet n c).pausedBy == some .vehicle)

/-- R320: three times VNOM of feeder element 48, in 0.1 V. -/
def feederVolts (c : Chip) : Nat := 3 * getF Reg.MTR_LIM_VNOM 48 c

/-- R320: a bay's want in 0.1 A; a DC bay's power request in 0.1 kW is divided by 3 × VNOM and rounded up. -/
def bayWant (n : Nat) (c : Chip) : Nat :=
  if isDcBay n c then
    let v := feederVolts c
    if v = 0 then 0 else ((bayGet n c).hlc.pReq * 10000 + v - 1) / v
  else min (getF Reg.BAY_OFFER_OFFER n c) (min (cableRating n c) (getF Reg.BAY_LIM_IMAX n c))

/-- R323: the later-entered bay of two; at one instant the higher bay counts as the later. -/
def laterBay (c : Chip) (first : Nat) (a b : Nat) : Nat :=
  if a = first then a else if b = first then b
  else if (bayGet a c).offerAt ≤ (bayGet b c).offerAt then b else a

/-- R323: while the equal share would fall below 6.0 A, the bay that entered OFFER last receives 0. `newest` counts as
the last to enter. -/
def shareBays (c : Chip) (newest total : Nat) : Nat → List Nat → List Nat
  | 0, l => l
  | fuel + 1, l =>
    if l.isEmpty ∨ 60 * l.length ≤ total then l
    else
      let last := l.foldl (fun m b => laterBay c newest m b) (l.headD 0)
      shareBays c newest total fuel (l.filter (· != last))

/-- R323: an equal division capped at each want, the excess given to the others. -/
def shareFill (c : Chip) : Nat → Nat → List Nat → List (Nat × Nat)
  | 0, _, _ => []
  | fuel + 1, total, l =>
    let each := total / max l.length 1
    let full := l.filter fun b => decide (bayWant b c ≤ each)
    if full.isEmpty then l.map fun b => (b, each)
    else
      let used := full.foldl (fun a b => a + bayWant b c) 0
      (full.map fun b => (b, bayWant b c)) ++
        shareFill c fuel (total - used) (l.filter fun b => decide (each < bayWant b c))

/-- R322: the applied allocation that the session machine divides; none where no chain runs and the feeder has no limit. -/
def postAlloc (c : Chip) : Option Nat :=
  if chainOn c then some (getF Reg.LNK_CALLOC_APPLIED 0 c)
  else if (cardPayload 0x0040 16 c).isSome then some (getF Reg.PRT_FDR_FEED_A 0 c) else none

/-- R323: a bay's share: what it has, or what it would receive if it entered OFFER now. -/
def postShare (n : Nat) (c : Chip) : Option Nat :=
  (postAlloc c).map fun total =>
    let base := (List.range 16).filter fun b => counted b c
    let l := if base.contains n then base else base ++ [n]
    let newest := if base.contains n then 16 else n
    ((shareFill c 17 total (shareBays c newest total 17 l)).find? fun p => p.1 == n).elim 0 (·.2)

/-- R323, R241: the post allocation term of an AC bay's offer; a DC bay's share bounds its power instead. -/
def bayShare (n : Nat) (c : Chip) : Option Nat := if isDcBay n c then none else postShare n c

/-- R241: the effective offer of a bay in 0.1 A. -/
def effOffer (n : Nat) (c : Chip) : Nat :=
  min (getF Reg.BAY_OFFER_OFFER n c) (min (cableRating n c) (min ((bayShare n c).getD 0xFFFF)
    ((protGet n c).cap.getD 0xFFFF)))

/-- The effective offer is computed anew; firmware passes it to the protection unit (R281). -/
def offerUpdate (n : Nat) (c : Chip) : Chip :=
  let v := effOffer n c
  let c := if v ≠ getF Reg.BAY_OFFER_EFF n c ∧ !isDcBay n c then limitPass n v c else c
  setF Reg.BAY_OFFER_EFF n v c

/-! ### What the session machine drives, R256 -/

/-- R256: whether the bay is in a high-level session. -/
def inHlc (n : Nat) (c : Chip) : Bool := bayHlc n c != 0 && !(bayGet n c).basic

/-- R241, R256: mode and duty of an offer. -/
def offerPilot (n : Nat) (c : Chip) : Nat × Nat :=
  if inHlc n c then (2, 100)
  else
    let v := effOffer n c
    if 60 ≤ v then (2, v * 10 / 3) else (1, 0)

/-- R256: the pilot of the state; none in TEST, where the Declarer commits it. -/
def pilotWant (n : Nat) (c : Chip) : Option (Nat × Nat) :=
  match bayState n c with
  | 0 => some (0, 0)
  | 1 => some (1, 0)
  | 2 => some (if inHlc n c then (2, 100) else (1, 0))
  | 3 => some (offerPilot n c)
  | 4 => some (offerPilot n c)
  | 5 => some (offerPilot n c)
  | 6 => some (match (bayGet n c).pausedBy with
    | some .command => (1, 0)
    | some .offer => (1, 0)
    | _ => offerPilot n c)
  | 7 => some (if inHlc n c && !(bayGet n c).hlc.stopDone && !(bayGet n c).hlc.failed then (2, 100) else (1, 0))
  | 8 => some (1, 0)
  | 9 => some (0, 0)
  | _ => none

/-- R242: firmware raises the duty by at most SLEW_MAX per period. -/
def pilotNext (n : Nat) (want : Nat × Nat) (c : Chip) : Nat × Nat :=
  let m := getF Reg.BAY_PWM_SH_MODE n c
  let d := getF Reg.BAY_PWM_SH_DUTY n c
  let slew := cardU16 0x0002 0 (0x20 + 2 * n) 1 c
  if want.1 = 2 ∧ m = 2 ∧ d ≠ 100 ∧ d + slew < want.2 then (2, d + slew) else want

/-- R122, R243: the wanted pilot is written and committed unless the group is pending. -/
def pilotDrive (n : Nat) (c : Chip) : Chip :=
  match pilotWant n c with
  | none => c
  | some want =>
    let w := pilotNext n want c
    let m := getF Reg.BAY_PWM_SH_MODE n c
    let d := getF Reg.BAY_PWM_SH_DUTY n c
    if pendingGroup (96 + n) c ∨ (m = w.1 ∧ (w.1 ≠ 2 ∨ d = w.2)) then c
    else
      let duty := if w.1 = 2 then w.2 else d
      let c := (shadowWrite (96 + n) (fkey Reg.BAY_PWM_SH_MODE n) w.1 c).1
      let c := (shadowWrite (96 + n) (fkey Reg.BAY_PWM_SH_DUTY n) duty c).1
      (commitGroup (96 + n) c).1

/-- R255, R32: the lock is released once the snapshot shows the gate off, WSEN open and WELD_OK 1 (WELD_OK is 1 only after WSEN
has been recognised, R253). -/
def lockRelease (n : Nat) (c : Chip) : Chip :=
  let x := bayGet n c
  let st := bayState n c
  if x.lockOn ∧ (st = 1 ∨ st = 8 ∨ st = 9) ∧ getF Reg.BAY_FB_GATE n c = 0 ∧ getF Reg.BAY_FB_WSEN n c = 0 ∧
      getF Reg.BAY_FB_WELD_OK n c = 1 then
    lockDrive n false (bayPut n { x with lockOn := false, locked := false, lockLow := 0 } c)
  else c

/-! ### Hands of a session, R259 -/

/-- The session's hand bits in BAYn_STATE. -/
def showHands (n : Nat) (c : Chip) : Chip :=
  let x := bayGet n c
  setF Reg.BAY_STATE_ACTIVE_H n (x.hand == some 0).toNat (setF Reg.BAY_STATE_PAUSED_H n (x.hand == some 1).toNat
    (setF Reg.BAY_STATE_CLOSING_H n (x.hand == some 2 || x.closing).toNat c))

/-- R259: the closing hand is released once the stop reading is released and in the legal store. -/
def closingDone (n : Nat) (c : Chip) : Bool :=
  (c.bil.done[n]?.getD []).isEmpty && !(c.bil.ksr.any fun k => k.hand == 98 + 3 * n)

/-- R257: a session that has ended may move to the closing hand: the snapshot shows WSEN open or, in FAULT, WELD_OK 0. -/
def mayMoveOut (n : Nat) (c : Chip) : Bool :=
  getF Reg.BAY_FB_WSEN n c == 0 || (bayState n c == 9 && getF Reg.BAY_FB_WELD_OK n c == 0)

/-- R259: a session's state moves between hands at a CE trick edge; a move to an occupied closing hand waits. -/
def handMove (n : Nat) (c : Chip) : Chip :=
  let x := bayGet n c
  let c := if x.closing && closingDone n c then bayPut n { bayGet n c with closing := false } c else c
  let x := bayGet n c
  let c := match x.move with
    | none => c
    | some 2 => if x.closing || !mayMoveOut n c then c else bayPut n { x with hand := none, move := none, closing := true } c
    | some h => bayPut n { x with hand := some h, move := none } c
  showHands n c

/-! ### Entering a state, R257, R258, R260 -/

/-- The state changes; its timers run from now. -/
def goto (n st : Nat) (c : Chip) : Chip :=
  setF Reg.BAY_STATE_STATE n st (bayPut n { bayGet n c with entered := c.backup.ms } c)

/-- R260: a reason is recorded at the first entry into STOPPING, FAULT or ENDED; 0x01-0x08 replaces an earlier one. -/
def setReason (n r : Nat) (c : Chip) : Chip :=
  let old := getF Reg.BAY_STATE_REASON n c
  if old = 0 ∨ r ≤ 8 then setF Reg.BAY_STATE_REASON n r c else c

/-- R258: a session ends: its reading waits for its stop, and the move to the closing hand is due. -/
def sessionEnd (n : Nat) (c : Chip) : Chip :=
  let x := bayGet n c
  if x.hand.isNone && x.move.isNone then c
  else
    let c := if x.granted then
        { c with bil := { c.bil with
          done := c.bil.done.setIfInBounds n (c.bil.done[n]?.getD [] ++ [c.bil.read[n]?.getD {}])
          read := c.bil.read.setIfInBounds n {} } }
      else c
    let c := { c with legal := { c.legal with lastEnd := some n } }
    let c := capDrop n (bayPut n { x with move := some 2, granted := false, auth := false } c)
    flagF Reg.BAY_EVT_SESS_END n 0 Reg.BAY_EVT_EVT_CNT n c

/-- R286: no cable-check part runs on. -/
def checkEnd (n : Nat) (c : Chip) : Chip := if isDcBay n c then insPut n { insGet n c with check := false } c else c

/-- R257: a fault reason 0x01-0x08: grant withdrawn, pilot F, session to the closing hand. -/
def toFault (n r : Nat) (c : Chip) : Chip :=
  let c := match r with
    | 4 => addSat Reg.BAY_LIFE_CLOSEF n 255 1 (flagF Reg.BAY_EVT_CLOSE_FAIL n 0 Reg.BAY_EVT_EVT_CNT n c)
    | 6 => flagF Reg.BAY_EVT_PILOT_FAULT n 0 Reg.BAY_EVT_EVT_CNT n c
    | 7 => flagF Reg.BAY_EVT_PP_FAULT n 0 Reg.BAY_EVT_EVT_CNT n c
    | 8 => flagF Reg.BAY_EVT_LOCK_FAIL n 0 Reg.BAY_EVT_EVT_CNT n c
    | _ => c
  let c := checkEnd n (sessionEnd n (grantDrop n (setReason n r c)))
  let x := bayGet n c
  goto n 9 (bayPut n { x with faultClr := false, cmd := x.cmd, pausedBy := none, dc := { x.dc with stage := 0, fault := false } } c)

/-- R257, R264: STOPPING. A high-level session stops at 5 % first; a DC stack is commanded in MODE 0. -/
def toStopping (n r : Nat) (c : Chip) : Chip :=
  let c := checkEnd n (setReason n r c)
  let x := bayGet n c
  goto n 7 (bayPut n { x with pausedBy := none, dc := { x.dc with stage := 0, stopAt := some c.backup.ms } } c)

/-- R257: ENDED. -/
def toEnded (n : Nat) (c : Chip) : Chip :=
  let c := checkEnd n c
  let x := bayGet n c
  goto n 8 (sessionEnd n (grantDrop n (bayPut n { x with dc := { x.dc with stage := 0, stopAt := none } } c)))

/-- R257: the grant is withdrawn under load. -/
def underLoad (n : Nat) (c : Chip) : Chip :=
  addSat Reg.BAY_LIFE_LOADBRK n 65535 1
    (flagF Reg.BAY_EVT_UNDER_LOAD n 0 Reg.BAY_EVT_EVT_CNT n (grantDrop n c))

/-- R303, R304: the first SLAC attempt starts on entry into CONNECTED; a link that failed its self-test fails at once. Until the
first self-test has ended the link stays off (R298). -/
def linkBegin (n : Nat) (c : Chip) : Chip :=
  if bayHlc n c = 0 then c
  else if (getF Reg.LNK_STAT_FAILED 0 c).testBit n then
    let x := bayGet n c
    setF Reg.LNK_VSTAT_STATE n 5 (hlcPut n { x.hlc with failed := true } c)
  else
    let c := { c with lnk := { c.lnk with vehicle := c.lnk.vehicle.setIfInBounds n { slacAt := c.backup.ms } } }
    let st := if getF Reg.LNK_VSTAT_STATE n c = 0 then 0 else 1
    setF Reg.LNK_VSTAT_STATE n st (setF Reg.LNK_VSTAT_TRY n 1 (setF Reg.LNK_VSTAT_PROTO n 0
      (setF Reg.LNK_VSTAT_TLS n 0 (setF Reg.LNK_VSTAT_PNC n 0 c))))

/-- R257, R258: a session begins: CONNECTED with the active hand, the lock driven. A bay without a lock is locked. -/
def toConnected (n : Nat) (c : Chip) : Chip :=
  let x := bayGet n c
  let lock := getF Reg.BAY_CFG_LOCK_CH n c
  let y : BayState := {
    entered := c.backup.ms, auth := x.carried || getF Reg.BAY_CFG_FREE n c == 1
    lockOn := lock != 0xFF, locked := lock == 0xFF || (x.lockOn && x.locked), lockFb := x.lockFb
    cmd := x.cmd, cardCmd := x.cardCmd, cardFirst := x.cardFirst, weld := x.weld, authHash := x.carryHash, hand := some 0, closing := x.closing, dc := { x.dc with stage := 0, stopAt := none } }
  let c := setF Reg.BAY_STATE_REASON n 0 (ceSessionStart n (bayPut n y c))
  let c := if lock != 0xFF then lockDrive n true c else c
  activity (goto n 2 (linkBegin n c))

/-- R257, R264: OFFER, with the session on its way to the active hand or still there. A DC bay starts the sequence of R264 with the
cable check. -/
def toOffer (n : Nat) (c : Chip) : Chip :=
  let x := bayGet n c
  let dc := if isDcBay n c then { x.dc with stage := 1, since := c.backup.ms } else x.dc
  let move := if x.hand = some 1 then some 0 else none
  let c := if isDcBay n c then insPut n { insGet n c with check := true, full := 0 } c else c
  goto n 3 (bayPut n { bayGet n c with dc := dc, move := move, pausedBy := none, offerAt := c.backup.ms } c)

/-- R257: PAUSED; the grant is withdrawn. -/
def toPaused (n : Nat) (why : PauseBy) (c : Chip) : Chip :=
  goto n 6 (grantDrop n (bayPut n { bayGet n c with pausedBy := some why, move := some 1 } c))

/-! ### The session machine's inputs, R261 -/

def recClass (n : Nat) (c : Chip) : Nat := getF Reg.BAY_PSTAT_REC n c
def proxOpen (n : Nat) (c : Chip) : Bool := baySocket n c && getF Reg.BAY_PROX_CODE n c == 1

/-- R252: every closing condition except the grant, in the latest snapshot. -/
def snapOk (n : Nat) (c : Chip) : Bool :=
  getF Reg.BAY_FB_ENABLED n c == 1 && getF Reg.BAY_FB_PILOT_OK n c == 1 && getF Reg.BAY_FB_PROT_OK n c == 1 &&
    getF Reg.BAY_FB_SAFE_OK n c == 1 && getF Reg.BAY_FB_WELD_OK n c == 1

/-- R260: the fault reasons that hold in this publish, lowest first. -/
def faultReason (n : Nat) (c : Chip) : Option Nat :=
  let x := bayGet n c
  let k := recClass n c
  let pp := getF Reg.BAY_PROX_CODE n c
  if x.weld && getF Reg.BAY_FB_WELD_OK n c == 0 then some 1
  else if getF Reg.BAY_FB_PROT_OK n c = 0 then some 2
  else if getF Reg.BAY_FB_SAFE_OK n c = 0 then some 3
  else if x.dc.fault then some 5
  else if k = 5 ∨ k = 6 ∨ x.undef then some 6
  else if baySocket n c ∧ (pp = 6 ∨ pp = 7) then some 7
  else if 3 ≤ x.lockLow then some 8
  else none

/-- R101: a configured bay may leave state F. -/
def mayLeaveF (n : Nat) (c : Chip) : Bool :=
  held c && c.bil.ready && bayEnabled n c && getF Reg.BAY_CFG_TYPE n c != 0 && getF Reg.PRT_SEQ_SEQ 0 c != 0 &&
    getF Reg.PRT_LAT_KINDS n c < 16 && getF Reg.PRT_LAT_KINDS 16 c < 16 && c.pwr.phase == .run

/-- R107: BAY_MS, at the first bay to leave F. -/
def bayMs (c : Chip) : Chip :=
  if getF Reg.UPD_DECK_BOOT_BAY_MS 0 c = 0 then setF Reg.UPD_DECK_BOOT_BAY_MS 0 (min 65535 (c.backup.ms - c.pwr.startAt)) c
  else c

/-- R257: FAULT may be left. -/
def mayLeaveFault (n : Nat) (c : Chip) : Bool :=
  let x := bayGet n c
  let r := getF Reg.BAY_STATE_REASON n c
  x.entered + 3000 ≤ c.backup.ms && getF Reg.BAY_FB_WELD_OK n c == 1 && getF Reg.BAY_FB_PROT_OK n c == 1 &&
    getF Reg.BAY_FB_SAFE_OK n c == 1 && (!isDcBay n c || getF Reg.BAY_DC_STAT_ONLINE n c == 1) &&
    ((r != 4 && r != 8) || x.faultClr)

/-- R257: FAULT or TEST returns to IDLE. -/
def toIdle (n : Nat) (c : Chip) : Chip :=
  let x := bayGet n c
  goto n 1 (bayPut n { x with undef := false, undefSince := none, faultClr := false, auth := false, carried := false
                              authHash := none, carryHash := none, localStop := false, hlc := {}, basic := false, dc := { x.dc with fault := false } } c)

/-- R257: whether a vehicle's plug allows a session. -/
def plugOk (n : Nat) (c : Chip) : Bool :=
  let pp := getF Reg.BAY_PROX_CODE n c
  !baySocket n c || (2 ≤ pp && pp ≤ 5)

/-- R257: recognised C, or D with ALLOW_D. -/
def vehicleReady (n : Nat) (c : Chip) : Bool :=
  recClass n c == 3 || (recClass n c == 4 && getF Reg.BAY_CFG_ALLOW_D n c == 1)

/-- R264: the DC element's voltage is that of V_OUT within 2 % + 5 V, both in mV. -/
def voltsAgree (n : Nat) (c : Chip) : Bool :=
  let v := 100 * getF Reg.BAY_DC_MEAS_V_OUT n c
  let m := getF Reg.MTR_VRMS_VRMS ((instElems n c).headD 0) c
  100 * ((v : Int) - m).natAbs ≤ 2 * m + 500000

/-- I_OUT and the DC element's current, both in µA with the sign of the flow (R268). -/
def ampsAgree (n : Nat) (c : Chip) : Bool :=
  let raw := getF Reg.BAY_DC_MEAS_I_OUT n c
  let i : Int := 100000 * (if raw < 32768 then (raw : Int) else (raw : Int) - 65536)
  let e := (instElems n c).headD 0
  let m : Int := getF Reg.MTR_IRMS_IRMS e c
  let m := if signed32 (getF Reg.MTR_P_P e c) < 0 then -m else m
  100 * (i - m).natAbs ≤ 2 * m.natAbs + 200000000

/-- R263: a session that may export: an AC bay with BIDIR 1 in a high-level session that has agreed bidirectional power transfer. -/
def exporting (n : Nat) (c : Chip) : Bool :=
  inHlc n c && (bayGet n c).hlc.bidir && getF Reg.BAY_CFG_BIDIR n c == 1 && !isDcBay n c

/-- R263: while a voltage-missing episode of any feeder element is open, such a session commands zero power and pauses. -/
def exportHeld (n : Nat) (c : Chip) : Bool := exporting n c && (instElems 16 c).any fun e => (elemGet e c).vmiss

/-- R263: the commands of high-level communication: zero power, and the bound of the export current, which is the effective offer. -/
def exportDrive (n : Nat) (c : Chip) : Chip :=
  let x := bayGet n c
  let bound := if exporting n c && !exportHeld n c then effOffer n c else 0
  hlcPut n { x.hlc with zero := exportHeld n c, export_ := bound } c

/-- R257: what OFFER or PAUSED needs to close; R72: no grant is issued during a power-fail warning. -/
def mayClose (n : Nat) (c : Chip) : Bool :=
  let x := bayGet n c
  vehicleReady n c && (60 ≤ effOffer n c || (inHlc n c && x.hlc.power)) && (!isDcBay n c || 4 ≤ x.dc.stage) &&
    x.pausedBy != some .command && snapOk n c && x.move.isNone && !x.hlc.pause && !exportHeld n c &&
    getF Reg.PWR_PFW_ACTIVE 0 c == 0 && !actPending c

/-- A stop reason of OFFER to PAUSED, lowest first (R257). -/
def stopReason (n : Nat) (c : Chip) : Option Nat :=
  let x := bayGet n c
  if x.hlc.failed && bayHlc n c == 2 then some 0x0A
  else if inHlc n c && x.hlc.stop then some 0x0B
  else if x.localStop then some 0x0C
  else none

/-- R257: a failure of high-level communication with HLC 1 falls back to basic duty. -/
def fallBack (n : Nat) (c : Chip) : Chip :=
  let x := bayGet n c
  if x.hlc.failed ∧ bayHlc n c = 1 ∧ !x.basic ∧ (bayState n c = 2 ∨ bayState n c = 3) then
    flagF Reg.BAY_EVT_HLC_FB n 0 Reg.BAY_EVT_EVT_CNT n (bayPut n { x with basic := true, hlc := {} } c)
  else c

/-- R264: the stages of a DC bay before its grant and after it. -/
def dcAdvance (n : Nat) (c : Chip) : Chip :=
  let x := bayGet n c
  let d := x.dc
  let v := getF Reg.BAY_DC_MEAS_V_OUT n c
  let near := fun (t : Nat) => ((v : Int) - t).natAbs ≤ 200
  match d.stage with
  | 1 =>
    if near (min (10 * getF Reg.BAY_DC_CFG_VMAX n c) x.hlc.vMax) then
      dcPut n { d with stage := 2 } (insPut n { insGet n c with check := true, full := 0 } c)
    else c
  | 2 =>
    if 2 ≤ (insGet n c).full then
      dcPut n { d with stage := 3, since := c.backup.ms } (insPut n { insGet n c with check := false } c)
    else c
  | 3 =>
    if getF Reg.BAY_DC_STAT_STATE n c = 2 ∧ near x.hlc.vPresent ∧ voltsAgree n c then dcPut n { d with stage := 4 } c
    else c
  | 4 =>
    if bayState n c = 5 then
      dcPut n { d with stage := 5 } (insPut n { insGet n c with check := true, full := 0 } c)
    else c
  | 5 =>
    if 2 ≤ (insGet n c).full then dcPut n { d with stage := 6 } (insPut n { insGet n c with check := false } c) else c
  | _ => c

/-- R268: deviations of a granted stack for 500 ms; R264: at a stop the grant goes once both currents are at most 5.0 A. -/
def dcWatch (n : Nat) (c : Chip) : Chip :=
  if !isDcBay n c then c
  else
    let x := bayGet n c
    let g := getF Reg.BAY_FB_GRANT n c == 1
    let now := c.backup.ms
    let since := fun (bad : Bool) (t : Option Nat) => if bad then some (t.getD now) else none
    let v := since (g && !voltsAgree n c) x.dc.vDev
    let i := since (g && !ampsAgree n c) x.dc.iDev
    let above := fun (t : Option Nat) => match t with | some t => decide (t + 500 ≤ now) | none => false
    let c := dcPut n { x.dc with vDev := v, iDev := i, fault := x.dc.fault || above v || above i } c
    let raw := getF Reg.BAY_DC_MEAS_I_OUT n c
    let mag := if raw < 32768 then raw else 65536 - raw
    let e := (instElems n c).headD 0
    if bayState n c = 7 ∧ g ∧ mag ≤ 50 ∧ getF Reg.MTR_IRMS_IRMS e c ≤ 5000000 then grantDrop n c else c

/-! ### Transitions, R257 -/

/-- R257: the transition that the inputs of steps 1-5 of R261 call for, one per publish. -/
def advance (n : Nat) (c : Chip) : Chip :=
  let x := bayGet n c
  let st := bayState n c
  let k := recClass n c
  let fault := if st = 0 ∨ st = 9 ∨ st = 10 then none else faultReason n c
  match fault with
  | some r => toFault n r c
  | none =>
    if 2 ≤ st ∧ st ≤ 7 ∧ (k = 1 ∨ proxOpen n c) then toEnded n (if st = 7 then c else setReason n 9 c)
    else match st with
      | 0 => if mayLeaveF n c then toIdle n (bayMs c) else c
      | 1 =>
        if 2 ≤ k ∧ k ≤ 4 ∧ plugOk n c ∧ !c.bil.lsFail ∧ x.hand.isNone ∧ x.move.isNone ∧ !actPending c then toConnected n c
        else c
      | 2 =>
        if x.hlc.failed ∧ bayHlc n c = 2 then toStopping n 0x0A c
        else if (x.auth || x.hlc.contract) ∧ !authBlocked c ∧ x.locked then toOffer n c
        else c
      | 7 => if k = 2 ∨ x.hlc.stopDone then toEnded n c else c
      | 8 =>
        if k = 1 ∧ (!baySocket n c ∨ proxOpen n c) then toIdle n c
        else if x.carried ∧ 2 ≤ k ∧ k ≤ 4 ∧ !c.bil.lsFail ∧ x.hand.isNone ∧ x.move.isNone ∧ !actPending c then
          toConnected n c
        else c
      | 9 => if mayLeaveFault n c then toIdle n c else c
      | 10 => if inService c then c else toIdle n c
      | _ =>
        match (if 3 ≤ st ∧ st ≤ 6 then stopReason n c else none) with
        | some r => toStopping n r c
        | none =>
          if st = 3 ∨ st = 6 then
            if mayClose n c then
              goto n 4 (bayPut n { bayGet n c with grantReq := true, move := if x.hand = some 1 then some 0 else x.move
                                                   pausedBy := none } c)
            else c
          else if st = 4 then
            if getF Reg.BAY_FB_WSEN n c = 1 then goto n 5 c
            else if exportHeld n c then toPaused n .hlc c
            else if getF Reg.BAY_FB_GRANT n c = 0 ∧ !x.grantReq ∧ snapOk n c ∧ getF Reg.PWR_PFW_ACTIVE 0 c = 0 ∧
                !actPending c then
              bayPut n { x with grantReq := true } c
            else c
          else if st = 5 then
            if k = 2 then toPaused n .vehicle c
            else if effOffer n c < 60 then toPaused n .offer c
            else if x.hlc.pause ∨ exportHeld n c then toPaused n .hlc c
            else c
          else c

/-- R262: the states in which a code is accepted. -/
def cmdAccepted (n code : Nat) (c : Chip) : Bool :=
  let st := bayState n c
  let k := recClass n c
  let x := bayGet n c
  let r := getF Reg.BAY_STATE_REASON n c
  match code with
  | 1 => st == 2 || (st == 8 && 2 ≤ k && k ≤ 4)
  | 2 => 3 ≤ st && st ≤ 6
  | 3 => st == 4 || st == 5
  | 4 => st == 6 && x.pausedBy == some .command
  | 5 => st == 9 && (r == 4 || r == 8)
  | 6 => let b := hslBay n c
    !b.gate && b.wsen == some false && b.wsenAt + 1000 ≤ c.backup.ms
  | 7 => st == 1 && k == 1 && inService c
  | 8 => st == 10
  | _ => false

/-- R262, R254: the effect of an accepted command. -/
def cmdApply (n code : Nat) (c : Chip) : Chip :=
  let x := bayGet n c
  match code with
  | 1 => if bayState n c = 2 then bayPut n { x with auth := true } c else bayPut n { x with carried := true } c
  | 2 => toStopping n 0x0D c
  | 3 => toPaused n .command c
  | 4 => toOffer n c
  | 5 => bayPut n { x with faultClr := true } c
  | 6 => if c.bridgeUp then hslBayPut n { hslBay n c with weldOk := true, weldDecl := false } c else c
  | 7 => goto n 10 c
  | 8 => toIdle n c
  | _ => c

/-- R261, step 6: the waiting command, dropped where it no longer applies or, for AUTH, while authorisations are treated
as absent (R446). -/
def cmdStep (n : Nat) (c : Chip) : Chip :=
  let x := bayGet n c
  match x.cmd with
  | none => c
  | some code =>
    let c := bayPut n { x with cmd := none, cardFirst := false } c
    if cmdAccepted n code c && !(code == 1 && authBlocked c) then advance n (cmdApply n code c)
    else flagF Reg.BAY_EVT_CMD_DROP n 0 Reg.BAY_EVT_EVT_CNT n c

/-- R384, R261: an authorisation by a credential is processed like a command; its ID_HASH is the session's authorising
credential. -/
def cardStep (n : Nat) (c : Chip) : Chip :=
  let x := bayGet n c
  match x.cardCmd with
  | none => c
  | some h =>
    let x := { x with cardCmd := none, cardFirst := false }
    if cmdAccepted n 1 c && !authBlocked c then
      let x := if bayState n c = 2 then { x with auth := true, authHash := some h }
        else { x with carried := true, carryHash := some h }
      advance n (bayPut n x c)
    else flagF Reg.BAY_EVT_CMD_DROP n 0 Reg.BAY_EVT_EVT_CNT n (bayPut n x c)

/-- R255, R257: a lock confirmed by LOCK_FB. -/
def lockConfirm (n : Nat) (c : Chip) : Chip :=
  let x := bayGet n c
  if x.lockOn ∧ !x.locked ∧ x.lockFb then bayPut n { x with locked := true, lockLow := 0 } c else c

/-- R260: the onset of UNDEF. -/
def undefNote (n : Nat) (c : Chip) : Chip :=
  let x := bayGet n c
  if recClass n c = 7 then bayPut n { x with undefSince := some (x.undefSince.getD c.backup.ms) } c
  else bayPut n { x with undefSince := none, undef := false } c

/-- What follows every action of the session machine. -/
def bayAfter (n : Nat) (c : Chip) : Chip := showHands n (lockRelease n (pilotDrive n (exportDrive n (offerUpdate n c))))

/-- R261, R384: the commands of step 6 in order of receipt: BAYn_CMD and an authorisation by a credential. -/
def cmdsStep (n : Nat) (c : Chip) : Chip :=
  if (bayGet n c).cardFirst then cmdStep n (cardStep n c) else cardStep n (cmdStep n c)

/-- Whether the session machine runs: not in the activation pause or in STANDBY (R270), nor without a running deck. DESIGN CHOICE:
once the logic die has declared the bridge down, it has no valid input and stands still until the next start (R20, log 65). -/
def bayRuns (n : Nat) (c : Chip) : Bool :=
  c.pwr.phase == .run && !c.upd.pause && !inStandby c && !c.bridge.downLogic && getF Reg.BAY_CFG_TYPE n c != 0

/-- R261: at a bay snapshot publish the session machine takes its inputs in order. -/
def sessionStep (n : Nat) (c : Chip) : Chip :=
  if !bayRuns n c then c
  else
    let c := dcAdvance n (dcWatch n (lockConfirm n (undefNote n (fallBack n c))))
    bayAfter n (cmdsStep n (advance n c))

/-! ### Timer expiries, R257 -/

/-- A timer of a state has ended: the bay is in the state and has been for the time. -/
def timeUp (n st ms : Nat) (c : Chip) : Bool :=
  bayRuns n c && bayState n c == st && (bayGet n c).entered + ms ≤ c.backup.ms

/-- R255, R257: T_LOCK ends: without LOCK_FB the lock is confirmed, with it the bay faults. -/
def tLockExpiry (n : Nat) (c : Chip) : Chip :=
  let x := bayGet n c
  if !timeUp n 2 (getF Reg.BAY_TIM0_T_LOCK n c) c ∨ x.locked then c
  else if getF Reg.BAY_CFG_LOCK_FB n c = 15 then bayAfter n (advance n (bayPut n { x with locked := true } c))
  else bayAfter n (toFault n 8 c)

/-- R257: T_AUTH ends; 0 means no limit. -/
def tAuthExpiry (n : Nat) (c : Chip) : Chip :=
  let t := getF Reg.BAY_TIM1_T_AUTH n c
  if t ≠ 0 ∧ timeUp n 2 (1000 * t) c then bayAfter n (toStopping n 0x0F c) else c

/-- R257: T_CLOSE ends. -/
def tCloseExpiry (n : Nat) (c : Chip) : Chip :=
  if timeUp n 4 (getF Reg.BAY_TIM0_T_CLOSE n c) c then bayAfter n (toFault n 4 c) else c

/-- R257: T_STOP ends with C or D recognised: the grant is withdrawn under load. -/
def tStopExpiry (n : Nat) (c : Chip) : Chip :=
  if timeUp n 7 (getF Reg.BAY_TIM1_T_STOP n c) c && (recClass n c == 3 || recClass n c == 4) then
    bayAfter n (toEnded n (underLoad n c))
  else c

/-- R257: PAUSE_MAX ends; 0 means no limit. -/
def pauseMaxExpiry (n : Nat) (c : Chip) : Chip :=
  let t := getF Reg.BAY_TIM2_PAUSE_MAX n c
  if t ≠ 0 ∧ timeUp n 6 (60000 * t) c then bayAfter n (toStopping n 0x0E c) else c

/-- R257: 3 s in FAULT. -/
def faultHoldExpiry (n : Nat) (c : Chip) : Chip :=
  if bayRuns n c ∧ bayState n c = 9 ∧ mayLeaveFault n c then bayAfter n (toIdle n c) else c

/-- R260: UNDEF has been recognised for 100 ms. -/
def undefTimeout (n : Nat) (c : Chip) : Chip :=
  let x := bayGet n c
  match x.undefSince with
  | none => c
  | some t =>
    let st := bayState n c
    if !bayRuns n c ∨ c.backup.ms < t + 100 ∨ recClass n c ≠ 7 then c
    else
      let c := bayPut n { x with undef := true } c
      if st = 0 ∨ st = 9 ∨ st = 10 then c else bayAfter n (toFault n 6 c)

/-! ### Commands and writes, R262, R271 -/

/-- R262: a write to BAYn_CMD. -/
def bayCmdWrite (n code : Nat) (c : Chip) : Chip × Status :=
  if code = 0 ∨ 8 < code then (c, .range)
  else if !cmdAccepted n code c then (c, .state)
  else if (bayGet n c).cmd.isSome then (c, .busy)
  else (bayPut n { bayGet n c with cmd := some code } c, .ok)

def bayCommand (who : Writer) (n code : Nat) (c : Chip) : Chip :=
  match writerStatus who c with
  | .ok => let r := bayCmdWrite n code c; { r.1 with reply := r.2 }
  | e => { c with reply := e }

/-- R254: WELD_CLR sets WELD_OK when the gate is off and WSEN has been recognised open for 1 s. -/
def weldClr (who : Writer) (n : Nat) (c : Chip) : Chip := bayCommand who n 6 c

/-- R271: a write to BAYn_OFFER.OFFER: 0, or 60-IMAX, 10-IMAX for DC. -/
def offerWrite (n v : Nat) (c : Chip) : Chip × Status :=
  let lo := if isDcBay n c then 10 else 60
  if v = 0 ∨ (lo ≤ v ∧ v ≤ getF Reg.BAY_LIM_IMAX n c) then (offerUpdate n (setF Reg.BAY_OFFER_OFFER n v c), .ok)
  else (c, .range)

def bayOffer (who : Writer) (n v : Nat) (c : Chip) : Chip :=
  match writerStatus who c with
  | .ok => let r := offerWrite n v c; { r.1 with reply := r.2 }
  | e => { c with reply := e }

/-- R271: whether a writer may write the pilot: the Declarer only in TEST, device firmware always. -/
def mayPilot (who : Writer) (n : Nat) (c : Chip) : Bool :=
  match who with
  | .firmware => true
  | .session _ => bayState n c == 10

/-- R240, R271: a write to BAYn_PWM_SH. -/
def pwmShWrite (who : Writer) (n m d : Nat) (c : Chip) : Chip × Status :=
  if !mayPilot who n c then (c, .state)
  else if pendingGroup (96 + n) c then (c, .busy)
  else if m = 3 ∨ (m = 2 ∧ (d < 20 ∨ 1940 < d)) then (c, .range)
  else
    let c := (shadowWrite (96 + n) (fkey Reg.BAY_PWM_SH_MODE n) m c).1
    shadowWrite (96 + n) (fkey Reg.BAY_PWM_SH_DUTY n) d c

/-- R243, R271: a write to BAYn_PWM_CMT. -/
def pwmCmtWrite (who : Writer) (n : Nat) (go : Bool) (c : Chip) : Chip × Status :=
  if !mayPilot who n c then (c, .state) else if go then commitGroup (96 + n) c else (c, .ok)

def pwmCommit (who : Writer) (n : Nat) (go : Bool) (c : Chip) : Chip :=
  match writerStatus who c with
  | .ok => let r := pwmCmtWrite who n go c; { r.1 with reply := r.2 }
  | e => { c with reply := e }

/-! ### DC stacks on CAN FD, R264-R268 -/

/-- R267: the CRC of a message over its identifier and bytes 0-13. -/
def canCrc (ident : Nat) (msg : List Nat) : Nat := crc16 (Byte.le 2 ident ++ msg.take 14)

/-- R268: the checks on a received message against the last counter: accepted, with the number lost, or discarded. -/
inductive CanCheck where
  | accepted (cnt lost : Nat)
  | badCrc
  | badCnt (cnt : Nat)
  deriving DecidableEq, Repr

/-- R268: a message's length, CRC and counter. The first message of an identifier has no earlier counter. -/
def canCheck (ident : Nat) (last : Option Nat) (msg : List Nat) : CanCheck :=
  if msg.length ≠ 16 ∨ Byte.u16 msg 14 ≠ canCrc ident msg then .badCrc
  else
    let cnt := Byte.u8 msg 1
    match last with
    | none => .accepted cnt 0
    | some p =>
      let d := (cnt + 256 - p) % 256
      if d = 1 ∨ d = 2 ∨ d = 3 then .accepted cnt (d - 1) else .badCnt cnt

/-- The node of a DC bay's stack. -/
def stackNode (n : Nat) (c : Chip) : Nat := getF Reg.BAY_DC_CFG_NODE n c

/-- Whether a DC bay's port can carry messages. -/
def canUp (n : Nat) (c : Chip) : Bool :=
  isDcBay n c && c.pwr.phase == .run && c.powered && !(c.canOff[getF Reg.BAY_DC_CFG_PORT n c]?.getD false)

/-- R268: a STATUS message. The stack is online after three consecutive accepted ones. -/
def stackStatus (n : Nat) (msg : List Nat) (c : Chip) : Chip :=
  if !canUp n c then c
  else
    let d := (bayGet n c).dc
    match canCheck (0x180 + stackNode n c) d.statCnt msg with
    | .badCrc => addSat Reg.BAY_DC_ERR_CRC n 65535 1 (dcPut n { d with okRun := 0 } c)
    | .badCnt cnt => addSat Reg.BAY_DC_ERR_CNT n 65535 1 (dcPut n { d with okRun := 0, statCnt := some cnt } c)
    | .accepted cnt lost =>
      let c := addSat Reg.BAY_DC_ERR_CNT n 65535 lost c
      let run := d.okRun + 1
      let st := Byte.u8 msg 0
      let c := dcPut n { d with
        statCnt := some cnt, okRun := min run 3, statAt := c.backup.ms, fault := d.fault || st == 5 } c
      let c := setF Reg.BAY_DC_STAT_STATE n st (setF Reg.BAY_DC_STAT_FAULT n (Byte.u8 msg 7) c)
      let c := setF Reg.BAY_DC_MEAS_V_OUT n (Byte.u16 msg 2) (setF Reg.BAY_DC_MEAS_I_OUT n (Byte.u16 msg 4) c)
      let c := if 3 ≤ run then setF Reg.BAY_DC_STAT_ONLINE n 1 c else c
      if st = 5 then grantDrop n c else c

/-- R268: a FAULT message withdraws the grant; the session faults with reason 0x05. -/
def stackFault (n : Nat) (msg : List Nat) (c : Chip) : Chip :=
  if !canUp n c then c
  else
    let d := (bayGet n c).dc
    match canCheck (0x80 + stackNode n c) d.faultCnt msg with
    | .badCrc => addSat Reg.BAY_DC_ERR_CRC n 65535 1 c
    | .badCnt cnt => addSat Reg.BAY_DC_ERR_CNT n 65535 1 (dcPut n { d with faultCnt := some cnt } c)
    | .accepted cnt lost =>
      let c := addSat Reg.BAY_DC_ERR_CNT n 65535 lost (dcPut n { d with faultCnt := some cnt, fault := true } c)
      grantDrop n (setF Reg.BAY_DC_STAT_CODE n (Byte.u8 msg 0) c)

/-- R268: no STATUS accepted for 60 ms: the stack is lost. -/
def stackLost (n : Nat) (c : Chip) : Chip :=
  let d := (bayGet n c).dc
  if isDcBay n c ∧ c.pwr.phase = .run ∧ getF Reg.BAY_DC_STAT_ONLINE n c = 1 ∧ d.statAt + 60 ≤ c.backup.ms then
    let c := setF Reg.BAY_DC_STAT_ONLINE n 0 (setF Reg.BAY_DC_STAT_LOST n 1 c)
    grantDrop n (dcPut n { d with okRun := 0, fault := true } c)
  else c

/-- R264, R267: mode, voltage, current, power and reverse current of the CMD the session calls for. -/
def stackWant (n : Nat) (c : Chip) : Nat × Nat × Nat × Nat × Nat :=
  let x := bayGet n c
  let vmax := 10 * getF Reg.BAY_DC_CFG_VMAX n c
  let cap := match postShare n c with
    | some v => v * feederVolts c / 10000
    | none => 0xFFFF
  let p := min x.hlc.pReq (min cap (getF Reg.BAY_DC_CFG_PMAX n c))
  let i := min x.hlc.iReq (effOffer n c)
  let st := bayState n c
  if getF Reg.PWR_STATE_STATE 0 c = 3 ∨ st < 3 ∨ 6 < st then (0, 0, 0, 0, 0)
  else match x.dc.stage with
    | 1 => (1, min vmax x.hlc.vMax, 0, 0, 0)
    | 2 => (1, min vmax x.hlc.vMax, 0, 0, 0)
    | 3 => (1, x.hlc.vPresent, 0, 0, 0)
    | 4 => (1, x.hlc.vPresent, 0, 0, 0)
    | 5 => (1, x.hlc.vPresent, 0, 0, 0)
    | 6 => if x.hlc.rev ∧ getF Reg.BAY_CFG_BIDIR n c = 1 then (3, x.hlc.vReq, 0, p, i) else (2, x.hlc.vReq, i, p, 0)
    | _ => (0, 0, 0, 0, 0)

/-- R267: the bytes of a CMD message. -/
def cmdBytes (node cnt : Nat) (w : Nat × Nat × Nat × Nat × Nat) : List Nat :=
  let m := [w.1, cnt] ++ Byte.le 2 w.2.1 ++ Byte.le 2 w.2.2.1 ++ Byte.le 2 w.2.2.2.1 ++ Byte.le 2 w.2.2.2.2 ++
    [0, 0, 0, 0]
  m ++ Byte.le 2 (canCrc (0x100 + node) m)

/-- R267, R281: a CMD is sent every 20 ms; firmware passes its current limit to the protection unit, never above IMAX.
In the activation pause the last CMD is repeated (R270). -/
def stackCmdSend (n : Nat) (c : Chip) : Chip :=
  if !canUp n c then c
  else
    let d := (bayGet n c).dc
    let cnt := (d.cmdCnt + 1) % 256
    if c.upd.pause then
      let l := d.lastCmd
      let w := (Byte.u8 l 0, Byte.u16 l 2, Byte.u16 l 4, Byte.u16 l 6, Byte.u16 l 8)
      dcPut n { d with cmdCnt := cnt, lastCmd := cmdBytes (stackNode n c) cnt w } c
    else
      let w := stackWant n c
      let c := dcPut n { d with cmdCnt := cnt, lastCmd := cmdBytes (stackNode n c) cnt w } c
      let v := min (if w.1 = 3 then w.2.2.2.2 else w.2.2.1) (getF Reg.BAY_LIM_IMAX n c)
      if v = (protGet n c).follow ∧ !(protGet n c).first then c else limitPass n v c

/-- R264, R286: T_PRECHG ends before the cable-check voltage or the precharge is reached. -/
def prechargeTimeout (n : Nat) (c : Chip) : Chip :=
  let x := bayGet n c
  if bayRuns n c ∧ bayState n c = 3 ∧ (x.dc.stage = 1 ∨ x.dc.stage = 3) ∧
      x.dc.since + cardU16 0x0031 n 0xC 0 c ≤ c.backup.ms then bayAfter n (toFault n 5 c)
  else c

/-- R264: 2 s after MODE 0 the current has not fallen to 5.0 A: the grant is withdrawn under load. -/
def dcStopTimeout (n : Nat) (c : Chip) : Chip :=
  let x := bayGet n c
  match x.dc.stopAt with
  | none => c
  | some t =>
    if bayRuns n c ∧ isDcBay n c ∧ getF Reg.BAY_FB_GRANT n c = 1 ∧ t + 2000 ≤ c.backup.ms then bayAfter n (underLoad n c) else c

/-- R266: bus-off of a port with a DC_STACK card; each one is an event record. -/
def canBusOff (p : Fin 2) (c : Chip) : Chip :=
  if c.pwr.phase ≠ .run ∨ !((List.range 16).any fun n => isDcBay n c && getF Reg.BAY_DC_CFG_PORT n c == p.val) then c
  else eventRec 0x10 0xFFFF 2 p.val [] { c with canOff := c.canOff.set p true }

def canBusOn (p : Fin 2) (c : Chip) : Chip := { c with canOff := c.canOff.set p false }

/-! ### Start and reset, R253, R258, R270 -/

/-- R253: the HSL takes WSEN_POL and T_OPEN of the deck at "Cards applied". -/
def baysApply (c : Chip) : Chip :=
  (List.range 16).foldl (fun c n =>
    if getF Reg.BAY_CFG_TYPE n c = 0 then c
    else hslBayPut n { hslBay n c with
      wOn := true, wPol := getF Reg.BAY_CFG_WSEN_POL n c == 1, tOpen := getF Reg.BAY_TIM0_T_OPEN n c } c) c

/-- R48, R53: the HSL's reset state at the bays: pilot F, every gate off, grants and commits discarded. -/
def baysHslReset (c : Chip) : Chip :=
  let c := withdrawAll c
  (List.range 16).foldl (fun c n =>
    let b := hslBay n c
    bayPut n { bayGet n c with grantReq := false } (hslBayPut n { b with mode := 0, duty := 0, cmdMode := 0, cmdDuty := 0, rec_ := 0, raw := 0, rawN := 0 } c)) c

/-- R253, R270: the power die loses its supply: what it holds of the bays is lost. -/
def baysPowerLost (c : Chip) : Chip := { c with hsl := { c.hsl with bays := Vector.replicate 16 {} } }

/-- R230: the stop reading of a bay's ended session, once it is ready. -/
def stopReading (n : Nat) (c : Chip) : Chip := if stopReady n c then stopReadingTake n c else c

def execPilotPeriodStart (n : Fin 16) (samples : List Int) (contact : Bool) (s : State) :
    Host.Outcome State Fault Refusal := s.run (pilotPeriod n.val samples contact)
def execProxWindowEnd (n : Fin 16) (samples : List Nat) (s : State) : Host.Outcome State Fault Refusal :=
  s.run (proxWindow n.val samples)
def execWeldFault (n : Fin 16) (s : State) : Host.Outcome State Fault Refusal := s.run (weldFault n.val)
def execSessionHandMove (n : Fin 16) (s : State) : Host.Outcome State Fault Refusal := s.run (handMove n.val)
def execTLockExpiry (n : Fin 16) (s : State) : Host.Outcome State Fault Refusal := s.run (tLockExpiry n.val)
def execTAuthExpiry (n : Fin 16) (s : State) : Host.Outcome State Fault Refusal := s.run (tAuthExpiry n.val)
def execTCloseExpiry (n : Fin 16) (s : State) : Host.Outcome State Fault Refusal := s.run (tCloseExpiry n.val)
def execTStopExpiry (n : Fin 16) (s : State) : Host.Outcome State Fault Refusal := s.run (tStopExpiry n.val)
def execPauseMaxExpiry (n : Fin 16) (s : State) : Host.Outcome State Fault Refusal := s.run (pauseMaxExpiry n.val)
def execFaultHoldExpiry (n : Fin 16) (s : State) : Host.Outcome State Fault Refusal := s.run (faultHoldExpiry n.val)
def execUndefPilotTimeout (n : Fin 16) (s : State) : Host.Outcome State Fault Refusal := s.run (undefTimeout n.val)
def execAuth (who : Writer) (n : Fin 16) (s : State) : Host.Outcome State Fault Refusal := s.run (bayCommand who n.val 1)
def execStop (who : Writer) (n : Fin 16) (s : State) : Host.Outcome State Fault Refusal := s.run (bayCommand who n.val 2)
def execPause (who : Writer) (n : Fin 16) (s : State) : Host.Outcome State Fault Refusal := s.run (bayCommand who n.val 3)
def execResume (who : Writer) (n : Fin 16) (s : State) : Host.Outcome State Fault Refusal :=
  s.run (bayCommand who n.val 4)
def execFaultClr (who : Writer) (n : Fin 16) (s : State) : Host.Outcome State Fault Refusal :=
  s.run (bayCommand who n.val 5)
def execWeldClr (who : Writer) (n : Fin 16) (s : State) : Host.Outcome State Fault Refusal := s.run (weldClr who n.val)
def execTestEnter (who : Writer) (n : Fin 16) (s : State) : Host.Outcome State Fault Refusal :=
  s.run (bayCommand who n.val 7)
def execTestExit (who : Writer) (n : Fin 16) (s : State) : Host.Outcome State Fault Refusal :=
  s.run (bayCommand who n.val 8)
def execBayOfferWrite (who : Writer) (n : Fin 16) (v : Nat) (s : State) : Host.Outcome State Fault Refusal :=
  s.run (bayOffer who n.val v)
def execBayPwmCommit (who : Writer) (n : Fin 16) (go : Bool) (s : State) : Host.Outcome State Fault Refusal :=
  s.run (pwmCommit who n.val go)
def execStackStatus (n : Fin 16) (msg : List Byte) (s : State) : Host.Outcome State Fault Refusal :=
  s.run (stackStatus n.val (Byte.nats msg))
def execStackFault (n : Fin 16) (msg : List Byte) (s : State) : Host.Outcome State Fault Refusal :=
  s.run (stackFault n.val (Byte.nats msg))
def execStackCmdSend (n : Fin 16) (s : State) : Host.Outcome State Fault Refusal := s.run (stackCmdSend n.val)
def execStackLost (n : Fin 16) (s : State) : Host.Outcome State Fault Refusal := s.run (stackLost n.val)
def execPrechargeTimeout (n : Fin 16) (s : State) : Host.Outcome State Fault Refusal := s.run (prechargeTimeout n.val)
def execDcStopTimeout (n : Fin 16) (s : State) : Host.Outcome State Fault Refusal := s.run (dcStopTimeout n.val)
def execCanBusOff (p : Fin 2) (s : State) : Host.Outcome State Fault Refusal := s.run (canBusOff p)
def execCanBusOffRecovery (p : Fin 2) (s : State) : Host.Outcome State Fault Refusal := s.run (canBusOn p)

end Sys2Proof.Machine
end

