-- ==== Sys2Proof/Machine/Frame.lean ====
section
/-!
DEFINITION. The frames of the mains chain link on the line (R297, R305-R310): the payload region with its cipher text, tag and
CRC, scrambling, coding, the placing of coded bits, and the carriers of each symbol.
-/

namespace Sys2Proof.Machine
open Sys2Proof

/-! ### MODE, R305, R307 -/

/-- R305: the used carriers C. -/
def chainCarriers : Nat := 1062

/-- R305: bits m per carrier in a MODE. -/
def modeBits (mode : Nat) : Nat := if mode < 2 then 2 else 1

/-- R305: copies c in a MODE. -/
def modeCopies (mode : Nat) : Nat := if mode % 2 = 0 then 4 else 6

/-- R307: K, the coded bits per copy in a payload region of N symbols. -/
def codedBits (nsym mode : Nat) : Nat := nsym * chainCarriers * modeBits mode / modeCopies mode

/-- R307: the byte capacity of a payload region of N symbols in a MODE. -/
def regionBytes (nsym mode : Nat) : Nat := (codedBits nsym mode / 2 - 6) / 8

/-! ### Frame control, R308 -/

/-- A field of frame control. -/
def fcField (lo w fc : Nat) : Nat := fc / 2 ^ lo % 2 ^ w

/-- R308: CRC-16/CCITT over frame-control bits 79:0, taken as ten bytes, least significant first. -/
def fcCrc (fc : Nat) : Nat := crc16 (Byte.le 10 (fc % 2 ^ 80))

/-- R308: a frame-control word. -/
def fcMake (chain kind src dst nsym mode intlv more flow seq : Nat) : Nat :=
  let w := chain + kind * 2 ^ 8 + src * 2 ^ 12 + dst * 2 ^ 18 + nsym * 2 ^ 24 + mode * 2 ^ 32 + intlv * 2 ^ 34 +
    more * 2 ^ 41 + flow * 2 ^ 42 + seq * 2 ^ 46
  w + fcCrc w * 2 ^ 80

/-! ### The payload region, R309 -/

/-- R309: the CCM nonce of a frame. -/
def chainNonce (ident ctr chain : Nat) : List Nat := Byte.le 8 ident ++ Byte.le 4 ctr ++ [chain % 256]

/-- R309: the associated data: frame-control bits 79:0 and the region's bytes 0x00-0x0F. -/
def chainAad (fc : Nat) (head : List Nat) : List Nat := Byte.le 10 (fc % 2 ^ 80) ++ head

/-- R309: the payload region of a new frame, bytes after its CRC-32C zero. -/
def chainRegion (key : List Nat) (fc ctr typ ident : Nat) (body : List Nat) : List Nat :=
  let head := Byte.le 4 ctr ++ Byte.le 2 body.length ++ Byte.le 2 typ ++ Byte.le 8 ident
  let p := head ++ ccmSeal key (chainNonce ident ctr (fcField 0 8 fc)) (chainAad fc head) body
  let p := p ++ Byte.le 4 (crc32c p)
  p ++ List.replicate (regionBytes (fcField 24 8 fc) (fcField 32 2 fc) - p.length) 0

/-- R309: the fields of a received payload region. -/
def rxBytes (rx : ChainRx) : List Nat := Byte.nats rx.payload
def rxCtr (rx : ChainRx) : Nat := Byte.u32 (rxBytes rx) 0
def rxLen (rx : ChainRx) : Nat := Byte.u16 (rxBytes rx) 4
def rxTyp (rx : ChainRx) : Nat := Byte.u16 (rxBytes rx) 6
def rxIdent (rx : ChainRx) : Nat := Byte.u64 (rxBytes rx) 8

/-- R309: a LEN with 0x1C + LEN above the region's capacity makes the frame fail. -/
def rxLenOk (rx : ChainRx) : Bool :=
  decide (0x1C + (rxLen rx) ≤ regionBytes (fcField 24 8 rx.fc.toNat) (fcField 32 2 rx.fc.toNat))

/-- R309: CRC-32C over bytes 0x00 to 0x17 + LEN. -/
def rxCrcOk (rx : ChainRx) : Bool := crc32c (Byte.slice (rxBytes rx) 0 (0x18 + (rxLen rx))) == Byte.u32 (rxBytes rx) (0x18 + (rxLen rx))

/-- R309, R310: the body, if the tag passes under a key. -/
def rxOpen (key : List Nat) (rx : ChainRx) : Option (List Nat) :=
  ccmOpen key (chainNonce (rxIdent rx) (rxCtr rx) (fcField 0 8 rx.fc.toNat)) (chainAad rx.fc.toNat (Byte.slice (rxBytes rx) 0 16))
    (Byte.slice (rxBytes rx) 16 ((rxLen rx) + 8))

/-! ### Scrambling and coding, R305, R306 -/

/-- R306: information bits, least significant bit of each byte first. -/
def infoBits (p : List Nat) : List Bool := p.flatMap fun b => (List.range 8).map fun k => b.testBit k

/-- R306: the sequence of x^10 + x^3 + 1 from the ten bits `s`, stage 1 in bit 0, added to the bits. DESIGN CHOICE (log 66): the
sum of stages 3 and 10 is both the sequence's bit and the bit shifted into stage 1. -/
def scrambleFrom : Nat → List Bool → List Bool
  | _, [] => []
  | s, b :: bs =>
    let x := s.testBit 9 != s.testBit 2
    (b != x) :: scrambleFrom (2 * s % 1024 + x.toNat) bs

/-- R306: the scrambler starts from all ones at the first bit of each field. -/
def scramble (bs : List Bool) : List Bool := scrambleFrom 1023 bs

/-- Whether an odd number of the seven low bits are one. -/
def oddBits (w : Nat) : Bool := (List.range 7).foldl (fun a k => a != w.testBit k) false

/-- R305, R306: the convolutional coder of constraint length 7 with the last six bits in `s`; the output of generator 133 comes
before that of 171. DESIGN CHOICE (log 66): a generator's most significant bit takes the bit that enters. -/
def convFrom : Nat → List Bool → List Bool
  | _, [] => []
  | s, b :: bs =>
    let w := 64 * b.toNat + s
    oddBits (w &&& 0o133) :: oddBits (w &&& 0o171) :: convFrom (w / 2) bs

/-- R305, R306: a field's information bits scrambled, its six tail bits not, and coded. -/
def codeField (info : List Bool) : List Bool := convFrom 0 (scramble info ++ List.replicate 6 false)

/-! ### Carriers. A carrier's value has magnitude 1; its phase is a count of π/1,024 -/

/-- R306: carrier k of a sync symbol carries exp(jπk²/1,024). -/
def syncSymbol : List Nat := (List.range chainCarriers).map fun x => (82 + x) * (82 + x) % 2048

/-- R306: BPSK maps bit b to 1 − 2b. -/
def bpsk (b : Bool) : Nat := if b then 1024 else 0

/-- R306: QPSK maps (b0, b1) to ((1 − 2b0) + j(1 − 2b1))/√2. -/
def qpsk (b0 b1 : Bool) : Nat :=
  match b0, b1 with
  | false, false => 256
  | true, false => 768
  | true, true => 1280
  | false, true => 1792

/-- R306: the two frame-control symbols: coded bit i in symbol ⌊i/177⌋, its copies on carriers 82 + (i mod 177) + 177j. -/
def fcSymbols (fc : Nat) : List (List Nat) :=
  let coded := codeField ((List.range 171).map fun k => fc.testBit k)
  (List.range 2).map fun s => (List.range chainCarriers).map fun x => bpsk (coded.getD (177 * s + x % 177) false)

/-- R307: the cell of copy `j` of coded bit `i` of a span with D = `d` and M = `mTotal`: its symbol in the span, and its
carrier and bit in the carrier as the number `q`. -/
def spanCell (d mTotal c j i : Nat) : Nat × Nat := (i % d + j * d, (i / d + j * (mTotal / c)) % mTotal)

/-- R307: the coded bit whose copy a cell of a span carries. -/
def spanBit (d mTotal c symbol q : Nat) : Nat :=
  (q + mTotal - symbol / d * (mTotal / c) % mTotal) % mTotal * d + symbol % d

/-- R306, R307: the payload symbols of a region: the coded stream in spans of S symbols. -/
def payloadSymbols (nsym mode intlv : Nat) (region : List Nat) : List (List Nat) :=
  let k := codedBits nsym mode
  let bits := infoBits region
  let coded := codeField (bits ++ List.replicate (k / 2 - 6 - bits.length) false)
  let m := modeBits mode
  let c := modeCopies mode
  let d := intlv / c
  let span := d * (chainCarriers * m)
  (List.range nsym).map fun t => (List.range chainCarriers).map fun x =>
    let bit := fun (q : Nat) => coded.getD (t / intlv * span + spanBit d (chainCarriers * m) c (t % intlv) q) false
    if m = 1 then bpsk (bit x) else qpsk (bit (2 * x)) (bit (2 * x + 1))

/-- R306: the symbols of a frame in order: two sync symbols, frame control, payload. An ack has no payload. -/
def frameSymbols (fc : Nat) (region : List Nat) : List (List Nat) :=
  syncSymbol :: syncSymbol :: fcSymbols fc ++ payloadSymbols (fcField 24 8 fc) (fcField 32 2 fc) (fcField 34 7 fc) region

/-! ### Transmit level, R297. Levels are in halves of 1 dBm/Hz, frequencies in kHz -/

/-- R297: the amateur bands of set A but its first two. -/
def amateurRest : List (Nat × Nat) :=
  [(10100, 10150), (14000, 14350), (18068, 18168), (21000, 21450), (24890, 24990)]

/-- R297: the broadcast bands. -/
def broadcastBands : List (Nat × Nat) :=
  [(5900, 6200), (9400, 9900), (11600, 12100), (13570, 13870), (15100, 15800), (17480, 17900), (21450, 21850),
   (25670, 26100)]

/-- R297: the chain's notch bands under a MASK_IDX; every set also protects the contactless reader. -/
def notchBands (mask : Nat) : List (Nat × Nat) :=
  let reader := (13553, 13567)
  match mask with
  | 1 => reader :: (3500, 4000) :: (7000, 7300) :: amateurRest
  | 2 => reader :: (3500, 3900) :: (7000, 7300) :: amateurRest
  | 3 => reader :: (3500, 3800) :: (7000, 7200) :: (amateurRest ++ broadcastBands)
  | _ => reader :: (3500, 3800) :: (7000, 7200) :: amateurRest

/-- R296, R297: whether carrier k, at k × 50,000/2,048 kHz, lies in a notch band. -/
def notched (mask k : Nat) : Bool :=
  (notchBands mask).any fun b => decide (b.1 * 2048 ≤ k * 50000) && decide (k * 50000 ≤ b.2 * 2048)

/-- R297: the level of a chain carrier: the mask reference, 30 dB less in a notch band, less the applied attenuation. -/
def chainLevel (mask att k : Nat) : Int :=
  (if mask = 3 then -130 else -110) - (if notched mask k then 60 else 0) - att

/-- R297: the level of a vehicle-link carrier; none where the tone mask of HomePlug Green PHY, which the spec does not
give, masks it. -/
def vehicleLevel (mask att k : Nat) : Option Int :=
  if Config.vehicleTone k then some ((if mask = 3 then -160 else -150) - att) else none

end Sys2Proof.Machine
end

