-- ==== Sys2Proof/Machine/Links.lean ====
section
/-!
DEFINITION. Vehicle links and the mains chain link (chapter 11): self-test, SLAC and high-level communication, chain frames,
election, join, slots, the budget round, allocations and the KHP relay.
-/

namespace Sys2Proof.Machine
open Sys2Proof

def vlink (n : Nat) (c : Chip) : VLinkState := c.lnk.vehicle[n]?.getD {}
def vlinkPut (n : Nat) (x : VLinkState) (c : Chip) : Chip :=
  { c with lnk := { c.lnk with vehicle := c.lnk.vehicle.setIfInBounds n x } }
def chainPut (x : ChainState) (c : Chip) : Chip := { c with lnk := { c.lnk with chain := x } }
def vState (n : Nat) (c : Chip) : Nat := getF Reg.LNK_VSTAT_STATE n c
def role (c : Chip) : Nat := getF Reg.LNK_CSTAT_ROLE 0 c

/-- R304: the VLINK card or its defaults, times in ms. -/
def slacTry (c : Chip) : Nat := cardU8 0x0050 0 2 2 c
def tSlac (c : Chip) : Nat := 1000 * cardU16 0x0050 0 4 40 c
def tSetup (c : Chip) : Nat := 1000 * cardU16 0x0050 0 6 20 c
def tLinkloss (c : Chip) : Nat := 1000 * cardU16 0x0050 0 8 5 c

/-- R298, R328: whether the links may transmit: not while a self-test runs. -/
def linksRun (c : Chip) : Bool :=
  c.pwr.phase == .run && c.bridgeUp && c.pwr.linkPll && !c.upd.pause && getF Reg.LNK_TEST_RUNNING 0 c == 0

/-- Whether the vehicle links run in full: not in STANDBY. -/
def vlinksRun (c : Chip) : Bool := linksRun c && getF Reg.PWR_STATE_STATE 0 c != 3

/-- R298: a path that failed its last self-test is silent; path 16 is the chain's. -/
def pathFailed (k : Nat) (c : Chip) : Bool := (getF Reg.LNK_STAT_FAILED 0 c).testBit k

/-- R298: whether the chain link runs. -/
def chainRuns (c : Chip) : Bool := linksRun c && !pathFailed 16 c

/-- A flag of LNK_CEVT. -/
def chainFlag (f : Fld) (c : Chip) : Chip := flagF f 0 0 Reg.LNK_STAT_EVT_CNT 0 c

/-! ### High-level communication and its failure, R303 -/

/-- R303: high-level communication of a bay fails; the membership key is discarded. -/
def hlcFail (n : Nat) (flag : Option Fld) (c : Chip) : Chip :=
  let c := match flag with
    | some f => flagF f n 0 Reg.LNK_STAT_EVT_CNT 0 c
    | none => c
  let c := vlinkPut n { vlink n c with nmk := none, run := none } c
  setF Reg.LNK_VSTAT_STATE n 5 (hlcPut n { (bayGet n c).hlc with failed := true, up := false, power := false } c)

/-- Whether a session of a bay uses high-level communication that has not failed. -/
def hlcWanted (n : Nat) (c : Chip) : Bool :=
  let st := bayState n c
  bayHlc n c != 0 && 2 ≤ st && st ≤ 7 && vState n c != 5

/-- Whether a bay's high-level communication is under way. -/
def hlcLive (n : Nat) (c : Chip) : Bool := hlcWanted n c && vState n c != 0

/-! ### Vehicle links, R299-R303 -/

/-- R301: whether a bay may answer a SLAC parameter request: CONNECTED with the pilot at 5 %, and not a run left to another
bay. -/
def slacQualifies (src run n : Nat) (c : Chip) : Bool :=
  bayState n c == 2 && getF Reg.BAY_PSTAT_MODE n c == 2 && getF Reg.BAY_PSTAT_DUTY n c == 100 &&
    (vState n c == 1 || vState n c == 2) && !pathFailed n c && !(vlink n c).left.contains (src, run)

/-- R301: the bay that answers: the strongest preamble, at equal strength the lowest bay. -/
def slacWinner (src run : Nat) (levels : Vector (Option Nat) 16) (c : Chip) : Option Nat :=
  ((List.range 16).foldl (fun (best : Option (Nat × Nat)) n =>
    match levels[n]?.getD none with
    | none => best
    | some v => if !slacQualifies src run n c then best
      else match best with
        | some (_, w) => if w < v then some (n, v) else best
        | none => some (n, v)) none).map (·.1)

/-- R300, R301, R526: a bay answers the parameter request of a run and enters SLAC. -/
def slacAnswer (src run n : Nat) (c : Chip) : Chip :=
  activity (setF Reg.LNK_VSTAT_STATE n 2
    (vlinkPut n { vlink n c with run := some { src := src, id := run }, sent := some (.slacParm src run) } c))

/-- R301: a bay leaves a run to another bay and ignores it from now on. -/
def slacLeave (src run n : Nat) (c : Chip) : Chip :=
  flagF Reg.LNK_VEVT_SLAC_DUP n 0 Reg.LNK_STAT_EVT_CNT 0
    (vlinkPut n { vlink n c with left := (src, run) :: (vlink n c).left } c)

/-- R301: a SLAC parameter request is received at the bays of `levels`. -/
def slacRequest (src run : Nat) (levels : Vector (Option Nat) 16) (c : Chip) : Chip :=
  if !vlinksRun c then c
  else match slacWinner src run levels c with
    | none => c
    | some w =>
      let others := (List.range 16).filter fun n => n != w && (levels[n]?.getD none).isSome && slacQualifies src run n c
      slacAnswer src run w (others.foldl (fun c n => slacLeave src run n c) c)

/-- R303: an attempt has not matched within T_SLAC: the next one starts, or high-level communication has failed. -/
def slacTimeout (n : Nat) (c : Chip) : Chip :=
  let v := vlink n c
  if !bayRuns n c ∨ !hlcLive n c ∨ (vState n c ≠ 1 ∧ vState n c ≠ 2) ∨ c.backup.ms < v.slacAt + tSlac c then c
  else
    let k := getF Reg.LNK_VSTAT_TRY n c
    if k < slacTry c then
      let c := flagF Reg.LNK_VEVT_SLAC_FAIL n 0 Reg.LNK_STAT_EVT_CNT 0 c
      setF Reg.LNK_VSTAT_TRY n (k + 1) (setF Reg.LNK_VSTAT_STATE n 1
        (vlinkPut n { v with slacAt := c.backup.ms, run := none } c))
    else hlcFail n (some Reg.LNK_VEVT_SLAC_FAIL) c

/-- R303: T_SETUP after the match without a session setup. -/
def setupTimeout (n : Nat) (c : Chip) : Chip :=
  if bayRuns n c ∧ vState n c = 3 ∧ (vlink n c).matchAt + tSetup c ≤ c.backup.ms then
    hlcFail n (some Reg.LNK_VEVT_LINK_LOSS) c
  else c

/-- R303: T_LINKLOSS without a valid frame of the matched station. -/
def linklossTimeout (n : Nat) (c : Chip) : Chip :=
  if bayRuns n c ∧ (vState n c = 3 ∨ vState n c = 4) ∧ (vlink n c).frameAt + tLinkloss c ≤ c.backup.ms then
    hlcFail n (some Reg.LNK_VEVT_LINK_LOSS) c
  else c

/-- R328: a pause shorter than T_LINKLOSS does not end a match. -/
def matchKeep (pause n : Nat) (c : Chip) : Chip :=
  let v := vlink n c
  if pause < tLinkloss c then vlinkPut n { v with frameAt := min c.backup.ms (v.frameAt + pause) } c else c

/-- R299: whether a station is the one matched on a vehicle link. -/
def matchedPeer (n mac : Nat) (c : Chip) : Bool :=
  (vState n c == 3 || vState n c == 4) &&
    getF Reg.LNK_VPEER_LO_MAC_LO n c + 2 ^ 32 * getF Reg.LNK_VPEER_HI_MAC_HI n c == mac

/-- R113, R299, R328: a vehicle-link frame from station `src` ends at LCLK cycle `lclk` of the LE trick in progress; decoding it is
class 1 work of its hand. No tone-mapped frame is accepted. In STANDBY its preamble wakes the device. -/
def vehicleFrame (n : Nat) (crcOk tone : Bool) (src lclk : Nat) (payload : List Nat) (c : Chip) : Chip :=
  if !linksRun c ∨ getF Reg.BAY_CFG_TYPE n c = 0 ∨ pathFailed n c then c
  else if getF Reg.PWR_STATE_STATE 0 c = 3 then standbyWakeFrom 0 c
  else if tone then c
  else
    let c := linkWork n 1 lclk payload c
    if !crcOk then addSat Reg.LNK_VCNT_ERR n 65535 1 c
    else if matchedPeer n src c then
      addSat Reg.LNK_VCNT_RX n 65535 1 (vlinkPut n { vlink n c with frameAt := c.backup.ms } c)
    else c

/-- R302: a certificate request is passed to the Declarer as an event record with its REQ_ID. -/
def certRequest (n : Nat) (msg : List Nat) (c : Chip) : Chip :=
  let id := c.lnk.reqNo % (2 ^ 32 - 1) + 1
  let c := { c with lnk := { c.lnk with reqNo := id, certs := c.lnk.certs ++ [(id, n)] } }
  eventRec 0x14 0xFFFF 1 n (Byte.le 4 id ++ msg) c

/-- R302: whether VLINK.PROTO enables a protocol, coded as LNK_VSTAT.PROTO. -/
def protoOn (k : Nat) (c : Chip) : Bool := k != 0 && (cardU8 0x0050 0 0 7 c).testBit (k - 1)

/-- R302: whether a protocol serves bay `n` over the transport there is: DIN SPEC 70121 for a DC bay without TLS, ISO 15118-20 with
TLS. -/
def protoFits (n k : Nat) (tls : Bool) (c : Chip) : Bool :=
  match k with
  | 1 => isDcBay n c && !tls
  | 2 => true
  | 3 => tls
  | _ => false

/-- R302: the protocol chosen of those the vehicle offers, in the order of preference. -/
def protoChoose (n : Nat) (offered : List (Fin 4)) (tls : Bool) (c : Chip) : Option Nat :=
  [3, 2, 1].find? fun k => offered.any (·.val == k) && protoOn k c && protoFits n k tls c

/-- R300: the attenuation report once the soundings have ended: the mean of each of the 58 carrier groups, to the nearest decibel
(log 68). -/
def slacReport (n : Nat) (r : SlacRun) (c : Chip) : Chip :=
  if r.got = 0 ∨ r.report.isSome then c
  else
    let groups := r.sum.map fun a => (2 * a + r.got) / (2 * r.got)
    vlinkPut n { vlink n c with
      run := some { r with report := some groups }, sent := some (.attenReport r.src r.id groups) } c

/-- R300: a sounding of the run: its attenuations are added up; the last one announced brings the report. -/
def slacSound (n : Nat) (groups : List Nat) (r : SlacRun) (c : Chip) : Chip :=
  if r.sounds ≤ r.got ∨ r.report.isSome then c
  else
    let r := { r with got := r.got + 1, sum := List.zipWith (· + ·) r.sum groups }
    let c := vlinkPut n { vlink n c with run := some r } c
    if r.got = r.sounds then slacReport n r c else c

/-- R299, R300: the match of the run ends SLAC: a membership key is drawn from KC for it, and ATTEN is the report's mean. -/
def slacMatch (n : Nat) (groups : List Nat) (r : SlacRun) (c : Chip) : Chip :=
  let key := Config.memberKey c.lnk.draws
  let c := { c with lnk := { c.lnk with draws := c.lnk.draws + 1 } }
  let c := vlinkPut n { vlink n c with
    matchAt := c.backup.ms, frameAt := c.backup.ms, nmk := some key, run := none, sent := some (.slacMatch r.src r.id key) } c
  let c := setF Reg.LNK_VPEER_LO_MAC_LO n (r.src % 2 ^ 32) (setF Reg.LNK_VPEER_HI_MAC_HI n (r.src / 2 ^ 32) c)
  let mean := (2 * groups.foldl (· + ·) 0 + groups.length) / (2 * max 1 groups.length)
  setF Reg.LNK_VSTAT_STATE n 3 (setF Reg.LNK_VSTAT_ATTEN n (min 255 mean) c)

/-- R300: a SLAC message of the run that the link has answered, and of no other. -/
def slacOf (n src run : Nat) (f : SlacRun → Chip → Chip) (c : Chip) : Chip :=
  match (vlink n c).run with
  | none => c
  | some r => if vState n c = 2 ∧ r.src = src ∧ r.id = run then f r c else c

/-- R302: a session setup message: with no protocol in common the session does not start. -/
def hlcSetup (n : Nat) (offered : List (Fin 4)) (tls pnc : Bool) (c : Chip) : Chip :=
  match protoChoose n offered tls c with
  | none => c
  | some k =>
    if vState n c ≠ 3 then c
    else
      let pnc := pnc && cardU8 0x0050 0 1 1 c == 1 && tls && k != 1
      let c := vlinkPut n { vlink n c with sent := some (.protocolChosen k) } c
      setF Reg.LNK_VSTAT_STATE n 4 (setF Reg.LNK_VSTAT_PROTO n k (setF Reg.LNK_VSTAT_TLS n tls.toNat
        (setF Reg.LNK_VSTAT_PNC n pnc.toNat (hlcPut n { (bayGet n c).hlc with up := true } c))))

/-- R113: firmware takes the oldest decoded frame of the link. -/
def frameTaken (n : Nat) (c : Chip) : Chip :=
  match (vlink n c).rxq with
  | [] => c
  | _ :: q => vlinkPut n { vlink n c with rxq := q } c

/-- R299-R303: what a message of the vehicle does. -/
def hlcDo (n : Nat) (m : HlcMsg) (c : Chip) : Chip :=
  let h := (bayGet n c).hlc
  let st := vState n c
  match m with
  | .slacStart run src sounds =>
    slacOf n src.toNat run.toNat (fun r c => vlinkPut n { vlink n c with
      run := some { src := r.src, id := r.id, sounds := sounds.toNat } } c) c
  | .slacSound run src groups => slacOf n src.toNat run.toNat (slacSound n (groups.toList.map (·.toNat))) c
  | .slacSoundsEnd => match (vlink n c).run with
    | some r => if st = 2 then slacReport n r c else c
    | none => c
  | .slacValidate src => vlinkPut n { vlink n c with sent := some (.validateUnsupported src.toNat) } c
  | .slacMatch run mac => slacOf n mac.toNat run.toNat (fun r c => match r.report with
    | some groups => slacMatch n groups r c
    | none => c) c
  | .netJoin mac =>
    if matchedPeer n mac.toNat c then c else vlinkPut n { vlink n c with sent := some (.joinRefused mac.toNat) } c
  | .setup offered tls pnc => hlcSetup n offered tls pnc c
  | .contract => if st = 4 ∧ getF Reg.LNK_VSTAT_PNC n c = 1 then hlcPut n { h with contract := true } c else c
  | .target vp vm vr ir pr =>
    if st = 4 then
      hlcPut n { h with
        vPresent := vp.toNat, vMax := vm.toNat, vReq := vr.toNat, iReq := ir.toNat, pReq := pr.toNat } c
    else c
  | .power on => if st = 4 then hlcPut n { h with power := on } c else c
  | .bidirectional agreed reverse =>
    if st = 4 ∧ getF Reg.LNK_VSTAT_PROTO n c = 3 then hlcPut n { h with bidir := agreed, rev := reverse } c else c
  | .pause => if st = 4 then hlcPut n { h with pause := true } c else c
  | .wake => if st = 4 then hlcPut n { h with pause := false } c else c
  | .stop => if st = 4 then hlcPut n { h with stop := true } c else c
  | .stopped => if st = 4 then hlcPut n { h with stopDone := true } c else c
  | .tlsFail => hlcFail n (some Reg.LNK_VEVT_TLS_FAIL) c
  | .protoError => hlcFail n (some Reg.LNK_VEVT_PROTO_ERR) c
  | .certRequest msg => if st = 4 then certRequest n (Byte.nats msg) c else c

/-- R302, R303: a high-level communication message is processed by firmware. -/
def hlcMessage (n : Nat) (m : HlcMsg) (c : Chip) : Chip :=
  if !bayRuns n c ∨ !vlinksRun c ∨ !hlcLive n c then c else hlcDo n m (frameTaken n c)

/-- R302: no Declarer replies within the message's timeout: the request fails. -/
def certTimeout (id : Nat) (c : Chip) : Chip :=
  { c with lnk := { c.lnk with certs := c.lnk.certs.filter fun r => r.1 != id } }

/-! ### Transmit level, R297 -/

/-- R297, R330: a write to LNK_VATT[n].ATT (`k` 0-15) or LNK_CATT.ATT (`k` 16). -/
def attWrite (k v : Nat) (c : Chip) : Chip × Status :=
  if pendingGroup (64 + k) c then (c, .busy)
  else if 60 < v then (c, .range)
  else shadowWrite (64 + k) (if k < 16 then fkey Reg.LNK_VATT_ATT k else fkey Reg.LNK_CATT_ATT 0) v c

/-- R297: the HSL raises the commanded attenuation to at least TX_MAX of the link under trump class 4. -/
def attApply (k : Nat) (c : Chip) : Chip :=
  let v := if k < 16 then getF Reg.LNK_VATT_ATT k c else getF Reg.LNK_CATT_ATT 0 c
  let floor := trumpU8 (0x64 + k) c
  let c := if v < floor then trumpEvent 4 c else c
  if k < 16 then setF Reg.LNK_VATT_APPLIED k (max v floor) c else setF Reg.LNK_CATT_APPLIED 0 (max v floor) c

/-! ### Chain frames, R308-R310 -/

def chainId (c : Chip) : Nat := getF Reg.LNK_CSTAT_CHAIN_ID 0 c
def ownAddr (c : Chip) : Nat := getF Reg.LNK_CSTAT_ADDR 0 c

/-- The address a post sends under: the one it is leaving (R319), else its own. -/
def chainAddr (c : Chip) : Nat := c.lnk.chain.leave.getD (ownAddr c)

/-- R308: a frame is seen when its frame control passes and names this chain. -/
def fcSeen (fc : Nat) (c : Chip) : Bool :=
  fcField 80 16 fc == fcCrc fc && fcField 54 26 fc == 0 && fcField 0 8 fc == chainId c && fcField 8 4 fc ≤ 3

/-- R308: a frame is for this post if its DST is the post's address or the broadcast address. -/
def fcForMe (fc : Nat) (c : Chip) : Bool :=
  let dst := fcField 18 6 fc
  dst == 63 || (dst != 0 && dst == chainAddr c)

/-- R309, R310: the decrypted body of a received frame. -/
def rxBody (rx : ChainRx) (c : Chip) : List Nat :=
  match c.lnk.chain.key with
  | some k => (rxOpen k rx).getD []
  | none => []

/-- R310: the tag of a received frame passes. -/
def rxTagOk (rx : ChainRx) (c : Chip) : Bool :=
  match c.lnk.chain.key with
  | some k => (rxOpen k rx).isSome
  | none => false

/-- R309, R315: what a receiver does with a payload region. -/
inductive RxResult where
  | drop            -- not delivered
  | again           -- a repetition: acknowledged, not delivered
  | other           -- for another post
  | deliver
  deriving DecidableEq, Repr

/-- R309, R310: the checks on a received frame of TYPE `typ`, with their counts and flags. -/
def chainCheck (typ : Nat) (rx : ChainRx) (c : Chip) : Chip × RxResult :=
  let fc := rx.fc.toNat
  let ch := c.lnk.chain
  if !chainRuns c || role c == 0 || !fcSeen fc c || rxTyp rx != typ then (c, .drop)
  else if !rxLenOk rx || !rxCrcOk rx then (addSat Reg.LNK_CCNT_CRC 0 65535 1 c, .drop)
  else if !rxTagOk rx c then (chainFlag Reg.LNK_CEVT_AUTH_ERR c, .drop)
  else if !fcForMe fc c then (c, .other)
  else
    let last := (ch.peers.find? fun p => p.1 == rxIdent rx).map (·.2)
    let put := chainPut { ch with
      peers := (rxIdent rx, rxCtr rx) :: ch.peers.filter fun p => p.1 != rxIdent rx } c
    match last with
    | some k =>
      if rxCtr rx < k then (chainFlag Reg.LNK_CEVT_AUTH_ERR c, .drop)
      else if rxCtr rx = k then (c, .again) else (put, .deliver)
    | none => (put, .deliver)

/-- R297, R306: a frame is driven onto the line, symbol by symbol, at the level of each carrier. -/
def lineDrive (fc : Nat) (region : List Nat) (c : Chip) : Chip :=
  let mask := getF Reg.LNK_MASK_MASK_IDX 0 c
  let att := getF Reg.LNK_CATT_APPLIED 0 c
  chainPut { c.lnk.chain with
    line := frameSymbols fc region, level := (List.range chainCarriers).map fun x => chainLevel mask att (82 + x) } c

/-- R315: a unicast frame for this post is acknowledged in the ack position of its slot. -/
def chainAckSend (fc : Nat) (c : Chip) : Chip :=
  let dst := fcField 18 6 fc
  if fcField 8 4 fc ≠ 1 ∨ dst = 63 ∨ dst = 0 ∨ dst ≠ chainAddr c then c
  else
    let ack := fcMake (chainId c) 3 dst (fcField 12 6 fc) 0 0 0 0 (fcField 42 4 fc) (fcField 46 8 fc)
    lineDrive ack [] (chainPut { c.lnk.chain with acked := some ack } c)

/-- R314, R319: a frame from a roster post keeps its entry; MORE is that of its last frame. -/
def rosterSeen (rx : ChainRx) (c : Chip) : Chip :=
  if role c ≠ 5 then c
  else
    let ch := c.lnk.chain
    let fc := rx.fc.toNat
    chainPut { ch with roster := ch.roster.map fun e =>
      if e.addr = fcField 12 6 fc ∧ e.ident = rxIdent rx then
        { e with lastRx := c.backup.ms, more := fcField 41 1 fc == 1 } else e } c

/-- A received frame: decoded by the hand of its flow (R22, R113), checked, acknowledged, and given to `f` if it is to be
delivered. -/
def chainReceive (typ : Nat) (rx : ChainRx) (f : Chip → Chip) (c : Chip) : Chip :=
  let fc := rx.fc.toNat
  if !chainRuns c ∨ role c = 0 ∨ !fcSeen fc c then c
  else
    let c := linkWork (16 + fcField 42 4 fc) 1 rx.lclk.val [] c
    let r := chainCheck typ rx c
    match r.2 with
    | .drop => r.1
    | .other => rosterSeen rx r.1
    | .again => rosterSeen rx (chainAckSend fc r.1)
    | .deliver => f (rosterSeen rx (chainAckSend fc r.1))

/-- R309: CTR rises by one for every new frame; its reserve in the eMMC stays ahead of it. -/
def nextCtr (c : Chip) : Chip :=
  let n := c.backup.chainCtr + 1
  { c with backup := { c.backup with chainCtr := n }
           emmc := { c.emmc with chainReserve := if c.emmc.chainReserve ≤ n then n + 65536 else c.emmc.chainReserve } }

/-- R308: whether the post has further frames queued. -/
def moreQueued (c : Chip) : Bool :=
  (c.lnk.chain.flows.toList.any fun x => match x with
    | some x => x.opening || x.closing || !x.txq.isEmpty
    | none => false) || c.hst.sess.toList.any fun x => x.relay.isSome && !x.tx.isEmpty

/-- A frame is sent, its transmit preparation being class 2 work of its flow's hand (R22, R111). A coordinator's own MORE counts as
that of any post (R314). -/
def frameSend (f : ChainTx) (c : Chip) : Chip :=
  let c := lineDrive f.fc f.region (linkWork (16 + fcField 42 4 f.fc) 2 0 [] c)
  let ch := c.lnk.chain
  let own := fun (e : RosterEntry) => if e.addr = ownAddr c then { e with more := fcField 41 1 f.fc == 1 } else e
  chainPut { ch with sent := some f, roster := if role c = 5 then ch.roster.map own else ch.roster } c

/-- R308, R309: a new frame is sent, with what its body carries. Without its key the chain cipher unit builds no frame (R310,
R446). -/
def chainSend (kind dst flow seq typ : Nat) (body fields : List Nat) (c : Chip) : Chip :=
  match c.lnk.chain.key with
  | none => chainPut { c.lnk.chain with sent := none } c
  | some key =>
    let c := nextCtr c
    let nsym := match kind with
      | 0 => 24
      | 2 => 12
      | _ => getF Reg.LNK_CCFG_SLOT_SYM 0 c - 12
    let mode := if kind = 1 then getF Reg.LNK_CCFG_MODE 0 c else 3
    let intlv := if kind = 1 then getF Reg.LNK_CCFG_INTLV_SYM 0 c else 12
    let src := if kind = 2 then 0 else chainAddr c
    let fc := fcMake (chainId c) kind src dst nsym mode intlv (moreQueued c).toNat flow seq
    let ctr := c.backup.chainCtr
    let region := chainRegion key fc ctr typ (deviceId c) body
    frameSend { fc := fc, ctr := ctr, typ := typ, body := body, fields := fields, region := region } c

/-! ### Flows of relayed connections, R326 -/

def putFlow (f : Nat) (x : Option FlowState) (c : Chip) : Chip :=
  let ch := c.lnk.chain
  chainPut { ch with flows := ch.flows.setIfInBounds f x } c

/-- R326: a relayed connection closes at this end. -/
def relayEnd (f : Nat) (c : Chip) : Chip := relaySessionClose f (putFlow f none c)

/-! ### Roles, R316-R319 -/

/-- The role changes; its times run from now. CHAIN_OUT is high while an address of the coordinator is held (R318). -/
def setRole (r : Nat) (c : Chip) : Chip :=
  let out := (r == 4 || r == 5) && getF Reg.LNK_CCFG_POSITION 0 c != 0 && ownAddr c != 0
  setF Reg.LNK_CSTAT_ROLE 0 r (setF Reg.LNK_CSTAT_CHAIN_OUT 0 out.toNat
    (chainPut { c.lnk.chain with since := c.backup.ms } c))

/-- R322: SHARE_FLOOR of the trump card, and the post's allocation taking effect at the HSL. -/
def shareFloor (c : Chip) : Nat := trumpU16 0x9A c

/-- R281, R322: the applied allocation reaches the protection unit as the feeder's limit. -/
def applyAlloc (v src : Nat) (c : Chip) : Chip :=
  let c := setF Reg.LNK_CALLOC_APPLIED 0 v (setF Reg.LNK_CBUDGET_SRC 0 src c)
  if protConfigured 16 c then limitPass 16 (min v (getF Reg.PRT_FDR_FEED_A 0 c)) c else c

/-- R322: the post falls to its floor. -/
def fallToFloor (c : Chip) : Chip :=
  applyAlloc (shareFloor c) 1 (setF Reg.LNK_CALLOC_RECEIVED 0 (shareFloor c)
    (chainPut { c.lnk.chain with pending := none } c))

/-- R317, R318: what a join request carries. -/
def joinFields (c : Chip) : List Nat :=
  [deviceId c, ownAddr c, getF Reg.LNK_CCFG_PRIORITY 0 c, shareFloor c, getF Reg.PRT_FDR_FEED_A 0 c,
    getF Reg.LNK_CBUDGET_BUDGET 0 c, c.lnk.chain.noPos.toNat]

/-- R317: a join request is sent in the next join window. -/
def sendJoin (c : Chip) : Chip :=
  let ch := c.lnk.chain
  chainSend 2 63 0 0 2 (Byte.nats (Config.joinBody (joinFields c))) (joinFields c)
    (chainPut { ch with joinAt := some c.backup.ms, joinN := ch.joinN + 1, refused := false } c)

/-- R317, R318: a post that hears its coordinator joins it, or waits for CHAIN_IN. -/
def startJoin (c : Chip) : Chip :=
  if ownAddr c = 0 ∧ getF Reg.LNK_CCFG_POSITION 0 c = 2 ∧ getF Reg.LNK_CSTAT_CHAIN_IN 0 c = 0 then setRole 6 c
  else sendJoin (setRole 3 c)

/-- R315: a frame unacknowledged after 3 repetitions is dropped; a relayed connection on its flow closes (R326). -/
def chainDrop (w : TxWait) (c : Chip) : Chip :=
  let ch := c.lnk.chain
  let c := chainPut { ch with wait := ch.wait.filter (· != w) } c
  let c := if 2 ≤ w.flow then relayEnd w.flow c else c
  addSat Reg.LNK_CCNT_DROP 0 255 1 (chainFlag Reg.LNK_CEVT_DROP c)

/-- The post is off the chain in role `r`. A leave frame that it has not seen acknowledged is dropped, as it has no slot left for
its repetition; other frames keep theirs for its next own slots (R315; DESIGN CHOICE, log 69). -/
def offChain (r : Nat) (c : Chip) : Chip :=
  let c := (c.lnk.chain.wait.filter fun w => w.frame.typ == 7).foldl (fun c w => chainDrop w c) c
  setF Reg.LNK_CSTAT_COORD 0 0 (setRole r (chainPut { c.lnk.chain with
    roster := [], leave := none, leaveSent := false, joinAt := none, refused := false, answer := none, slots := [] } c))

/-- R316: listening starts. -/
def startListen (c : Chip) : Chip := offChain 1 c

/-- R319: the leave frame is acknowledged or given up: the post joins again. -/
def leaveCheck (c : Chip) : Chip :=
  let ch := c.lnk.chain
  if ch.leaveSent && !ch.wait.any fun w => w.frame.typ == 7 then startListen c else c

/-! ### Self-test, R298 -/

/-- R298: LNK_TEST.GO starts the self-test, or is refused while a link is in use or a test runs. -/
def lnkTestWrite (go : Bool) (c : Chip) : Chip × Status :=
  if !go then (c, .ok)
  else if getF Reg.LNK_TEST_RUNNING 0 c = 1 ∨ ((List.range 16).any fun n => 2 ≤ vState n c && vState n c ≤ 4) then
    (c, .busy)
  else (setF Reg.LNK_TEST_RUNNING 0 1 c, .ok)

def lnkTest (who : Writer) (go : Bool) (c : Chip) : Chip :=
  match writerStatus who c with
  | .ok => let r := lnkTestWrite go c; { r.1 with reply := r.2 }
  | e => { c with reply := e }

/-- R298, R303: a vehicle link after the self-test: one that failed makes high-level communication fail at once. -/
def vehicleTested (pass : Bool) (n : Nat) (c : Chip) : Chip :=
  if getF Reg.BAY_CFG_TYPE n c = 0 then c
  else if pass then (if vState n c = 0 then setF Reg.LNK_VSTAT_STATE n 1 c else c)
  else if hlcWanted n c then hlcFail n none c
  else setF Reg.LNK_VSTAT_STATE n 0 c

/-- R298, R316: the chain link after the self-test: it starts once its path passes. One that failed is silent: the post is off
the chain at its floor (DESIGN CHOICE, log 69). -/
def chainTested (pass : Bool) (c : Chip) : Chip :=
  if !chainOn c then c
  else if pass then (if role c = 0 then startListen c else c)
  else if role c = 0 then c else offChain 0 (fallToFloor c)

/-- R298: the self-test ends. -/
def lnkTestDone (pass : BitVec 17) (c : Chip) : Chip :=
  if getF Reg.LNK_TEST_RUNNING 0 c = 0 then c
  else
    let c := setF Reg.LNK_TEST_RUNNING 0 0 (setF Reg.LNK_TEST_PASS 0 pass.toNat
      (setF Reg.LNK_STAT_FAILED 0 (~~~pass).toNat c))
    chainTested (pass.getLsbD 16) ((List.range 16).foldl (fun c n => vehicleTested (pass.getLsbD n) n c) c)

/-! ### Listening and election, R316 -/

/-- R316: tLISTEN, 400 ms, ends without a beacon. -/
def listenTimeout (c : Chip) : Chip :=
  if chainRuns c ∧ role c = 1 ∧ c.lnk.chain.since + 400 ≤ c.backup.ms then setRole 2 c else c

/-- The entry of this post at a coordinator. -/
def ownEntry (held : Nat) (c : Chip) : RosterEntry :=
  { addr := ownAddr c, ident := deviceId c, floor := shareFloor c, feedA := getF Reg.PRT_FDR_FEED_A 0 c
    alloc := held, held := held, lastRx := c.backup.ms }

/-- The lowest free address of 1-62, the one persisted if it is set and free, or the highest where asked. -/
def freeAddr (want : Nat) (highest : Bool) (r : List RosterEntry) : Nat :=
  let used := fun (a : Nat) => r.any fun e => e.addr == a
  if 1 ≤ want ∧ want ≤ 62 ∧ !used want then want
  else
    let l := ((List.range 62).map (· + 1)).filter fun a => !used a
    if highest then l.getLastD 0 else l.headD 0

/-- R321: the allocation of an address in the last beacon heard, or the floor. -/
def heardAlloc (a floor : Nat) (c : Chip) : Nat :=
  match c.lnk.chain.heard.find? fun p => p.1 == a with
  | some p => p.2
  | none => floor

/-- The roster registers of a coordinator. -/
def showRoster (c : Chip) : Chip :=
  let r := c.lnk.chain.roster
  let c := (List.range 62).foldl (fun c k =>
    match r.find? fun e => e.addr == k + 1 with
    | some e => setF Reg.LNK_CROSTER_PRESENT k 1 (setF Reg.LNK_CROSTER_HELD k (e.held % 2 ^ 15)
        (setF Reg.LNK_CROSTER_ALLOC k e.alloc c))
    | none => setF Reg.LNK_CROSTER_PRESENT k 0 (setF Reg.LNK_CROSTER_HELD k 0 (setF Reg.LNK_CROSTER_ALLOC k 0 c))) c
  setF Reg.LNK_CBUDGET_POSTS 0 r.length c

/-- R316: the election wait ends without a beacon; the post becomes coordinator. -/
def electTimeout (c : Chip) : Chip :=
  let ch := c.lnk.chain
  let wait := (255 - getF Reg.LNK_CCFG_PRIORITY 0 c) * 16 + deviceId c % 16
  if !chainRuns c ∨ ch.key.isNone ∨ role c ≠ 2 ∨ 4 * (c.backup.ms - ch.since) < wait then c
  else
    let a := if ownAddr c = 0 then 1 else ownAddr c
    let c := setF Reg.LNK_CSTAT_ADDR 0 a c
    let held := heardAlloc a (shareFloor c) c
    let c := chainPut { c.lnk.chain with
      roster := [ownEntry held c], coordId := deviceId c, answer := none, joinAt := none } c
    let c := setF Reg.LNK_CSTAT_COORD 0 a (setRole 5 c)
    showRoster (addSat Reg.LNK_CLIFE_ELECT 0 65535 1 (chainFlag Reg.LNK_CEVT_ELECTED c))

/-! ### Beacons, R312-R314 -/

/-- R312: NSLOT. -/
def nSlot (c : Chip) : Nat := 813 / max 1 (getF Reg.LNK_CCFG_SLOT_SYM 0 c)

def insertEntry (e : RosterEntry) : List RosterEntry → List RosterEntry
  | [] => [e]
  | x :: xs => if e.addr < x.addr then e :: x :: xs else x :: insertEntry e xs

/-- R314: the owners of a period's slots: the roster in rotation, then posts that set MORE, the rest unassigned. -/
def slotOwners (n rot : Nat) (r : List RosterEntry) : List Nat :=
  let k := r.length
  let turn := fun (l : List RosterEntry) (j : Nat) => match l[j % max l.length 1]? with
    | some e => e.addr
    | none => 0
  if n ≤ k then (List.range n).map fun j => turn r (rot + j)
  else
    let m := r.filter (·.more)
    (List.range k).map (fun j => turn r j) ++ (List.range (n - k)).map fun j => if m.isEmpty then 0 else turn m (rot + j)

/-- R313: the 232 bytes of a beacon. -/
def beaconBody (c : Chip) : List Nat :=
  let ch := c.lnk.chain
  let r := ch.roster
  let pad := fun (n : Nat) (l : List Nat) => l ++ List.replicate (n - l.length) 0
  let ans := ch.answer.getD (0, 0, 0)
  let allocs := (List.range 62).flatMap fun k => match r.find? fun e => e.addr == k + 1 with
    | some e => Byte.le 2 e.alloc
    | none => [0xFF, 0xFF]
  let entries := (List.range 4).flatMap fun j =>
    if r.length ≤ j then List.replicate 10 0
    else match r[(ch.rotEntry + j) % r.length]? with
      | some e => [e.addr, 0] ++ Byte.le 8 e.ident
      | none => List.replicate 10 0
  Byte.le 8 (deviceId c) ++ Byte.le 4 ch.beaconNo ++ Byte.le 2 (getF Reg.LNK_CBUDGET_BUDGET 0 c) ++
  [getF Reg.LNK_CCFG_SLOT_SYM 0 c, getF Reg.LNK_CCFG_MODE 0 c, getF Reg.LNK_CCFG_INTLV_SYM 0 c,
    getF Reg.LNK_CCFG_PRIORITY 0 c, r.length, nSlot c] ++
  Byte.le 8 ans.1 ++ [ans.2.1, ans.2.2] ++ pad 33 ch.slots ++ [0] ++ Byte.le 2 (ch.round % 65536) ++ [0, 0] ++
  allocs ++ entries

/-- R312, R322: the coordinator starts a beacon period; it takes its own allocation at the same instant. -/
def beaconStart (c : Chip) : Chip :=
  if !chainRuns c ∨ role c ≠ 5 ∨ c.backup.ms % 40 ≠ 0 then c
  else
    let ch := c.lnk.chain
    let c := chainPut { ch with slots := slotOwners (nSlot c) ch.rot ch.roster } c
    let c := chainSend 0 63 0 0 1 (beaconBody c) [] c
    let ch := c.lnk.chain
    let own := (ch.roster.find? fun e => e.addr == ownAddr c).map (·.alloc)
    let c := chainPut { ch with
      beaconNo := (ch.beaconNo + 1) % 2 ^ 32, answer := none, rot := ch.rot + nSlot c, rotEntry := ch.rotEntry + 4
      pending := match own with | some v => some v | none => ch.pending, rxRound := ch.round % 65536 } c
    match own with
    | some v => setF Reg.LNK_CALLOC_RECEIVED 0 v c
    | none => c

/-- R316: whether a post of a priority and an identity ranks above another. -/
def ranksAbove (p i q j : Nat) : Bool := q < p || (p == q && j < i)

/-- R327: whether a beacon's MODE, INTLV_SYM and SLOT_SYM are the deck's. -/
def sameParams (b : List Nat) (c : Chip) : Bool :=
  Byte.u8 b 0xE == getF Reg.LNK_CCFG_SLOT_SYM 0 c && Byte.u8 b 0xF == getF Reg.LNK_CCFG_MODE 0 c &&
    Byte.u8 b 0x10 == getF Reg.LNK_CCFG_INTLV_SYM 0 c

/-- What every hearer of a beacon keeps of it. -/
def beaconNote (b : List Nat) (src : Nat) (c : Chip) : Chip :=
  let allocs := (List.range 62).filterMap fun k =>
    let v := Byte.u16 b (0x44 + 2 * k)
    if v = 0xFFFF then none else some (k + 1, v)
  let c := chainPut { c.lnk.chain with
    lastBeacon := c.backup.ms, heard := allocs, coordId := Byte.u64 b 0, coordRank := Byte.u8 b 0x11
    slots := (List.range 33).map fun j => Byte.u8 b (0x1E + j) } c
  let c := if Byte.u16 b 0xC = getF Reg.LNK_CBUDGET_BUDGET 0 c then c else chainFlag Reg.LNK_CEVT_BUDGET_MISM c
  let c := setF Reg.LNK_CSTAT_COORD 0 src (setF Reg.LNK_CBUDGET_POSTS 0 (Byte.u8 b 0x12 % 64) c)
  (List.range 62).foldl (fun c k =>
    let v := Byte.u16 b (0x44 + 2 * k)
    setF Reg.LNK_CROSTER_PRESENT k (decide (v ≠ 0xFFFF)).toNat (setF Reg.LNK_CROSTER_HELD k 0
      (setF Reg.LNK_CROSTER_ALLOC k (if v = 0xFFFF then 0 else v) c))) c

/-- R3, R313, R317: the answer to this post's join request, if the beacon carries it; an address other than 1-62 is none. -/
def joinAnswer (b : List Nat) (c : Chip) : Chip :=
  let ch := c.lnk.chain
  if role c ≠ 3 ∨ Byte.u64 b 0x14 ≠ deviceId c ∨ ch.joinAt.isNone then c
  else
    let a := Byte.u8 b 0x1C
    let res := Byte.u8 b 0x1D
    if (res = 0 ∨ res = 3) ∧ 1 ≤ a ∧ a ≤ 62 then
      let c := setF Reg.LNK_CSTAT_ADDR 0 a c
      let c := if res = 3 then chainFlag Reg.LNK_CEVT_ADDR_MOVED c else c
      let c := setF Reg.LNK_CSTAT_POS_UNKNOWN 0 ch.noPos.toNat c
      setRole 4 (chainPut { ch with joinAt := none, refused := false, noPos := false } c)
    else if res = 1 ∨ res = 2 then
      fallToFloor (chainFlag Reg.LNK_CEVT_JOIN_REF (chainPut { ch with refused := true } c))
    else c

/-- R322: a member takes the allocation of its own address. -/
def takeAlloc (b : List Nat) (c : Chip) : Chip :=
  let v := Byte.u16 b (0x44 + 2 * (ownAddr c - 1))
  if role c ≠ 4 ∨ ownAddr c = 0 ∨ v = 0xFFFF then c
  else setF Reg.LNK_CALLOC_RECEIVED 0 v
    (chainPut { c.lnk.chain with pending := some v, rxRound := Byte.u16 b 0x40 } c)

/-- R316-R319, R322, R327: a valid beacon at a post that is not its coordinator. -/
def beaconMember (b : List Nat) (src old : Nat) (c : Chip) : Chip :=
  let c := beaconNote b src c
  if !sameParams b c then chainFlag Reg.LNK_CEVT_JOIN_REF (if role c = 3 then c else setRole 3 c)
  else
    let r := role c
    if r = 1 ∨ r = 2 then startJoin c
    else if r = 4 ∧ old ≠ Byte.u64 b 0 then startJoin c
    else if c.lnk.chain.leaveSent ∧ Byte.u16 b (0x44 + 2 * (chainAddr c - 1)) = 0xFFFF then startListen c
    else takeAlloc b (joinAnswer b c)

/-- R316, R322: a valid beacon is received; a coordinator yields to a higher rank only. -/
def beaconTake (b : List Nat) (src : Nat) (c : Chip) : Chip :=
  if b.length ≠ 232 then c
  else
    let old := c.lnk.chain.coordId
    if role c = 5 then
      if ranksAbove (Byte.u8 b 0x11) (Byte.u64 b 0) (getF Reg.LNK_CCFG_PRIORITY 0 c) (deviceId c) then
        let c := chainFlag Reg.LNK_CEVT_YIELD (setRole 1 (chainPut { c.lnk.chain with roster := [], answer := none } c))
        beaconMember b src old c
      else c
    else beaconMember b src old c

def beaconReceived (rx : ChainRx) (c : Chip) : Chip :=
  chainReceive 1 rx (fun c =>
    if fcField 8 4 rx.fc.toNat = 0 then beaconTake (rxBody rx c) (fcField 12 6 rx.fc.toNat) c else c) c

/-- R319: no valid beacon for tCHLOSS, 200 ms: the post falls to its floor and listens again. -/
def beaconLoss (c : Chip) : Chip :=
  let r := role c
  if chainRuns c ∧ (r = 3 ∨ r = 4 ∨ r = 6) ∧ c.lnk.chain.lastBeacon + 200 ≤ c.backup.ms then
    startListen (fallToFloor (addSat Reg.LNK_CLIFE_LOSS 0 65535 1 (chainFlag Reg.LNK_CEVT_BEACON_LOSS c)))
  else c

/-! ### Slots and acks, R314, R315 -/

/-- R320: DEMAND of this post, capped at FEED_A. -/
def postDemand (c : Chip) : Nat :=
  min (getF Reg.PRT_FDR_FEED_A 0 c)
    ((List.range 16).foldl (fun a n => if counted n c then a + bayWant n c else a) 0)

/-- R320: what this post's budget report carries. -/
def reportFields (c : Chip) : List Nat :=
  [postDemand c, shareFloor c, getF Reg.PRT_FDR_FEED_A 0 c, getF Reg.PRT_OC_IPK 16 c, c.lnk.chain.rxRound]

/-- A frame of a flow is sent and waits for its ack. -/
def sendFlow (flow dst typ : Nat) (body fields : List Nat) (c : Chip) : Chip :=
  let seq := c.lnk.chain.seqs[flow]?.getD 0
  let c := chainSend 1 dst flow seq typ body fields c
  let ch := c.lnk.chain
  match ch.sent with
  | none => c
  | some f => chainPut { ch with
      seqs := ch.seqs.setIfInBounds flow ((seq + 1) % 256), wait := ch.wait ++ [{ flow := flow, seq := seq, frame := f }] } c

/-- Whether a flow has no frame outstanding. -/
def flowFree (f : Nat) (c : Chip) : Bool := !c.lnk.chain.wait.any fun w => w.flow == f

/-- R314: the next relay flow with something to send, in rotation. -/
def nextFlow (c : Chip) : Option Nat :=
  let ch := c.lnk.chain
  ((List.range 14).map fun j => 2 + (ch.rotFlow + j) % 14).find? fun f =>
    match ch.flows[f]?.getD none with
    | some x => flowFree f c && (x.opening || x.closing || !x.txq.isEmpty)
    | none => false

/-- R309: the longest body that a slot's frame holds. -/
def bodyRoom (c : Chip) : Nat := regionBytes (getF Reg.LNK_CCFG_SLOT_SYM 0 c - 12) (getF Reg.LNK_CCFG_MODE 0 c) - 0x1C

/-- R326: one frame of a relay flow: its open, the next bytes as far as a frame holds them, or its close. -/
def sendRelay (f : Nat) (x : FlowState) (c : Chip) : Chip :=
  let put := fun (y : Option FlowState) =>
    let ch := c.lnk.chain
    chainPut { ch with flows := ch.flows.setIfInBounds f y, rotFlow := f - 1 } c
  if x.opening then sendFlow f x.peer 5 [] [] (put (some { x with opening := false }))
  else match x.txq with
    | d :: rest =>
      let left := d.drop (bodyRoom c)
      let q := if left.isEmpty then rest else left :: rest
      sendFlow f x.peer 4 (d.take (bodyRoom c)) [] (put (some { x with txq := q }))
    | [] => if x.closing then sendFlow f x.peer 6 [] [] (put none) else c

/-- R326: the frames of relayed sessions go to their flows. DESIGN CHOICE (log 67): a frame goes as R457 lays it out; the AES-GCM
framing of R455 over it is not computed. -/
def flowsFill (c : Chip) : Chip :=
  (List.range 4).foldl (fun c s =>
    let x := sess s c
    match x.relay with
    | none => c
    | some f => match c.lnk.chain.flows[f]?.getD none with
      | some y => sessPut s { x with tx := [] } (putFlow f (some { y with txq := y.txq ++ x.tx }) c)
      | none => c) c

/-- R314: a new frame in an own slot: a budget report if one is due, or relay data. -/
def slotNew (c : Chip) : Chip :=
  let c := flowsFill c
  let ch := c.lnk.chain
  if role c = 4 ∧ flowFree 1 c ∧ ch.lastRep + 100 ≤ c.backup.ms then
    let c := chainPut { ch with lastRep := c.backup.ms } c
    sendFlow 1 (getF Reg.LNK_CSTAT_COORD 0 c) 3 (Byte.nats (Config.reportBody (reportFields c))) (reportFields c) c
  else match nextFlow c with
    | some f => match ch.flows[f]?.getD none with
      | some x => sendRelay f x c
      | none => c
    | none => c

/-- R315: the frames whose 3 repetitions have gone unacknowledged are dropped. -/
def slotDrops (c : Chip) : Chip :=
  (c.lnk.chain.wait.filter fun w => decide (3 ≤ w.reps)).foldl (fun c w => chainDrop w c) c

/-- R314, R315, R319: in its own slot a post sends at most one frame: its leave frame, a repetition, or a new one. -/
def chainSlot (c : Chip) : Chip :=
  let me := chainAddr c
  if !chainRuns c ∨ !c.lnk.chain.slots.contains me ∨ me = 0 ∨ (role c ≠ 4 ∧ role c ≠ 5) then c
  else
    let c := leaveCheck (slotDrops c)
    let ch := c.lnk.chain
    if role c ≠ 4 ∧ role c ≠ 5 then c
    else if ch.leave.isSome ∧ !ch.leaveSent ∧ flowFree 1 c then
      sendFlow 1 (getF Reg.LNK_CSTAT_COORD 0 c) 7 [] [] (chainPut { ch with leaveSent := true } c)
    else match ch.wait with
      | w :: rest =>
        let c := frameSend w.frame (chainPut { ch with wait := rest ++ [{ w with reps := w.reps + 1 }] } c)
        addSat Reg.LNK_CCNT_RETRY 0 255 1 c
      | [] => if ch.leave.isSome then c else slotNew c

/-- R315: a valid ack of a frame sent. -/
def chainAck (fc : Nat) (c : Chip) : Chip :=
  if !chainRuns c ∨ !fcSeen fc c ∨ fcField 8 4 fc ≠ 3 ∨ fcField 18 6 fc ≠ chainAddr c then c
  else
    let ch := c.lnk.chain
    leaveCheck (chainPut { ch with
      wait := ch.wait.filter fun w => !(w.flow == fcField 42 4 fc && w.seq == fcField 46 8 fc) } c)

/-! ### Join at the coordinator, R317, R319 -/

/-- R317: the coordinator's decision on a join request: the address and the result. -/
def joinDecide (ident : Nat) (i : JoinInfo) (c : Chip) : Nat × Nat :=
  let r := c.lnk.chain.roster.filter fun e => e.ident != ident
  let floors := r.foldl (fun a e => a + e.floor) i.floor
  if 62 ≤ r.length then (0, 1)
  else if getF Reg.LNK_CBUDGET_BUDGET 0 c < floors then (0, 2)
  else
    let a := freeAddr i.addr i.noPos r
    (a, if 1 ≤ i.addr ∧ i.addr ≤ 62 ∧ a ≠ i.addr then 3 else 0)

/-- R317: a join request is answered in the next beacon, at most one per period. -/
def joinTake (ident : Nat) (i : JoinInfo) (c : Chip) : Chip :=
  let ch := c.lnk.chain
  if role c ≠ 5 ∨ ch.answer.isSome then c
  else
    let d := joinDecide ident i c
    let c := chainPut { ch with answer := some (ident, d.1, d.2) } c
    if d.1 = 0 then c
    else
      let held := heardAlloc d.1 i.floor c
      let e : RosterEntry := {
        addr := d.1, ident := ident, floor := i.floor, feedA := i.feedA, alloc := held, held := held
        lastRx := c.backup.ms }
      let ch := c.lnk.chain
      showRoster (chainPut { ch with roster := insertEntry e (ch.roster.filter fun x => x.ident != ident) } c)

def joinRequest (rx : ChainRx) (i : JoinInfo) (c : Chip) : Chip :=
  chainReceive 2 rx (fun c => if fcField 8 4 rx.fc.toNat = 2 then joinTake (rxIdent rx) i c else c) c

/-- A roster entry is changed where its address is given. -/
def mapEntry (a : Nat) (f : RosterEntry → RosterEntry) (c : Chip) : Chip :=
  let ch := c.lnk.chain
  chainPut { ch with roster := ch.roster.map fun e => if e.addr = a then f e else e } c

/-- R321: a round number is at least another, both modulo 65,536. -/
def roundReached (a b : Nat) : Bool := (a + 65536 - b % 65536) % 65536 < 32768

/-- R320, R321: a budget report; one that confirms a lowered allocation releases held. -/
def reportTake (i : ReportInfo) (e : RosterEntry) : RosterEntry :=
  let e := { e with demand := i.demand, floor := i.floor, feedA := i.feedA, ifeed := i.ifeed, round := i.round.toNat }
  match e.low with
  | some (r, _) =>
    if roundReached e.round r && decide (e.ifeed ≤ e.alloc) then { e with held := e.alloc, low := none } else e
  | none => e

def budgetReport (rx : ChainRx) (i : ReportInfo) (c : Chip) : Chip :=
  chainReceive 3 rx (fun c =>
    if role c = 5 then
      showRoster (mapEntry (fcField 12 6 rx.fc.toNat) (fun e => if e.ident = rxIdent rx then reportTake i e else e) c)
    else c) c

/-- R319: a leave frame frees the address at once. -/
def chainLeave (rx : ChainRx) (c : Chip) : Chip :=
  chainReceive 7 rx (fun c =>
    if role c = 5 then
      let ch := c.lnk.chain
      showRoster (chainPut { ch with
        roster := ch.roster.filter fun e => !(e.addr == fcField 12 6 rx.fc.toNat && e.ident == rxIdent rx) } c)
    else c) c

/-- R319: a roster entry with no frame for 60 s is freed. -/
def rosterExpiry (a : Nat) (c : Chip) : Chip :=
  let ch := c.lnk.chain
  if role c ≠ 5 ∨ a = ownAddr c then c
  else showRoster (chainPut { ch with
    roster := ch.roster.filter fun e => !(e.addr == a && decide (e.lastRx + 60000 ≤ c.backup.ms)) } c)

/-- R317: a post whose request was not answered repeats it after a random wait of 1-8 periods, a refused one after 10 s.
The wait is free (`Config.joinWait`). -/
def joinRetry (c : Chip) : Chip :=
  let ch := c.lnk.chain
  match ch.joinAt with
  | none => c
  | some t =>
    let wait := if ch.refused then 10000 else 40 * ((Config.joinWait ch.joinN).toNat + 1)
    if chainRuns c ∧ role c = 3 ∧ t + wait ≤ c.backup.ms then sendJoin c else c

/-- R318: CHAIN_IN is recognised at a new level. -/
def chainInChange (level : Bool) (c : Chip) : Chip :=
  if c.pwr.phase ≠ .run then c
  else
    let c := setF Reg.LNK_CSTAT_CHAIN_IN 0 level.toNat c
    if level ∧ role c = 6 ∧ chainRuns c then sendJoin (setRole 3 c) else c

/-- R318: tCHWAIT, 30 s, ends: the post joins without its position. -/
def chainWaitTimeout (c : Chip) : Chip :=
  if chainRuns c ∧ role c = 6 ∧ c.lnk.chain.since + 30000 ≤ c.backup.ms then
    sendJoin (setRole 3 (chainPut { c.lnk.chain with noPos := true } c))
  else c

/-! ### The budget round, R321 -/

/-- A post in a round: address, floor, target, want, held and the new allocation. -/
structure RoundPost where
  addr   : Nat
  target : Nat
  want   : Nat
  held   : Nat
  new    : Nat := 0
  deriving DecidableEq, Repr

/-- One pass over the roster: each post with a want gets at most the share. -/
def roundPass (share : Nat) : Nat → List RoundPost → Nat × List RoundPost
  | avail, [] => (avail, [])
  | avail, p :: ps =>
    let g := if 0 < p.want then min share (min p.want avail) else 0
    let r := roundPass share (avail - g) ps
    (r.1, { p with target := p.target + g, want := p.want - g } :: r.2)

/-- Passes until nothing is available or wanted. -/
def roundTargets : Nat → Nat → List RoundPost → List RoundPost
  | 0, _, ps => ps
  | fuel + 1, avail, ps =>
    let n := (ps.filter fun p => decide (0 < p.want)).length
    if avail = 0 ∨ n = 0 then ps
    else
      let r := roundPass (max 1 (avail / n)) avail ps
      roundTargets fuel r.1 r.2

/-- Raises within the room, in ascending address; the room may be negative. -/
def roundRaise : Int → List RoundPost → List RoundPost
  | _, [] => []
  | room, p :: ps =>
    let g := (max 0 (min ((p.target : Int) - p.new) room)).toNat
    let new := p.new + g
    { p with new := new, held := max p.held new } :: roundRaise (room - g) ps

/-- R321: the round's allocations and held values. -/
def roundRun (budget : Nat) (posts : List RosterEntry) : List RoundPost :=
  let floors := posts.foldl (fun a e => a + e.floor) 0
  let ps := posts.map fun e => ({ addr := e.addr, target := e.floor, want := e.demand - e.floor, held := e.held } : RoundPost)
  let ps := roundTargets (budget + 1) (budget - floors) ps
  let ps := ps.map fun p => { p with new := min p.target p.held }
  let room : Int := (budget : Int) - ((posts.foldl (fun a e => a + e.held) 0 : Nat) : Int)
  roundRaise room ps

/-- R320, R321: every 100 ms the coordinator takes its own report and runs one round. -/
def budgetRound (c : Chip) : Chip :=
  if !chainRuns c ∨ role c ≠ 5 ∨ c.backup.ms % 100 ≠ 0 then c
  else
    let ch := c.lnk.chain
    let own : ReportInfo := {
      demand := postDemand c, floor := shareFloor c, feedA := getF Reg.PRT_FDR_FEED_A 0 c
      ifeed := getF Reg.PRT_OC_IPK 16 c, round := BitVec.ofNat 16 ch.rxRound }
    let c := mapEntry (ownAddr c) (fun e => reportTake own { e with lastRx := c.backup.ms }) c
    let ch := c.lnk.chain
    let n := ch.round + 1
    let ps := roundRun (getF Reg.LNK_CBUDGET_BUDGET 0 c) ch.roster
    let roster := ch.roster.map fun e => match ps.find? fun p => p.addr == e.addr with
      | none => e
      | some p => { e with
          alloc := p.new, held := p.held
          low := if p.new < p.held then (if p.new < e.alloc ∨ e.low.isNone then some (n, c.backup.ms) else e.low)
                 else none }
    showRoster (chainPut { ch with round := n, roster := roster } c)

/-- R321: tRELEASE, 6.0 s, after the round that lowered it, held falls to the new allocation. -/
def heldRelease (a : Nat) (c : Chip) : Chip :=
  if role c ≠ 5 then c
  else showRoster (mapEntry a (fun e => match e.low with
    | some (_, t) => if t + 6000 ≤ c.backup.ms then { e with held := e.alloc, low := none } else e
    | none => e) c)

/-- R322, R325: an allocation reaches the HSL, which raises it to SHARE_FLOOR under trump class 7. -/
def allocationApply (c : Chip) : Chip :=
  let ch := c.lnk.chain
  match ch.pending with
  | none => c
  | some v =>
    if c.bridge.downPower ∨ c.bridge.downLogic ∨ !c.powered ∨ c.upd.pause then c
    else
      let low := v < shareFloor c
      let c := if low ∧ ch.clamped ≠ some v then trumpEvent 7 c else c
      applyAlloc (max v (shareFloor c)) 0
        (chainPut { c.lnk.chain with pending := none, clamped := if low then some v else none } c)

/-! ### KHP relay, R326 -/

/-- The lowest free flow of 2-15. -/
def freeFlow (c : Chip) : Option Nat :=
  ((List.range 14).map (· + 2)).find? fun f => (c.lnk.chain.flows[f]?.getD none).isNone

/-- Whether an address is in the roster, or in the last beacon heard. -/
def inRoster (a : Nat) (c : Chip) : Bool := 1 ≤ a && a ≤ 62 && getF Reg.LNK_CROSTER_PRESENT (a - 1) c == 1

/-- R326: a TCP connection on RELAY_PORT: any other header, an address not in the roster or no free flow closes it. -/
def relayConnect (header : List Nat) (c : Chip) : Chip :=
  if !chainRuns c ∨ getF Reg.LNK_CCFG_RELAY_EN 0 c = 0 ∨ !netUp c ∨ (role c ≠ 4 ∧ role c ≠ 5) then c
  else if header.length = 4 ∧ header.take 3 = [0x4B, 0x52, 0x00] ∧ inRoster (Byte.u8 header 3) c ∧
      Byte.u8 header 3 ≠ ownAddr c then
    match freeFlow c with
    | some f => putFlow f (some { relay := true, peer := Byte.u8 header 3, opening := true }) c
    | none => c
  else c

/-- R326: a relay frame for this post; in STANDBY it wakes a target through the CHAIN source of R66. -/
def relayTake (typ : Nat) (rx : ChainRx) (f : Nat → Nat → Chip → Chip) (c : Chip) : Chip :=
  let fc := rx.fc.toNat
  chainReceive typ rx (fun c =>
    if fcField 42 4 fc < 2 then c else f (fcField 42 4 fc) (fcField 12 6 fc) (standbyWakeFrom 2 c)) c

/-- R326: bytes of a relayed connection: at the target they are KHP frames, at the relay they go to the TCP side; those from the
TCP side wait for their flow. -/
def relayData (ev : RelayEvent) (c : Chip) : Chip :=
  match ev with
  | .received rx => relayTake 4 rx (fun f src c => match c.lnk.chain.flows[f]?.getD none with
    | some x => if x.peer = src then putFlow f (some { x with rx := x.rx ++ rxBody rx c }) c else c
    | none => c) c
  | .side f bytes => match c.lnk.chain.flows[f.val]?.getD none with
    | some x => if x.relay ∧ !x.closing ∧ !c.upd.pause then
        putFlow f.val (some { x with txq := x.txq ++ [Byte.nats bytes] }) c
      else c
    | none => c

/-- R326: the target opens a relayed connection, or refuses it, which closes it. -/
def relayOpen (rx : ChainRx) (c : Chip) : Chip :=
  relayTake 5 rx (fun f src c =>
    if (c.lnk.chain.flows[f]?.getD none).isSome then c
    else if relayRoom c then relaySessionOpen f (putFlow f (some { peer := src }) c)
    else putFlow f (some { peer := src, closing := true }) c) c

/-- R326: a relay close frame closes this end; the TCP side's close is sent to the target as one. -/
def relayClose (ev : RelayEvent) (c : Chip) : Chip :=
  match ev with
  | .received rx => relayTake 6 rx (fun f src c => match c.lnk.chain.flows[f]?.getD none with
    | some x => if x.peer = src then relayEnd f c else c
    | none => c) c
  | .side f _ => match c.lnk.chain.flows[f.val]?.getD none with
    | some x => if x.relay then putFlow f.val (some { x with closing := true }) c else c
    | none => c

/-! ### LNK_CCMD, R330 -/

/-- R319, R330: the post leaves and rejoins; a member sends a leave frame first. -/
def chainRejoin (c : Chip) : Chip :=
  if role c = 0 ∨ c.lnk.chain.leave.isSome then c
  else if role c = 4 ∧ ownAddr c ≠ 0 then chainPut { c.lnk.chain with leave := some (ownAddr c) } c
  else startListen c

/-- R318, R330: the persisted address is cleared; CHAIN_OUT is low while none is held. -/
def addrForget (c : Chip) : Chip :=
  setF Reg.LNK_CSTAT_CHAIN_OUT 0 0 (setF Reg.LNK_CSTAT_ADDR 0 0 (setF Reg.LNK_CSTAT_POS_UNKNOWN 0 0 c))

/-- R330: a write to LNK_CCMD. -/
def ccmdWrite (code : Nat) (c : Chip) : Chip × Status :=
  match code with
  | 1 => (chainRejoin c, .ok)
  | 2 => if anyGate c then (c, .busy) else (addrForget (chainRejoin c), .ok)
  | _ => (c, .range)

def chainCommand (who : Writer) (code : Nat) (c : Chip) : Chip :=
  match writerStatus who c with
  | .ok => let r := ccmdWrite code c; { r.1 with reply := r.2 }
  | e => { c with reply := e }

/-! ### Loss of the chain key, R310, R431, R446 -/

/-- R310, R446: the key of the chain cipher unit is cleared: the link is silent and the post falls to its floor. -/
def chainKeyClear (c : Chip) : Chip :=
  let c := chainPut { c.lnk.chain with key := none } c
  if role c = 0 then c else startListen (fallToFloor c)

/-! ### Link PLL, start, R59, R328 -/

/-- R328: the link PLL relocks. -/
def linksRestart (c : Chip) : Chip :=
  let c := (List.range 16).foldl (fun c n => if hlcLive n c then hlcFail n (some Reg.LNK_VEVT_LINK_LOSS) c else c) c
  if role c = 0 then c else startListen c

/-- R298, R309, R310, R322, R328: the links start: the self-test, before whose end no link runs, CTR at the larger of its two
records, the chain key loaded, and the fallback allocation. -/
def linksStart (key : Option (List Nat)) (c : Chip) : Chip :=
  let ctr := max c.backup.chainCtr c.emmc.chainReserve
  let c := { c with lnk := { chain := { key := key } }
                    backup := { c.backup with chainCtr := ctr }
                    emmc := { c.emmc with chainReserve := ctr + 65536 } }
  let c := setF Reg.LNK_TEST_RUNNING 0 1 c
  let c := (List.range 17).foldl (fun c k => attApply k c) c
  if chainOn c then fallToFloor c
  else setF Reg.LNK_CALLOC_APPLIED 0 (getF Reg.PRT_FDR_FEED_A 0 c)
    (setF Reg.LNK_CALLOC_RECEIVED 0 (getF Reg.PRT_FDR_FEED_A 0 c) (setF Reg.LNK_CBUDGET_SRC 0 2 c))

def execLnkTest (who : Writer) (go : Bool) (s : State) : Host.Outcome State Fault Refusal := s.run (lnkTest who go)
def execLnkTestDone (pass : BitVec 17) (s : State) : Host.Outcome State Fault Refusal := s.run (lnkTestDone pass)
def execSlacRequest (src : BitVec 48) (run : BitVec 64) (levels : Vector (Option Nat) 16) (s : State) :
    Host.Outcome State Fault Refusal := s.run (slacRequest src.toNat run.toNat levels)
def execSlacTimeout (n : Fin 16) (s : State) : Host.Outcome State Fault Refusal := s.run (slacTimeout n.val)
def execSetupTimeout (n : Fin 16) (s : State) : Host.Outcome State Fault Refusal := s.run (setupTimeout n.val)
def execLinklossTimeout (n : Fin 16) (s : State) : Host.Outcome State Fault Refusal := s.run (linklossTimeout n.val)
def execVehicleFrame (n : Fin 16) (crcOk : Bool) (f : VehicleMpdu) (s : State) : Host.Outcome State Fault Refusal :=
  s.run (vehicleFrame n.val crcOk f.tone f.src.toNat f.lclk.val f.payload)
def execHlcMessage (n : Fin 16) (m : HlcMsg) (s : State) : Host.Outcome State Fault Refusal := s.run (hlcMessage n.val m)
def execCertRequestTimeout (id : Nat) (s : State) : Host.Outcome State Fault Refusal := s.run (certTimeout id)
def execBeaconStart (s : State) : Host.Outcome State Fault Refusal := s.run beaconStart
def execBeaconReceived (rx : ChainRx) (s : State) : Host.Outcome State Fault Refusal := s.run (beaconReceived rx)
def execChainSlotStart (s : State) : Host.Outcome State Fault Refusal := s.run chainSlot
def execChainAck (fc : BitVec 96) (s : State) : Host.Outcome State Fault Refusal := s.run (chainAck fc.toNat)
def execJoinRequest (rx : ChainRx) (i : JoinInfo) (s : State) : Host.Outcome State Fault Refusal :=
  s.run (joinRequest rx i)
def execBudgetReport (rx : ChainRx) (i : ReportInfo) (s : State) : Host.Outcome State Fault Refusal :=
  s.run (budgetReport rx i)
def execRelayData (ev : RelayEvent) (s : State) : Host.Outcome State Fault Refusal := s.run (relayData ev)
def execRelayOpen (rx : ChainRx) (s : State) : Host.Outcome State Fault Refusal := s.run (relayOpen rx)
def execRelayClose (ev : RelayEvent) (s : State) : Host.Outcome State Fault Refusal := s.run (relayClose ev)
def execChainLeave (rx : ChainRx) (s : State) : Host.Outcome State Fault Refusal := s.run (chainLeave rx)
def execListenTimeout (s : State) : Host.Outcome State Fault Refusal := s.run listenTimeout
def execElectTimeout (s : State) : Host.Outcome State Fault Refusal := s.run electTimeout
def execBeaconLoss (s : State) : Host.Outcome State Fault Refusal := s.run beaconLoss
def execRosterExpiry (a : Fin 64) (s : State) : Host.Outcome State Fault Refusal := s.run (rosterExpiry a.val)
def execBudgetRound (s : State) : Host.Outcome State Fault Refusal := s.run budgetRound
def execHeldRelease (a : Fin 64) (s : State) : Host.Outcome State Fault Refusal := s.run (heldRelease a.val)
def execJoinRetry (s : State) : Host.Outcome State Fault Refusal := s.run joinRetry
def execChainInChange (level : Bool) (s : State) : Host.Outcome State Fault Refusal := s.run (chainInChange level)
def execChainWaitTimeout (s : State) : Host.Outcome State Fault Refusal := s.run chainWaitTimeout
def execRelayConnect (header : List Byte) (s : State) : Host.Outcome State Fault Refusal :=
  s.run (relayConnect (Byte.nats header))
def execRejoin (who : Writer) (s : State) : Host.Outcome State Fault Refusal := s.run (chainCommand who 1)
def execForget (who : Writer) (s : State) : Host.Outcome State Fault Refusal := s.run (chainCommand who 2)

end Sys2Proof.Machine
end

