-- ==== Sys2Proof/Machine/Nfc.lean ====
section
/-!
DEFINITION. The contactless reader and the credentials (R377-R394, R400-R403): polls, presentations and their resolution,
the credential table, deltas, the journal and checkpoints.
-/

namespace Sys2Proof.Machine
open Sys2Proof

def nfcFlag (f : Fld) (c : Chip) : Chip := flagF f 0 0 Reg.NFC_STAT_EVT_CNT 0 c

/-! ### The credential table, R387, R388 -/

def credHash (e : Nat) : Nat := e % 2 ^ 96
def credExpiry (e : Nat) : Nat := e / 2 ^ 96 % 65536
def credProfile (e : Nat) : Nat := e / 2 ^ 112 % 256
def credFlags (e : Nat) : Nat := e / 2 ^ 120 % 256

def bucket1 (h : Nat) : Nat := h % 2 ^ 23
def bucket2 (h : Nat) : Nat :=
  let b := h / 2 ^ 32 % 2 ^ 23
  if b = bucket1 h then b ^^^ 1 else b

/-- The slots of a bucket. -/
def waysOf (b : Nat) : List Nat := [4 * b, 4 * b + 1, 4 * b + 2, 4 * b + 3]

/-- The slot of b1 or b2 that holds an ID_HASH. -/
def slotOf (h : Nat) (t : CredTable) : Option Nat :=
  (waysOf (bucket1 h) ++ waysOf (bucket2 h)).find? fun k =>
    let e := mapGet t.slots k
    e != 0 && credHash e == h

/-- A free way of a bucket. -/
def freeWay (b : Nat) (t : CredTable) : Option Nat := (waysOf b).find? fun k => mapGet t.slots k == 0

/-- R388: a lookup: the 8 ways, then the stash. -/
def credLookup (h : Nat) (t : CredTable) : Option Nat :=
  match slotOf h t with
  | some k => some (mapGet t.slots k)
  | none => t.stash.find? fun e => credHash e == h

/-- R388: the other bucket of an entry. -/
def otherBucket (e b : Nat) : Nat := if bucket1 (credHash e) = b then bucket2 (credHash e) else bucket1 (credHash e)

/-- R388: the walk of displacements: an entry takes a way of the bucket, chosen by the counter, and the one displaced moves to
its other bucket. After the last displacement the homeless entry goes to the stash. The second component is the number of
displacements made. -/
def credWalk : Nat → Nat → Nat → Nat → CredTable → CredTable × Nat
  | 0, e, _, n, t => ({ t with stash := t.stash ++ [e] }, n)
  | fuel + 1, e, b, n, t =>
    let k := 4 * b + t.disp % 4
    let old := mapGet t.slots k
    let t := { t with slots := mapPut t.slots k e, disp := (t.disp + 1) % 4 }
    let d := otherBucket old b
    match freeWay d t with
    | some j => ({ t with slots := mapPut t.slots j old }, n + 1)
    | none => credWalk fuel old d (n + 1) t

/-- R388: an insertion: in place, into a free way of b1 or of b2, or by displacement. -/
def credInsert (e : Nat) (t : CredTable) : CredTable × Nat :=
  let h := credHash e
  match slotOf h t with
  | some k => ({ t with slots := mapPut t.slots k e }, 0)
  | none =>
    if t.stash.any fun x => credHash x == h then
      ({ t with stash := t.stash.map fun x => if credHash x = h then e else x }, 0)
    else match freeWay (bucket1 h) t with
      | some k => ({ t with slots := mapPut t.slots k e }, 0)
      | none => match freeWay (bucket2 h) t with
        | some k => ({ t with slots := mapPut t.slots k e }, 0)
        | none => credWalk 500 e (bucket1 h) 0 t

/-- R388: after a deletion a stash entry moves into a free way of either of its buckets, if one fits. -/
def stashHome (t : CredTable) : CredTable :=
  let free := fun (e : Nat) => (freeWay (bucket1 (credHash e)) t).or (freeWay (bucket2 (credHash e)) t)
  match t.stash.find? fun e => (free e).isSome with
  | none => t
  | some e => match free e with
    | none => t
    | some k => { t with slots := mapPut t.slots k e, stash := t.stash.erase e }

/-- R388: a deletion; of an absent entry it changes nothing (R391). -/
def credDelete (h : Nat) (t : CredTable) : CredTable :=
  match slotOf h t with
  | some k => stashHome { t with slots := mapPut t.slots k 0 }
  | none => { t with stash := t.stash.filter fun e => credHash e != h }

/-- The occupied entries, stash included. -/
def credCount (t : CredTable) : Nat := t.slots.length + t.stash.length

/-- One record of a delta; the second component is the longest walk so far. -/
def credRecord (t : CredTable × Nat) (r : Nat × Nat) : CredTable × Nat :=
  if r.1 = 1 then
    let u := credInsert r.2 t.1
    (u.1, max t.2 u.2)
  else (credDelete (credHash r.2) t.1, t.2)

/-- R390: a delta's records on the table, CLEAR first. -/
def credApply (d : CredDelta) (t : CredTable) : CredTable × Nat :=
  d.records.foldl credRecord (if d.clear then {} else t, 0)

/-- The table's registers. -/
def tableShow (gen walk : Nat) (c : Chip) : Chip :=
  let c := setF Reg.NFC_TBL_CNT_COUNT 0 (credCount c.nfc.table) (setF Reg.NFC_TBL_GEN_GEN 0 gen c)
  setF Reg.NFC_TBL_STAT_STASH 0 c.nfc.table.stash.length
    (setF Reg.NFC_TBL_STAT_WALK_MAX 0 (max walk (getF Reg.NFC_TBL_STAT_WALK_MAX 0 c)) c)

/-! ### Checkpoints, R392, R393 -/

def journalShow (c : Chip) : Chip :=
  setF Reg.NFC_TBL_STAT_JOURNAL 0 (min c.emmc.cred.journal.length 1023)
    (setF Reg.NFC_TBL_STAT_CKPT 0 c.nfc.ckpt.isSome.toNat c)

/-- The bytes a delta takes in the journal: the delta and its CRC-32C. -/
def deltaBytes (d : CredDelta) : Nat := 100 + 20 * d.records.length

def journalBytes (j : List CredDelta) : Nat := j.foldl (fun n d => n + deltaBytes d) 0

/-- A checkpoint begins with the table as it stands. -/
def ckptStart (c : Chip) : Chip :=
  let t := c.nfc.table
  let img : CredImage := { gen := getF Reg.NFC_TBL_GEN_GEN 0 c, slots := t.slots, stash := t.stash }
  journalShow { c with nfc := { c.nfc with ckpt := some img, retry := false } }

/-- R393: a checkpoint is due at 1,000 deltas or 96 MiB; one that has failed waits for its retry. -/
def ckptDue (c : Chip) : Chip :=
  let j := c.emmc.cred.journal
  if c.nfc.ckpt.isNone ∧ !c.nfc.retry ∧ (1000 ≤ j.length ∨ 100663296 ≤ journalBytes j) then ckptStart c else c

/-- Whether image A is the newer one. -/
def imgNewerA (s : CredStore) : Bool :=
  match s.imgA, s.imgB with
  | some a, some b => b.gen ≤ a.gen
  | some _, none => true
  | _, _ => false

/-- R393: a checkpoint ends: the older image holds the copy and the journal is emptied; or it has failed and the older image
is not valid. -/
def checkpointDone (ok : Bool) (c : Chip) : Chip :=
  match c.nfc.ckpt with
  | none => c
  | some img =>
    let s := c.emmc.cred
    let new := if ok then some img else none
    let s := if imgNewerA s then { s with imgB := new } else { s with imgA := new }
    let s := if ok then { s with journal := [] } else s
    let c := { c with emmc := { c.emmc with cred := s }, nfc := { c.nfc with ckpt := none, retry := !ok, failAt := c.backup.ms } }
    journalShow (if ok then c else nfcFlag Reg.NFC_STAT_CKPT_FAIL c)

/-- R393: a failed checkpoint is retried after 60 s. -/
def checkpointRetry (c : Chip) : Chip :=
  if c.nfc.retry ∧ c.nfc.failAt + 60000 ≤ c.backup.ms then ckptStart c else c

/-! ### Presentations, R383-R386 -/

/-- R400: AUTH_MODE, 2 without a CRED card or with CRED_EN 0. -/
def authMode (c : Chip) : Nat := if cardU8 0x0081 0 0 0 c = 1 then getF Reg.NFC_CFG_AUTH_MODE 0 c else 2

/-- R384: a bay awaits authorisation. -/
def awaitsAuth (n : Nat) (c : Chip) : Bool :=
  let x := bayGet n c
  let k := recClass n c
  getF Reg.BAY_CFG_TYPE n c != 0 && x.cardCmd.isNone &&
    ((bayState n c == 2 && !x.auth) || (bayState n c == 8 && 2 ≤ k && k ≤ 4 && !x.carried))

/-- R384: an eligible bay. -/
def eligible (admits n : Nat) (c : Chip) : Bool :=
  getF Reg.BAY_CFG_FREE n c == 0 && admits.testBit n && awaitsAuth n c

/-- R384: of the eligible bays, the one that entered its state earliest, then the lowest. -/
def targetBay (admits : Nat) (c : Chip) : Option Nat :=
  ((List.range 16).filter fun n => eligible admits n c).foldl (fun best n =>
    match best with
    | none => some n
    | some b => if (bayGet n c).entered < (bayGet b c).entered then some n else some b) none

/-- The authorisation reaches a bay's session machine as a command. -/
def cardAuth (n h : Nat) (c : Chip) : Chip :=
  bayPut n { bayGet n c with cardCmd := some h, cardFirst := (bayGet n c).cmd.isNone } c

/-- The result of the latest presentation; it waits for nothing more. -/
def presResult (r : Nat) (c : Chip) : Chip :=
  setF Reg.NFC_PRES_RESULT 0 r { c with nfc := { c.nfc with wait := none } }

/-- R384: a bay that an entry's profile could ever make eligible. DESIGN CHOICE (log 72): without one the result is 6; with one
that does not await authorisation now, step 4 of R384 holds. -/
def admitsAny (admits : Nat) (c : Chip) : Bool :=
  (List.range 16).any fun n => admits.testBit n && getF Reg.BAY_CFG_TYPE n c != 0 && getF Reg.BAY_CFG_FREE n c == 0

/-- R384, steps 3 and 4: the target of an accepted credential, or pending. -/
def credTarget (r admits : Nat) (c : Chip) : Chip :=
  let h := c.nfc.hash
  match targetBay admits c with
  | some n => setF Reg.NFC_PRES_BAY 0 n (presResult r (cardAuth n h c))
  | none =>
    if !admitsAny admits c then presResult 6 c
    else if getF Reg.NFC_CFG_T_PEND 0 c = 0 then presResult 8 c
    else
      let c := presResult r c
      { c with nfc := { c.nfc with pend := some { hash := h, admits := admits, since := c.backup.ms } } }

/-- R400: the bays a profile admits. -/
def profileMask (p : Nat) (c : Chip) : Nat := cardU16 0x0081 0 (8 + 2 * p) 0 c

/-- R385: EXPIRY is on or after the local date, or is not checked. -/
def inDate (e : Nat) (c : Chip) : Bool :=
  credExpiry e == 0 || !c.backup.wallValid || localMs c.wall c / msPerDay ≤ credExpiry e

/-- R385, R388, R389: the lookup decides. `ue` tells of an uncorrectable error in a bucket read, `ns` how long the lookup
takes. Before TABLE_READY the presentation waits (R394). -/
def lookupDecide (ue : Bool) (ns : Nat) (c : Chip) : Chip :=
  if getF Reg.NFC_STAT_TABLE_READY 0 c = 0 then { c with nfc := { c.nfc with wait := some .table } }
  else
    let c := addSat Reg.NFC_LOOKUP_COUNT 0 65535 1 c
    let c := setF Reg.NFC_LOOKUP_MAX_NS 0 (min 65535 (max ns (getF Reg.NFC_LOOKUP_MAX_NS 0 c))) c
    if ue then presResult 12 (nfcFlag Reg.NFC_STAT_UNCORR c)
    else match credLookup c.nfc.hash c.nfc.table with
      | none => presResult 3 c
      | some e =>
        let c := setF Reg.NFC_PRES_TIME_INV 0 (!c.backup.wallValid).toNat
          (setF Reg.NFC_PRES_PROFILE 0 (credProfile e) c)
        if (credFlags e).testBit 1 then presResult 4 c
        else if !inDate e c then presResult 5 c
        else credTarget 1 (profileMask (credProfile e) c) c

/-- R384, step 1: the session with the earliest start reading that the credential authorised. -/
def stopTarget (h : Nat) (c : Chip) : Option Nat :=
  let at_ := fun n => let r := c.bil.read[n]?.getD {}; if r.number = 0 then none else some r.grantAt
  ((List.range 16).filter fun n => 3 ≤ bayState n c && bayState n c ≤ 6 && (bayGet n c).authHash == some h).foldl
    (fun best n =>
      match best with
      | none => some n
      | some b => match at_ n, at_ b with
        | some x, some y => if x < y then some n else some b
        | some _, none => some n
        | _, _ => some b) none

/-- R385: the decision by AUTH_MODE. -/
def presDecide (ue : Bool) (ns : Nat) (c : Chip) : Chip :=
  let wait := { c with nfc := { c.nfc with wait := some .verdict } }
  match authMode c with
  | 0 => lookupDecide ue ns c
  | 1 => if c.hst.decl.isSome then wait else lookupDecide ue ns c
  | _ => if c.hst.decl.isSome then wait else presResult 7 c

/-- R382: ID_HASH of a credential. -/
def idHash (kind : Nat) (ident : List Nat) : Nat := Byte.num ((sha256 ([kind, ident.length] ++ ident)).take 12)

/-- R383, R466: INFO of the presentation's event record. -/
def presInfo (kind : Nat) (ident : List Nat) (c : Chip) : List Nat :=
  Byte.le 2 (getF Reg.NFC_PRES_PRES_NO 0 c) ++ [kind, ident.length, getF Reg.NFC_PRES_RESULT 0 c,
    getF Reg.NFC_PRES_BAY 0 c, 0, 0] ++ Byte.le 12 c.nfc.hash ++ ident

/-- R383, R384: a presentation: a single credential, with the next PRES_NO. It replaces a pending one. -/
def present (kind : Nat) (ident : List Nat) (ue : Bool) (ns : Nat) (c : Chip) : Chip :=
  let no := getF Reg.NFC_PRES_PRES_NO 0 c
  let h := idHash kind ident
  let c := setF Reg.NFC_PRES_PRES_NO 0 (if no = 65535 then 1 else no + 1) c
  let c := setF Reg.NFC_PRES_RESULT 0 0 (setF Reg.NFC_PRES_BAY 0 0 (setF Reg.NFC_PRES_KIND 0 kind c))
  let c := setF Reg.NFC_PRES_TIME_INV 0 0 (setF Reg.NFC_PRES_PARTIAL 0 0 (setF Reg.NFC_PRES_PROFILE 0 0 c))
  let c := (List.range 3).foldl (fun c k => setF Reg.NFC_PRES_HASH_HASH k (h / 2 ^ (32 * k)) c) c
  let c := { c with nfc := { c.nfc with hash := h, at_ := c.backup.ms, wait := none, pend := none } }
  let c := activity (nfcFlag Reg.NFC_STAT_PRES c)
  let c := match stopTarget h c with
    | some n => setF Reg.NFC_PRES_BAY 0 n (presResult 13 (bayPut n { bayGet n c with localStop := true } c))
    | none => presDecide ue ns c
  eventRec 0x18 0xFFFF 0 0xFF (presInfo kind ident c) c

/-! ### Polls, R378-R381 -/

/-- R380: a random UID. -/
def randomUid (uid : List Nat) : Bool := uid.length == 4 && Byte.u8 uid 0 == 8

/-- R381: the credential a card yields. -/
def cardCred (k : ReaderCard) (c : Chip) : Option (Nat × List Nat) :=
  let kinds := getF Reg.NFC_CFG_KINDS 0 c
  let uid := Byte.nats k.uid
  let token := match k.token with
    | some t => if kinds.testBit 1 && 1 ≤ t.length && t.length ≤ 32 then some (Byte.nats t) else none
    | none => none
  if k.broken then none
  else match token with
    | some t => some (2, t)
    | none => if kinds.testBit 0 && !randomUid uid then some (1, uid) else none

/-- The UID of the device's own tag, bytes 0-6. -/
def tagUid (c : Chip) : List Nat :=
  Byte.le 4 (getF Reg.NFC_TAGUID_LO_UID 0 c) ++ Byte.le 3 (getF Reg.NFC_TAGUID_HI_UID 0 c)

/-- R401: the reader runs. -/
def readerOn (c : Chip) : Bool :=
  c.pwr.phase == .run && c.bridgeUp && !inStandby c && !c.upd.pause && c.pwr.fclk && getF Reg.NFC_CFG_READER_EN 0 c == 1

/-- R378: POLL_MS has passed since the last poll. -/
def pollDue (c : Chip) : Bool :=
  match c.nfc.pollAt with
  | none => true
  | some t => decide (t + getF Reg.NFC_CFG_POLL_MS 0 c ≤ c.backup.ms)

/-- R378-R383: a poll: up to 8 cards are read; their credentials are nothing, a presentation, or ambiguous. -/
def readerPoll (cards : List ReaderCard) (ue : Bool) (ns : Nat) (c : Chip) : Chip :=
  if !readerOn c ∨ !pollDue c then c
  else
    let c := { c with nfc := { c.nfc with pollAt := some c.backup.ms } }
    let cards := cards.filter fun k => Byte.nats k.uid != tagUid c
    let above := 8 < cards.length
    let creds := (cards.take 8).filterMap fun k => cardCred k c
    let fresh := creds.any fun k => !c.nfc.seen.contains k
    let seen := c.nfc.seen
    let c := { c with nfc := { c.nfc with seen := creds } }
    let c := if above then nfcFlag Reg.NFC_STAT_OVER8 c else c
    if above ∨ (1 < creds.length ∧ fresh) then
      setF Reg.NFC_PRES_RESULT 0 10 (nfcFlag Reg.NFC_STAT_MULTI c)
    else match creds with
      | [k] => if seen.contains k then c else present k.1 k.2 ue ns c
      | [] => if cards.any fun k => randomUid (Byte.nats k.uid) then setF Reg.NFC_PRES_RESULT 0 11 c else c
      | _ => c

/-! ### Verdicts and expiries, R384-R386 -/

/-- R386: a verdict on the latest presentation. -/
def nfcVerdict (no verdict bay : Nat) (useBay : Bool) (c : Chip) : Chip × Status :=
  if verdict ≠ 1 ∧ verdict ≠ 2 then (c, .range)
  else if no = 0 ∨ no ≠ getF Reg.NFC_PRES_PRES_NO 0 c then (c, .range)
  else if c.nfc.wait ≠ some .verdict then (nfcFlag Reg.NFC_STAT_LATE c, .ok)
  else if verdict = 2 then (presResult 7 c, .ok)
  else if useBay then
    if eligible 0xFFFF bay c then (setF Reg.NFC_PRES_BAY 0 bay (presResult 2 (cardAuth bay c.nfc.hash c)), .ok)
    else (c, .state)
  else (credTarget 2 0xFFFF c, .ok)

/-- R385: T_HOST ends without a verdict. -/
def tHostExpiry (ue : Bool) (ns : Nat) (c : Chip) : Chip :=
  if c.pwr.phase ≠ .run ∨ c.nfc.wait ≠ some .verdict ∨ c.backup.ms < c.nfc.at_ + getF Reg.NFC_CFG2_T_HOST 0 c then c
  else if authMode c = 1 then lookupDecide ue ns c
  else presResult 7 c

/-- R384: T_PEND ends: the pending credential expires unused. -/
def tPendExpiry (c : Chip) : Chip :=
  match c.nfc.pend with
  | none => c
  | some p =>
    if c.pwr.phase ≠ .run ∨ c.backup.ms < p.since + 1000 * getF Reg.NFC_CFG_T_PEND 0 c then c
    else setF Reg.NFC_PRES_RESULT 0 9 { c with nfc := { c.nfc with pend := none } }

/-- R384: the first eligible bay to begin awaiting authorisation is the target of the pending credential. -/
def pendTake (c : Chip) : Chip :=
  match c.nfc.pend with
  | none => c
  | some p => match targetBay p.admits c with
    | none => c
    | some n => setF Reg.NFC_PRES_BAY 0 n (cardAuth n p.hash { c with nfc := { c.nfc with pend := none } })

/-- R261, R384: the session machine's step at a bay snapshot publish; then a pending credential may find its bay. -/
def sessionPublish (n : Nat) (c : Chip) : Chip := if bayRuns n c then pendTake (sessionStep n c) else c

/-! ### Deltas, R390, R391 -/

/-- The records of a delta of COUNT records. -/
def deltaRecords (p : List Nat) (count : Nat) : List (Nat × Nat) :=
  (List.range count).map fun k => (Byte.u8 p (32 + 20 * k), Byte.num (Byte.slice p (36 + 20 * k) 16))

/-- R391, reason 0x06: the fields of a record. -/
def recordOk (p : List Nat) (o : Nat) : Bool :=
  let op := Byte.u8 p o
  let e := Byte.num (Byte.slice p (o + 4) 16)
  Byte.u24 p (o + 1) == 0 &&
    ((op == 1 && credProfile e ≤ 15 && (credFlags e == 1 || credFlags e == 3)) || (op == 2 && e / 2 ^ 96 == 0))

/-- R391, reason 0x06: the zero fields of the header and the records. -/
def deltaFields (p : List Nat) (count : Nat) : Bool :=
  Byte.u8 p 3 ≤ 1 && Byte.u16 p 6 == 0 && Byte.num (Byte.slice p 0x14 12) == 0 &&
    (List.range count).all fun k => recordOk p (32 + 20 * k)

/-- R391, reason 0x07: the count of the table after each record, taken in order, stays within the bound at the end. -/
def countFits (d : CredDelta) (t : CredTable) : Bool := credCount (credApply d t).1 ≤ 31457280

/-- R391: the first check a delta fails, with its status. -/
def deltaFault (p : List Nat) (d : CredDelta) (sigOk journalOk : Bool) (c : Chip) : Option (Nat × Status) :=
  let count := Byte.u32 p 0x10
  let gen := getF Reg.NFC_TBL_GEN_GEN 0 c
  if p.length ≠ 96 + 20 * count ∨ 52424 < count ∨ Byte.u16 p 0 ≠ 0x4344 ∨ Byte.u8 p 2 ≠ 1 then some (1, .lenRange)
  else if !sigOk ∨ !keyHeld (0x28 + getF Reg.NFC_CFG_DKEY_IDX 0 c) c then some (2, .sig)
  else if Byte.u16 p 4 ≠ cardU16 0x0001 0 0x1C 0 c then some (3, .bind)
  else if d.to_ ≤ gen then some (4, .rollback)
  else if !d.clear ∧ d.from_ ≠ gen then some (5, .state)
  else if !deltaFields p count then some (6, .range)
  else if !countFits d c.nfc.table then some (7, .range)
  else if c.nfc.ckpt.isSome ∨ 134217728 < journalBytes c.emmc.cred.journal + deltaBytes d then some (8, .busy)
  else if !journalOk then some (9, .busy)
  else none

/-- R391: the delta of the bytes of a transfer. -/
def deltaOf (p : List Nat) : CredDelta :=
  { from_ := Byte.u32 p 8, to_ := Byte.u32 p 0xC, clear := (Byte.u8 p 3).testBit 0
    records := deltaRecords p (Byte.u32 p 0x10) }

/-- R391: a delta is checked, journalled and applied whole, or rejected whole; R446: since a FULL grant it is refused. -/
def credDelta (p : List Nat) (sigOk journalOk : Bool) (c : Chip) : Chip × Status :=
  if c.sec.full ∨ c.upd.pause ∨ getF Reg.NFC_STAT_TABLE_READY 0 c = 0 then (c, .state)
  else
    let d := deltaOf p
    let c := setF Reg.NFC_DELTA_RECORDS 0 (min 65535 (Byte.u32 p 0x10)) c
    match deltaFault p d sigOk journalOk c with
    | some (r, st) => (setF Reg.NFC_DELTA_REASON 0 r (nfcFlag Reg.NFC_STAT_DELTA_REJ c), st)
    | none =>
      let t := credApply d c.nfc.table
      let c := setF Reg.NFC_DELTA_REASON 0 0 c
      let s := c.emmc.cred
      let c := { c with emmc := { c.emmc with cred := { s with journal := s.journal ++ [d] } }
                        nfc := { c.nfc with table := t.1 } }
      (ckptDue (journalShow (tableShow d.to_ t.2 c)), .ok)

/-! ### Loading at start, R394 -/

/-- R394: the journal's deltas on an image, in order: those whose FROM_GEN matches the running generation, or that clear the
table and are newer. -/
def replay : List CredDelta → Nat → CredTable → Nat → Nat × CredTable × Nat
  | [], gen, t, w => (gen, t, w)
  | d :: ds, gen, t, w =>
    if d.from_ = gen ∨ (d.clear ∧ gen < d.to_) then
      let u := credApply d t
      replay ds d.to_ u.1 (max w u.2)
    else replay ds gen t w

/-- R394: the table is loaded: the image with the higher generation of those whose CRC passes, then the journal's deltas up
to the first invalid one. A waiting presentation is decided or, older than 4 s, discarded. -/
def credLoaded (okA okB : Bool) (valid : Nat) (ue : Bool) (ns : Nat) (c : Chip) : Chip :=
  if c.pwr.phase ≠ .run ∨ getF Reg.NFC_STAT_TABLE_READY 0 c = 1 then c
  else
    let s := c.emmc.cred
    let a := if okA then s.imgA else none
    let b := if okB then s.imgB else none
    let s := { s with imgA := a, imgB := b, journal := s.journal.take valid }
    let img := if imgNewerA s then a else b
    let c := { c with emmc := { c.emmc with cred := s } }
    let c := if img.isNone then nfcFlag Reg.NFC_STAT_TBL_LOST c else c
    let base : CredTable := match img with
      | some i => { slots := i.slots, stash := i.stash }
      | none => {}
    let r := replay s.journal ((img.map (·.gen)).getD 0) base 0
    let c := setF Reg.NFC_STAT_TABLE_READY 0 1 { c with nfc := { c.nfc with table := r.2.1 } }
    let c := ckptDue (journalShow (tableShow r.1 r.2.2 c))
    if c.nfc.wait = some .table then
      if c.nfc.at_ + 4000 < c.backup.ms then presResult 12 c else lookupDecide ue ns c
    else c

/-! ### The cards, R400, and the start -/

/-- R400: the READER and CRED cards at "Cards applied". -/
def nfcCards (c : Chip) : Chip :=
  let c := setF Reg.NFC_CFG_READER_EN 0 (cardU8 0x0080 0 0 0 c) (setF Reg.NFC_CFG_RATE_MAX 0 (cardU8 0x0080 0 1 0 c) c)
  let c := setF Reg.NFC_CFG_POLL_MS 0 (cardU16 0x0080 0 2 0 c) (setF Reg.NFC_CFG_KINDS 0 (cardU8 0x0080 0 4 0 c) c)
  let c := setF Reg.NFC_CFG_TAG_EN 0 (cardU8 0x0080 0 6 0 c) (setF Reg.NFC_CFG_AUTH_MODE 0 (cardU8 0x0081 0 1 2 c) c)
  let c := setF Reg.NFC_CFG_DKEY_IDX 0 (cardU8 0x0081 0 2 0 c) (setF Reg.NFC_CFG2_T_HOST 0 (cardU16 0x0081 0 4 0 c) c)
  let c := setF Reg.NFC_CFG_T_PEND 0 (cardU16 0x0081 0 6 0 c) c
  match cardPayload 0x0080 0 c with
  | none => c
  | some p => { c with tag := { c.tag with aid := Byte.slice p 8 (Byte.u8 p 5) } }

/-- R401: the logic die leaves its state: the reader is off and the table is lost from DRAM. -/
def nfcReset (c : Chip) : Chip := { c with nfc := {} }

/-- R401, R59: the reader stops: no card is in its field. -/
def readerStop (c : Chip) : Chip := { c with nfc := { c.nfc with seen := [] } }

def execReaderPoll (cards : List ReaderCard) (ue : Bool) (ns : Nat) (s : State) : Host.Outcome State Fault Refusal :=
  s.run (readerPoll cards ue ns)
def execNfcVerdict (who : Writer) (no verdict bay : Nat) (useBay : Bool) (s : State) :
    Host.Outcome State Fault Refusal := s.run (asWriter who (nfcVerdict no verdict bay useBay))
def execTHostExpiry (ue : Bool) (ns : Nat) (s : State) : Host.Outcome State Fault Refusal := s.run (tHostExpiry ue ns)
def execTPendExpiry (s : State) : Host.Outcome State Fault Refusal := s.run tPendExpiry
def execCheckpointDone (ok : Bool) (s : State) : Host.Outcome State Fault Refusal := s.run (checkpointDone ok)
def execCheckpointRetry (s : State) : Host.Outcome State Fault Refusal := s.run checkpointRetry
def execCredTableLoaded (okA okB : Bool) (valid : Nat) (ue : Bool) (ns : Nat) (s : State) :
    Host.Outcome State Fault Refusal := s.run (credLoaded okA okB valid ue ns)
def execSessionMachineStep (n : Fin 16) (s : State) : Host.Outcome State Fault Refusal := s.run (sessionPublish n.val)

end Sys2Proof.Machine
end

