-- ==== Sys2Proof/Machine/Tag.lean ====
section
/-!
DEFINITION. The field-powered tag (R395-R399, R403): its EEPROM, the commands of the field, the arbitration of field and
wired accesses.
-/

namespace Sys2Proof.Machine
open Sys2Proof

/-! ### The EEPROM, R395 -/

/-- The 64 bytes of a page. Page 0 is fixed by the device. -/
def tagPage (p : Nat) (c : Chip) : List Nat :=
  (List.range 64).map fun k => if p = 0 then (Config.tagPage0 k).toNat else mapGet c.tag.mem (64 * p + k) % 256

/-- A page takes new content. -/
def tagPagePut (p : Nat) (data : List Nat) (c : Chip) : Chip :=
  let mem := (List.range 64).foldl (fun m k => mapPut m (64 * p + k) (Byte.u8 data k)) c.tag.mem
  { c with tag := { c.tag with mem := mem } }

/-- R395: AES-128 tag key of page 1. -/
def tagKey (c : Chip) : List Nat := (tagPage 1 c).take 16

def fieldReads (p : Nat) : Bool := p == 0 || (16 ≤ p && p ≤ 255)
def fieldWrites (p : Nat) : Bool := 16 ≤ p && p ≤ 255

/-! ### What the registers show -/

/-- R403: the tag's bits in NFC_TAGSTAT and NFC_STAT. -/
def tagShow (c : Chip) : Chip :=
  let t := c.tag
  let c := setF Reg.NFC_TAGSTAT_OPEN 0 (min 255 t.opened.length) (setF Reg.NFC_TAGSTAT_AUTH_LOCK 0 t.locked.toNat c)
  setF Reg.NFC_TAGSTAT_FIELD 0 t.open_.toNat (setF Reg.NFC_STAT_TAG_FIELD 0 t.open_.toNat c)

/-- The tag's response. -/
def tagAnswer (bytes : List Nat) (c : Chip) : Chip := { c with tag := { c.tag with resp := bytes } }

/-- A status word. -/
def tagStatus (sw : Nat) : List Nat := [sw / 256, sw % 256]

/-! ### Page writes, R398, R399 -/

/-- R398: a page write that has begun completes. -/
def tagWriteEnd (c : Chip) : Chip :=
  match c.tag.write with
  | none => c
  | some w =>
    let c := tagPagePut w.page w.data { c with tag := { c.tag with write := none } }
    if w.wired then setF Reg.NFC_TAGSTAT_BUSY 0 0 (setF Reg.NFC_TAGSTAT_RESULT 0 1 c) else c

/-- A page write begins, after one in progress. -/
def tagWriteBegin (w : TagWrite) (c : Chip) : Chip :=
  let c := tagWriteEnd c
  { c with tag := { c.tag with write := some w } }

/-- R397, R399: the field session ends; a wired write that waits starts. -/
def tagSessionEnd (c : Chip) : Chip :=
  if !c.tag.open_ then c
  else
    let t := c.tag
    let c := { c with tag := { t with open_ := false, opened := [], chal := none, key := none, ctr := 0, fails := 0
                                      wired := none } }
    let c := match t.wired with
      | none => c
      | some w => setF Reg.NFC_TAGSTAT_RESULT 0 0 (tagWriteBegin { wired := true, page := w.1, data := w.2 } c)
    tagShow c

/-- R396: loss of the field ends the session and unlocks authentication. -/
def tagFieldLoss (c : Chip) : Chip :=
  let c := tagSessionEnd c
  tagShow { c with tag := { c.tag with locked := false, fails := 0 } }

/-! ### The commands of the field, R396 -/

/-- SELECT with the AID of the READER card begins a field session. -/
def tagSelect (aid : List Nat) (c : Chip) : Chip :=
  if aid = c.tag.aid ∧ aid ≠ [] then tagShow (tagAnswer (tagStatus 0x9000) { c with tag := { c.tag with open_ := true } })
  else tagAnswer (tagStatus 0x6D00) c

/-- A page that the field has used in an authenticated session is opened. -/
def tagOpened (p : Nat) (c : Chip) : Chip :=
  if c.tag.opened.contains p then c else tagShow { c with tag := { c.tag with opened := p :: c.tag.opened } }

/-- TINFO: page 0 in plain. -/
def tagInfo (c : Chip) : Chip :=
  let c := if c.tag.key.isSome then tagOpened 0 c else c
  tagAnswer (tagPage 0 c ++ tagStatus 0x9000) c

/-- The authenticated session and the nonces are discarded. -/
def tagDiscard (c : Chip) : Chip := { c with tag := { c.tag with chal := none, key := none, ctr := 0 } }

/-- CHAL: the tag draws NT and proves that it holds the key. -/
def tagChal (nr : List Nat) (c : Chip) : Chip :=
  if !c.tag.open_ then tagAnswer (tagStatus 0x6982) c
  else
    let c := tagDiscard c
    if c.tag.locked then tagAnswer (tagStatus 0x6983) c
    else if nr.length ≠ 16 then tagAnswer (tagStatus 0x6700) c
    else
      let nt := Byte.le 16 (Config.tagNonce c.tag.drawn).toNat
      let mt := cmac (tagKey c) ([1] ++ tagUid c ++ nr ++ nt)
      tagAnswer (nt ++ mt ++ tagStatus 0x9000)
        { c with tag := { c.tag with chal := some (nr, nt), drawn := c.tag.drawn + 1 } }

/-- MUTA: the reader's proof is checked; on success both hold the session key. -/
def tagMuta (mr : List Nat) (c : Chip) : Chip :=
  match c.tag.chal with
  | none => tagAnswer (tagStatus 0x6982) c
  | some (nr, nt) =>
    let c := tagDiscard c
    if mr.length ≠ 16 then tagAnswer (tagStatus 0x6700) c
    else if mr = cmac (tagKey c) ([2] ++ tagUid c ++ nt ++ nr) then
      let ks := cmac (tagKey c) ([3] ++ nr ++ nt ++ tagUid c)
      tagAnswer ((cmac ks ([4] ++ nt)).take 8 ++ tagStatus 0x9000)
        { c with tag := { c.tag with key := some (ks, nt), ctr := 0 } }
    else
      let n := c.tag.fails + 1
      tagShow (tagAnswer (tagStatus 0x6300) { c with tag := { c.tag with fails := n, locked := 3 ≤ n } })

/-- R396: the nonce of a protected command or its response. -/
def tagNonceOf (dir ctr : Nat) (nt : List Nat) : List Nat := dir :: Byte.le 4 ctr ++ nt.take 8

/-- TREAD: an encrypted page in an authenticated session. A page being written from the wired side is waited for. -/
def tagRead (p1 page : Nat) (c : Chip) : Chip :=
  match c.tag.key with
  | none => tagAnswer (tagStatus 0x6982) c
  | some (ks, nt) =>
    let n := c.tag.ctr
    let c := tagWriteEnd { c with tag := { c.tag with ctr := n + 1 } }
    if !fieldReads page then tagAnswer (tagStatus 0x6A83) c
    else
      tagAnswer (ccmSeal ks (tagNonceOf 1 n nt) [0xC2, 0x36, p1, page] (tagPage page c) ++ tagStatus 0x9000)
        (tagOpened page c)

/-- The response of TWRITE: the status sealed, then in plain. -/
def tagWriteAnswer (sw p1 page n : Nat) (key : List Nat × List Nat) (c : Chip) : Chip :=
  tagAnswer (ccmSeal key.1 (tagNonceOf 1 n key.2) [0xC2, 0x38, p1, page] (tagStatus sw) ++ tagStatus sw) c

/-- TWRITE: a page write in an authenticated session, if the storage level admits it (R398). -/
def tagWrite (p1 page : Nat) (data : List Nat) (fieldOk : Bool) (c : Chip) : Chip :=
  match c.tag.key with
  | none => tagAnswer (tagStatus 0x6982) c
  | some (ks, nt) =>
    let n := c.tag.ctr
    let open_ := if data.length = 72 then ccmOpen ks (tagNonceOf 0 n nt) [0xC2, 0x38, p1, page] data else none
    match open_ with
    | none => tagAnswer (tagStatus 0x6700) (tagDiscard c)
    | some plain =>
      let c := tagWriteEnd { c with tag := { c.tag with ctr := n + 1 } }
      if !fieldWrites page then tagWriteAnswer 0x6A83 p1 page n (ks, nt) c
      else if !fieldOk then tagWriteAnswer 0x6581 p1 page n (ks, nt) c
      else tagWriteAnswer 0x9000 p1 page n (ks, nt)
        (tagWriteBegin { wired := false, page := page, data := plain } (tagOpened page c))

/-! ### The wired side, R399, R403 -/

/-- The page buffer. -/
def tagBuffer (c : Chip) : List Nat := (List.range 16).flatMap fun j => Byte.le 4 (getF Reg.NFC_TAGDATA_DATA j c)

/-- R395, R399, R403: a command of NFC_TAGCMD, OP 1 read or OP 2 write. -/
def tagWired (op page : Nat) (c : Chip) : Chip × Status :=
  if getF Reg.NFC_CFG_TAG_EN 0 c = 0 then (c, .state)
  else if getF Reg.NFC_TAGSTAT_BUSY 0 c = 1 then (c, .busy)
  else if op ≠ 1 ∧ op ≠ 2 then (c, .range)
  else
    let c := setF Reg.NFC_TAGSTAT_PAGE 0 page c
    if op = 1 then
      if !fieldReads page then (setF Reg.NFC_TAGSTAT_RESULT 0 4 c, .range)
      else
        let d := tagPage page c
        let c := (List.range 16).foldl (fun c j => setF Reg.NFC_TAGDATA_DATA j (Byte.u32 d (4 * j)) c) c
        (setF Reg.NFC_TAGSTAT_RESULT 0 1 c, .ok)
    else if !fieldWrites page then (setF Reg.NFC_TAGSTAT_RESULT 0 4 c, .range)
    else
      let d := tagBuffer c
      let c := setF Reg.NFC_TAGSTAT_BUSY 0 1 c
      if c.tag.opened.contains page then
        (setF Reg.NFC_TAGSTAT_RESULT 0 2 { c with tag := { c.tag with wired := some (page, d), wiredAt := c.backup.ms } }, .ok)
      else (setF Reg.NFC_TAGSTAT_RESULT 0 0 (tagWriteBegin { wired := true, page := page, data := d } c), .ok)

/-- R403: a write to NFC_TAGCMD; GO 0 has no effect. -/
def tagCmdWrite (go : Bool) (op page : Nat) (c : Chip) : Chip × Status :=
  if getF Reg.NFC_CFG_TAG_EN 0 c = 0 then (c, .state)
  else if getF Reg.NFC_TAGSTAT_BUSY 0 c = 1 then (c, .busy)
  else if go then tagWired op page c
  else (c, .ok)

/-- R399: a wired write has waited for tTGWAIT, 200 ms. -/
def tagWaitEnd (c : Chip) : Chip :=
  if c.tag.wired.isNone ∨ c.backup.ms < c.tag.wiredAt + 200 then c
  else setF Reg.NFC_TAGSTAT_BUSY 0 0 (setF Reg.NFC_TAGSTAT_RESULT 0 3 { c with tag := { c.tag with wired := none } })

/-- The logic die is reset: a wired write that waits is lost; one that has begun completes (R398). -/
def tagLogicReset (c : Chip) : Chip := { tagWriteEnd c with tag := { (tagWriteEnd c).tag with wired := none } }

def execTagSelect (aid : List Byte) (s : State) : Host.Outcome State Fault Refusal := s.run (tagSelect (Byte.nats aid))
def execTinfo (s : State) : Host.Outcome State Fault Refusal := s.run tagInfo
def execChal (data : List Byte) (s : State) : Host.Outcome State Fault Refusal := s.run (tagChal (Byte.nats data))
def execMuta (data : List Byte) (s : State) : Host.Outcome State Fault Refusal := s.run (tagMuta (Byte.nats data))
def execTread (p1 page : Byte) (s : State) : Host.Outcome State Fault Refusal := s.run (tagRead p1.toNat page.toNat)
def execTwrite (p1 page : Byte) (data : List Byte) (fieldOk : Bool) (s : State) : Host.Outcome State Fault Refusal :=
  s.run (tagWrite p1.toNat page.toNat (Byte.nats data) fieldOk)
def execTagApduUnknown (s : State) : Host.Outcome State Fault Refusal := s.run (tagAnswer (tagStatus 0x6D00))
def execTagDeselect (s : State) : Host.Outcome State Fault Refusal := s.run tagSessionEnd
def execTagFieldLoss (s : State) : Host.Outcome State Fault Refusal := s.run tagFieldLoss
def execTagSessionTimeout (s : State) : Host.Outcome State Fault Refusal := s.run tagSessionEnd
def execTagWriteDone (s : State) : Host.Outcome State Fault Refusal := s.run tagWriteEnd
def execTagWiredRead (who : Writer) (page : Byte) (s : State) : Host.Outcome State Fault Refusal :=
  s.run (asWriter who (tagWired 1 page.toNat))
def execTagWiredWrite (who : Writer) (page : Byte) (s : State) : Host.Outcome State Fault Refusal :=
  s.run (asWriter who (tagWired 2 page.toNat))
def execTagWiredWaitTimeout (s : State) : Host.Outcome State Fault Refusal := s.run tagWaitEnd

end Sys2Proof.Machine
end

