-- ==== Sys2Proof/Machine/Legal.lean ====
section
/-!
DEFINITION. The legal panel and the legal display run (R227, R233-R235, R408-R419): rendering, updates and their budget, the
temperature bands and the crack loops.
-/

namespace Sys2Proof.Machine
open Sys2Proof

/-! ### Rendering, R414, R415 -/

/-- The seven-segment glyph of a hexadecimal digit, segment a in bit 0. -/
def glyph (d : Nat) : Nat :=
  [0x3F, 0x06, 0x5B, 0x4F, 0x66, 0x6D, 0x7D, 0x07, 0x7F, 0x6F, 0x77, 0x7C, 0x39, 0x5E, 0x79, 0x71].getD (d % 16) 0

/-- A glyph in digit `d` of the logical image, whose bit l is logical segment l. -/
def digitAt (d g : Nat) : Nat := g * 2 ^ (7 * d)

/-- The decimal point of digit `d`, and annunciator `a`. -/
def pointAt (d : Nat) : Nat := 2 ^ (84 + d)
def annAt (a : Nat) : Nat := 2 ^ a

/-- A number right-aligned in digits 0-9 with leading zeros blank up to the units digit, which is digit `dec`. -/
def numberImage (v dec : Nat) : Nat :=
  let v := v % 10 ^ 10
  let digits := (List.range 10).foldl (fun m d =>
    if d ≤ dec ∨ 10 ^ d ≤ v then m + digitAt d (glyph (v / 10 ^ d % 10)) else m) 0
  digits + (if dec = 0 then 0 else pointAt dec)

/-- `n` hexadecimal digits of a number. -/
def hexImage (n v : Nat) : Nat :=
  (List.range n).foldl (fun m d => m + digitAt d (glyph (v / 16 ^ d % 16))) 0

/-- The set index in digits 10-11 with annunciator 106: 0-15 for a bay, F for the feeder. -/
def setImage (s : Nat) : Nat :=
  annAt 106 + (if s = 16 then digitAt 10 (glyph 15)
    else if s < 10 then digitAt 10 (glyph s)
    else digitAt 10 (glyph (s % 10)) + digitAt 11 (glyph 1))

/-- DECIMALS of the PANEL_L card. -/
def legalDecimals (c : Chip) : Nat := cardU8 0x0091 0 2 1 c

/-- R415: an energy in 0.1 Wh as kWh. -/
def energyImage (v : Nat) (c : Chip) : Nat :=
  let dec := legalDecimals c
  numberImage (v / 10 ^ (4 - dec)) dec + annAt 96

/-- A number as two decimal digits from digit `d`. -/
def twoDigits (d v : Nat) : Nat := digitAt d (glyph (v % 10)) + digitAt (d + 1) (glyph (v / 10 % 10))

/-- R415, code 0x06: YY.MM.DD in digits 9-4, hh.mm in digits 3-0. -/
def dateImage (c : Chip) : Nat :=
  let t := localMs (if c.backup.wallValid then c.wall else 0) c
  let d := dateOf (t / msPerDay)
  let m := (t % msPerDay / 60000).toNat
  twoDigits 8 (d.year % 100).toNat + pointAt 8 + twoDigits 6 d.month + pointAt 6 + twoDigits 4 d.day +
    twoDigits 2 (m / 60) + pointAt 2 + twoDigits 0 (m % 60) + annAt 102 + annAt 103

/-- The bytes of a card, R83. -/
def cardBytes (k : Card) : List Nat :=
  let b := Byte.le 2 k.typ ++ [k.version, k.flags] ++ Byte.le 4 (k.payload.length + 12) ++ k.payload
  b ++ Byte.le 4 (crc32c b)

/-- The first 6 hexadecimal digits of the METRO_PROG digest. -/
def metroDigits (c : Chip) : Nat :=
  match c.deck.cards.find? fun k => k.typ == 0x0012 with
  | none => 0
  | some k => beNum ((sha256 (cardBytes k)).take 3)

/-- R234, R415: the logical image of an item. -/
def itemImage (r : LegalReq) (c : Chip) : Nat :=
  let s := r.arg.getD 16
  let set := setOf s c
  let at_ := if r.arg.isSome then setImage s else 0
  let show_ := fun (v : Nat) => if r.arg.isSome then energyImage v c + at_ else annAt 96
  match r.code with
  | 0x01 => show_ (totOf 0 set) + annAt 100
  | 0x02 => show_ (totOf 1 set) + annAt 101
  | 0x03 => show_ (set.reg[2 * r.tariff]?.getD 0) + annAt 100 + annAt 104
  | 0x04 => show_ (set.reg[2 * r.tariff + 1]?.getD 0) + annAt 101 + annAt 104
  | 0x05 =>
    let dec := legalDecimals c
    (if r.arg.isSome then numberImage ((set.md[2 * r.tariff]?.getD {}).w / 10 ^ (3 - dec)) dec + at_ else 0) +
      annAt 99 + annAt 107 + annAt 104
  | 0x06 => dateImage c
  | 0x07 => digitAt 0 (glyph c.bil.tariff) + annAt 104
  | 0x08 =>
    show_ (c.bil.lastStop[s]?.getD 0) + annAt 100
  | 0x09 => hexImage 8 (if r.half then deviceId c % 2 ^ 32 else deviceId c / 2 ^ 32) + annAt 105
  | 0x0A => hexImage 6 (metroDigits c)
  | 0x0B => 2 ^ 111 - 1
  | _ => 0

/-- R414: the annunciators of the seal and of wall time. -/
def statusImage (c : Chip) : Nat :=
  (if sealed c then 0 else annAt 108) + (if c.backup.wallValid then 0 else annAt 109)

/-- R414: the physical image of a logical one through SEG_MAP. -/
def mapImage (img : Nat) (c : Chip) : Nat :=
  (List.range 111).foldl (fun m l =>
    let e := cardU8 0x0091 0 (8 + l) 0xFF c
    if img.testBit l && e < 120 then m ||| 2 ^ e else m) 0

/-- The image a request shows at its update. -/
def legalTarget (r : LegalReq) (c : Chip) : Nat :=
  if r.code = 0 then 0 else mapImage (itemImage r c ||| statusImage c) c

/-! ### Updates, R409-R413, R416, R417 -/

/-- The legal panel is updated at all (R422); in bare mode for the one clearing update. -/
def legalOn (c : Chip) : Bool := cardU8 0x0091 0 0 0 c == 1

/-- R410: main-phase frames of a waveform ROM entry. -/
def waveFrames (id : Nat) : Nat := [30, 28, 26, 24, 22, 20, 18, 16, 20, 19, 18, 16, 15, 14, 12, 11].getD id 0

/-- R410: a frame byte of the waveform ROM. A partial waveform drives only segments that change. -/
def waveByte (id frame : Nat) : Nat :=
  if waveFrames id ≤ frame then 0
  else
    let l := fun (t : Fin 4) => (Config.waveLevel id frame t).val * 4 ^ t.val
    (if id < 8 then l 0 + l 3 else 0) + l 1 + l 2

/-- R416: updates started in the last 60 minutes. -/
def hourStarts (c : Chip) : List Nat := c.dsp.starts.filter fun t => c.backup.ms < t + 3600000

/-- R416: the window admits another update. -/
def legalAdmits (c : Chip) : Bool := (hourStarts c).length < cardU16 0x0091 0 4 600 c

/-- R409-R413: an update starts with the band in force. -/
def legalStart (r : LegalReq) (c : Chip) : Chip :=
  let since := getF Reg.DSP_LSTAT_SINCE_FULL 0 c
  let full := r.full || r.free || c.dsp.full || cardU8 0x0091 0 3 20 c ≤ since
  let id := if full then c.dsp.band else 8 + c.dsp.band
  let u : LegalUpdate :=
    { target := legalTarget r c, start := c.backup.ms, wave := id, frames := waveFrames id
      rv := if r.code = 0 then none else some (cardU8 0x0091 0 1 0 c) }
  let c := setF Reg.DSP_LSTAT_BAND 0 c.dsp.band (setF Reg.DSP_LSTAT_FULL 0 full.toNat c)
  let c := setF Reg.DSP_LSTAT_SINCE_FULL 0 (if full then 0 else min 255 (since + 1)) c
  let c := addSat Reg.DSP_LLIFE_UPDATES 0 0xFFFFFFFF 1 c
  { c with dsp := { c.dsp with upd := some u, full := false, starts := c.backup.ms :: hourStarts c }
           glass := { c.glass with rv := false } }

/-- R420, R51, R20: the panel keeps its image and no update starts: in STANDBY, and while the bridge does not reach its drivers. -/
def legalHeld (c : Chip) : Bool := inStandby c || !c.bridgeUp

/-- R416, R419, R420: a content request: made at once, held in the pending slot, deferred, or lost. It replaces the one that
waits. -/
def legalRequest (r : LegalReq) (c : Chip) : Chip :=
  if !legalOn c && r.code != 0 then c
  else if getF Reg.PWR_PFW_ACTIVE 0 c = 1 then c
  else if c.dsp.upd.isSome ∨ legalHeld c then { c with dsp := { c.dsp with pend := some r } }
  else if r.free ∨ legalAdmits c then legalStart r { c with dsp := { c.dsp with pend := none, defer := none } }
  else
    { c with dsp := { c.dsp with pend := none, defer := some { r with full := r.full || (c.dsp.defer.map (·.full)).getD false } } }

/-- The request of the pending slot is made. -/
def legalPoll (c : Chip) : Chip :=
  match c.dsp.pend with
  | none => c
  | some r =>
    if c.dsp.upd.isSome ∨ legalHeld c then c else legalRequest r { c with dsp := { c.dsp with pend := none } }

/-- R416: the hourly window admits a deferred update. -/
def legalAdmit (c : Chip) : Chip :=
  match c.dsp.defer with
  | none => c
  | some r =>
    if c.dsp.upd.isNone ∧ !legalHeld c ∧ getF Reg.PWR_PFW_ACTIVE 0 c = 0 ∧ legalAdmits c then
      legalStart r { c with dsp := { c.dsp with defer := none } }
    else c

/-! ### The run, R235 -/

/-- COUNT of the LEGAL_SEQ card. -/
def legalCount (c : Chip) : Nat := cardU8 0x0023 0 0 0 c

/-- The set an ARG names in a run of `bay`, or of the button; none where no session has ended since start. -/
def legalArg (arg : Nat) (bay : Option Nat) (c : Chip) : Option Nat :=
  if arg ≠ 0xFE then some arg else bay.or c.legal.lastEnd

/-- The request of the item at an offset of the LEGAL_SEQ card. -/
def itemReq (o : Nat) (bay : Option Nat) (half : Bool) (c : Chip) : LegalReq :=
  { code := cardU8 0x0023 0 o 1 c, arg := legalArg (cardU8 0x0023 0 (o + 1) 16 c) bay c
    tariff := cardU8 0x0023 0 (o + 3) 0 c, half := half }

/-- R233: the rest item; TOT_IMP of set 16 without a LEGAL_SEQ card. -/
def restReq (c : Chip) : LegalReq := itemReq 4 none false c

/-- R234: an item that the run skips. -/
def itemSkipped (k : Nat) (c : Chip) : Bool := (itemReq (8 + 4 * k) c.legal.bay false c).arg.isNone

/-- A run shows the first item from `k` on that is not skipped; after the last one a queued bay has its run, or the rest
item is shown. -/
def runShow (k : Nat) (c : Chip) : Chip :=
  match (List.range (legalCount c)).find? fun j => k ≤ j && !itemSkipped j c with
  | some j =>
    let c := { c with legal := { c.legal with running := true, item := j, half := false, press := false } }
    legalRequest (itemReq (8 + 4 * j) c.legal.bay false c) c
  | none => { c with legal := { c.legal with running := false, bay := none, item := 0, half := false, press := false } }

/-- A run ends: the next queued bay's run starts, or the rest item is shown. -/
def runNext (k : Nat) (c : Chip) : Chip :=
  let c := runShow k c
  if c.legal.running then c
  else match c.legal.queue with
    | [] => legalRequest (restReq c) c
    | b :: q =>
      let c := runShow 0 { c with legal := { c.legal with bay := some b, queue := q } }
      if c.legal.running then c else legalRequest (restReq c) { c with legal := { c.legal with queue := [] } }

/-- R235: a stop reading starts a run for its bay, or queues it. -/
def legalRunStart (bay : Nat) (c : Chip) : Chip :=
  if c.legal.running then
    if c.legal.queue.contains bay ∨ 16 ≤ c.legal.queue.length then c
    else { c with legal := { c.legal with queue := c.legal.queue ++ [bay] } }
  else runNext 0 { c with legal := { c.legal with bay := some bay } }

/-- R235: whether the item of a run is on the panel, its DWELL running. -/
def dwelling (c : Chip) : Bool :=
  c.legal.running && c.dsp.upd.isNone && c.dsp.pend.isNone && c.dsp.defer.isNone

/-- R235: a press of the legal button. -/
def legalPress (c : Chip) : Chip :=
  if c.pwr.phase ≠ .run ∨ getF Reg.PWR_PFW_ACTIVE 0 c = 1 then c
  else if !c.legal.running then runNext 0 { c with legal := { c.legal with bay := none } }
  else if dwelling c then runNext (c.legal.item + 1) c
  else { c with legal := { c.legal with press := true } }

/-- R235: DWELL of the item shown, in s. -/
def itemDwell (c : Chip) : Nat := cardU8 0x0023 0 (8 + 4 * c.legal.item + 2) 0 c

/-- R235, R415: DWELL ends, counted from the end of the panel update: the second half of an identity, or the next item. -/
def legalDwellEnd (c : Chip) : Chip :=
  if !dwelling c ∨ c.backup.ms < c.legal.shownAt + 1000 * itemDwell c then c
  else
    let o := 8 + 4 * c.legal.item
    if cardU8 0x0023 0 o 0 c = 9 ∧ !c.legal.half then
      legalRequest (itemReq o c.legal.bay true c) { c with legal := { c.legal with half := true } }
    else runNext (c.legal.item + 1) c

/-- R409, R410: the ms of an update that have run, and the ms it takes: (M + 8) frames of 20 ms. -/
def updateAge (u : LegalUpdate) (c : Chip) : Nat := c.backup.ms - u.start
def updateMs (u : LegalUpdate) : Nat := 20 * (u.frames + 8)

/-- R409: the phase of an update: 1 RV-off, 2 main, 3 RV-on. -/
def updatePhase (u : LegalUpdate) (c : Chip) : Nat :=
  if updateAge u c < 80 then 1 else if updateAge u c < 80 + 20 * u.frames then 2 else 3

/-- R409: the image an update ends with: its target with RV_SEG black. -/
def updateImage (u : LegalUpdate) : Nat :=
  u.target ||| (match u.rv with
    | some k => 2 ^ k
    | none => 0)

/-- R408-R410: the level segment `k` is driven with: 0 for 0 V, 1 for +15 V (toward black), 2 for -15 V; 0 in neutral drive. -/
def segmentLevel (k : Nat) (c : Chip) : Nat :=
  match c.dsp.upd with
  | none => 0
  | some u =>
    match updatePhase u c with
    | 1 => if u.rv = some k then 2 else 0
    | 2 =>
      let bit := fun (img : Nat) => (img.testBit k).toNat
      if u.rv = some k then 0
      else waveByte u.wave (updateAge u c / 20 - 4) / 4 ^ (2 * bit c.glass.image + bit u.target) % 4
    | _ => if u.rv = some k then 1 else 0

/-- R417: what an abort leaves on the glass: the old image in the RV-off phase, the new one in the RV-on phase, and in the main
phase what the frames run so far have made of the two, which the spec does not say. -/
def abortedImage (u : LegalUpdate) (c : Chip) : Nat :=
  match updatePhase u c with
  | 1 => c.glass.image
  | 2 => Config.partImage c.glass.image u.target (updateAge u c / 20)
  | _ => u.target

/-- R409, R417, R419: an update's last frame ends: the image is on the glass and the reading-valid segment black; then a press or
the pending request is taken. -/
def legalDone (c : Chip) : Chip :=
  match c.dsp.upd with
  | none => c
  | some u =>
    if updateAge u c < updateMs u then c else
    let img := updateImage u
    let c := { c with glass := { image := img, rv := u.rv.isSome }, dsp := { c.dsp with upd := none, refresh := false } }
    let c := (List.range 4).foldl (fun c k => setF Reg.DSP_LIMG_SEG k (img / 2 ^ (32 * k)) c) c
    let c := { c with legal := { c.legal with shownAt := c.backup.ms } }
    let c := if c.legal.press ∧ c.legal.running then runNext (c.legal.item + 1) c else c
    legalPoll c

/-- R235, R417: PFWARN_N stops a waveform in progress and the run; the request is lost. -/
def legalAbort (c : Chip) : Chip :=
  let c := { c with legal := { c.legal with running := false, bay := none, item := 0, half := false, press := false
                                            queue := [] } }
  let c := { c with dsp := { c.dsp with pend := none, defer := none } }
  match c.dsp.upd with
  | none => c
  | some u =>
    flagF Reg.DSP_STAT_ABORT 0 0 Reg.DSP_STAT_EVT_CNT 0
      { c with glass := { c.glass with image := abortedImage u c }, dsp := { c.dsp with upd := none } }

/-- R417: the warning recovers: a full update at once, whatever the hourly window says. -/
def legalRecover (c : Chip) : Chip := legalRequest { restReq c with full := true, free := true } c

/-- R417: the restart refresh shows the rest item. -/
def legalRefresh (c : Chip) : Chip :=
  if legalOn c then
    legalRequest { restReq c with full := true, free := true } { c with dsp := { c.dsp with refresh := true } }
  else c

/-- R417: the clearing update of bare mode. -/
def legalBare (c : Chip) : Chip := legalRequest { code := 0, arg := none, full := true, free := true } c

/-! ### Temperature and crack loops, R407, R411, R418 -/

/-- R410: the lower edges of bands 1-7, in tenths of a degree. -/
def bandEdges : List Int := [-200, -100, 0, 100, 250, 400, 550]

def bandOf (t : Int) : Nat := (bandEdges.filter fun e => e ≤ t).length

/-- R411: the band in force changes when the temperature passes a boundary by more than 1 K. -/
def bandNext (b : Nat) (t : Int) : Nat :=
  let up := (bandEdges.filter fun e => e + 10 < t).length
  let down := (bandEdges.filter fun e => e - 10 ≤ t).length
  if b < up then up else if down < b then down else b

/-- R411: the thermistor is measured. -/
def epthMeasure (t : Int) (c : Chip) : Chip :=
  if c.pwr.phase ≠ .run ∧ c.pwr.phase ≠ .bare then c
  else
    let c := setF Reg.DSP_LTEMP_TEMP 0 (unsigned 16 t) c
    if t < -450 ∨ 900 < t then
      if getF Reg.DSP_LSTAT_EPTH_FAULT 0 c = 1 then c
      else setF Reg.DSP_LSTAT_EPTH_FAULT 0 1 (flagF Reg.DSP_STAT_EPTH_FLT_EV 0 0 Reg.DSP_STAT_EVT_CNT 0 c)
    else
      let b := if c.dsp.bandOk then bandNext c.dsp.band t else bandOf t
      setF Reg.DSP_LSTAT_EPTH_FAULT 0 0 { c with dsp := { c.dsp with band := b, bandOk := true } }

/-- R407, R418: the counts of a loop after a check: failed, passed, and whether it is open. -/
def crackNext (fails passes : Nat) (open_ pass : Bool) : Nat × Nat × Bool :=
  if pass then (0, min 10 (passes + 1), open_ && !(10 ≤ passes + 1)) else (min 2 (fails + 1), 0, open_ || 2 ≤ fails + 1)

/-- R407: a check of the emissive loop; its opening is an event record. -/
def crackE (pass : Bool) (c : Chip) : Chip :=
  let was := getF Reg.DSP_ESTAT_CRACK_E 0 c == 1
  let r := crackNext c.dsp.failE c.dsp.passE was pass
  let c := setF Reg.DSP_ESTAT_CRACK_E 0 r.2.2.toNat { c with dsp := { c.dsp with failE := r.1, passE := r.2.1 } }
  if r.2.2 ∧ !was then flagEvent Reg.DSP_STAT_CRACK_E_EV 0 Reg.DSP_STAT_EVT_CNT 0 0xFF [] c else c

/-- R418: a check of the legal loop; its opening records TC13. -/
def crackL (pass : Bool) (c : Chip) : Chip :=
  let was := getF Reg.DSP_LSTAT_CRACK_L 0 c == 1
  let r := crackNext c.dsp.failL c.dsp.passL was pass
  let c := setF Reg.DSP_LSTAT_CRACK_L 0 r.2.2.toNat { c with dsp := { c.dsp with failL := r.1, passL := r.2.1 } }
  if r.2.2 ∧ !was then tamper 13 0 (flagF Reg.DSP_STAT_CRACK_L_EV 0 0 Reg.DSP_STAT_EVT_CNT 0 c) else c

/-- A crack loop is checked while its panel runs. -/
def crackCheck (legal pass : Bool) (c : Chip) : Chip :=
  if c.pwr.phase ≠ .run then c
  else if legal then (if (cardPayload 0x0091 0 c).isSome then crackL pass c else c)
  else if (cardPayload 0x0090 0 c).isSome then crackE pass c
  else c

/-! ### What a read shows -/

/-- R423: the derived fields of DSP_LSTAT and DSP_WFDATA. -/
def legalShow (c : Chip) : Chip :=
  let phase := match c.dsp.upd with
    | none => 0
    | some u => updatePhase u c
  let id := getF Reg.DSP_WFADDR_ID 0 c
  let c := setF Reg.DSP_LSTAT_WINDOW 0 (min 255 (hourStarts c).length) (setF Reg.DSP_LSTAT_PHASE 0 phase c)
  let c := setF Reg.DSP_LSTAT_PEND 0 c.dsp.pend.isSome.toNat (setF Reg.DSP_LSTAT_DEFER 0 c.dsp.defer.isSome.toNat c)
  let c := setF Reg.DSP_LSTAT_NEUTRAL 0 c.dsp.upd.isNone.toNat (setF Reg.DSP_LSTAT_RV 0 c.glass.rv.toNat c)
  setF Reg.DSP_WFDATA_M 0 (waveFrames id) (setF Reg.DSP_WFDATA_DATA 0 (waveByte id (getF Reg.DSP_WFADDR_FRAME 0 c)) c)

/-! ### The rows of the table -/

/-- R230, R235: the stop reading of an ended session, and the run it starts. -/
def stopReadingRun (n : Nat) (c : Chip) : Chip := if stopReady n c then legalRunStart n (stopReading n c) else c

/-- R332, R235: an LSIN level is accepted; a rising level of the button's ball is a press. -/
def lsinChange (ball : Fin 8) (level : Bool) (c : Chip) : Chip :=
  let was := c.lsw.lsin.getLsbD ball.val
  let c := lsinTake ball level c
  if level ∧ !was ∧ c.pwr.phase = .run ∧ cardU8 0x0023 0 2 0xFF c = ball.val then legalPress c else c

/-- R413, R423: DSP_LCMD.FULL makes the next update full. -/
def lcmdFull (c : Chip) : Chip × Status := ({ c with dsp := { c.dsp with full := true } }, .ok)

def execStopReading (n : Fin 16) (s : State) : Host.Outcome State Fault Refusal := s.run (stopReadingRun n.val)
def execLegalDwellEnd (s : State) : Host.Outcome State Fault Refusal := s.run legalDwellEnd
def execLsinChange (ball : Fin 8) (level : Bool) (s : State) : Host.Outcome State Fault Refusal :=
  s.run (lsinChange ball level)
def execCrackCheck (legal pass : Bool) (s : State) : Host.Outcome State Fault Refusal := s.run (crackCheck legal pass)
def execLegalUpdateDone (s : State) : Host.Outcome State Fault Refusal := s.run legalDone
def execLegalUpdateAdmit (s : State) : Host.Outcome State Fault Refusal := s.run legalAdmit
def execEpthMeasure (t : Int) (s : State) : Host.Outcome State Fault Refusal := s.run (epthMeasure t)
def execDspLcmdFull (who : Writer) (s : State) : Host.Outcome State Fault Refusal := s.run (asWriter who lcmdFull)

end Sys2Proof.Machine
end

