-- ==== Sys2Proof/Machine/Display.lean ====
section
/-!
DEFINITION. The emissive panel (R404-R407, R420, R421, R423): frames, the two frame buffers, column current.
-/

namespace Sys2Proof.Machine
open Sys2Proof

/-- R421: the emissive panel is on. -/
def emissiveOn (c : Chip) : Bool := cardU8 0x0090 0 0 0 c == 1

/-- R417, R420: frames start: in RUN or LEAN, once the restart refresh is complete. -/
def framesRun (c : Chip) : Bool := c.pwr.phase == .run && c.bridgeUp && !inStandby c && emissiveOn c && !c.dsp.refresh

/-- R405, R28: the column current applied: the commanded value, at most COL_MAX. -/
def colApplied (c : Chip) : Nat := min (getF Reg.DSP_ECTL_I_COL 0 c) (trumpU16 0x98 c)

/-- R405, R407: the current of a running column source in µA: 0 unless a frame is scanned, and while the crack loop is open. -/
def columnCurrent (c : Chip) : Nat :=
  if getF Reg.DSP_ESTAT_SCAN 0 c = 0 ∨ getF Reg.DSP_ESTAT_CRACK_E 0 c = 1 then 0 else getF Reg.DSP_ECTL_APPLIED 0 c

/-- R406: the grey level of pixel (column, row) in the front buffer: byte 128r + c/2, even columns in bits 3:0. -/
def pixelGrey (col row : Nat) (c : Chip) : Nat :=
  mapGet (c.dsp.buf[getF Reg.DSP_ESTAT_FRONT 0 c]?.getD []) ((128 * row + col / 2) / 4) /
    2 ^ (8 * (col / 2 % 4) + 4 * (col % 2)) % 16

/-- R404: the current of column `col` in DCLK cycle `k` of a frame: its row is k/1,250, its source on from cycle 50 of the row for
80 cycles a grey level. -/
def columnAt (col k : Nat) (c : Chip) : Nat :=
  if 50 ≤ k % 1250 ∧ k % 1250 < 50 + 80 * pixelGrey col (k / 1250) c then columnCurrent c else 0

/-- R404-R406: a frame start: a pending swap and a new I_COL take effect; a frame is scanned unless VCOL is low. -/
def frameStart (c : Chip) : Chip :=
  if !framesRun c then setF Reg.DSP_ESTAT_SCAN 0 0 c
  else
    let c := if getF Reg.DSP_ESTAT_SWAP_PEND 0 c = 1 then
        setF Reg.DSP_ESTAT_SWAP_PEND 0 0 (setF Reg.DSP_ESTAT_FRONT 0 (1 - getF Reg.DSP_ESTAT_FRONT 0 c) c)
      else c
    let c := setF Reg.DSP_ECTL_APPLIED 0 (colApplied c) c
    if !c.pwr.vcolOk then setF Reg.DSP_ESTAT_SCAN 0 0 c
    else
      let c := setF Reg.DSP_ESTAT_SCAN 0 1 (setF Reg.DSP_ESTAT_FRAME 0 (getF Reg.DSP_ESTAT_FRAME 0 c + 1) c)
      if 360000 ≤ c.dsp.frames + 1 then
        addSat Reg.DSP_ELIFE_HOURS 0 0xFFFFFFFF 1 { c with dsp := { c.dsp with frames := 0 } }
      else { c with dsp := { c.dsp with frames := c.dsp.frames + 1 } }

/-- R405: VCOL is below its threshold: every source is off. -/
def columnsOff (c : Chip) : Chip := if c.logicUp then setF Reg.DSP_ESTAT_SCAN 0 0 c else c

/-- R406: a write of SWAP. -/
def swapWrite (c : Chip) : Chip × Status :=
  if getF Reg.DSP_ESTAT_SWAP_PEND 0 c = 1 then (c, .busy) else (setF Reg.DSP_ESTAT_SWAP_PEND 0 1 c, .ok)

/-- R405: a write of I_COL: above I_MAX_HOST the Declarer's is rejected; above COL_MAX it is clamped and counted. -/
def icolWrite (who : Writer) (v : Nat) (c : Chip) : Chip × Status :=
  let host : Bool := match who with
    | .firmware => false
    | .session _ => true
  if host ∧ cardU16 0x0090 0 4 511 c < v then (c, .range)
  else
    let c := setF Reg.DSP_ECTL_I_COL 0 v c
    (if trumpU16 0x98 c < v then trumpEvent 6 c else c, .ok)

/-- R406, R421: a write to the window of the back buffer, `o` bytes in. -/
def windowWrite (o v : Nat) (c : Chip) : Chip × Status :=
  if (cardPayload 0x0090 0 c).isNone then (c, .state)
  else if getF Reg.DSP_ESTAT_SWAP_PEND 0 c = 1 then (c, .busy)
  else
    let b := 1 - getF Reg.DSP_ESTAT_FRONT 0 c
    let m := mapPut (c.dsp.buf[b]?.getD []) (o / 4) v
    ({ c with dsp := { c.dsp with buf := c.dsp.buf.setIfInBounds b m } }, .ok)

/-- R406: a read of the window. -/
def windowRead (o : Nat) (c : Chip) : Nat := mapGet (c.dsp.buf[1 - getF Reg.DSP_ESTAT_FRONT 0 c]?.getD []) (o / 4)

/-- R421, R422: the PANEL_E card at "Cards applied". -/
def displayCards (c : Chip) : Chip :=
  let c := setF Reg.DSP_ECTL_I_COL 0 (cardU16 0x0090 0 2 0 c) c
  setF Reg.DSP_ECTL_APPLIED 0 (colApplied c) c

/-- R420: entry into STANDBY: sources at 0, rows at high impedance. -/
def displayStandby (c : Chip) : Chip := setF Reg.DSP_ESTAT_SCAN 0 0 c

/-- R419, R420: the logic die leaves its state: the displays stop; the glass keeps its image. -/
def displayReset (c : Chip) : Chip := { c with dsp := {}, legal := {} }

def execEmissiveFrameStart (s : State) : Host.Outcome State Fault Refusal := s.run frameStart
def execDspSwap (who : Writer) (s : State) : Host.Outcome State Fault Refusal := s.run (asWriter who swapWrite)

end Sys2Proof.Machine
end

