-- ==== Sys2Proof/Machine/SafetyFn.lean ====
section
/-!
DEFINITION. The safety functions of the cable retractors (chapter 13): dual-channel inputs, axes, stops, the drive link, the
restart button and the safety core.
-/

namespace Sys2Proof.Machine
open Sys2Proof

def safIn (k : Nat) (c : Chip) : SafIn := c.saf.inp[k]?.getD {}
def safInPut (k : Nat) (x : SafIn) (c : Chip) : Chip :=
  { c with saf := { c.saf with inp := c.saf.inp.setIfInBounds k x } }
def axis (n : Nat) (c : Chip) : Axis := c.saf.axis[n]?.getD {}
def axisPut (n : Nat) (x : Axis) (c : Chip) : Chip :=
  { c with saf := { c.saf with axis := c.saf.axis.setIfInBounds n x } }

/-! ### Configuration, R351, R355, R359 -/

def inputOn (k : Nat) (c : Chip) : Bool := c.saf.on && getF Reg.SAF_INCFG_IN_EN k c == 1
def axisOn (n : Nat) (c : Chip) : Bool := c.saf.on && getF Reg.SAF_AXCFG_AX_EN n c == 1

/-- R357: architecture 0x01, diverse dual. -/
def archDual (c : Chip) : Bool := getF Reg.SAF_ARCH_ARCH 0 c == 1

/-- R354: an input with manual restart; inputs 16 and 17 always are. -/
def manualRestart (k : Nat) (c : Chip) : Bool := 16 ≤ k || getF Reg.SAF_INCFG_RESTART k c == 1

/-- R351: the first and the second channel at their run levels. -/
def chanRun (k : Nat) (x : SafIn) (c : Chip) : Bool × Bool := (x.a, x.b != (getF Reg.SAF_INCFG_POL k c == 1))

/-- A discrepancy fault of an input (SAF_INFLT). -/
def discFault (k : Nat) (c : Chip) : Bool := (getF Reg.SAF_INFLT_DISC 0 c).testBit k

/-- R359: an input whose effect is in force. -/
def inputActs (k : Nat) (c : Chip) : Bool :=
  let x := safIn k c
  inputOn k c && (x.dem || x.pend || discFault k c)

/-- R351: the effect of an input reaches axis or bay `n`. -/
def demanded (n : Nat) (c : Chip) : Bool := inputActs n c || inputActs 16 c || inputActs 17 c

/-- R351: the axes an input stops. -/
def axesOf (k : Nat) (c : Chip) : List Nat :=
  if k < 16 then (if axisOn k c then [k] else []) else (List.range 16).filter fun n => axisOn n c

/-! ### Causes, R368 -/

/-- The faults an axis holds, by cause, as mirrored to the retention RAM (R374). -/
def axisFaults (n : Nat) (c : Chip) : BitVec 13 := c.backup.safFaults[n]?.getD 0

/-- R368: the cause recorded: a fault recorded before stays while it is held; else the lowest fault held; else an input
demand; else a lost drive link. -/
def axisCause (n : Nat) (c : Chip) : Nat :=
  let f := axisFaults n c
  let k := getF Reg.SAF_AXSTAT_CAUSE n c
  if f.getLsbD k then k
  else match firstBit 13 f.toNat with
    | some j => j
    | none => if demanded n c then 1 else if (axis n c).lost then 10 else 0

/-- The axis's state code: 0 unconfigured, 1 at rest with STO, 2 moving, 3 SS1 stopping, 4 faulted. -/
def axisState (n : Nat) (c : Chip) : Nat :=
  let x := axis n c
  if !axisOn n c then 0
  else if axisFaults n c != 0 then 4
  else if x.rel.isNone then 1
  else if x.stopAt.isSome then 3
  else 2

/-- R359: the safety permission of a bay. -/
def permission (n : Nat) (c : Chip) : Bool :=
  c.saf.on && !demanded n c && axisFaults n c == 0 && !c.saf.scFault && !c.saf.scHeld

/-- Status registers and permissions follow the inputs and axes; a withdrawn permission acts on the contactor (R359). -/
def safShow (c : Chip) : Chip :=
  let c := (List.range 16).foldl (fun c n =>
    let x := axis n c
    let on := x.rel.isSome
    let c := setF Reg.SAF_AXSTAT_CAUSE n (axisCause n c) c
    let c := setF Reg.SAF_AXSTAT_STATE n (axisState n c) (setF Reg.SAF_AXSTAT_APPLIED n x.cmd c)
    let c := setF Reg.SAF_AXSTAT_BRAKE_REL n (c.hsl.brake[n]?.getD false).toNat c
    let c := if x.readBad then c else
      setF Reg.SAF_AXSTAT_STOA n (on && c.pwr.vstoOk).toNat (setF Reg.SAF_AXSTAT_STOB n (on && c.pwr.vstoOk).toNat c)
    let p := permission n c
    setBitF Reg.SAF_PERM_PERM 0 n p { c with hsl := { c.hsl with safe := c.hsl.safe.setIfInBounds n p } }) c
  let c := (List.range 18).foldl (fun c k => setBitF Reg.SAF_IN_RUN 0 k (inputOn k c && !(safIn k c).dem) c) c
  let any := (List.range 16).any fun n => axisFaults n c != 0
  let disc := (List.range 18).any fun k => inputOn k c && discFault k c
  let sto := (List.range 16).any fun n => axisOn n c && (axis n c).rel.isNone
  let c := setF Reg.SAF_STAT_FAULT_ANY 0 (any || disc).toNat (setF Reg.SAF_STAT_STO_ANY 0 sto.toNat c)
  recheckAll (setF Reg.SAF_STAT_SC_FAULT 0 (c.saf.scFault || c.saf.scHeld).toNat c)

/-! ### The drive link, R366 -/

/-- R366: the bytes of an AXCMD. The drive is commanded once the brake-release line is on (R360). -/
def axcmdBytes (node cnt mode v decel : Nat) : List Nat :=
  let m := [mode, cnt] ++ Byte.le 2 v ++ Byte.le 2 decel ++ [0, 0, 0, 0, 0, 0, 0, 0]
  m ++ Byte.le 2 (canCrc (0x200 + node) m)

/-- Whether the axis has a drive link whose port can carry messages. -/
def driveUp (n : Nat) (c : Chip) : Bool :=
  axisOn n c && getF Reg.SAF_AXCFG_DRV_PORT n c != 3 && !(c.canOff[getF Reg.SAF_AXCFG_DRV_PORT n c]?.getD false)

/-- R366: an AXCMD is sent. -/
def axcmdSend (n : Nat) (c : Chip) : Chip :=
  if !driveUp n c then c
  else
    let x := axis n c
    let go := x.stopAt.isNone && c.hsl.brake[n]?.getD false
    let cnt := (x.txCnt + 1) % 256
    let m := axcmdBytes (getF Reg.SAF_AXCFG_DRV_NODE n c) cnt (if go then x.mode else 0) (if go then x.cmd else 0)
      (getF Reg.SAF_AXLIM_DECEL n c)
    axisPut n { x with txCnt := cnt, txAt := c.backup.ms, last := m } c

/-- R366: the AXCMD of every 10 ms. -/
def axcmdPeriodic (n : Nat) (c : Chip) : Chip := if c.backup.ms < (axis n c).txAt + 10 then c else axcmdSend n c

/-! ### Stops, R363, R364 -/

/-- The brake-release line of an axis; the channels that follow it follow at once. -/
def brakeSet (n : Nat) (on : Bool) (c : Chip) : Chip :=
  lswAll { c with hsl := { c.hsl with brake := c.hsl.brake.setIfInBounds n on } }

/-- R364: STO is applied; the brake-release line goes off in the same cycle. -/
def stoApply (n : Nat) (c : Chip) : Chip :=
  let x := axis n c
  let c := axisPut n { x with
    mode := 0, cmd := 0, rel := none, stopAt := none, standN := 0, still := [], moved := if x.rel.isSome then 0 else x.moved } c
  axcmdSend n (brakeSet n false (setF Reg.SAF_AXMEAS_ENV n 0xFFFF c))

/-- The magnitude of the measured speed, in eighths of a mm/s (R361). -/
def speed8 (n : Nat) (x : Axis) (c : Chip) : Nat := (x.hist.foldl (· + ·) 0).natAbs * getF Reg.SAF_AXCFG_RES_UM n c

/-- R363: an SS1 stop begins on a moving axis. -/
def ss1 (n : Nat) (c : Chip) : Chip :=
  let x := axis n c
  if x.rel.isNone || x.stopAt.isSome then c
  else
    axcmdSend n (axisPut n { x with
      mode := 0, cmd := 0, stopAt := some c.backup.ms, v0 := speed8 n x c, standN := 0, still := [] } c)

/-- R368: an axis takes a fault: STO at once. -/
def axisFault (n k : Nat) (c : Chip) : Chip :=
  if !axisOn n c then c
  else
    let f := axisFaults n c
    let c :=
      if f.getLsbD k then c
      else
        let c := { c with backup := { c.backup with
          safFaults := c.backup.safFaults.setIfInBounds n (f ||| BitVec.ofNat 13 (2 ^ k)) } }
        let c := setF Reg.SAF_AXSTAT_CAUSE n (axisCause n c) c
        addSat Reg.SAF_AXLIFE_FAULTS n 65535 1 (flagF Reg.SAF_STAT_FAULT_EV 0 0 Reg.SAF_STAT_EVT_CNT 0 c)
    stoApply n c

/-- Every configured axis takes a fault. -/
def allFault (k : Nat) (c : Chip) : Chip := (List.range 16).foldl (fun c n => axisFault n k c) c

/-! ### Inputs, R351-R354 -/

/-- The mirror of the pending manual demands (R374). -/
def mirrorPend (c : Chip) : Chip :=
  let m := (List.range 18).foldl (fun (m : BitVec 18) k => if (safIn k c).pend then m ||| BitVec.ofNat 18 (2 ^ k) else m) 0
  { c with backup := { c.backup with safPend := m } }

/-- R351, R352, R368: a demand begins: DEMAND_EV, and the axes concerned stop in the input's category. -/
def demandBegin (k : Nat) (c : Chip) : Chip :=
  let c := flagF Reg.SAF_STAT_DEMAND_EV 0 0 Reg.SAF_STAT_EVT_CNT 0 c
  (axesOf k c).foldl (fun c n =>
    let c := addSat Reg.SAF_AXLIFE_DEMANDS n 65535 1 c
    if getF Reg.SAF_INCFG_STOP_CAT k c = 1 then ss1 n c
    else if (axis n c).rel.isSome then stoApply n c
    else c) c

/-- R352-R354: an input is evaluated on the accepted levels of its channels. -/
def inputEval (k : Nat) (c : Chip) : Chip :=
  if !inputOn k c then c
  else
    let x := safIn k c
    let r := chanRun k x c
    let run := r.1 && r.2
    let dis := if r.1 == r.2 then none else match x.disAt with
      | some t => some t
      | none => some c.backup.ms
    let both := x.both || (!r.1 && !r.2)
    let x' := { x with
      disAt := dis, both := both
      dem := !run, pend := x.pend || (!run && manualRestart k c) }
    let c := mirrorPend (safInPut k x' c)
    if x'.dem && !x.dem then demandBegin k c else c

/-- R352: a channel's level is accepted; a change wakes the device from STANDBY (R373). -/
def safetyInput (k : Nat) (a b : Bool) (c : Chip) : Chip :=
  if !c.powered then c
  else
    let c := safInPut k { safIn k c with a := a, b := b } c
    if inputOn k c then safShow (inputEval k (standbyWakeFrom 6 c)) else c

/-- R353: the channels still disagree 1 ms after T_DISC: a discrepancy fault. -/
def discrepancy (k : Nat) (c : Chip) : Chip :=
  let x := safIn k c
  match x.disAt with
  | none => c
  | some t =>
    if inputOn k c && !discFault k c && t + getF Reg.SAF_INCFG_T_DISC k c + 1 ≤ c.backup.ms then
      let c := setBitF Reg.SAF_INFLT_DISC 0 k true (safInPut k { x with both := false } c)
      let c := if (axesOf k c).isEmpty then flagF Reg.SAF_STAT_FAULT_EV 0 0 Reg.SAF_STAT_EVT_CNT 0 c else c
      safShow ((axesOf k c).foldl (fun c n => axisFault n 2 c) c)
    else c

/-! ### Speed commands, R360 -/

/-- R360, R376: a write to SAF_SPD, refused, clamped at the HSL, or taken as a release, a new speed or a normal stop. DESIGN CHOICE
(log 71): the order of the refusals, E_RANGE for an axis that is not configured, and E_STATE while a drive link is lost. -/
def speedWrite (who : Writer) (n mode v : Nat) (c : Chip) : Chip × Status :=
  let st := axisState n c
  let outside : Bool := match who with
    | .session _ => !inService c
    | .firmware => false
  if outside ∨ c.upd.pause then (c, .state)
  else if st = 0 ∨ mode = 3 ∨ 1000 < v then (c, .range)
  else if !permission n c ∨ st = 3 ∨ st = 4 ∨ (axis n c).lost ∨ (hslBay n c).gate then (c, .state)
  else
    let c := setF Reg.SAF_SPD_MODE n mode (setF Reg.SAF_SPD_V_CMD n v c)
    let max := getF Reg.SAF_AXLIM_SPEED_MAX n c
    let c := if max < v then trumpEvent 5 c else c
    let v := min v max
    if mode = 0 ∨ v = 0 then (safShow (ss1 n c), .ok)
    else
      let x := axis n c
      let x := { x with mode := mode, cmd := v }
      let x := if x.rel.isNone then { x with rel := some c.backup.ms, still := [], moved := 0 } else x
      (safShow (axcmdSend n (axisPut n x c)), .ok)

/-- R360: 50 ms after STO is released the brake-release line is switched on and the drive is commanded. -/
def brakeRelease (n : Nat) (c : Chip) : Chip :=
  let x := axis n c
  match x.rel with
  | none => c
  | some t =>
    if axisState n c = 2 ∧ !(c.hsl.brake[n]?.getD false) ∧ t + 50 ≤ c.backup.ms then
      safShow (axcmdSend n (brakeSet n true c))
    else c

/-! ### The speed check, R361-R363 -/

/-- R363: the envelope at `t` ms into an SS1 stop, in 1/8,000 mm/s. -/
def envelope (n t v0 : Nat) (c : Chip) : Int :=
  let tol : Int := getF Reg.SAF_AXLIM2_V_TOL n c
  let lag := getF Reg.SAF_AXLIM_T_LAG n c
  let full : Int := 1000 * (v0 + 8 * tol)
  let e := if t ≤ lag then full else full - 8 * (getF Reg.SAF_AXLIM_DECEL n c : Int) * ((t : Int) - lag)
  max e (8000 * tol)

/-- R362: the encoder shows a fault at this check. -/
def encoderBad (tick : EncTick) (x : Axis) : Bool :=
  tick.both || 2000 < tick.delta.natAbs ||
    (x.rel.isSome && 10 ≤ x.cmd && x.still.length == 200 && x.still.foldl (· + ·) 0 < 4 && x.okRun == 3 &&
      (x.drive == 1 || x.drive == 2))

/-- R361: overspeed against the applied command while moving, and against SPEED_MAX in every state. -/
def overspeed (n : Nat) (x : Axis) (c : Chip) : Bool :=
  let tol := getF Reg.SAF_AXLIM2_V_TOL n c
  let v := speed8 n x c
  let up := 0 < x.hist.foldl (· + ·) 0
  let wrong := (x.mode == 1 && !up) || (x.mode == 2 && up)
  (axisState n c == 2 && (8 * (x.cmd + tol) < v || (wrong && 8 * tol < v))) ||
    8 * (getF Reg.SAF_AXLIM_SPEED_MAX n c + tol) < v

/-- R363: the checks of an SS1 stop in progress: the envelope, standstill and the end of the ramp. -/
def stopCheck (n : Nat) (c : Chip) : Chip :=
  let x := axis n c
  match x.stopAt with
  | none => c
  | some t0 =>
    let t := c.backup.ms - t0
    let v := speed8 n x c
    let env := envelope n t x.v0 c
    let c := setF Reg.SAF_AXMEAS_ENV n (divNear env 8000).toNat c
    let standN := if v ≤ 8 * getF Reg.SAF_AXLIM2_V_STAND n c then x.standN + 1 else 0
    let lag := getF Reg.SAF_AXLIM_T_LAG n c
    if env < 1000 * (v : Int) then axisFault n 4 c
    else if getF Reg.SAF_AXLIM2_T_STAND n c < standN ∨
        (lag ≤ t ∧ 1000 * x.v0 ≤ 8 * getF Reg.SAF_AXLIM_DECEL n c * (t - lag)) then stoApply n c
    else axisPut n { x with standN := standN } c

/-- R361-R363: one axis at a check. -/
def axisCheck (tick : EncTick) (n : Nat) (c : Chip) : Chip :=
  if !axisOn n c then c
  else
    let x := axis n c
    let watch := x.rel.isSome && 10 ≤ x.cmd
    let x := { x with
      hist := (tick.delta :: x.hist).take 8
      still := if watch then (tick.delta.natAbs :: x.still).take 200 else []
      moved := if x.rel.isNone then x.moved + tick.delta else 0 }
    let bad := encoderBad tick x
    let x := { x with encAt := if bad then some c.backup.ms else x.encAt }
    let pos := signed 32 (getF Reg.SAF_AXPOS_POS n c) + tick.delta
    let sp := divNear (x.hist.foldl (· + ·) 0 * getF Reg.SAF_AXCFG_RES_UM n c) 8
    let c := setF Reg.SAF_AXPOS_POS n (unsigned 32 pos) (setF Reg.SAF_AXMEAS_SPEED n (unsigned 16 sp) (axisPut n x c))
    let above := overspeed n x c
    let slid := x.rel.isNone && 10000 < x.moved.natAbs * getF Reg.SAF_AXCFG_RES_UM n c
    let c := if above then axisFault n 3 c else c
    let c := stopCheck n c
    let c := if bad then axisFault n 5 c else c
    if slid then axisFault n 6 c else c

/-- R361: the speed check of every axis, every 1 ms. -/
def speedCheck (ticks : Vector EncTick 16) (c : Chip) : Chip :=
  if !c.powered || !c.saf.on then c
  else safShow ((List.range 16).foldl (fun c n => axisCheck (ticks[n]?.getD { delta := 0, both := false }) n c) c)

/-! ### STO outputs, R364, R365, R357 -/

/-- R365: a released output is switched off for its test pulse once per second, STOBn 500 ms after STOAn. -/
def stoPulse (n : Nat) (outB : Bool) (c : Chip) : Chip :=
  let x := axis n c
  if !axisOn n c || x.rel.isNone then c
  else if outB then
    (if x.pulseA + 500 ≤ c.backup.ms ∧ x.pulseB < x.pulseA + 500 then axisPut n { x with pulseB := c.backup.ms } c else c)
  else if x.pulseA + 1000 ≤ c.backup.ms then axisPut n { x with pulseA := c.backup.ms } c
  else c

/-- R365: the readbacks, test pulses excepted; one that differs from the driven level is an STO fault. -/
def stoReadback (n : Nat) (a b : Bool) (c : Chip) : Chip :=
  if !axisOn n c then c
  else
    let x := axis n c
    let bad := a != x.rel.isSome || b != x.rel.isSome
    let c := setF Reg.SAF_AXSTAT_STOA n a.toNat (setF Reg.SAF_AXSTAT_STOB n b.toNat (axisPut n { x with readBad := bad } c))
    if bad then safShow (axisFault n 7 c) else c

/-- R357: SC and HSL have disagreed for more than 10 ms. -/
def channelDisagree (n : Nat) (c : Chip) : Chip := if archDual c then safShow (axisFault n 8 c) else c

/-- R62, R365: VSTO drops. -/
def vstoLost (c : Chip) : Chip := if c.saf.on then safShow (allFault 11 c) else c

/-! ### AXSTAT, R367 -/

/-- R367, R268: an AXSTAT message; the link is online after three consecutive accepted ones, which ends cause 10. -/
def axstat (n : Nat) (msg : List Nat) (c : Chip) : Chip :=
  if !driveUp n c then c
  else
    let x := axis n c
    match canCheck (0x280 + getF Reg.SAF_AXCFG_DRV_NODE n c) x.cnt msg with
    | .badCrc => axisPut n { x with okRun := 0 } c
    | .badCnt cnt => axisPut n { x with okRun := 0, cnt := some cnt } c
    | .accepted cnt _ =>
      let run := min (x.okRun + 1) 3
      let on := run == 3
      let c := axisPut n { x with
        cnt := some cnt, okRun := run, rxAt := c.backup.ms, drive := Byte.u8 msg 0, lost := x.lost && !on } c
      if on then safShow (setF Reg.SAF_AXSTAT_DRV_ONLINE n 1 c) else c

/-- R367: no AXSTAT accepted for 60 ms: the axis stops by SS1 with cause 10. -/
def driveLost (n : Nat) (c : Chip) : Chip :=
  let x := axis n c
  if axisOn n c && getF Reg.SAF_AXCFG_DRV_PORT n c != 3 && !x.lost && x.rxAt + 60 ≤ c.backup.ms then
    let c := setF Reg.SAF_AXSTAT_DRV_ONLINE n 0 (axisPut n { x with okRun := 0, lost := true } c)
    safShow (ss1 n c)
  else c

/-! ### SRST, R369, R370 -/

/-- R369: SRST has been high for tSRDB; a level high since the HSL left its reset state is no press. -/
def srstPress (c : Chip) : Chip :=
  if !c.powered || !c.logicUp || c.saf.press.isSome || c.saf.stale then c
  else setF Reg.SAF_SRST_HELD 0 1 { c with saf := { c.saf with press := some c.backup.ms, stuck := false } }

/-- R369: the press reaches 5,001 ms. -/
def srstStuck (c : Chip) : Chip :=
  match c.saf.press with
  | none => c
  | some t =>
    if c.saf.stuck || c.backup.ms < t + 5001 then c
    else
      let c := addSat Reg.SAF_SRST_STUCK_CNT 0 255 1 { c with saf := { c.saf with stuck := true } }
      flagEvent Reg.SAF_STAT_SRST_STUCK 0 Reg.SAF_STAT_EVT_CNT 0 0xFF [] c

/-- R370: the inputs that concern bay or axis `n` are run. -/
def inputsRun (n : Nat) (c : Chip) : Bool := [n, 16, 17].all fun k => !inputOn k c || !(safIn k c).dem

/-- R370: the axis is at or below V_STAND, if there is one. -/
def atRest (n : Nat) (c : Chip) : Bool :=
  !axisOn n c || speed8 n (axis n c) c ≤ 8 * getF Reg.SAF_AXLIM2_V_STAND n c

/-- R370: the conditions of every axis an input concerns. -/
def restOf (k : Nat) (c : Chip) : Bool := if k < 16 then atRest k c else (List.range 16).all fun n => atRest n c

/-- R370: pending manual demands and discrepancy faults whose condition is gone are cleared. -/
def restartInput (k : Nat) (c : Chip) : Chip :=
  let x := safIn k c
  if !inputOn k c || x.dem || !restOf k c then c
  else
    let c := if discFault k c && x.both then setBitF Reg.SAF_INFLT_DISC 0 k false c else c
    if discFault k c then c else safInPut k { x with pend := false } c

/-- R370: whether the fault of cause `j` of an axis can be cleared. -/
def faultGone (n j : Nat) (c : Chip) : Bool :=
  let x := axis n c
  inputsRun n c && atRest n c && !x.readBad &&
    (match x.encAt with
      | none => true
      | some t => t + 100 ≤ c.backup.ms) &&
    (match j with
      | 2 => !discFault n c && !discFault 16 c && !discFault 17 c
      | 9 => c.saf.scPassed && !c.saf.scTest && !c.saf.scHeld
      | 11 => c.pwr.vstoOk
      | _ => true)

/-- R370: the faults of an axis whose conditions are gone are cleared. -/
def restartAxis (n : Nat) (c : Chip) : Chip :=
  let f := axisFaults n c
  let left := (List.range 13).foldl (fun (m : BitVec 13) j =>
    if f.getLsbD j && !faultGone n j c then m ||| BitVec.ofNat 13 (2 ^ j) else m) 0
  let x := axis n c
  let c := axisPut n { x with moved := if left = 0 then 0 else x.moved } c
  { c with backup := { c.backup with safFaults := c.backup.safFaults.setIfInBounds n left } }

/-- R370: a restart edge. Items whose condition remains stay and set SRST_REF. -/
def restartEdge (c : Chip) : Chip :=
  let sc := c.saf.scFault && !(c.saf.scPassed && !c.saf.scTest)
  let c := { c with saf := { c.saf with scFault := sc } }
  let c := (List.range 18).foldl (fun c k => restartInput k c) c
  let c := mirrorPend ((List.range 16).foldl (fun c n => if axisOn n c then restartAxis n c else c) c)
  let left := c.saf.scFault || c.saf.scHeld || ((List.range 16).any fun n => axisFaults n c != 0) ||
    ((List.range 18).any fun k => inputOn k c && ((safIn k c).pend || discFault k c))
  let c := if left then flagF Reg.SAF_STAT_SRST_REF 0 0 Reg.SAF_STAT_EVT_CNT 0 c else c
  safShow c

/-- R369: the press ends; one that has reached 5,001 ms is stuck. `scEdge` says whether SC, too, classifies it as a restart edge. -/
def srstRelease (scEdge : Bool) (c : Chip) : Chip :=
  let c := srstStuck { c with saf := { c.saf with stale := false } }
  match c.saf.press with
  | none => c
  | some t =>
    let dur := c.backup.ms - t
    let stuck := c.saf.stuck
    let c := setF Reg.SAF_SRST_HELD 0 0 (setF Reg.SAF_SRST_LAST_MS 0 (min dur 65535)
      { c with saf := { c.saf with press := none, stuck := false } })
    if c.saf.on && !stuck && 200 ≤ dur && dur ≤ 5000 && (scEdge || !archDual c) then restartEdge c else c

/-! ### The safety core, R371 -/

/-- R371: an SC fault: cause 9 on every axis and no bay permission; a second one within 1 h is held until the next start. -/
def scFault (c : Chip) : Chip :=
  let again := match c.saf.scAt with
    | none => false
    | some t => decide (c.backup.ms < t + 3600000)
  safShow (allFault 9 { c with saf := { c.saf with
    scFault := true, scHeld := c.saf.scHeld || again, scAt := some c.backup.ms, scTest := true, scPassed := false } })

/-- R371: a lock-step mismatch: SC raises a TRIP flit; it is reset and runs its self-test. -/
def scMismatch (c : Chip) : Chip :=
  if !c.logicUp || c.saf.scTest then c
  else
    { c with saf := { c.saf with scTest := true, scPassed := false }
             bridge := { c.bridge with trips := c.bridge.trips ++ [.safety] } }

/-- R371: three heartbeats missed in a row. -/
def scHeartbeat (c : Chip) : Chip := if !c.powered || !c.saf.on || c.saf.scTest then c else scFault c

/-- R371: the self-test ends. -/
def scSelftest (pass : Bool) (c : Chip) : Chip :=
  if c.saf.scTest then { c with saf := { c.saf with scTest := false, scPassed := pass } } else c

/-! ### Reset, start and pause, R373, R374 -/

/-- R373: the HSL takes its reset state: STO on every axis, brake lines off, no safety permission; faults and pending manual
demands stay in their mirror. -/
def safetyReset (c : Chip) : Chip :=
  let inp := c.saf.inp.map fun x => ({ a := x.a, b := x.b } : SafIn)
  lswAll { c with
    saf := { inp := inp }
    hsl := { c.hsl with brake := Vector.replicate 16 false, safe := Vector.replicate 16 false } }

/-- R355: the registers of an input and of its axis take the SAFETY card. -/
def safetyRegs (k : Nat) (c : Chip) : Chip :=
  match cardPayload 0x0070 k c with
  | none => c
  | some p =>
    let c := setF Reg.SAF_INCFG_IN_EN k (Byte.u8 p 4) (setF Reg.SAF_INCFG_POL k (Byte.u8 p 5) c)
    let c := setF Reg.SAF_INCFG_STOP_CAT k (Byte.u8 p 8) (setF Reg.SAF_INCFG_RESTART k (Byte.u8 p 9) c)
    let c := setF Reg.SAF_INCFG_T_DISC k (Byte.u16 p 6) c
    if 16 ≤ k ∨ Byte.u8 p 0xA ≠ 1 then c
    else
      let c := setF Reg.SAF_AXCFG_AX_EN k 1 (setF Reg.SAF_AXCFG_DRV_PORT k (min (Byte.u8 p 0xB) 3) c)
      let c := setF Reg.SAF_AXCFG_DRV_NODE k (Byte.u8 p 0x18) (setF Reg.SAF_AXCFG_RES_UM k (Byte.u16 p 0xC) c)
      let c := setF Reg.SAF_AXLIM_DECEL k (Byte.u16 p 0xE) (setF Reg.SAF_AXLIM_T_LAG k (Byte.u16 p 0x10) c)
      let c := setF Reg.SAF_AXLIM_SPEED_MAX k (trumpU16 (0x78 + 2 * k) c) c
      let c := setF Reg.SAF_AXLIM2_V_TOL k (Byte.u16 p 0x12) (setF Reg.SAF_AXLIM2_V_STAND k (Byte.u16 p 0x14) c)
      setF Reg.SAF_AXLIM2_T_STAND k (Byte.u16 p 0x16) c

/-- R373, R374: the step "Cards applied": every axis at rest with STO applied, the mirrored faults and manual demands
restored, inputs evaluated. After a loss of the backup contents every configured axis has cause 12. -/
def safetyCards (srstHigh : Bool) (c : Chip) : Chip :=
  let c := (List.range 18).foldl (fun c k => safetyRegs k c) (setF Reg.SAF_ARCH_ARCH 0 (trumpU8 0x9C c) c)
  let pend := c.backup.safPend
  let inp := Vector.ofFn fun (k : Fin 18) =>
    ({ a := c.saf.inp[k].a, b := c.saf.inp[k].b, pend := pend.getLsbD k.val } : SafIn)
  let axes := Vector.ofFn fun (_ : Fin 16) => ({ rxAt := c.backup.ms } : Axis)
  let c := { c with saf := { on := true, inp := inp, axis := axes, stale := srstHigh } }
  let c := if getF Reg.PWR_BKSTAT_BK_LOST 0 c = 1 then allFault 12 c else c
  safShow ((List.range 18).foldl (fun c k => inputEval k c) c)

/-- R373: moving axes stop by SS1 at the start of the activation pause. -/
def safetyPause (c : Chip) : Chip := safShow ((List.range 16).foldl (fun c n => if axisOn n c then ss1 n c else c) c)

/-! ### The rows of the table -/

def execSafetyInputChange (k : Fin 18) (a b : Bool) (s : State) : Host.Outcome State Fault Refusal :=
  s.run (safetyInput k.val a b)
def execDiscrepancyTimeout (k : Fin 18) (s : State) : Host.Outcome State Fault Refusal := s.run (discrepancy k.val)
def execBrakeReleaseDelay (n : Fin 16) (s : State) : Host.Outcome State Fault Refusal := s.run (brakeRelease n.val)
def execSpeedCheck (ticks : Vector EncTick 16) (s : State) : Host.Outcome State Fault Refusal := s.run (speedCheck ticks)
def execStoTestPulse (n : Fin 16) (outB : Bool) (s : State) : Host.Outcome State Fault Refusal :=
  s.run (stoPulse n.val outB)
def execStoReadbackFault (n : Fin 16) (a b : Bool) (s : State) : Host.Outcome State Fault Refusal :=
  s.run (stoReadback n.val a b)
def execChannelDisagree (n : Fin 16) (s : State) : Host.Outcome State Fault Refusal := s.run (channelDisagree n.val)
def execAxcmdSend (n : Fin 16) (s : State) : Host.Outcome State Fault Refusal := s.run (axcmdPeriodic n.val)
def execAxstat (n : Fin 16) (msg : List Byte) (s : State) : Host.Outcome State Fault Refusal :=
  s.run (axstat n.val (Byte.nats msg))
def execDriveLinkLost (n : Fin 16) (s : State) : Host.Outcome State Fault Refusal := s.run (driveLost n.val)
def execSrstPressStart (s : State) : Host.Outcome State Fault Refusal := s.run srstPress
def execSrstRelease (scEdge : Bool) (s : State) : Host.Outcome State Fault Refusal := s.run (srstRelease scEdge)
def execSrstStuck (s : State) : Host.Outcome State Fault Refusal := s.run srstStuck
def execScMismatch (s : State) : Host.Outcome State Fault Refusal := s.run scMismatch
def execScHeartbeatLoss (s : State) : Host.Outcome State Fault Refusal := s.run scHeartbeat
def execScSelftestDone (pass : Bool) (s : State) : Host.Outcome State Fault Refusal := s.run (scSelftest pass)

end Sys2Proof.Machine
end

