-- ==== Sys2Proof/Machine/Bridge.lean ====
section
/-!
DEFINITION. What crosses the die bridge towards the HSL (R15, R17, R18, R20, R30): the TRIP flits, and the rows whose command is
a flit of a lower class, which leaves behind them.
-/

namespace Sys2Proof.Machine
open Sys2Proof

/-- R30, R274, R371: what a TRIP flit names. -/
def tripTake (t : TripReq) (c : Chip) : Chip :=
  match t with
  | .latch n kinds => latchTrip n kinds c
  | .safety => scFault c

/-- R17, R30: every TRIP flit that waits reaches the HSL, in enqueue order. -/
def tripDrain (c : Chip) : Chip :=
  c.bridge.trips.foldl (fun c t => tripTake t c) { c with bridge := { c.bridge with trips := [] } }

/-- R17, R18, R30: a flit of a lower class is delivered: every TRIP flit that waits has gone before it. -/
def afterTrips (c : Chip) : Chip := if c.bridgeUp then flitSent (tripDrain c) else c

/-- R15, R17, R20: a write whose command goes to the HSL. Without the bridge it is judged, and no command is issued (log entry
54); a refused one sends no flit. -/
def hslWrite (f : Chip → Chip × Status) (c : Chip) : Chip × Status :=
  let r := f c
  if !c.bridgeUp then (c, r.2) else if r.2 = .ok then f (afterTrips c) else r

/-- R333, R338, R360, R405: the writes of a host line, a channel's class, a speed and the column current at the HSL. -/
def lineCommand (who : Writer) (l mode onT offT : Nat) : Chip → Chip × Status := hslWrite (lineWrite who l mode onT offT)
def classCommand (who : Writer) (k v : Nat) : Chip → Chip × Status := hslWrite (classWrite who k v)
def speedCommand (who : Writer) (n mode v : Nat) : Chip → Chip × Status := hslWrite (speedWrite who n mode v)
def icolCommand (who : Writer) (v : Nat) : Chip → Chip × Status := hslWrite (icolWrite who v)

def lineRow (who : Writer) (l mode onT offT : Nat) (c : Chip) : Chip := asWriter who (lineCommand who l mode onT offT) c

def execLineModeOff (who : Writer) (l onT offT : Nat) (s : State) : Host.Outcome State Fault Refusal :=
  s.run (lineRow who l 0 onT offT)
def execLineModeOn (who : Writer) (l onT offT : Nat) (s : State) : Host.Outcome State Fault Refusal :=
  s.run (lineRow who l 1 onT offT)
def execLineModeBlink (who : Writer) (l onT offT : Nat) (s : State) : Host.Outcome State Fault Refusal :=
  s.run (lineRow who l 2 onT offT)
def execLswClassWrite (who : Writer) (k : Fin 48) (v : BitVec 3) (s : State) : Host.Outcome State Fault Refusal :=
  s.run (asWriter who (classCommand who k.val v.toNat))
def execSafSpdWrite (who : Writer) (n : Fin 16) (mode : BitVec 2) (v : BitVec 10) (s : State) :
    Host.Outcome State Fault Refusal := s.run (asWriter who (speedCommand who n.val mode.toNat v.toNat))
def execDspIcolWrite (who : Writer) (v : BitVec 9) (s : State) : Host.Outcome State Fault Refusal :=
  s.run (asWriter who (icolCommand who v.toNat))
/-- R29, R252, R320: a grant and a current allocation at the HSL. -/
def grantCommand (n : Nat) (c : Chip) : Chip := contactorGrant n (afterTrips c)
def allocationCommand (c : Chip) : Chip := allocationApply (afterTrips c)

def execContactorGrant (n : Fin 16) (s : State) : Host.Outcome State Fault Refusal := s.run (grantCommand n.val)
def execAllocationApply (s : State) : Host.Outcome State Fault Refusal := s.run allocationCommand

end Sys2Proof.Machine
end

