-- ==== Sys2Proof/Machine/Reset.lean ====
section
/-!
DEFINITION. What a reset leaves (R13, R47-R53, R76, R77): the reset state of the HSL, the reset of the logic die, its release,
the loss of the power die's supply; and what other chapters do at a restart, a power-fail warning and entry into STANDBY.
-/

namespace Sys2Proof.Machine
open Sys2Proof

/-! ### The HSL's reset state and the logic die's reset, R47-R53 -/

/-- R221: the backup domain stamps the meter time at which the HSL takes its reset state; an HSL that holds no trump card is in it
already. -/
def resetStamp (c : Chip) : Chip :=
  if c.hsl.trump.isSome then { c with backup := { c.backup with resetAt := c.backup.ms } } else c

/-- R48, R53, R93, R221: the HSL takes its reset state: gates, brakes and host lines off, pilots in F, no trump card held. -/
def hslReset (c : Chip) : Chip :=
  let c := discardCommits (lswReset (safetyReset (baysHslReset (resetStamp c))))
  setF Reg.DEV_TRUMP_STATE_HELD 0 0 { c with hsl := { c.hsl with trump := none } }

/-- R13, R77: the logic die is reset and held. What it keeps lies in the backup domain, in fuses, in the legal store, the
eMMC and the boot flash. Its first cause since the last start is kept; a cause that arises while it is held is not. -/
def logicReset (cause : Nat) (c : Chip) : Chip :=
  let c := tagLogicReset c
  { c with
    regs := [], snap := []
    pwr := { c.pwr with
      phase := .held
      firstCause := if c.pwr.phase = .held then c.pwr.firstCause else c.pwr.firstCause <|> some cause
      idleMs := 0, sbEntry := false, timerWake := false, svcStart := none, svcStale := none, svcDone := false
      bidOpen := none, mclkFail := 0, mclkGood := 0, mclkFault := false, bclkFail := 0, tclkFail := 0 }
    bridge := { c.bridge with toPower := {}, toLogic := {}, trips := [], downPower := false, downLogic := false }
    dlr := {}, sns := {}, mtr := Vector.replicate 64 {}, bil := {}, legal := {}, prt := {}
    bay := Vector.replicate 16 {}, canOff := Vector.replicate 2 false, lnk := {}
    deck := { c.deck with cards := [], loaded := none }
    upd := { hdr := c.upd.hdr, img := c.upd.img, fails := c.upd.fails
             ran := if c.pwr.phase = .held then c.upd.ran else getF Reg.UPD_STAT_TRIAL 0 c == 1 }
    hst := { resp := c.hst.resp }
    sec := { c.sec with root := false, slots := [], until_ := none, extest := false
                        mFw := List.replicate 32 0, mDeck := List.replicate 32 0 }
    nfc := {}
    mem := { dramGen := c.mem.dramGen + 1, free := c.mem.free }
    dsp := {} }

/-- R75: the start sequence waits before loading the deck while PFWARN_N is low. -/
def startHold (c : Chip) : Chip :=
  setF Reg.PWR_PFW_START_WAIT 0 1 { c with pwr := { c.pwr with phase := .startWait } }

/-- R76, R59, R525, R75, R100: the logic die leaves reset where nothing holds it; the start sequence is the next thing to run,
or waits for PFWARN_N. -/
def release (c : Chip) : Chip :=
  if c.pwr.phase ≠ .held ∨ c.pwr.resetLow ∨ c.pwr.bclkHold ∨ c.pwr.pllLost ∨ c.pwr.hold ∨ c.pwr.off ∨ !c.pwr.vpd5 then c
  else if c.pwr.pfLow then startHold c
  else { c with pwr := { c.pwr with phase := .startDue } }

/-- R19, R26, R105, R441, R464, R480: the device restarts. -/
def restart (cause : Nat) (c : Chip) : Chip := release (logicReset cause (hslReset c))

/-- R47, R253, R344, R348, R360: the power die loses its supply: what it holds is lost. -/
def powerDieLost (c : Chip) : Chip :=
  let c := lswLost (safetyReset (baysPowerLost (resetStamp c)))
  setF Reg.DEV_TRUMP_STATE_HELD 0 0 { c with
    hsl := { c.hsl with trump := none, latch := Vector.replicate 17 0 }, bridge := { c.bridge with trips := [] } }

/-- R346: a bank's outputs are off while its supply is absent. -/
def bankLost (_b : Fin 6) (c : Chip) : Chip := lswAll c

def bankBack (_b : Fin 6) (c : Chip) : Chip := lswAll c

/-! ### Power-fail warning, R72, R73, R509 -/

/-- R509: PFWARN_N recognised in the pending phase cancels the activation. -/
def pendCancel (c : Chip) : Chip :=
  if getF Reg.UPD_STAT_PENDING 0 c = 1 then eventF Reg.UPD_STAT_PENDING 0 0xFF [] (setF Reg.UPD_STAT_PENDING 0 0 c) else c

/-- R72, R417, R220: a recognised warning stops a legal waveform and a save; the final record follows. -/
def pfStart (c : Chip) : Chip := pendCancel (legalAbort (finalStart c))

/-- R73: the warning recovers. -/
def pfEnd (c : Chip) : Chip := legalRecover (finalStop c)

/-! ### Closing sessions, R59, R78, R326, R475 -/

/-- R326: a session closes by the device; the flow of a relayed one is closed towards its relay after the frames that wait. -/
def endSession (s : Nat) (c : Chip) : Chip :=
  let x := sess s c
  match x.relay with
  | none => sessClose s c
  | some f =>
    let c := sessClose s c
    match c.lnk.chain.flows[f]?.getD none with
    | some y => putFlow f (some { y with closing := true, txq := y.txq ++ x.tx }) c
    | none => c

/-! ### Power states, R63-R66, R526 -/

/-- R526: the idle timer runs in RUN with IDLE_S nonzero, while no vehicle link is in SLAC, matched or in session and no bulk
transfer is open. -/
def idleRuns (c : Chip) : Bool :=
  c.pwr.phase == .run && getF Reg.PWR_STATE_STATE 0 c == 1 && c.idleS != 0 &&
    ((List.range 16).all fun n => let st := getF Reg.LNK_VSTAT_STATE n c; st < 2 || 4 < st) &&
    ((List.range 6).all fun s => (sess s c).bulk.isNone)

/-- R65, R105, R434, R464: whether a bay holds contactor permission or has an active session hand. -/
def bayBusy (c : Chip) : Bool := (List.range 16).any fun n => (hslBay n c).gate || (bayGet n c).hand == some 0

/-- R65: STANDBY is refused. -/
def standbyForbidden (c : Chip) : Bool :=
  cardU8 0x0003 0 0 0 c != 1 || bayBusy c || getF Reg.UPD_STAT_PENDING 0 c == 1

/-- R59, R453, R474: the network sessions, 0-3, close. -/
def closeNetSessions (c : Chip) : Chip := (List.range 4).foldl (fun c s => endSession s c) c

/-- R493, R494, R497: a running transfer ends with `st` and appends its record to the completion queue. -/
def transferEnd (t : Nat) (st : Status) (c : Chip) : Chip :=
  match c.mem.te[t]?.getD none with
  | none => c
  | some x =>
    let r : CqRecord := { tag := x.tag, ch := t, status := st, bytes := 4 * x.moved }
    setF Reg.MEM_TE_STAT_STATE t 0 { c with mem := { c.mem with te := c.mem.te.setIfInBounds t none, cq := c.mem.cq ++ [r] } }

/-- R63, R401, R420, R474, R497: what is off in STANDBY stops: network sessions, reader, emissive panel, transfers. -/
def standbyStop (c : Chip) : Chip :=
  let c := readerStop (displayStandby (closeNetSessions (linksIdle { c with pwr := { c.pwr with sbAt := c.backup.ms } })))
  transferEnd 1 .state (transferEnd 0 .state c)

/-- R66: a billing-timer wake ends: with its boundary actions done and its save complete, the device returns to STANDBY. -/
def timerWakeDone (c : Chip) : Chip :=
  if c.pwr.timerWake && getF Reg.PWR_STATE_STATE 0 c == 2 && c.bil.due.isEmpty && c.bil.save.isNone then
    standbyStop (setF Reg.PWR_STATE_STATE 0 3 { c with pwr := { c.pwr with timerWake := false } })
  else c

/-! ### Sessions closed at once, R59, R78, R475 -/

/-- R78, R474: every session closes; a running Auction or handover ends without a winner. -/
def closeAllSessions (c : Chip) : Chip :=
  let c := (List.range 6).foldl (fun c s => endSession s c) c
  { c with hst := { c.hst with decl := none, target := none, auct := none, bids := 0 } }

/-- R78, R475: settings of the host ports changed by KHP return to their deck values. -/
def hostSettingsToDeck (c : Chip) : Chip := setF Reg.HST_CTL_NET_OFF 0 0 c

end Sys2Proof.Machine
end

