-- ==== Sys2Proof/Machine/Restore.lean ====
section
/-!
DEFINITION. The legal store at a start (R217, R222-R226, R258): the working copy, the energy folded into it, the steps of a
restore, the tamper occurrences registered in HOLD and the sessions that a reset interrupted.
-/

namespace Sys2Proof.Machine
open Sys2Proof

/-- R223: the working copy with the newer sequence number. -/
def newestCopy (st : LegalStore) : Option WorkCopy :=
  match st.copies[0], st.copies[1] with
  | some a, some b => if a.seq < b.seq then some b else some a
  | some a, none => some a
  | none, b => b

/-- R223: a store with no valid format is initialised, in PROVISIONED or SERVICE: every register zero, period 1. -/
def storeInit (c : Chip) : Chip :=
  let copy : WorkCopy := { seq := 1, mt := c.backup.ms, sets := Vector.replicate 17 {}, ivl := Vector.replicate 17 (0, 0)
                           ivlIdx := 0, tariff := 0, period := 1 }
  { c with store := { c.store with
    formatted := true, period := 1, perStart := wallMs c, perFlags := 0
    perIdx := if c.backup.wallValid then some (periodIdx c.wall c) else none
    copies := #v[some copy, none], finals := #v[none, none] } }

/-- R220: the newest final record that adds to a working copy: the one with the later meter time. -/
def newestFinal (w : WorkCopy) (st : LegalStore) : Option FinalRec :=
  let fits := fun (r : Option FinalRec) => r.filter fun r => r.seq == w.seq
  match fits st.finals[0], fits st.finals[1] with
  | some a, some b => if a.mt < b.mt then some b else some a
  | some a, none => some a
  | none, b => b

/-- R221, R222: the tags of a bank are those of a working copy. -/
def tagsMatch (w : WorkCopy) (b : ResidBank) : Bool := b.index == w.ivlIdx && b.tariff == w.tariff && b.period == w.period

/-- The energy since the working copy (R222): the bank that was filled first, the one filled last, the
span in ms that BOUND covers, and whether the residual accumulators of the backup domain are the source. -/
structure RestoreSrc where
  first : Option ResidBank := none
  last  : ResidBank := {}
  span  : Nat := 0
  resid : Bool := false
  deriving DecidableEq, Repr, Inhabited

/-- R222: two banks, `on` saying which is in use, as a source. The other one, where it holds energy, was filled first. -/
def bankSrc (banks : Vector ResidBank 2) (on : Bool) : RestoreSrc :=
  let old := if on then banks[0] else banks[1]
  { first := if bankEmpty old then none else some old, last := if on then banks[1] else banks[0] }

/-- R222: whether banks hold the energy since a copy: the tags of one of them match. -/
def banksFit (w : WorkCopy) (banks : Vector ResidBank 2) : Bool := banks.toList.any (tagsMatch w)

/-- R222: the source of the energy since the working copy: the residual banks where the backup contents are intact and their tags
match, else the newest final record, else none. -/
def restoreSrc (w : WorkCopy) (c : Chip) : RestoreSrc :=
  if !c.backup.lost && banksFit w c.backup.banks then { bankSrc c.backup.banks c.backup.bankOn with resid := true }
  else match newestFinal w c.store with
    | some r => { bankSrc r.banks r.bankOn with span := 6 }
    | none => { last := { index := w.ivlIdx, tariff := w.tariff, period := w.period }, span := 60100 }

/-- R222: Pmax times a span in ms, in 0.1 Wh rounded up: VFS in mV and IFS in µA of every billing element. -/
def lossBound (ms : Nat) (c : Chip) : Nat :=
  let p := (List.range 64).foldl (fun a e =>
    if elemBilling e c then a + cardU32 0x0013 e 4 0 c * cardU32 0x0013 e 8 0 c else a) 0
  let den := 4 * 360 * 10 ^ 12
  min ((9 * p * ms + den - 1) / den) 0xFFFFFF

/-- R222: the energies of a bank join the registers under a tariff. -/
def foldBank (tariff : Nat) (b : ResidBank) (c : Chip) : Chip :=
  (List.range 17).foldl (fun c s =>
    applyTake tariff { elem := 0, set := s, en := b.en[s]?.getD (Vector.replicate 8 0), at_ := 0, inv := false } c) c

/-- R216, R217: the actions of a boundary at a restore. Of actions that had run before the cut the period is already closed: its
maximum demands are cleared again, as the working copy holds them from before. -/
def dueRestore (d : Due) (c : Chip) : Chip :=
  let c := demandEnd d c
  if d.periods = 0 then c
  else if d.number = c.store.period then periodClose { d with restore := true } c
  else { c with bil := { c.bil with sets := c.bil.sets.map mdClear } }

/-- R217, step 1: the actions that the final record marks run; BIL_STAT.PEND_DONE is set where one was pending. -/
def restorePending (due : List Due) (c : Chip) : Chip :=
  let c := due.foldl (fun c d => dueRestore d c) c
  if due.any fun d => !d.done then flagF Reg.BIL_STAT_PEND_DONE 0 0 Reg.BIL_STAT_EVT_CNT 0 c else c

/-- R217, step 2: the demand interval running at the cut closes short at the last billed cycle end. -/
def cutInterval (tariff : Nat) (last : Int) (c : Chip) : Chip :=
  let ms := (last / 65536).toNat
  demandEnd {
    at_ := last, mt := ms, tariff := tariff, demand := true, short := true, wallOk := c.backup.wallValid
    wall := if c.backup.wallValid then ((ms : Int) + c.backup.wallOff).toNat else 0 } c

/-- R222, R217: the energies since the working copy join the registers, each under the tariff of its bank, with the marked actions
between the two. DESIGN CHOICE: where the banks stand under different tags and no record marks the actions between them, the
earlier interval closes short (log 63). -/
def foldBanks (src : RestoreSrc) (due : List Due) (c : Chip) : Chip :=
  let c := match src.first with
    | none => restorePending due c
    | some b =>
      let c := foldBank b.tariff b c
      if due.isEmpty then cutInterval b.tariff b.lastEnd c else restorePending due c
  foldBank src.last.tariff src.last { c with bil := { c.bil with tariff := src.last.tariff } }

/-- R222: TAIL_MS: from the reset stamp of the backup domain to the last billed cycle end; 255 where the residual accumulators are
not the source. -/
def restoreTail (src : RestoreSrc) (last : Int) (c : Chip) : Nat :=
  if src.resid then (min ((65536 * (c.backup.resetAt : Int) - last + 65535) / 65536) 255).toNat else 255

/-- R219: the save that follows the steps of a restore; the start sequence holds it whole. -/
def restoreSave (w : WorkCopy) (c : Chip) : Chip :=
  let slot := if (c.store.copies[0].map (·.seq)) = some w.seq then 1 else 0
  let copy : WorkCopy := { seq := w.seq + 1, mt := c.backup.ms, sets := c.bil.sets, ivl := c.bil.ivl
                           ivlIdx := c.bil.ivlIdx, tariff := c.bil.tariff, period := c.store.period }
  let b : ResidBank := { index := c.bil.ivlIdx, tariff := c.bil.tariff, period := c.store.period }
  { c with
    store := { c.store with copies := c.store.copies.setIfInBounds slot (some copy), lastMt := c.backup.ms }
    backup := { c.backup with banks := #v[b, {}], bankOn := false, lost := false, gap := false, cut := false }
    bil := { c.bil with saveAt := c.backup.ms, perSaveAt := c.backup.ms, saveSlot := slot, ready := true } }

/-- R217, step 3, R205, R213: what fell in the outage: overrides that began or ended, and period ends, which close now. -/
def outageEnds (c : Chip) : Chip :=
  let c := if c.backup.wallValid then behindCheck { c with store := overridesAt c.wall c.store } else c
  let here : Due := { at_ := nowFine c, mt := c.backup.ms, wall := wallMs c, wallOk := c.backup.wallValid
                      tariff := c.bil.tariff, number := c.store.period, periods := periodsDue c, restore := true }
  setTariff (periodClose here c)

/-- R217, step 5: the demand interval running at restore is short and ends at its grid point. -/
def restoreInterval (c : Chip) : Chip :=
  { c with bil := { c.bil with ivlIdx := intervalIdx c, ivlShort := true, ivlAt := c.backup.ms } }

/-- R222, R217: the working copy is loaded, the energy since it folded in, and the steps of a restore run. `init` says that the
store has just been initialised, with no interval running at the cut. -/
def restoreFrom (init : Bool) (w : WorkCopy) (c : Chip) : Chip :=
  let src := restoreSrc w c
  let bound := lossBound src.span c
  let last := max src.last.lastEnd ((src.first.map (·.lastEnd)).getD 0)
  let c := setF Reg.BIL_LOSS_BOUND 0 bound (setF Reg.BIL_LOSS_TAIL_MS 0 (restoreTail src last c) c)
  let due := ((newestFinal w c.store).map (·.due)).getD []
  let c := foldBanks src due { c with
    bil := { c.bil with sets := w.sets, ivl := w.ivl, ivlIdx := w.ivlIdx, tariff := w.tariff } }
  let c := outageEnds (if init then c else cutInterval src.last.tariff last c)
  let c := if c.backup.cut then tamperPut 6 (bound + if c.backup.gap then 2 ^ 31 else 0) (wallMs c / 1000) c.backup.ms c else c
  restoreSave w (lateTamper (restoreInterval c))

/-- R223, R224: the legal store is read and reconciled. A gap in meter time is reported first. -/
def restoreLegal (c : Chip) : Chip :=
  let c := if c.backup.gap then
      eventF Reg.BIL_STAT_MT_GAP 0 0xFF (Byte.le 8 c.backup.ms) (flagF Reg.BIL_STAT_MT_GAP 0 0 Reg.BIL_STAT_EVT_CNT 0 c)
    else c
  let init := !c.store.formatted && (lifecycle c == 1 || lifecycle c == 3)
  let c := if init then storeInit c else c
  let c := match newestCopy c.store with
    | none => { c with bil := { c.bil with lsFail := true } }
    | some w => restoreFrom init w c
  publishBilling c

/-- R258: a session that had its start reading when the device was reset ends with reason 0x10, and its stop reading is taken
from the restored totals. -/
def sessionsCut (c : Chip) : Chip :=
  if !c.bil.ready then c
  else (List.range 16).foldl (fun c n =>
    match c.store.sessions[n]?.getD none with
    | none => c
    | some (number, imp) =>
      let r : ReadState := { number := number, startImp := imp, openAt := some 0 }
      let c := { c with bil := { c.bil with done := c.bil.done.setIfInBounds n [r] } }
      let c := { c with legal := { c.legal with lastEnd := some n } }
      let c := bayPut n { bayGet n c with closing := true } (setF Reg.BAY_STATE_REASON n 0x10 c)
      stopReadingRun n (flagF Reg.BAY_EVT_SESS_END n 0 Reg.BAY_EVT_EVT_CNT n c)) c

end Sys2Proof.Machine
end

