-- ==== Sys2Proof/Machine/Cards.lean ====
section
/-!
DEFINITION. The cards of a deck (R83-R91): the format each home chapter gives its card, the rules that relate two or more
cards (R523), the bounds against the trump limits and the content held to the sealed copy (R98, R155, R166, R227, R422).
-/

namespace Sys2Proof.Machine
open Sys2Proof

/-! ### The format of a card, R84-R86 -/

/-- A field with its stated range: an unsigned number of `size` bytes, a signed one of 4 bytes, or the two halves of a byte. -/
inductive Rng where
  | uns (off size lo hi : Nat)
  | sig (off : Nat) (lo hi : Int)
  | half (off lo hi : Nat)
  deriving DecidableEq, Repr

/-- The number of `n` bytes at offset `o`. -/
def Byte.at (p : List Nat) (o n : Nat) : Nat := Byte.num (Byte.slice p o n)

def Rng.ok (p : List Nat) : Rng → Bool
  | .uns o n lo hi => lo ≤ Byte.at p o n && Byte.at p o n ≤ hi
  | .sig o lo hi => lo ≤ Byte.s32 p o && Byte.s32 p o ≤ hi
  | .half o lo hi =>
    let b := Byte.u8 p o
    lo ≤ b % 16 && b % 16 ≤ hi && lo ≤ b / 16 && b / 16 ≤ hi

def u (off size lo hi : Nat) : Rng := .uns off size lo hi
def sg (off : Nat) (lo hi : Int) : Rng := .sig off lo hi
def arr (off size cnt lo hi : Nat) : List Rng := (List.range cnt).map fun k => .uns (off + size * k) size lo hi
def nibbles (off cnt lo hi : Nat) : List Rng := (List.range cnt).map fun k => .half (off + k) lo hi

/-- The card length: fixed, or given by the payload's counts, or free. -/
inductive CardLen where
  | fixed (n : Nat)
  | count (f : List Nat → Nat)
  | free

/-- A card type: instances, whether it is sealed, its length, and what its payload must satisfy (identifiers under R5, then
field ranges, then the relations among its own fields). -/
structure CardSpec where
  type  : Nat
  inst  : Option Nat := none
  isSealed : Bool := false
  len   : CardLen
  rngs  : List Rng := []
  ids   : List Nat → Bool := fun _ => true
  extra : List Nat → Bool := fun _ => true

/-- R87: the DECK_HEAD card. -/
def specHead : CardSpec := { type := 0x0001, len := .fixed 48, rngs := [u 0x1F 1 0 0] }

/-- R166, R22: METRO_PROG; its payload is a program of any length behind its version. -/
def specMetro : CardSpec := { type := 0x0012, isSealed := true, len := .free }

/-- R87: the SIGNATURE card. DESIGN CHOICE (log entry 56): with an ALG that is neither 1 nor 2 the length required is 80, judged
before the range of ALG. -/
def specSig : CardSpec :=
  { type := 0x7FFF, len := .count fun p => if Byte.u8 p 0 = 2 then 112 else 80
    rngs := [u 0 1 1 2, u 1 1 0 3, u 2 2 0 0] }

/-- R91: the trump card. -/
def specTrump : CardSpec :=
  { type := 0x0002, len := .fixed 172, rngs :=
      arr 0x00 2 16 0 2000 ++ arr 0x20 2 16 1 2000 ++ [u 0x40 2 0 65535, u 0x42 2 0 65535] ++ nibbles 0x44 24 0 6 ++
      [u 0x62 2 0 0] ++ arr 0x64 1 17 0 60 ++ [u 0x75 1 0 3, u 0x76 2 0 0] ++ arr 0x78 2 16 0 1000 ++
      [u 0x98 2 0 511, u 0x9A 2 0 1000, u 0x9C 1 1 2] ++ arr 0x9D 1 3 0 0
    extra := fun p => popCount 16 (Byte.u16 p 0x42) ≤ 4 &&
      (Byte.u16 p 0x42 &&& Byte.u16 p 0x40) == Byte.u16 p 0x42 }

/-- R94: the power policy card. -/
def specPower : CardSpec :=
  { type := 0x0003, len := .fixed 20, rngs := [u 0 1 0 1, u 1 1 0 0, u 2 2 0 3600, u 4 2 1 100, u 6 2 0 255]
    extra := fun p => (Byte.u16 p 6) &&& 0xA0 == 0xA0 }

/-- R130: the DEALER card. -/
def specDealer : CardSpec :=
  { type := 0x00D0, len := .fixed 40, rngs := arr 0 1 24 1 15 ++ [u 0x18 2 64 16384, u 0x1A 2 0 0] }

/-- R136, R137, R138: the STREAM card. The sensor is one the role admits, the integrator and the quadrature response go
with sensor and role, and BAY and POLE belong to roles 3 and 6. -/
def specStream : CardSpec :=
  { type := 0x0010, inst := some 96, len := .fixed 36, rngs :=
      [u 2 2 0 0, u 4 1 0 4, u 5 1 1 7, u 8 1 3 5, u 9 1 0 1, u 0xA 1 0 2, u 0xB 1 0 3, u 0xE 1 0 63, u 0xF 1 0 0,
       u 0x10 2 0 16383, u 0x12 2 0 16383, u 0x16 2 0 0]
    ids := fun p => (Byte.u8 p 6 ≤ 15 || Byte.u8 p 6 == 0xFF) && Byte.u16 p 0x14 ≤ 63
    extra := fun p =>
      let sensor := Byte.u8 p 4
      let role := Byte.u8 p 5
      let bay := Byte.u8 p 6
      let k := Byte.u8 p 0xC
      ((role == 1 && sensor == 0) || (role == 2 && (sensor == 1 || sensor == 2 || sensor == 3)) ||
        (role == 3 && (sensor == 2 || sensor == 4)) || (role == 4 && sensor == 0) ||
        (role == 5 && (sensor == 1 || sensor == 4)) || (role == 6 && sensor == 0) || (role == 7 && sensor == 0)) &&
      (if role == 3 || role == 6 then bay ≤ 15 else bay == 0xFF) &&
      (if role == 6 then Byte.u8 p 7 ≤ 1 else Byte.u8 p 7 == 0) &&
      (if role == 1 || role == 7 then true else Byte.u8 p 0xB == 0) &&
      (if sensor == 3 then 12 ≤ k && k ≤ 20 else k == 0) &&
      (Byte.u8 p 0xD == 50 || Byte.u8 p 0xD == 60) }

/-- R164, R163: the ELEMENT card; a billing element's index follows from its owner and phase. -/
def specElement : CardSpec :=
  { type := 0x0011, inst := some 64, len := .fixed 40, rngs :=
      [u 2 2 0 0, u 4 1 1 3, u 8 1 0 2, u 0xA 1 0 1, u 0xB 1 0 1, u 0xC 1 0 1, u 0xD 1 1 20, u 0xE 2 1000 10000,
       u 0x16 2 0 4000]
    ids := fun p => Byte.u8 p 5 ≤ 95 && Byte.u8 p 6 ≤ 95 && (Byte.u8 p 7 ≤ 16 || Byte.u8 p 7 == 0xFF) &&
      (Byte.u8 p 9 ≤ 63 || Byte.u8 p 9 == 0xFF)
    extra := fun p =>
      let kind := Byte.u8 p 4
      let tol := Byte.u16 p 0x12
      let cyc := Byte.u16 p 0x14
      (kind == 3 || Byte.u16 p 0 == 3 * Byte.u8 p 7 + Byte.u8 p 8) && (Byte.u8 p 9 ≤ 50 || Byte.u8 p 9 == 0xFF) &&
      (if kind == 3 then Byte.u8 p 7 == 0xFF && Byte.u8 p 9 != 0xFF && 1 ≤ tol && tol ≤ 500 && 10 ≤ cyc && cyc ≤ 3000
        else Byte.u8 p 7 != 0xFF && Byte.u8 p 9 == 0xFF && tol == 0 && cyc == 0) &&
      (kind == 1 || Byte.u8 p 8 == 0) &&
      (if Byte.u16 p 0x16 == 0 then Byte.u32 p 0x18 == 0 else 1 ≤ Byte.u32 p 0x18 && Byte.u32 p 0x18 ≤ 1000000) }

/-- R167: the CALIB card. -/
def specCalib : CardSpec :=
  { type := 0x0013, inst := some 64, isSealed := true, len := .fixed 40, rngs :=
      [u 2 2 0 0, u 4 4 1000 2000000, u 8 4 1000 1000000000, u 0xC 4 0x20000000 0x60000000,
       sg 0x14 (-134217728) 134217728, sg 0x18 (-134217728) 134217728]
    extra := fun p => let g := (Byte.s32 p 0x10).natAbs; 0x20000000 ≤ g && g ≤ 0x60000000 }

/-- R201: the length of a TARIFF card from its counts. -/
def tariffLen (p : List Nat) : Nat :=
  (16 + 48 * Byte.u8 p 0xC + 10 * Byte.u8 p 0xD + 4 * Byte.u8 p 0xE + 3) / 4 * 4 + 12

/-- R201, R202: one end of summer time; MONTH 0 only as four zero bytes. -/
def dstOk (p : List Nat) (o : Nat) : Bool :=
  if Byte.u8 p o == 0 then Byte.u32 p o == 0
  else Byte.u8 p o ≤ 12 && 1 ≤ Byte.u8 p (o + 1) && Byte.u8 p (o + 1) ≤ 5 && 1 ≤ Byte.u8 p (o + 2) &&
    Byte.u8 p (o + 2) ≤ 7 && Byte.u8 p (o + 3) ≤ 23

/-- R202: the switch points of one day profile. `prev` is the last MINUTE used, `done` says an unused point was seen. -/
def profileOk (p : List Nat) (dmin : Nat) : List Nat → Option Nat → Bool → Bool
  | [], _, _ => true
  | o :: os, prev, done =>
    let m := Byte.u16 p o
    let t := Byte.u8 p (o + 2)
    if t == 0 then prev.isSome && m ≤ 1439 && m % dmin == 0 && Byte.u8 p (o + 3) == 0 && profileOk p dmin os prev true
    else
      !done && t ≤ 8 && m ≤ 1439 && m % dmin == 0 && Byte.u8 p (o + 3) == 0 &&
      (match prev with
        | none => m == 0
        | some q => q < m) && profileOk p dmin os (some m) false

/-- Strictly ascending. -/
def ascending : List Nat → Bool
  | a :: b :: rest => a < b && ascending (b :: rest)
  | _ => true

/-- R202: the checks on a TARIFF card, given DEMAND_MIN. -/
def tariffOk (dmin : Nat) (p : List Nat) : Bool :=
  let nd := Byte.u8 p 0xC
  let ns := Byte.u8 p 0xD
  let nx := Byte.u8 p 0xE
  let season := 16 + 48 * nd
  let special := season + 10 * ns
  let ofs := Byte.s16 p 0
  let days := (List.range nx).map fun k => Byte.u24 p (special + 4 * k)
  ofs ≤ 840 && -720 ≤ ofs && ofs % 15 == 0 && Byte.u16 p 2 ≤ 120 && Byte.u16 p 2 % 15 == 0 &&
  dstOk p 4 && dstOk p 8 && ((Byte.u8 p 4 == 0) == (Byte.u8 p 8 == 0)) && Byte.u8 p 0xF == 0 &&
  ((List.range nd).all fun d => profileOk p dmin ((List.range 12).map fun k => 16 + 48 * d + 4 * k) none false) &&
  ((List.range ns).all fun k =>
    let o := season + 10 * k
    1 ≤ Byte.u8 p o && Byte.u8 p o ≤ 12 && 1 ≤ Byte.u8 p (o + 1) && Byte.u8 p (o + 1) ≤ 31 &&
    ((List.range 7).all fun w => Byte.u8 p (o + 2 + w) < nd) && Byte.u8 p (o + 9) == 0) &&
  ascending ((List.range ns).map fun k => 32 * Byte.u8 p (season + 10 * k) + Byte.u8 p (season + 10 * k + 1)) &&
  ((List.range nx).all fun k =>
    let o := special + 4 * k
    1 ≤ Byte.u8 p (o + 1) && Byte.u8 p (o + 1) ≤ 12 && 1 ≤ Byte.u8 p (o + 2) && Byte.u8 p (o + 2) ≤ 31 &&
    Byte.u8 p (o + 3) < nd) && days.eraseDups.length == days.length &&
  (p.drop (special + 4 * nx)).all (· == 0)

/-- R201, R202: the TARIFF card; the relations to DEMAND_MIN are cross-card checks. -/
def specTariff : CardSpec :=
  { type := 0x0020, len := .count tariffLen, rngs := [u 0xC 1 1 16, u 0xD 1 1 4, u 0xE 1 0 64]
    extra := tariffOk 1 }

/-- R207: the BILLING card. -/
def specBilling : CardSpec :=
  { type := 0x0021, len := .fixed 20, rngs := [u 0 1 1 60, u 1 1 1 3, u 3 1 0 0, u 4 2 0 1439, u 6 2 0 0]
    extra := fun p =>
      let d := Byte.u8 p 0
      let day := Byte.u8 p 2
      60 % d == 0 && Byte.u16 p 4 % d == 0 &&
      (match Byte.u8 p 1 with
        | 1 => day == 0
        | 2 => 1 ≤ day && day ≤ 7
        | _ => 1 ≤ day && day ≤ 28) }

/-- R227: the TAMPER card. -/
def specTamper : CardSpec :=
  { type := 0x0022, len := .fixed 16, rngs := [u 0 1 0 15, u 1 1 0 15]
    extra := fun p => Byte.u16 p 2 == 0 || (10 ≤ Byte.u16 p 2 && Byte.u16 p 2 ≤ 500) }

/-- R233, R234: one item of the legal display sequence; the rest item has DWELL 0. -/
def itemOk (p : List Nat) (rest : Bool) (o : Nat) : Bool :=
  let d := Byte.u8 p (o + 2)
  1 ≤ Byte.u8 p o && Byte.u8 p o ≤ 0x0B && (Byte.u8 p (o + 1) ≤ 16 || Byte.u8 p (o + 1) == 0xFE) &&
  (if rest then d == 0 else 1 ≤ d && d ≤ 60) && Byte.u8 p (o + 3) ≤ 8

/-- R233: the LEGAL_SEQ card. -/
def specLegalSeq : CardSpec :=
  { type := 0x0023, len := .count fun p => 20 + 4 * Byte.u8 p 0, rngs := [u 0 1 0 64, u 1 1 0 0, u 3 1 0 0]
    extra := fun p => (Byte.u8 p 2 ≤ 7 || Byte.u8 p 2 == 0xFF) && itemOk p true 4 &&
      (List.range (Byte.u8 p 0)).all fun k => itemOk p false (8 + 4 * k) }

/-- R238, R239: the BAY card. -/
def specBay : CardSpec :=
  { type := 0x0030, inst := some 16, len := .fixed 44, rngs :=
      [u 2 2 0 0, u 4 1 1 3, u 5 1 0 1, u 7 1 0 47, u 8 1 0 1, u 0xB 1 0 1, u 0x10 2 100 5000, u 0x12 2 20 500,
       u 0x14 2 20 500, u 0x16 2 1000 10000, u 0x18 2 0 3600, u 0x1A 2 0 1440, u 0x1C 1 0 2, u 0x1D 1 0 1,
       u 0x1E 1 0 1, u 0x1F 1 0 0]
    extra := fun p =>
      let ty := Byte.u8 p 4
      let pp := Byte.u8 p 5
      let lch := Byte.u8 p 9
      let lfb := Byte.u8 p 0xA
      let imax := Byte.u16 p 0xC
      let idef := Byte.u16 p 0xE
      (if ty != 3 && pp == 0 then 6 ≤ Byte.u8 p 6 && Byte.u8 p 6 ≤ 32 else Byte.u8 p 6 == 0) &&
      (lch ≤ 47 || lch == 0xFF) && (lfb ≤ 7 || lfb == 0xFF) &&
      (if ty == 3 then 10 ≤ imax && imax ≤ 6000 && idef == 0
        else 60 ≤ imax && imax ≤ 320 && (idef == 0 || (60 ≤ idef && idef ≤ imax))) &&
      !(pp == 0 && (lch != 0xFF || lfb != 0xFF)) && !(lfb != 0xFF && lch == 0xFF) &&
      !(Byte.u8 p 0xB == 1 && Byte.u8 p 0x1C == 0) &&
      !(ty == 3 && (Byte.u8 p 0x1C != 2 || Byte.u8 p 0x1D == 1 || pp == 1)) }

/-- R265: the DC_STACK card. -/
def specDcStack : CardSpec :=
  { type := 0x0031, inst := some 16, len := .fixed 28, rngs :=
      [u 2 2 0 0, u 4 1 0 1, u 5 1 0 15, u 6 1 1 2, u 7 1 1 2, u 8 2 50 1000, u 0xA 2 1 3500, u 0xC 2 500 10000,
       u 0xE 2 0 0] }

/-- R275: the PROTECT card. The fields that depend on the kind of bay are cross-card checks. -/
def specProtect : CardSpec :=
  { type := 0x0040, inst := some 17, len := .fixed 40, rngs :=
      [u 2 2 0 0, u 0xC 1 0 1, u 0xD 1 0 3, u 0x19 1 0 0] }

/-- R304: the VLINK card. -/
def specVlink : CardSpec :=
  { type := 0x0050, len := .fixed 24, rngs :=
      [u 0 1 1 7, u 1 1 0 1, u 2 1 1 3, u 3 1 0 0, u 4 2 20 50, u 6 2 2 60, u 8 2 4 10, u 0xA 2 0 0] }

/-- R327: the CHAIN card. -/
def specChain : CardSpec :=
  { type := 0x0051, len := .fixed 24, rngs :=
      [u 0 1 0 1, u 2 1 0 3, u 3 1 12 96, u 4 1 24 200, u 5 1 0 2, u 6 2 10 30000, u 8 1 0 1, u 9 1 0 0,
       u 0xA 2 1024 65535]
    extra := fun p => Byte.u8 p 3 % 12 == 0 && (Byte.u8 p 4 - 12) % Byte.u8 p 3 == 0 }

/-- R334: the LSW card. SRC_IDX goes with KIND, INVERT with KIND 0. -/
def specLsw : CardSpec :=
  { type := 0x0060, inst := some 48, len := .fixed 32, rngs :=
      [u 2 2 0 0, u 4 1 0 2, u 7 1 0 4, u 8 1 0 6, u 9 1 0 1, u 0xA 1 0 100, u 0xB 1 20 80, u 0xD 1 0 7,
       u 0xE 2 1 6000, u 0x10 1 0 1, u 0x11 1 0 0, u 0x12 2 0 0]
    extra := fun p => Byte.u8 p 5 ≤ (match Byte.u8 p 4 with
      | 0 => 7
      | 1 => 31
      | _ => 47) && (if Byte.u8 p 4 == 0 then Byte.u8 p 6 ≤ 1 else Byte.u8 p 6 == 0) &&
      (Byte.u8 p 0xC == 0 || (5 ≤ Byte.u8 p 0xC && Byte.u8 p 0xC ≤ 100)) }

/-- R355, R356: the SAFETY card. The fields of an axis with AX_EN 0 are zero; V_STAND is below V_TOL. -/
def specSafety : CardSpec :=
  { type := 0x0070, inst := some 18, len := .fixed 40, rngs :=
      [u 2 2 0 0, u 4 1 0 1, u 5 1 0 1, u 6 2 5 500, u 8 1 0 1, u 9 1 0 1, u 0xA 1 0 1, u 0x19 1 0 0, u 0x1A 2 0 0]
    extra := fun p =>
      (!(16 ≤ Byte.u16 p 0) || (Byte.u8 p 9 == 1 && Byte.u8 p 0xA == 0)) &&
      (if Byte.u8 p 0xA == 0 then (List.range 14).all fun j => Byte.u8 p (0xB + j) == 0
        else (Byte.u8 p 0xB ≤ 1 || Byte.u8 p 0xB == 0xFF) && 1 ≤ Byte.u16 p 0xC && Byte.u16 p 0xC ≤ 1000 &&
          50 ≤ Byte.u16 p 0xE && Byte.u16 p 0xE ≤ 20000 && 2 ≤ Byte.u16 p 0x10 && Byte.u16 p 0x10 ≤ 100 &&
          5 ≤ Byte.u16 p 0x12 && Byte.u16 p 0x12 ≤ 200 && 1 ≤ Byte.u16 p 0x14 && Byte.u16 p 0x14 ≤ 50 &&
          5 ≤ Byte.u16 p 0x16 && Byte.u16 p 0x16 ≤ 500 && Byte.u8 p 0x18 ≤ 15 && Byte.u16 p 0x14 < Byte.u16 p 0x12 &&
          !(Byte.u8 p 0xB == 0xFF && Byte.u8 p 8 == 1)) }

/-- R400: the READER card. -/
def specReader : CardSpec :=
  { type := 0x0080, len := .fixed 36, rngs :=
      [u 0 1 0 1, u 1 1 0 2, u 2 2 100 1000, u 4 1 1 3, u 6 1 0 1, u 7 1 0 0]
    extra := fun p =>
      let l := Byte.u8 p 5
      (if l == 0 then !(Byte.u8 p 4).testBit 1 else 5 ≤ l && l ≤ 16) &&
        (List.range 16).all fun k => k < l || Byte.u8 p (8 + k) == 0 }

/-- R400: the CRED card. -/
def specCred : CardSpec :=
  { type := 0x0081, len := .fixed 52, rngs :=
      [u 0 1 0 1, u 1 1 0 2, u 2 1 0 3, u 3 1 0 0, u 4 2 100 10000, u 6 2 0 120] }

/-- R421: the PANEL_E card. -/
def specPanelE : CardSpec :=
  { type := 0x0090, len := .fixed 20, rngs := [u 0 1 0 1, u 1 1 0 0, u 4 2 0 511, u 6 2 0 0]
    extra := fun p => Byte.u16 p 2 ≤ Byte.u16 p 4 }

/-- R422: the PANEL_L card. -/
def specPanelL : CardSpec :=
  { type := 0x0091, len := .fixed 132, rngs :=
      [u 0 1 0 1, u 1 1 0 119, u 2 1 0 3, u 3 1 1 255, u 4 2 60 1800, u 6 2 0 0]
    extra := fun p =>
      let segs := (List.range 112).map fun l => Byte.u8 p (8 + l)
      let mapped := segs.filter fun e => e != 0xFF
      segs.all (fun e => e ≤ 119 || e == 0xFF) && !mapped.contains (Byte.u8 p 1) && mapped.eraseDups == mapped &&
        Byte.u8 p (8 + 111) == 0xFF }

/-- R473: the HOST card. The IPv4 settings: PREFIX 1-31 for a static address, else 0. -/
def specHost : CardSpec :=
  { type := 0x00A0, len := .count fun p => 48 + 4 * Byte.u8 p 9
    rngs := [u 0 1 0 3, u 1 1 0 1, u 2 1 0 1, u 3 1 0 4, u 4 2 1024 65535, u 6 1 0 15, u 7 1 0 15, u 8 1 0 15, u 9 1 0 8,
             u 0xA 2 30 3600, u 0xC 1 0 2, u 0xE 2 0 0, u 0x18 1 0 2, u 0x1A 2 0 0]
    extra := fun p =>
      ([0xC, 0x18].all fun o =>
        if Byte.u8 p o == 2 then 1 ≤ Byte.u8 p (o + 1) && Byte.u8 p (o + 1) ≤ 31 else Byte.u8 p (o + 1) == 0) &&
      (let ids := (List.range (Byte.u8 p 9)).map fun k => Byte.u16 p (0x24 + 4 * k)
       ids.all (fun i => 0x100 ≤ i && i ≤ 0x1FF) && ids.eraseDups == ids) &&
      (List.range (Byte.u8 p 9)).all fun k => Byte.u8 p (0x26 + 4 * k) ≤ 15 && Byte.u8 p (0x27 + 4 * k) == 0 }

/-- R486: the MEMORY card. -/
def specMemory : CardSpec := { type := 0x00B0, len := .fixed 16, rngs := [u 0 2 10 1440, u 2 2 10 1440] }

/-- R432: the KEYS card. -/
def specKeys : CardSpec :=
  { type := 0x00C0, len := .count fun p => 16 + 4 * Byte.u16 p 0, rngs := [u 0 2 0 64, u 2 2 0 0]
    extra := fun p =>
      let ids := (List.range (Byte.u16 p 0)).map fun k => Byte.u16 p (4 + 4 * k)
      let ents := (List.range (Byte.u16 p 0)).map fun k => Byte.u16 p (6 + 4 * k)
      ids.all workingKey && ents.all (fun e => 16 ≤ e && e ≤ 1023) && ids.eraseDups == ids && ents.eraseDups == ents }

/-- R89: the card types. -/
def cardSpecs : List CardSpec :=
  [specHead, specTrump, specPower, specStream, specElement, specMetro, specCalib, specTariff, specBilling, specTamper,
   specLegalSeq, specBay, specDcStack, specProtect, specVlink, specChain, specLsw, specSafety, specReader, specCred,
   specPanelE, specPanelL, specHost, specMemory, specKeys, specDealer, specSig]

def specOf (typ : Nat) : Option CardSpec := cardSpecs.find? fun s => s.type == typ

/-! ### Cards across a deck, R523 -/

/-- A card of a deck under check, with its index, its byte offset within the slot, and whether it is skipped (R85). -/
structure Held where
  idx  : Nat
  off  : Nat
  card : Card
  skip : Bool := false
  deriving DecidableEq, Repr, Inhabited

def Held.p (h : Held) : List Nat := h.card.payload
def Held.u8 (h : Held) (o : Nat) : Nat := Byte.u8 h.card.payload o
def Held.u16 (h : Held) (o : Nat) : Nat := Byte.u16 h.card.payload o
def Held.inst (h : Held) : Nat := Byte.u16 h.card.payload 0

abbrev Deck := List Held

def Deck.all (d : Deck) (typ : Nat) : List Held := d.filter fun h => h.card.typ == typ
def Deck.one (d : Deck) (typ : Nat) : Option Held := d.find? fun h => h.card.typ == typ
def Deck.get (d : Deck) (typ inst : Nat) : Option Held := d.find? fun h => h.card.typ == typ && h.inst == inst

/-- A field of a type's only card, or its default. -/
def Deck.u8 (d : Deck) (typ off dflt : Nat) : Nat := ((d.one typ).map fun h => h.u8 off).getD dflt
def Deck.u16 (d : Deck) (typ off dflt : Nat) : Nat := ((d.one typ).map fun h => h.u16 off).getD dflt

def Deck.enabled (d : Deck) (n : Nat) : Bool := (d.u16 0x0002 0x40 0).testBit n
def Deck.dc (d : Deck) (n : Nat) : Bool := (d.u16 0x0002 0x42 0).testBit n

/-- The KEYS card names a key (R432). -/
def Deck.names (d : Deck) (id : Nat) : Bool :=
  match d.one 0x00C0 with
  | none => false
  | some h => (List.range (h.u16 0)).any fun k => h.u16 (4 + 4 * k) == id

/-- A violation: the index of the highest card that takes part, and the reason. -/
abbrev Viol := List (Nat × Nat)

def bad (c : Bool) (idx reason : Nat) : Viol := if c then [(idx, reason)] else []

/-- A rule over the cards of one type, each against the earlier ones. -/
def pairs (l : List Held) (clash : Held → Held → Bool) (reason : Nat) : Viol :=
  l.flatMap fun h => bad (l.any fun g => g.idx < h.idx && clash g h) h.idx reason

def billingCard (h : Held) : Bool := h.u8 4 == 1 || h.u8 4 == 2

/-- R89, R134, R138, R144: DC_STACK, METRO_PROG and the streams. -/
def crossStreams (d : Deck) : Viol :=
  let streams := d.all 0x0010
  let elems := d.all 0x0011
  let role := fun (h : Held) => h.u8 5
  ((List.range 16).flatMap fun n => match d.get 0x0031 n with
    | some h => bad (!d.dc n) h.idx 7
    | none => bad (d.dc n) 1 5) ++
  (match elems.head? with
    | some e => bad (d.one 0x0012).isNone e.idx 5
    | none => []) ++
  pairs streams (fun g h => g.inst / 16 == h.inst / 16 && g.u8 0xE != h.u8 0xE) 7 ++
  pairs (streams.filter fun h => role h == 1 || role h == 7) (fun g h => g.u8 0xB != h.u8 0xB) 7 ++
  pairs (streams.filter fun h => role h == 3) (fun g h => g.u8 6 == h.u8 6) 7 ++
  (streams.flatMap fun h =>
    let fed := elems.filter fun e => e.u8 5 == h.inst || e.u8 6 == h.inst
    let home := d.get 0x0011 (h.u16 0x14)
    bad ((role h == 3 || role h == 6) && !d.enabled (h.u8 6)) h.idx 7 ++
    bad (role h == 6 && !d.dc (h.u8 6)) h.idx 7 ++
    (match home with
      | none => bad true h.idx 7
      | some e => bad (!fed.isEmpty && !fed.any fun x => x.inst == e.inst) (max h.idx e.idx) 7)) ++
  ((List.range 16).flatMap fun n =>
    if d.dc n then (List.range 2).flatMap fun pole =>
      let l := streams.filter fun h => role h == 6 && h.u8 6 == n && h.u8 7 == pole
      match l with
      | [] => [(1, 7)]
      | _ => pairs l (fun _ _ => true) 7
    else []) ++
  ((List.range 16).flatMap fun n =>
    bad (d.enabled n && !elems.any fun e => billingCard e && e.u8 7 == n) 1 7)

/-- R144, R161, R163, R165: the elements. -/
def crossElements (d : Deck) : Viol :=
  let elems := d.all 0x0011
  let role := fun (s : Nat) => ((d.get 0x0010 s).map fun h => h.u8 5).getD 0
  let bayType := fun (n : Nat) => ((d.get 0x0030 n).map fun h => h.u8 4).getD 0
  (elems.flatMap fun e =>
    let v := d.get 0x0010 (e.u8 5)
    let i := d.get 0x0010 (e.u8 6)
    let n := e.inst
    let kind := e.u8 4
    let top := fun (h : Option Held) => max e.idx ((h.map (·.idx)).getD 0)
    let checked := (d.get 0x0011 (e.u8 9)).filter billingCard
    (match v, i with
      | some a, some b => bad (a.u8 8 != b.u8 8 || a.u8 9 != b.u8 9) (max (top v) b.idx) 7
      | _, _ => []) ++
    bad (!(match kind with
      | 1 => role (e.u8 5) == 1 && role (e.u8 6) == 2
      | 2 => role (e.u8 5) == 4 && role (e.u8 6) == 5
      | _ => role (e.u8 5) == 7 && role (e.u8 6) == 2)) (max (top v) (top i)) 7 ++
    (match kind with
      | 1 => bad (e.u8 7 < 16 && (!d.enabled (e.u8 7) || d.dc (e.u8 7))) e.idx 7 ++
             bad (e.u8 7 < 16 && e.u8 8 != 0 && bayType (e.u8 7) == 1) (top (d.get 0x0030 (e.u8 7))) 7
      | 2 => bad (e.u8 7 == 16 || !d.dc (e.u8 7)) e.idx 7
      | _ =>
        bad (n ≤ 50 && (n % 3 == 0 || 48 ≤ n || !(bayType (n / 3) == 1 || bayType (n / 3) == 3))) e.idx 7 ++
        (match checked with
          | none => [(e.idx, 7)]
          | some b => bad (b.u8 6 != e.u8 6 || b.u8 0xA != e.u8 0xA || b.u8 0xB != e.u8 0xB || b.u8 0xC != e.u8 0xC ||
              b.u8 0xD != e.u8 0xD || b.u16 0xE != e.u16 0xE || b.u16 0x10 != e.u16 0x10) (max e.idx b.idx) 7)) ++
    bad (d.get 0x0013 n).isNone e.idx 5) ++
  ((d.all 0x0013).flatMap fun k => bad (d.get 0x0011 k.inst).isNone k.idx 5) ++
  pairs (elems.filter billingCard) (fun g h => g.u8 6 == h.u8 6) 7 ++
  pairs (elems.filter fun e => !billingCard e) (fun g h => g.u8 6 == h.u8 6) 7 ++
  ((d.all 0x0010).flatMap fun h => bad (h.u8 5 == 5 && !elems.any fun e => e.u8 6 == h.inst) h.idx 7)

/-- R202: the schedule goes with DEMAND_MIN. R422: LEGAL_SEQ needs PANEL_L. R400: profiles admit enabled bays only. -/
def crossBilling (d : Deck) : Viol :=
  let dmin := d.u8 0x0021 0 15
  let bi := ((d.one 0x0021).map (·.idx)).getD 0
  (match d.one 0x0020 with
    | none => []
    | some t => bad (!tariffOk dmin t.p || t.u16 2 % dmin != 0) (max t.idx bi) 7) ++
  (match d.one 0x0023 with
    | none => []
    | some l => bad (d.one 0x0091).isNone l.idx 5) ++
  (match d.one 0x0081 with
    | none => []
    | some k => bad ((List.range 16).any fun p =>
        k.u16 (8 + 2 * p) &&& (d.u16 0x0002 0x40 0) != k.u16 (8 + 2 * p)) k.idx 7)

/-- R239, R265, R276, R304: the bays, their stacks and their protection. -/
def crossBays (d : Deck) : Viol :=
  let bays := d.all 0x0030
  let button := d.u8 0x0023 2 0xFF
  let seqIdx := ((d.one 0x0023).map (·.idx)).getD 0
  let proto := d.u8 0x0050 0 7
  let vidx := ((d.one 0x0050).map (·.idx)).getD 0
  let gate := fun (k : Nat) => (Byte.at ((d.one 0x0002).map (·.p) |>.getD []) 0x5C 8).testBit k
  let line := fun (ch kind src : Nat) => (d.get 0x0060 ch).any fun w => w.u8 4 == kind && w.u8 5 == src && w.u8 9 == 0
  let lidx := fun (ch : Nat) => ((d.get 0x0060 ch).map (·.idx)).getD 0
  ((List.range 16).flatMap fun n =>
    bad (d.enabled n && (d.get 0x0030 n).isNone) 1 5 ++ bad (d.enabled n && (d.get 0x0040 n).isNone) 1 5) ++
  (bays.flatMap fun b =>
    let n := b.inst
    bad (!d.enabled n) b.idx 7 ++ bad ((b.u8 4 == 3) != d.dc n) b.idx 7 ++
    bad (!line (b.u8 7) 1 n) (max b.idx (lidx (b.u8 7))) 7 ++ bad (!gate (b.u8 7)) b.idx 7 ++
    bad (b.u8 0xA != 0xFF && b.u8 0xA == button) (max b.idx seqIdx) 7 ++
    ((d.all 0x0011).flatMap fun e =>
      bad (b.u8 0xB == 1 && billingCard e && e.u8 7 == n && e.u8 0xC == 1) (max b.idx e.idx) 7) ++
    bad (b.u8 0xB == 1 && !proto.testBit 2) (max b.idx vidx) 7 ++
    bad (b.u8 4 == 3 && proto % 8 == 0) (max b.idx vidx) 7) ++
  pairs bays (fun g h => g.u8 7 == h.u8 7) 7 ++
  pairs bays (fun g h => g.u8 0xA != 0xFF && g.u8 0xA == h.u8 0xA) 7 ++
  pairs (d.all 0x0031) (fun g h => g.u8 4 == h.u8 4 && g.u8 5 == h.u8 5) 7 ++
  pairs (d.all 0x0031) (fun g h => g.u8 4 == h.u8 4 && (g.u8 6 != h.u8 6 || g.u8 7 != h.u8 7)) 7 ++
  (match (d.all 0x0011).find? fun e => billingCard e && e.u8 7 == 16 with
    | some e => bad (d.get 0x0040 16).isNone e.idx 5
    | none => []) ++
  ((d.all 0x0040).flatMap fun q =>
    let n := q.inst
    let dc := n < 16 && d.dc n
    let ac := n < 16 && !d.dc n
    let res := (d.all 0x0010).find? fun h => h.u8 5 == 3 && h.u8 6 == n
    let ridx := max q.idx ((res.map (·.idx)).getD 0)
    let inR := fun (on : Bool) (v lo hi : Nat) => if on then decide (lo ≤ v ∧ v ≤ hi) else v == 0
    bad (n < 16 && !d.enabled n) q.idx 7 ++
    bad (!(inR ac (q.u16 4) 60 3000 && inR ac (q.u16 6) 60 (q.u16 4) && inR ac (Byte.u32 q.p 8) 10000 10000000 &&
      inR (n == 16) (q.u16 0xE) 100 10000 && inR dc (q.u16 0x10) 100 1000 && inR dc (q.u16 0x12) 50 500 &&
      inR dc (q.u16 0x14) 50 2000 && inR dc (q.u16 0x16) 500 20000 && inR dc (q.u16 0x1A) 100 2000 &&
      (if dc then q.u8 0x18 ≤ 47 else q.u8 0x18 == 0xFF))) q.idx 7 ++
    bad (ac && res.isNone) q.idx 7 ++ bad (dc && res.isSome) ridx 7 ++
    bad (q.u8 0xC == 1 && !(ac && res.any fun h => h.u8 4 == 4)) ridx 7 ++
    bad (dc && q.u16 0x10 ≤ q.u16 0x12) q.idx 7 ++
    bad (dc && !line (q.u8 0x18) 2 n) (max q.idx (lidx (q.u8 0x18))) 7)

/-- R327, R335, R356, R473: the chain, the load switches, the safety functions and the host ports. -/
def crossRest (d : Deck) : Viol :=
  let lsws := d.all 0x0060
  let safs := d.all 0x0070
  let trump := ((d.one 0x0002).map (·.p)).getD []
  let bays := d.all 0x0030
  let keyIdx := ((d.one 0x00C0).map (·.idx)).getD 0
  (match d.one 0x0051 with
    | none => []
    | some h => bad (h.u8 0 == 1 && !d.names 0x32) (max h.idx keyIdx) 7 ++
        bad (h.u8 8 == 1 && d.u8 0x00A0 0 0 == 0) (max h.idx (((d.one 0x00A0).map (·.idx)).getD 0)) 7) ++
  (lsws.flatMap fun w =>
    let kind := w.u8 4
    let src := w.u8 5
    let f := w.u8 7
    bad (f == 1 && !(kind == 1 && src ≤ 15)) w.idx 7 ++ bad (f == 2 && !(kind == 1 && 16 ≤ src)) w.idx 7 ++
    bad ((f == 4) != (kind == 2 && src ≤ 15)) w.idx 7 ++ bad (f == 3 && !(kind == 2 && 16 ≤ src)) w.idx 7 ++
    bad (f == 3 && !bays.any fun b => b.u8 9 == w.inst) w.idx 7 ++
    ((lsws.flatMap fun x =>
      bad (f == 3 && x.idx != w.idx && x.u8 4 == 2 && x.u8 5 == src) (max x.idx w.idx) 7)) ++
    bad ((f == 1 || f == 2 || f == 4) && (w.u8 9 == 1 || w.u8 0xD != 0)) w.idx 7 ++
    bad (w.u8 9 == 1 && kind == 1) w.idx 7 ++
    bad ((kind == 1 || kind == 2) && src ≤ 15 && !d.enabled src) w.idx 7 ++
    bad (kind == 1 && 16 ≤ src && !(d.get 0x0070 (src - 16)).any fun x => x.u8 0xA == 1) w.idx 7) ++
  (safs.flatMap fun x =>
    let k := x.inst
    let on := x.u8 0xA == 1
    bad (on && !d.enabled k) x.idx 7 ++
    bad (on && x.u8 0xB ≤ 1 && !(d.all 0x0031).any fun s => s.u8 4 == x.u8 0xB) x.idx 7 ++
    bad (on && 2000000 * x.u16 0xC < 1000000 * Byte.u16 trump (0x78 + 2 * k)) x.idx 7) ++
  pairs (safs.filter fun x => x.u8 0xA == 1 && x.u8 0xB ≤ 1) (fun g h => g.u8 0xB == h.u8 0xB && g.u8 0x18 == h.u8 0x18) 7 ++
  (match d.one 0x00A0 with
    | none => []
    | some h =>
      bad ((List.range (h.u8 9)).any fun k => !d.names (h.u16 (0x24 + 4 * k))) (max h.idx keyIdx) 7 ++
      bad (h.u8 0 != 0 && !d.names 0x40) (max h.idx keyIdx) 7 ++
      bad ((h.u8 1 == 1 || h.u8 2 == 1 || h.u8 8 != 0) && !d.names 0x31) (max h.idx keyIdx) 7)

/-- The earliest of a list of violations: by the highest card that takes part, then by reason. -/
def firstViol (v : Viol) : Option (Nat × Nat) :=
  v.foldl (fun best x => match best with
    | none => some x
    | some b => if x.1 < b.1 ∨ (x.1 = b.1 ∧ x.2 < b.2) then some x else some b) none

/-- R523: the rules that need the whole deck. DECK_HEAD, TRUMP and SIGNATURE must be present, not skipped. -/
def crossCheck (sigIdx : Nat) (d : Deck) : Option (Nat × Nat) :=
  let missing := [0x0001, 0x0002, 0x7FFF].flatMap fun t => bad (d.one t).isNone sigIdx 5
  firstViol (missing ++ crossStreams d ++ crossElements d ++ crossBilling d ++ crossBays d ++ crossRest d)

/-- R90, reason 0x0D: R239, R324, R335, R421. -/
def trumpBounds (d : Deck) : Option (Nat × Nat) :=
  let trump := ((d.one 0x0002).map (·.p)).getD []
  firstViol (
    ((d.all 0x0030).flatMap fun b =>
      bad (b.u8 4 != 3 && Byte.u16 trump (2 * b.inst) < b.u16 0xC * 10 / 3) b.idx 0xD) ++
    ((d.all 0x0060).flatMap fun w =>
      let k := w.inst
      let lim := Byte.u8 trump (0x44 + k / 2) / (if k % 2 = 0 then 1 else 16) % 16
      bad (lim < w.u8 8) w.idx 0xD ++ bad (w.u8 4 == 1 && !(Byte.at trump 0x5C 8).testBit k) w.idx 0xD) ++
    (match d.one 0x0051 with
      | none => []
      | some h => bad (h.u16 6 < Byte.u16 trump 0x9A) h.idx 0xD) ++
    (match d.one 0x0090 with
      | none => []
      | some h => bad (Byte.u16 trump 0x98 < h.u16 4) h.idx 0xD))

/-! ### The sealed content of a deck, R98, R155, R166, R227, R422 -/

/-- The sealed content of one card of a deck, if any. -/
def sealedItem (d : Deck) (h : Held) : Option SealedItem :=
  let fields := fun (os : List Nat) => os.map fun o => h.u8 o
  match h.card.typ with
  | 0x0012 => some { kind := 0x12, inst := 0, bytes := cardBytes h.card }
  | 0x0013 => some { kind := 0x13, inst := h.inst, bytes := cardBytes h.card }
  | 0x0022 => some { kind := 0x22, inst := 0, bytes := cardBytes h.card }
  | 0x0091 => some { kind := 0x91, inst := 0, bytes := h.u8 1 :: h.u8 2 :: Byte.slice h.p 8 112 }
  | 0x0011 =>
    if billingCard h then
      some { kind := 0x11, inst := h.inst, bytes := fields [4, 5, 6, 7, 8, 0xA, 0xB, 0xC, 0xD, 0xE, 0xF, 0x10, 0x11] }
    else none
  | 0x0010 =>
    if (d.all 0x0011).any fun e => billingCard e && (e.u8 5 == h.inst || e.u8 6 == h.inst) then
      some { kind := 0x10, inst := h.inst, bytes := fields [4, 5, 8, 9, 0xB, 0xC, 0xD, 0x10, 0x11] }
    else none
  | _ => none

/-- The sealed content of a deck in the order of type and instance. -/
def sealedOf (d : Deck) : List SealedItem :=
  let put := fun (x : SealedItem) (l : List SealedItem) =>
    let k := fun (y : SealedItem) => 256 * y.kind + y.inst
    l.filter (fun y => k y < k x) ++ x :: l.filter fun y => k x < k y
  (d.filterMap fun h => sealedItem d h).foldr put []

/-- The running deck as a deck under check. -/
def runningDeck (c : Chip) : Deck := c.deck.cards.map fun k => { idx := 0, off := 0, card := k }

/-- R98: the first card that differs from the sealed copy; where a card is missing, the SIGNATURE card. -/
def sealedDiff (sigIdx : Nat) (copy : List SealedItem) (d : Deck) : Option Nat :=
  match d.find? fun h => (sealedItem d h).any fun x => !copy.contains x with
  | some h => some h.idx
  | none => if (sealedOf d).length = copy.length then none else some sigIdx

end Sys2Proof.Machine
end

