-- ==== Sys2Proof/Machine/Security.lean ====
section
/-!
DEFINITION. Keys, lifecycle and debug (chapter 16): key-update messages, attestation, the seal and the tamper inputs (R69, R226,
R229, R439), the recorded trump digest (R25, R26), debug grants and the test access port.
-/

namespace Sys2Proof.Machine
open Sys2Proof

/-- KC works: the device runs or is in bare mode. -/
def kcUp (c : Chip) : Bool := c.pwr.phase == .run || c.pwr.phase == .bare

/-! ### The recorded trump digest, R25, R26 -/

def onesDigest : List Nat := List.replicate 32 0xFF

/-- R26: the recorded digest: the newest written slot that does not read all ones. -/
def recordedDigest (c : Chip) : Option (List Nat) := (c.sec.digests.filter fun d => d != onesDigest).getLast?

/-- The SHA-256 of the trump card in force. -/
def trumpDigest (c : Chip) : List Nat :=
  match c.deck.cards.find? fun k => k.typ == 0x0002 with
  | some k => sha256 (cardBytes k)
  | none => List.replicate 32 0

/-- A slot is written. -/
def digestSlot (d : List Nat) (c : Chip) : Chip :=
  let l := c.sec.digests ++ [d]
  setF Reg.DEV_TRUMP_STATE_SLOTS_LEFT 0 (16 - l.length) { c with sec := { c.sec with digests := l } }

/-- R26: a recording. A slot whose fuses fail verification reads all ones; `false` where the digest is not recorded. -/
def recordDigest (ok : Bool) (c : Chip) : Chip × Bool :=
  let d := trumpDigest c
  if recordedDigest c = some d then (c, true)
  else if 16 ≤ c.sec.digests.length then (c, false)
  else if ok then (digestSlot d c, true)
  else (digestSlot onesDigest c, false)

/-! ### Debug levels, R443-R447 -/

def debugLevel (c : Chip) : Nat := getF Reg.SEC_DBG_LEVEL 0 c

/-- R447: FULL ends and keys stay unavailable until the next start. -/
def fullEnds (c : Chip) : Chip :=
  if debugLevel c = 2 then setF Reg.SEC_STAT_RESTART_REQ 0 1 { c with sec := { c.sec with extest := false } } else c

/-- R447: the level in force ends. -/
def debugEnds (c : Chip) : Chip :=
  if debugLevel c = 0 then c
  else
    let c := setF Reg.SEC_DBG_LEVEL 0 0 (fullEnds c)
    setF Reg.SEC_DBGRES_RESULT 0 8 (setF Reg.SEC_DBG_SRC 0 0 { c with sec := { c.sec with until_ := none } })

/-- R447: a closing of the seal in SERVICE while FULL is in force drops the level to OBSERVE. -/
def fullToObserve (c : Chip) : Chip := if debugLevel c = 2 then setF Reg.SEC_DBG_LEVEL 0 1 (fullEnds c) else c

/-- R431, R446, R474: a FULL grant erases Set E: key slots, the chain key, the sessions that need a key. -/
def fullErase (c : Chip) : Chip :=
  let c := addSat Reg.SEC_DBG_FULL_CNT 0 255 1 { c with sec := { c.sec with full := true, slots := [] } }
  let c := eventF Reg.SEC_STAT_DBG_GRANT 0 0xFF [] (chainKeyClear c)
  let c := (List.range 5).foldl (fun c s => endSession s c) c
  if c.pwr.phase = .run ∧ cardU8 0x00A0 0 2 0 c = 1 then endSession 5 c else c

/-- R444: a debug request is refused. -/
def debugRefuse (r : Nat) (c : Chip) : Chip :=
  setF Reg.SEC_DBGRES_RESULT 0 r (flagF Reg.SEC_STAT_DBG_REF 0 0 Reg.SEC_STAT_EVT_CNT 0 c)

/-- R444-R446: a level comes into force. -/
def debugPass (level dur src : Nat) (c : Chip) : Chip :=
  let c := setF Reg.SEC_DBGRES_RESULT 0 1 (flagF Reg.SEC_STAT_DBG_GRANT 0 0 Reg.SEC_STAT_EVT_CNT 0 c)
  let c := if level = 2 then fullErase c else fullEnds c
  setF Reg.SEC_DBG_LEVEL 0 level (setF Reg.SEC_DBG_SRC 0 src { c with
    sec := { c.sec with until_ := some (c.backup.ms + 60000 * dur) } })

/-- R444, checks 6 and 7: what keeps a level from being granted in the present situation. -/
def debugBlocked (level : Nat) (c : Chip) : Option Nat :=
  let busy := ((List.range 16).any fun n => (hslBay n c).gate || (bayGet n c).hand.isSome) || getF Reg.PWR_PFW_ACTIVE 0 c == 1
  if level = 2 ∧ busy then some 6 else if inStandby c then some 7 else none

/-- R444: the present NONCE, the `drawn`-th. -/
def debugNonceNow (c : Chip) : Nat := (Config.debugNonce c.sec.drawn).toNat

/-- R444, R445: the first check a grant fails. -/
def grantResult (g : List Nat) (sigOk : Bool) (c : Chip) : Option Nat :=
  let level := Byte.u8 g 2
  let dur := Byte.u16 g 0x20
  if Byte.u16 g 0 ≠ 0x4B44 ∨ level = 0 ∨ 2 < level ∨ Byte.u8 g 3 ≠ 0 ∨ dur = 0 ∨ 1440 < dur ∨
      Byte.num (Byte.slice g 0x22 6) ≠ 0 then some 2
  else if level = 2 ∧ lifecycle c = 2 then some 5
  else if !keyHeld 0x11 c ∨ !sigOk then some 3
  else if Byte.u64 g 8 ≠ deviceId c ∨ Byte.u32 g 4 ≠ getF Reg.SEC_KEYCTR_CTR 0 c ∨
      Byte.num (Byte.slice g 0x10 16) ≠ debugNonceNow c then some 4
  else debugBlocked level c

/-- The outcome of a request; NONCE is replaced after every check. -/
def debugOutcome (level dur src : Nat) (r : Option Nat) (c : Chip) : Chip :=
  let c := setF Reg.SEC_DBG_REQ 0 level { c with sec := { c.sec with drawn := c.sec.drawn + 1 } }
  match r with
  | some r => debugRefuse r c
  | none => debugPass level dur src c

/-- R444: a debug grant from the TAP (1) or KHP (2). -/
def grantTake (g : List Nat) (sigOk : Bool) (src : Nat) (c : Chip) : Chip × Option Nat :=
  let c := keyLoad 0x11 c
  let r := grantResult g sigOk c
  (debugOutcome (Byte.u8 g 2) (Byte.u16 g 0x20) src r c, r)

/-- R444: the status of a result. -/
def grantStatus (r : Option Nat) : Status :=
  match r with
  | none => .ok
  | some 2 => .range
  | some 3 => .sig
  | some 4 => .bind
  | some 6 => .busy
  | some _ => .state

def debugGrant (g : List Nat) (sigOk : Bool) (c : Chip) : Chip × Status :=
  if g.length ≠ 104 then (c, .lenRange)
  else
    let r := grantTake g sigOk 2 c
    (r.1, grantStatus r.2)

/-- R444, R445: DBG_OPEN needs no grant in BLANK and RETIRED. -/
def debugOpen (level : Nat) (c : Chip) : Chip :=
  let lc := lifecycle c
  if lc ≠ 0 ∧ lc ≠ 4 then debugOutcome level 0 1 (some 5) c
  else if level = 0 then debugEnds c
  else if level = 3 then debugOutcome level 0 1 (some 2) c
  else debugOutcome level 1440 1 (debugBlocked level c) c

/-- R447: the end of DURATION. -/
def debugDurationEnd (c : Chip) : Chip :=
  match c.sec.until_ with
  | some t => if t ≤ c.backup.ms then debugEnds c else c
  | none => c

/-! ### The seal and the tamper inputs, R69, R226, R229, R439 -/

/-- R226: an occurrence; before the legal store is reconciled it waits in the retention RAM. -/
def occurrence (code : Nat) (c : Chip) : Chip :=
  if c.bil.ready then tamper code 0 c else tamperLater code 0 c

def inputPut (k : Nat) (level : Bool) (c : Chip) : Chip :=
  { c with backup := { c.backup with inputs := c.backup.inputs.setIfInBounds k { level := level } } }

/-- R69: inputs are sampled with the main supply, and in HOLD while TCLK runs. -/
def inputsSampled (c : Chip) : Bool := !c.pwr.off && !(c.pwr.hold && c.backup.tclkStop)

/-- R229: the running deck's sealed content becomes the sealed copy. -/
def sealCopy (c : Chip) : Chip :=
  flagF Reg.BIL_STAT_COPY_NEW 0 0 Reg.BIL_STAT_EVT_CNT 0
    { c with store := { c.store with sealed := some (sealedOf (runningDeck c)) } }

/-- R439, R26: what a closing records, and a restart where the digest cannot be verified. -/
def sealRecord (service recordOk : Bool) (c : Chip) : Chip :=
  let c := sealCopy c
  if !service then c
  else
    let r := recordDigest recordOk c
    if r.2 then r.1 else restart 8 r.1

/-- R229, R439: SEAL is registered open. -/
def sealOpen (c : Chip) : Chip :=
  if c.backup.inputs[0].level ∨ !inputsSampled c then c
  else
    let c := inputPut 0 true { c with backup := { c.backup with sealDue := false } }
    let c := occurrence 3 c
    if lifecycle c = 3 then addSat Reg.SEC_LC_SVC_CNT 0 65535 1 c else c

/-- R229, R439, R447: SEAL is registered sealed. In bare mode nothing is recorded; before a start completes the recording waits
for it. -/
def sealClose (recordOk : Bool) (c : Chip) : Chip :=
  if !c.backup.inputs[0].level ∨ !inputsSampled c then c
  else
    let service := inService c
    let c := inputPut 0 false c
    let c := if service then fullToObserve c else c
    match c.pwr.phase with
    | .run => sealRecord service recordOk c
    | .bare => c
    | _ => { c with backup := { c.backup with sealDue := true } }

/-- R69, R226, R227: a tamper input is registered at a new level; TAMPER0-TAMPER3 record TC01, TC02, TC14 and TC15 as they
become active while enabled. -/
def tamperInput (k : Nat) (level recordOk : Bool) (c : Chip) : Chip :=
  if k = 0 then (if level then sealOpen c else sealClose recordOk c)
  else if (c.backup.inputs[k]?.getD {}).level = level ∨ !inputsSampled c then c
  else
    let j := k - 1
    let c := inputPut k level c
    if c.backup.tamperCfg.1.testBit j = level ∧ c.backup.tamperCfg.2.testBit j then
      occurrence ([1, 2, 14, 15].getD j 1) c
    else c

/-! ### Key-update messages, R433-R436, R440, R441 -/

/-- R428: the keys of R435's first row. -/
def fieldLocked (id : Nat) : Bool := id == 0x10 || id == 0x11 || (0x20 ≤ id && id ≤ 0x24)

/-- R435: whether an OP is permitted in a lifecycle. -/
def kumPermitted (op id lc : Nat) : Bool :=
  match op with
  | 1 | 2 =>
    if id == 1 || id == 2 then false
    else if fieldLocked id then lc == 1 || lc == 3
    else lc == 1 || lc == 2 || lc == 3
  | 3 => lc == 1
  | 4 => lc == 1 || lc == 2 || lc == 3
  | 5 => lc == 0
  | _ => false

/-- R440: the conditions of OP 3. -/
def fieldReady (c : Chip) : Bool :=
  sealed c && c.pwr.phase == .run && held c && !c.bil.lsFail && devKeyOk c && keysAvail c

/-- R433: whether an ENTRY is the one a key may have. -/
def entryFits (id entry : Nat) : Bool :=
  match fixedEntry id with
  | some e => entry == e
  | none => workingKey id && 16 ≤ entry && entry ≤ 1023

/-- R433, check 6: KEY_ID, KIND, BIND, ENTRY and LEN. -/
def kumFits (m : List Nat) : Bool :=
  let op := Byte.u8 m 3
  let id := Byte.u16 m 0x10
  let kind := Byte.u8 m 0x12
  let bind := Byte.u8 m 0x13
  let entry := Byte.u16 m 0x14
  let len := Byte.u16 m 0x16
  match op with
  | 1 => (kindsOf id).contains kind && len == kindLen kind && entryFits id entry &&
      (bind == 0 || (bind == 1 && workingKey id))
  | 2 => kind == 0 && bind == 0 && len == 0 && entryFits id entry
  | 5 => id == 0x10 && kind == 5 && bind == 0 && entry == 0 && len == 96
  | _ => id == 0 && kind == 0 && bind == 0 && entry == 0 && len == 0

def secretKind (kind : Nat) : Bool := kind == 1 || kind == 2 || kind == 3 || kind == 6 || kind == 7

/-- The key material of a message: plain for public KINDs, decrypted under DEV_XCHG for the others. -/
def kumMaterial (m : List Nat) (env : KumEnv) (c : Chip) : Option (List Nat) :=
  let len := Byte.u16 m 0x16
  if secretKind (Byte.u8 m 0x12) then
    (if devKeyOk c then (env.plain.map Byte.nats).filter fun p => p.length == len else none)
  else some (Byte.slice m 0x58 len)

/-- R434: the REASON with which a message is rejected before it acts, 0 for none. Of the two that give E_BUSY, 9 is judged
before a fuse is blown. -/
def kumReason (tapLen : Option Nat) (m : List Nat) (env : KumEnv) (c : Chip) : Nat :=
  let op := Byte.u8 m 3
  let ctr := getF Reg.SEC_KEYCTR_CTR 0 c
  let lenOk := match tapLen with
    | some n => 200 ≤ n && n ≤ 296 && n == m.length
    | none => true
  if Byte.u16 m 0 ≠ 0x4B55 ∨ Byte.u8 m 2 ≠ 1 ∨ m.length ≠ 200 + Byte.u16 m 0x16 ∨ !lenOk then 1
  else if !env.sigOk ∨ (op ≠ 5 ∧ keysAvail c ∧ !keyHeld 0x10 c) then 2
  else if Byte.u64 m 8 ≠ deviceId c then 3
  else if Byte.u32 m 4 ≠ ctr + 1 ∨ 2048 ≤ ctr then 4
  else if !kumPermitted op (Byte.u16 m 0x10) (lifecycle c) ∨ (op = 3 ∧ !fieldReady c) ∨ !keysAvail c then 5
  else if !kumFits m then 6
  else if op = 1 ∧ (kumMaterial m env c).isNone then 7
  else if (op = 3 ∨ op = 4) ∧ (bayBusy c ∨ getF Reg.PWR_PFW_ACTIVE 0 c = 1) then 9
  else 0

/-- R434: the status of a REASON. -/
def kumStatus (r : Nat) : Status :=
  match r with
  | 0 => .ok
  | 1 => .lenRange
  | 2 | 7 => .sig
  | 3 => .bind
  | 4 => .rollback
  | 5 => .state
  | 6 => .range
  | _ => .busy

/-- R429: the entries of the key region, in order. -/
def entryPut (e : Nat) (b : Option KeyBlob) (l : List (Nat × KeyBlob)) : List (Nat × KeyBlob) :=
  let mid := match b with
    | some k => [(e, k)]
    | none => []
  (l.filter fun q => q.1 < e) ++ mid ++ l.filter fun q => e < q.1

/-- R431, R310: the slot of the key an entry held is cleared, and with the chain key the chain cipher unit. -/
def entryClear (e : Nat) (c : Chip) : Chip :=
  let c := match blobAt e c with
    | some b => slotClear b.keyId c
    | none => c
  if keyEntry 0x32 c = some e ∧ c.lnk.chain.key.isSome then chainKeyClear c else c

/-- R429, R431, R436: a blob is installed or replaced, or both copies of an entry are zeroed. A TAG key goes to tag page 1. -/
def blobInstall (e : Nat) (b : Option KeyBlob) (c : Chip) : Chip :=
  let c := entryClear e c
  let c := keymapNote e { c with sec := { c.sec with entries := entryPut e b c.sec.entries } }
  match b with
  | some k => if k.keyId = 0x33 then tagPagePut 1 k.mat c else c
  | none => c

/-- The blob a message installs. -/
def kumBlob (m mat : List Nat) (c : Chip) : KeyBlob :=
  let bind := Byte.u8 m 0x13
  { keyId := Byte.u16 m 0x10, kind := Byte.u8 m 0x12, bind := bind, ctr := Byte.u32 m 4, mat := mat
    mFw := if bind = 1 then c.sec.mFw else [], mDeck := if bind = 1 then c.sec.mDeck else [] }

def blowFuse (k : Nat) (c : Chip) : Chip := setBitF Reg.SEC_LC_FUSES 0 k true c

/-- R441: retirement. -/
def retire (c : Chip) : Chip :=
  let c := blowFuse 2 c
  restart 10 { c with sec := { c.sec with entries := [], slots := [] } }

/-- R436, step 3: the action, and REASON 8 where a fuse or a blob does not verify. -/
def kumAct (m : List Nat) (env : KumEnv) (c : Chip) : Chip × Nat :=
  let e := Byte.u16 m 0x14
  let blob := kumBlob m ((kumMaterial m env c).getD []) c
  match Byte.u8 m 3 with
  | 1 => if env.blobOk then (blobInstall e (some blob) c, 0) else (c, 8)
  | 2 => (blobInstall e none c, 0)
  | 3 =>
    let r := recordDigest env.recordOk c
    if r.2 then (blowFuse 1 r.1, 0) else (restart 8 r.1, 8)
  | 4 => (retire c, 0)
  | _ => if env.blobOk then (blowFuse 0 (blobInstall e (some blob) c), 0) else (c, 8)

/-- R436: an accepted message blows a counter fuse, writes the backup copy and acts. -/
def kumRun (m : List Nat) (env : KumEnv) (c : Chip) : Chip × Nat :=
  let n := getF Reg.SEC_KEYCTR_CTR 0 c + 1
  let c := setF Reg.SEC_KEYCTR_CTR 0 n c
  if !env.fuseOk then (c, 8) else kumAct m env (setF Reg.SEC_KEYCTR_BACKUP 0 n c)

/-- R434: the result is recorded. -/
def kumRecord (m : List Nat) (r : Nat) (c : Chip) : Chip :=
  let c := setF Reg.SEC_KEYRES_REASON 0 r (setF Reg.SEC_KEYRES_OP 0 (Byte.u8 m 3) (setF Reg.SEC_KEYRES_KEY_ID 0 (Byte.u16 m 0x10) c))
  flagF (if r = 0 then Reg.SEC_STAT_KUM_OK else Reg.SEC_STAT_KUM_REJ) 0 0 Reg.SEC_STAT_EVT_CNT 0 c

/-- R433-R436: a key-update message. -/
def kumTake (tapLen : Option Nat) (m : List Nat) (env : KumEnv) (c : Chip) : Chip × Nat :=
  let c := keyLoad 0x10 c
  match kumReason tapLen m env c with
  | 0 =>
    let r := kumRun m env c
    (if kcUp r.1 then kumRecord m r.2 r.1 else r.1, r.2)
  | r => (kumRecord m r c, r)

def keyUpdate (m : List Nat) (env : KumEnv) (c : Chip) : Chip × Status :=
  let r := kumTake none m env c
  (r.1, kumStatus r.2)

/-! ### Attestation and the public device key, R425, R437 -/

/-- R437: the response to a challenge. -/
def attestBody (challenge : List Nat) (c : Chip) : List Nat :=
  Byte.le 2 0x4B41 ++ [1, lifecycle c, debugLevel c, (sealed c).toNat, 0, 0] ++ Byte.le 8 (deviceId c) ++
  Byte.le 4 (getF Reg.SEC_KEYCTR_CTR 0 c) ++ Byte.le 4 (getF Reg.UPD_DECK_SERIAL_SERIAL 0 c) ++ c.sec.mFw ++ c.sec.mDeck ++
  trumpDigest c ++ challenge

def attest (challenge : List Nat) (c : Chip) : Chip × Status × List Nat :=
  if challenge.length ≠ 32 then (c, .lenRange, [])
  else
    let c := keyLoad 0x30 c
    match if keysAvail c then keyFind 0x30 c else none with
    | none => (c, .state, [])
    | some k =>
      let b := attestBody challenge c
      (c, .ok, b ++ hmac256 k.mat b)

/-- R425: the public halves, DEV_SIGN first. -/
def devPubBytes : List Nat := (List.range 128).map fun k => (Config.devicePub k).toNat

def devicePub (c : Chip) : Chip × Status × List Nat :=
  if devKeyOk c then (c, .ok, devPubBytes) else (c, .state, [])

/-! ### The test access port, R442, R443 -/

/-- The TAP is supplied. -/
def tapUp (c : Chip) : Bool := !c.pwr.hold && !c.pwr.off

/-- R442: an instruction is selected and its data shifted out. -/
def tapOut (ir : Nat) (out : List Nat) (c : Chip) : Chip :=
  if tapUp c then { c with sec := { c.sec with ir := ir, tdo := out, extest := false } } else c

/-- R442: an instruction of KC; without KC it shifts out zeros. -/
def tapKc (ir : Nat) (f : Chip → Chip) (out : Chip → List Nat) (c : Chip) : Chip :=
  if kcUp c then
    let c := f c
    tapOut ir (out c) c
  else tapOut ir [] c

/-- R442: BYPASS, and every code without a function: one bit, captured 0. -/
def tapBypass (ir : Nat) (c : Chip) : Chip := tapOut ir [0] c

/-- R442: TRST_N and test-logic-reset select IDCODE; the debug level stays. -/
def tapReset (c : Chip) : Chip := tapOut 2 [] c

/-- R442, R443: EXTEST drives the chain at FULL; elsewhere it acts as BYPASS. -/
def tapExtest (drive : BitVec 243) (c : Chip) : Chip :=
  if tapUp c ∧ debugLevel c = 2 then
    { c with sec := { c.sec with ir := 0, scan := drive, extest := true, tdo := Byte.le 31 c.sec.scan.toNat } }
  else tapBypass 0 c

/-- R442: SAMPLE/PRELOAD: the balls are sampled and the chain preloaded. -/
def tapSample (pins preload : BitVec 243) (c : Chip) : Chip :=
  if tapUp c then
    let c := tapOut 1 (Byte.le 31 pins.toNat) c
    { c with sec := { c.sec with scan := preload } }
  else c

/-- R442: the IDCODE. -/
def idcodeWord (c : Chip) : Nat :=
  2 ^ 28 * (getF Reg.DEV_PART_SILREV 0 c % 16) + 2 ^ 12 * 0x1640 + 2 * 0x2B7 + 1

def tapKum (len : Nat) (m : List Nat) (env : KumEnv) (c : Chip) : Chip :=
  tapKc 0x20 (fun c => (kumTake (some len) m env c).1) (fun _ => []) c

def execTamperInputChange (k : Fin 5) (level recordOk : Bool) (s : State) : Host.Outcome State Fault Refusal :=
  s.run (tamperInput k.val level recordOk)
def execSealOpened (s : State) : Host.Outcome State Fault Refusal := s.run sealOpen
def execSealClosed (recordOk : Bool) (s : State) : Host.Outcome State Fault Refusal := s.run (sealClose recordOk)
def execKeyUpdate (rq : Request) (msg : List Byte) (env : KumEnv) (s : State) : Host.Outcome State Fault Refusal :=
  s.run (statusCmd rq true .run (keyUpdate (Byte.nats msg) env))
def execDevicePub (rq : Request) (s : State) : Host.Outcome State Fault Refusal := s.run (hostCmd rq false .run devicePub)
def execAttest (rq : Request) (challenge : List Byte) (s : State) : Host.Outcome State Fault Refusal :=
  s.run (hostCmd rq false .run (attest (Byte.nats challenge)))
def execDebugGrant (rq : Request) (grant : List Byte) (sigOk : Bool) (s : State) : Host.Outcome State Fault Refusal :=
  s.run (statusCmd rq true .run (debugGrant (Byte.nats grant) sigOk))
def execDebugEnd (rq : Request) (s : State) : Host.Outcome State Fault Refusal :=
  s.run (statusCmd rq true .run fun c => (debugEnds c, .ok))
def execDebugDurationEnd (s : State) : Host.Outcome State Fault Refusal := s.run debugDurationEnd
def execTapReset (s : State) : Host.Outcome State Fault Refusal := s.run tapReset
def execExtest (drive : BitVec 243) (s : State) : Host.Outcome State Fault Refusal := s.run (tapExtest drive)
def execSamplePreload (pins preload : BitVec 243) (s : State) : Host.Outcome State Fault Refusal :=
  s.run (tapSample pins preload)
def execIdcode (s : State) : Host.Outcome State Fault Refusal := s.run fun c => tapOut 2 (Byte.le 4 (idcodeWord c)) c
def execDbgNonce (s : State) : Host.Outcome State Fault Refusal :=
  s.run (tapKc 0x10 id fun c => Byte.le 16 (debugNonceNow c))
def execDbgGrant (grant : List Byte) (sigOk : Bool) (s : State) : Host.Outcome State Fault Refusal :=
  s.run (tapKc 0x11 (fun c => (grantTake (Byte.nats grant) sigOk 1 c).1) fun _ => [])
def execDbgOpen (level : BitVec 2) (s : State) : Host.Outcome State Fault Refusal :=
  s.run (tapKc 0x12 (debugOpen level.toNat) fun _ => [])
def execDbgEnd (s : State) : Host.Outcome State Fault Refusal := s.run (tapKc 0x13 debugEnds fun _ => [])
def execKumIn (len : BitVec 16) (msg : List Byte) (env : KumEnv) (s : State) : Host.Outcome State Fault Refusal :=
  s.run (tapKum len.toNat (Byte.nats msg) env)
def execKeyRes (s : State) : Host.Outcome State Fault Refusal :=
  s.run (tapKc 0x21 id fun c => Byte.le 4 (regWord 0x1A000C c) ++ Byte.le 4 (regWord 0x1A0008 c))
def execDevPub (s : State) : Host.Outcome State Fault Refusal :=
  s.run (tapKc 0x22 id fun c => if devKeyOk c then devPubBytes else [])
def execBypass (ir : BitVec 8) (s : State) : Host.Outcome State Fault Refusal := s.run (tapBypass ir.toNat)

end Sys2Proof.Machine
end

