-- ==== Sys2Proof/Machine/Memory.lean ====
section
/-!
DEFINITION. Memory (chapter 18): the error-correcting code, the host areas and the capture buffer, the scrubber and the Kitty,
the test mode, captures, the transfer engine, the aperture.
-/

namespace Sys2Proof.Machine
open Sys2Proof

/-! ### The code, R479 -/

/-- The columns of the data bits. -/
def eccCols : List Nat :=
  ((List.range 256).filter fun v => popCount 8 v == 3) ++ [0x1F, 0x2F, 0x37, 0x3B, 0x3D, 0x3E, 0x4F, 0x57]

/-- The check bits of a data word. -/
def eccBits (d : Nat) : Nat :=
  ((List.range 64).zip eccCols).foldl (fun a ic => if d.testBit ic.1 then a ^^^ ic.2 else a) 0

/-- What a syndrome says: no error, the wrong bit (64 to 71 for a check bit), or an uncorrectable error. -/
inductive EccResult where
  | good
  | bit (b : Nat)
  | bad
  deriving DecidableEq, Repr

def eccDecode (syn : Nat) : EccResult :=
  if syn = 0 then .good
  else match ((List.range 64).zip eccCols).find? fun ic => ic.2 == syn with
    | some ic => .bit ic.1
    | none => match (List.range 8).find? fun j => 2 ^ j == syn with
      | some j => .bit (64 + j)
      | none => .bad

/-! ### Words, R478, R483, R490 -/

/-- A transfer address lies in the DRAM host area. -/
def inDram (addr : Nat) : Bool := 0x40000000 ≤ addr

/-- The word of an index (transfer address over 8) that nothing has written: zeros in SRAM, a free value in DRAM. -/
def wordInit (i : Nat) (c : Chip) : Nat := if inDram (8 * i) then (Config.hostWord c.mem.dramGen i).toNat else 0

/-- A stored word: the data, and from bit 64 on the difference of its check bits from those of the data. -/
def wordGet (i : Nat) (c : Chip) : Nat :=
  mapGet (if inDram (8 * i) then c.mem.dram else c.mem.sram) i ^^^ wordInit i c

def wordPut (i v : Nat) (c : Chip) : Chip :=
  let d := v ^^^ wordInit i c
  if inDram (8 * i) then { c with mem := { c.mem with dram := mapPut c.mem.dram i d } }
  else { c with mem := { c.mem with sram := mapPut c.mem.sram i d } }

/-- The native address of a transfer address: the SRAM byte offset, or the DRAM address of R483. -/
def nativeOf (addr : Nat) : Nat := if inDram addr then addr - 0x40000000 + 0x54000000 else addr - 0x20000000 + 0x1600000

/-- The transfer address of a native address that the model holds. -/
def hostOf (dram : Bool) (addr : Nat) : Option Nat :=
  if dram then (if 0x54000000 ≤ addr ∧ addr ≤ 0x57FFFFFF then some (addr - 0x54000000 + 0x40000000) else none)
  else if 0x1600000 ≤ addr ∧ addr ≤ 0x17FFFFF then some (addr - 0x1600000 + 0x20000000) else none

/-! ### Errors, R480, R481, R484 -/

/-- R481: a row enters the repair list, which holds 64. -/
def repairRow (bank row : Nat) (c : Chip) : Chip :=
  if c.backup.repair.contains (bank, row) then c
  else if 64 ≤ c.backup.repair.length then flagF Reg.MEM_STAT_LIST_FULL 0 0 Reg.MEM_STAT_EVT_CNT 0 c
  else { c with backup := { c.backup with repair := c.backup.repair ++ [(bank, row)] } }

def bankOf (addr : Nat) : Nat := addr / 0x80000
def rowOf (addr : Nat) : Nat := addr / 0x400 % 512

/-- R480, R484: a corrected error at a native address. -/
def ceNote (dram : Bool) (addr : Nat) (c : Chip) : Chip :=
  if dram then
    setF Reg.MEM_DADDR_ADDR 0 addr (addSat Reg.MEM_DERR_CE 0 65535 1 (flagF Reg.MEM_STAT_CE_D 0 0 Reg.MEM_STAT_EVT_CNT 0 c))
  else
    setF Reg.MEM_SADDR_ADDR 0 addr (addSat Reg.MEM_SERR_CE 0 65535 1 (flagF Reg.MEM_STAT_CE_S 0 0 Reg.MEM_STAT_EVT_CNT 0 c))

/-- R480, R481, R484: an uncorrectable error at a native address. -/
def ueNote (dram : Bool) (addr : Nat) (c : Chip) : Chip :=
  if dram then
    let c := addSat Reg.MEM_LIFE_UE_D 0 65535 1 (flagF Reg.MEM_STAT_UE_D 0 0 Reg.MEM_STAT_EVT_CNT 0 c)
    setF Reg.MEM_DADDR_ADDR 0 addr (addSat Reg.MEM_DERR_UE 0 65535 1 c)
  else
    let c := addSat Reg.MEM_LIFE_UE_S 0 65535 1 (flagF Reg.MEM_STAT_UE_S 0 0 Reg.MEM_STAT_EVT_CNT 0 c)
    repairRow (bankOf addr) (rowOf addr) (setF Reg.MEM_SADDR_ADDR 0 addr (addSat Reg.MEM_SERR_UE 0 65535 1 c))

/-- R480, R484: an uncorrectable error there restarts the device. -/
def ueRestarts (dram : Bool) (addr : Nat) : Bool :=
  if dram then !((0x30000000 ≤ addr && addr ≤ 0x4FFFFFFF) || (0x54000000 ≤ addr && addr ≤ 0x57FFFFFF))
  else bankOf addr < 44

/-- R481: the scrubber corrected an error at a bit position of an SRAM row; two positions in one lap list the row. -/
def scrubRow (addr bit : Nat) (c : Chip) : Chip :=
  let row := addr / 0x400
  let pos := 72 * (addr / 8 % 128) + bit
  let other := c.mem.rows.any fun q => q.1 == row && q.2 != pos
  let c := { c with mem := { c.mem with rows := if c.mem.rows.contains (row, pos) then c.mem.rows else (row, pos) :: c.mem.rows } }
  if other then repairRow (bankOf addr) (rowOf addr) c else c

/-! ### Ordinary reads and writes -/

/-- R480, R484: an ordinary read of a word: corrected and written back, or uncorrectable. -/
def wordRead (i : Nat) (c : Chip) : Chip × Option Nat :=
  let w := wordGet i c
  let d := w % 2 ^ 64
  let dram := inDram (8 * i)
  match eccDecode (w / 2 ^ 64) with
  | .good => (c, some d)
  | .bit b =>
    let d := if b < 64 then d ^^^ 2 ^ b else d
    (ceNote dram (nativeOf (8 * i)) (wordPut i d c), some d)
  | .bad => (ueNote dram (nativeOf (8 * i)) c, none)

/-- The 32-bit half of a word at a transfer address. -/
def halfOf (addr d : Nat) : Nat := d / 2 ^ (8 * (addr % 8)) % 2 ^ 32

/-- A data word with one half replaced. -/
def withHalf (addr v d : Nat) : Nat :=
  if addr % 8 = 0 then d / 2 ^ 32 * 2 ^ 32 + v % 2 ^ 32 else v % 2 ^ 32 * 2 ^ 32 + d % 2 ^ 32

/-- A 32-bit read at a transfer address. -/
def hostRead (addr : Nat) (c : Chip) : Chip × Option Nat :=
  let r := wordRead (addr / 8) c
  (r.1, r.2.map (halfOf addr))

/-- A 32-bit write at a transfer address; the other half of the word is read for it. -/
def hostWrite (addr v : Nat) (c : Chip) : Chip × Bool :=
  let r := wordRead (addr / 8) c
  match r.2 with
  | some d => (wordPut (addr / 8) (withHalf addr v d) r.1, true)
  | none => (r.1, false)

/-! ### The scrubber, R487, and restarts, R480 -/

/-- R487: the scrubber reads a word that the model holds, after an upset of some of its 72 bits. -/
def scrubHeld (dram : Bool) (upset addr taddr : Nat) (c : Chip) : Chip :=
  let i := taddr / 8
  let flip := upset % 2 ^ 64
  let c := wordPut i (wordGet i c ^^^ flip ^^^ ((upset / 2 ^ 64 ^^^ eccBits flip) * 2 ^ 64)) c
  let w := wordGet i c
  let d := w % 2 ^ 64
  match eccDecode (w / 2 ^ 64) with
  | .good => c
  | .bit b =>
    let c := ceNote dram addr (if dram then c else scrubRow addr b c)
    if getF Reg.MEM_ECCT_EN 0 c = 1 ∧ 0x20100000 ≤ taddr then c
    else wordPut i (if b < 64 then d ^^^ 2 ^ b else d) c
  | .bad => ueNote dram addr c

/-- R487: the scrubber reads a word of the rest of memory with the given bits wrong. -/
def scrubOther (dram : Bool) (upset addr : Nat) (c : Chip) : Chip :=
  match eccDecode (upset / 2 ^ 64 ^^^ eccBits (upset % 2 ^ 64)) with
  | .good => c
  | .bit b => ceNote dram addr (if dram then c else scrubRow addr b c)
  | .bad =>
    let c := ueNote dram addr c
    if ueRestarts dram addr then { c with mem := { c.mem with ueDue := true } } else c

/-- R487: a lap ends; its duration in s. -/
def scrubLap (dram : Bool) (s : Nat) (c : Chip) : Chip :=
  if dram then
    let c := setF Reg.MEM_SCRUB_LAST_D 0 (min (s / 60) 65535) c
    if 75 * cardU16 0x00B0 0 2 60 c < s then flagF Reg.MEM_STAT_LATE_D 0 0 Reg.MEM_STAT_EVT_CNT 0 c else c
  else
    let c := setF Reg.MEM_SCRUB_LAST_S 0 (min (s / 60) 65535) { c with mem := { c.mem with rows := [] } }
    if 75 * cardU16 0x00B0 0 0 60 c < s then flagF Reg.MEM_STAT_LATE_S 0 0 Reg.MEM_STAT_EVT_CNT 0 c else c

/-- R487, R497: the scrubber reads a word; the DRAM pauses in STANDBY. `lap` gives the duration of a lap that ends with it. -/
def scrubRead (dram : Bool) (addr upset : Nat) (lap : Option Nat) (c : Chip) : Chip :=
  let limit := if !dram then 0x1800000 else if getF Reg.MEM_DSTAT_SIZE4 0 c = 1 then 0xE0000000 else 0x70000000
  if !kcUp c ∨ (dram ∧ (inStandby c ∨ getF Reg.MEM_DSTAT_READY 0 c = 0)) ∨ limit ≤ addr ∨ addr % 8 ≠ 0 then c
  else
    let c := match hostOf dram addr with
      | some t => scrubHeld dram upset addr t c
      | none => scrubOther dram upset addr c
    match lap with
    | some s => scrubLap dram s c
    | none => c

/-- R480, R484: an uncorrectable error outside the host areas, found now or by the scrubber, restarts the device. -/
def ueRestart (found : Option (Bool × Nat)) (c : Chip) : Chip :=
  if !kcUp c then c
  else
    let c := match found with
      | some (dram, addr) =>
        if ueRestarts dram addr then
          let c := ueNote dram addr c
          { c with mem := { c.mem with ueDue := true } }
        else c
      | none => c
    if c.mem.ueDue then restart 8 c else c

/-- R481: at a start the rows of the fuse map and of the repair list are replaced by spares of their banks. -/
def kittyStart (c : Chip) : Chip :=
  let rows := (c.pwr.fuseRows ++ c.backup.repair).eraseDups
  let need := fun (b : Nat) => (rows.filter fun r => r.1 == b).length
  let c := (List.range 12).foldl (fun c k =>
    setF Reg.MEM_KITTY_USED k ((List.range 4).foldl (fun a j => a + min 16 (need (4 * k + j)) * 2 ^ (8 * j)) 0) c) c
  if (List.range 48).any fun b => 16 < need b then flagF Reg.MEM_STAT_KITTY_EMPTY 0 0 Reg.MEM_STAT_EVT_CNT 0 c else c

/-! ### The test mode, R488 -/

/-- A transfer address that the test mode takes. -/
def eccAddr (a : Nat) : Bool :=
  a % 8 == 0 && ((0x20100000 ≤ a && a ≤ 0x201FFFFF) || (0x40000000 ≤ a && a ≤ 0x43FFFFFF))

/-- R488: a GO with OP 1 or 2. -/
def eccGo (op : Nat) (en : Bool) (chk : Nat) (c : Chip) : Chip × Status :=
  let a := getF Reg.MEM_ECCT_ADDR_ADDR 0 c
  if !en then (c, .state)
  else if !eccAddr a then (c, .addr)
  else
    let c := setF Reg.MEM_ECCT_EN 0 1 (setF Reg.MEM_ECCT_OP 0 op (setF Reg.MEM_ECCT_CHK 0 chk (setF Reg.MEM_ECCT_DONE 0 1 c)))
    if op = 1 then
      let d := getF Reg.MEM_ECCT_DLO_DATA 0 c + 2 ^ 32 * getF Reg.MEM_ECCT_DHI_DATA 0 c
      (wordPut (a / 8) (d + (chk ^^^ eccBits d) * 2 ^ 64) c, .ok)
    else
      let w := wordGet (a / 8) c
      let d := w % 2 ^ 64
      (setF Reg.MEM_ECCT_DLO_DATA 0 (d % 2 ^ 32) (setF Reg.MEM_ECCT_DHI_DATA 0 (d / 2 ^ 32)
        (setF Reg.MEM_ECCT_CHK 0 (w / 2 ^ 64 ^^^ eccBits d) c)), .ok)

/-! ### The capture unit, R489 -/

/-- The streams named in MEM_CAPSEL. -/
def capStreams (nch : Nat) (c : Chip) : List Nat :=
  (List.range nch).map fun k => getF Reg.MEM_CAPSEL_STREAM (k / 4) c / 2 ^ (8 * (k % 4)) % 256

/-- R497, R496: a GO is refused in a pause, in STANDBY and at entry into it. -/
def goBarred (c : Chip) : Bool := c.upd.pause || inStandby c || c.pwr.sbEntry

/-- R489: a write of GO to MEM_CAPCFG. -/
def capGo (path : Bool) (nch samples : Nat) (c : Chip) : Chip × Status :=
  if goBarred c then (c, .state)
  else if c.mem.cap.isSome then (c, .busy)
  else if 16 < nch ∨ 16384 < samples ∨ (capStreams nch c).any fun s => 95 < s || !streamOn s c then (c, .range)
  else
    let c := setF Reg.MEM_CAPCFG_PATH 0 path.toNat (setF Reg.MEM_CAPCFG_NCH 0 nch (setF Reg.MEM_CAPCFG_SAMPLES 0 samples c))
    let c := setF Reg.MEM_CAPSTAT_DONE_K 0 0 (setF Reg.MEM_CAPSTAT_INV 0 0 c)
    if nch = 0 ∨ samples = 0 then (setF Reg.MEM_CAPSTAT_STATE 0 3 c, .ok)
    else
      let run : CaptureRun := { prot := path, chans := capStreams nch c, total := samples }
      (setF Reg.MEM_CAPSTAT_STATE 0 1 { c with mem := { c.mem with cap := some run } }, .ok)

/-- R489: sample `k` of channel `ch` is written with valid check bits. -/
def capPut (ch k : Nat) (v : Int) (c : Chip) : Chip :=
  let a := 0x20000000 + 65536 * ch + 4 * k
  wordPut (a / 8) (withHalf a (unsigned 32 v) (wordGet (a / 8) c % 2 ^ 64)) c

/-- R159: whether stream `s` has delivered an output of a path since the start. -/
def delivered (prot : Bool) (s : Nat) (c : Chip) : Bool :=
  if prot then 3 ≤ c.sns.prtN else streamOrder s c ≤ c.sns.metN

/-- R489: an output of a path is delivered: a capture of that path takes its sample of every channel. -/
def captureTick (prot : Bool) (c : Chip) : Chip :=
  match c.mem.cap with
  | none => c
  | some r =>
    if r.prot ≠ prot ∨ r.total ≤ r.k ∨ !(r.chans.all fun s => delivered prot s c) then c
    else
      let c := ((List.range r.chans.length).zip r.chans).foldl (fun c q =>
        let st : StreamState := c.sns.streams[q.2]?.getD {}
        let p := if prot then st.prt else st.met
        let c := capPut q.1 r.k p.out c
        if p.valid then c else setBitF Reg.MEM_CAPSTAT_INV 0 q.1 true c) c
      setF Reg.MEM_CAPSTAT_STATE 0 2 (setF Reg.MEM_CAPSTAT_DONE_K 0 (min (r.k + 1) 16383)
        { c with mem := { c.mem with cap := some { r with k := r.k + 1 } } })

/-- R489: the capture has written all its samples and reads done. -/
def captureDone (c : Chip) : Chip :=
  match c.mem.cap with
  | some r => if r.total ≤ r.k then setF Reg.MEM_CAPSTAT_STATE 0 3 { c with mem := { c.mem with cap := none } } else c
  | none => c

/-! ### The transfer engine, R490-R494 -/

/-- R490: the regions: the end of the one that holds an address, as a source or as a destination. -/
def regionEnd (dst : Bool) (a : Nat) : Option Nat :=
  if 0x20100000 ≤ a ∧ a ≤ 0x201FFFFF then some 0x20200000
  else if 0x40000000 ≤ a ∧ a ≤ 0x43FFFFFF then some 0x44000000
  else if !dst ∧ 0x20000000 ≤ a ∧ a ≤ 0x200FFFFF then some 0x20100000
  else if dst ∧ 0x194000 ≤ a ∧ a ≤ 0x195FFF then some 0x196000
  else none

def backBuffer (a : Nat) : Bool := 0x194000 ≤ a && a ≤ 0x195FFF

/-- The words of a side, and the words it spans. -/
def TransferSide.total (x : TransferSide) : Nat := x.lineW * x.lines
def TransferSide.extent (x : TransferSide) : Nat := if x.total = 0 then 0 else (x.lines - 1) * x.stride + x.lineW

/-- The address of word `k` of a side. -/
def TransferSide.at (x : TransferSide) (k : Nat) : Nat := x.addr + 4 * (x.stride * (k / x.lineW) + k % x.lineW)

def teSource (t : Nat) (c : Chip) : TransferSide :=
  { addr := getF Reg.MEM_TE_SADDR_ADDR t c, lineW := getF Reg.MEM_TE_SSHAPE_LINE_W t c
    stride := getF Reg.MEM_TE_SSTRIDE_STRIDE_W t c, lines := getF Reg.MEM_TE_SSHAPE_LINES t c }
def teDest (t : Nat) (c : Chip) : TransferSide :=
  { addr := getF Reg.MEM_TE_DADDR_ADDR t c, lineW := getF Reg.MEM_TE_DSHAPE_LINE_W t c
    stride := getF Reg.MEM_TE_DSTRIDE_STRIDE_W t c, lines := getF Reg.MEM_TE_DSHAPE_LINES t c }

def teGet (t : Nat) (c : Chip) : Option TransferRun := c.mem.te[t]?.getD none
def tePut (t : Nat) (x : TransferRun) (c : Chip) : Chip :=
  { c with mem := { c.mem with te := c.mem.te.setIfInBounds t (some x) } }

/-- R494: the entries of the completion queue reserved by running transfers. -/
def cqReserved (c : Chip) : Nat := ((List.range 2).filter fun t => (teGet t c).isSome).length

/-- A side that runs past the end of its region. -/
def pastEnd (dst : Bool) (x : TransferSide) : Bool :=
  match regionEnd dst x.addr with
  | some e => e < x.addr + 4 * x.extent
  | none => false

/-- R491: the checks of a GO. -/
def teCheck (t req : Nat) (c : Chip) : Status :=
  let s := teSource t c
  let d := teDest t c
  if goBarred c then .state
  else if (teGet t c).isSome ∨ 64 ≤ cqReserved c + c.mem.cq.length then .busy
  else if s.addr % 4 ≠ 0 ∨ d.addr % 4 ≠ 0 ∨ (regionEnd false s.addr).isNone ∨ (regionEnd true d.addr).isNone then .addr
  else if (1 < s.lines ∧ s.stride < s.lineW) ∨ (1 < d.lines ∧ d.stride < d.lineW) ∨ s.total ≠ d.total ∨
      pastEnd false s ∨ pastEnd true d then .lenRange
  else if req = 3 ∨ (0 < s.extent ∧ s.addr < d.addr + 4 * d.extent ∧ d.addr < s.addr + 4 * s.extent) ∨
      (backBuffer d.addr ∧ req ≠ 2) then .range
  else if backBuffer d.addr ∧ (cardPayload 0x0090 0 c).isNone then .state
  else .ok

/-- R491: a write of GO to MEM_TEn_CTL. -/
def teGo (t req tag : Nat) (c : Chip) : Chip × Status :=
  match teCheck t req c with
  | .ok =>
    let c := setF Reg.MEM_TE_CTL_REQ t req (setF Reg.MEM_TE_CTL_TAG t tag (setF Reg.MEM_TE_STAT_BYTES t 0 c))
    let run : TransferRun := { src := teSource t c, dst := teDest t c, req := req, tag := tag }
    let c := setF Reg.MEM_TE_STAT_STATE t 1 (tePut t run c)
    (if run.src.total = 0 then transferEnd t .ok c else c, .ok)
  | e => (c, e)

/-- R492: the request that paces a transfer is present. -/
def requestPresent (req : Nat) (c : Chip) : Bool :=
  match req with
  | 1 => getF Reg.MEM_CAPSTAT_STATE 0 c == 3
  | 2 => getF Reg.DSP_ESTAT_SWAP_PEND 0 c == 0
  | _ => true

/-- One word of a transfer; a source that cannot be read stops it with E_CRC. -/
def teWord (t : Nat) (x : TransferRun) (c : Chip) : Chip × TransferRun :=
  let r := hostRead (x.src.at x.moved) c
  match r.2 with
  | none => (r.1, { x with fail := some .crc })
  | some v =>
    let a := x.dst.at x.moved
    let w := if backBuffer a then
        let y := windowWrite (a - 0x194000) v r.1
        (y.1, decide (y.2 = .ok))
      else hostWrite a v r.1
    if w.2 then
      (setF Reg.MEM_TE_STAT_BYTES t (4 * (x.moved + 1)) w.1, { x with moved := x.moved + 1, last := v })
    else (w.1, { x with fail := some .crc })

/-- `n` words of a burst. -/
def teWords (t : Nat) : Nat → TransferRun → Chip → Chip × TransferRun
  | 0, x, c => (c, x)
  | n + 1, x, c =>
    if x.fail.isSome then (c, x)
    else
      let r := teWord t x c
      teWords t n r.2 r.1

/-- R492: with its request present, the engine moves the next burst: the rest of the source line or 64 words. -/
def transferBurst (t : Nat) (c : Chip) : Chip :=
  match teGet t c with
  | none => c
  | some x =>
    if x.fail.isSome ∨ x.src.total ≤ x.moved ∨ inStandby c then c
    else if !requestPresent x.req c then setF Reg.MEM_TE_STAT_STATE t 1 c
    else
      let n := min 64 (x.src.lineW - x.moved % x.src.lineW)
      let r := teWords t n x c
      let done := r.2.fail.isSome || decide (x.src.total ≤ r.2.moved)
      setF Reg.MEM_TE_STAT_STATE t (if done then 3 else 2) (tePut t r.2 r.1)

/-- R493: after the last burst the last destination word is read back and compared. -/
def transferDone (t : Nat) (c : Chip) : Chip :=
  match teGet t c with
  | none => c
  | some x =>
    match x.fail with
    | some st => transferEnd t st c
    | none =>
      if x.moved < x.src.total ∨ x.moved = 0 then c
      else
        let a := x.dst.at (x.moved - 1)
        let r := if backBuffer a then (c, some (windowRead (a - 0x194000) c)) else hostRead a c
        transferEnd t (if r.2 = some x.last then .ok else .crc) r.1

/-- R494: a write of POP. -/
def cqPop (c : Chip) : Chip × Status := ({ c with mem := { c.mem with cq := c.mem.cq.drop 1 } }, .ok)

/-- R494: MEM_CQ and the oldest record, as they read. -/
def cqShow (c : Chip) : Chip :=
  let c := setF Reg.MEM_CQ_COUNT 0 c.mem.cq.length (setF Reg.MEM_CQ_RESV 0 (cqReserved c) c)
  let r : CqRecord := c.mem.cq.head?.getD { tag := 0, ch := 0, status := .ok, bytes := 0 }
  setF Reg.MEM_CQREC0_TAG 0 r.tag (setF Reg.MEM_CQREC0_CH 0 r.ch (setF Reg.MEM_CQREC0_STATUS 0 r.status.code
    (setF Reg.MEM_CQREC1_BYTES 0 r.bytes c)))

/-! ### The aperture, R495 -/

/-- R495: a window base lies in the capture buffer, the SRAM host area or the DRAM host area. -/
def apbaseOk (b : Nat) : Bool := (0x4000 ≤ b && b ≤ 0x403F) || (0x8000 ≤ b && b ≤ 0x87FF)

def apbaseWrite (v : Nat) (c : Chip) : Chip × Status :=
  let b := v % 2 ^ 17
  if apbaseOk b then (setF Reg.MEM_APBASE_BASE 0 b c, .ok) else (c, .range)

/-- The transfer address of an offset in the window. -/
def apertureAt (o : Nat) (c : Chip) : Nat := getF Reg.MEM_APBASE_BASE 0 c * 32768 + o

def apertureRead (o : Nat) (c : Chip) : Chip × Option Nat := hostRead (apertureAt o c) c

def apertureWrite (o v : Nat) (c : Chip) : Chip × Status :=
  let a := apertureAt o c
  if a < 0x20100000 then (c, .addr)
  else
    let r := hostWrite a v c
    (r.1, if r.2 then .ok else .crc)

/-! ### MEM_AP on memory, R443 -/

/-- R443: a 64-bit word of memory outside the secure partition; what the model does not hold is a free value. -/
def apMemRead (dram : Bool) (addr : Nat) (c : Chip) : Chip × List Nat :=
  if !dram ∧ bankOf addr < 2 then (c, [])
  else match hostOf dram addr with
    | some t =>
      let r := wordRead (t / 8) c
      (r.1, match r.2 with
        | some d => Byte.le 8 d
        | none => [])
    | none =>
      ({ c with mem := { c.mem with free := c.mem.free + 1 } }, Byte.le 8 (Config.otherWord c.mem.free).toNat)

def apMemWrite (dram : Bool) (addr v : Nat) (c : Chip) : Chip :=
  match hostOf dram addr with
  | some t => wordPut (t / 8) (v % 2 ^ 64) c
  | none => c

def execScrubRead (dram : Bool) (addr : Nat) (upset : BitVec 72) (lap : Option Nat) (s : State) :
    Host.Outcome State Fault Refusal := s.run (scrubRead dram addr upset.toNat lap)
def execEccUeRestart (found : Option (Bool × Nat)) (s : State) : Host.Outcome State Fault Refusal := s.run (ueRestart found)
def execEccRawWrite (who : Writer) (en : Bool) (chk : BitVec 8) (s : State) : Host.Outcome State Fault Refusal :=
  s.run (asWriter who (eccGo 1 en chk.toNat))
def execEccRawRead (who : Writer) (en : Bool) (s : State) : Host.Outcome State Fault Refusal :=
  s.run (asWriter who (eccGo 2 en 0))
def execCaptureGo (who : Writer) (path : Bool) (nch : BitVec 5) (samples : BitVec 15) (s : State) :
    Host.Outcome State Fault Refusal := s.run (asWriter who (capGo path nch.toNat samples.toNat))
def execCaptureDone (s : State) : Host.Outcome State Fault Refusal := s.run captureDone
def execTransferGo (who : Writer) (t : Fin 2) (req : BitVec 2) (tag : BitVec 16) (s : State) :
    Host.Outcome State Fault Refusal := s.run (asWriter who (teGo t.val req.toNat tag.toNat))
def execTransferBurst (t : Fin 2) (s : State) : Host.Outcome State Fault Refusal := s.run (transferBurst t.val)
def execTransferDone (t : Fin 2) (s : State) : Host.Outcome State Fault Refusal := s.run (transferDone t.val)
def execCqPop (who : Writer) (s : State) : Host.Outcome State Fault Refusal := s.run (asWriter who cqPop)
def execApbaseWrite (who : Writer) (v : BitVec 32) (s : State) : Host.Outcome State Fault Refusal :=
  s.run (asWriter who (apbaseWrite v.toNat))

end Sys2Proof.Machine
end

