-- ==== Sys2Proof/Machine/Update.lean ====
section
/-!
DEFINITION. Firmware update and activation (chapter 19): images and their check, the boot header, loading, the activation with
its pause, confirmation and fallback.
-/

namespace Sys2Proof.Machine
open Sys2Proof

/-! ### Images, R500, R501 -/

def imgBytes (s : Nat) (c : Chip) : List Nat := c.upd.img[s]?.getD []
def imgPut (s : Nat) (b : List Nat) (c : Chip) : Chip := { c with upd := { c.upd with img := c.upd.img.setIfInBounds s b } }

/-- R501, reason 0x01. -/
def imgFormed (s : Nat) (c : Chip) : Bool :=
  let p := imgBytes s c
  let len := Byte.u32 p 4
  Byte.u16 p 0 == 0x4B46 && Byte.u8 p 2 == 1 && 4096 ≤ len && len ≤ 11534336 && len % 16 == 0 && len ≤ p.length

/-- The program version of the running deck's METRO_PROG card. -/
def metroVersion (c : Chip) : Option Nat := (cardPayload 0x0012 0 c).map fun p => Byte.u32 p 0

/-- R501: the first reason for which an image is not booted, 0 for none; `act` in an activation, with whether the image supports
the type and version of every card of the running deck that was not skipped, which no field of its header says. -/
def imgReason (act : Option Bool) (s : Nat) (sigOk : Bool) (c : Chip) : Nat :=
  let p := imgBytes s c
  let metro := match metroVersion c with
    | some v => Byte.u16 p 0x10 ≤ v && v ≤ Byte.u16 p 0x12
    | none => true
  if !imgFormed s c then 1
  else if !sigOk then 2
  else if Byte.u16 p 0xC < getF Reg.UPD_FW_SVN_FLOOR 0 c then 3
  else if getF Reg.DEV_PART_SILREV 0 c < Byte.u8 p 0xE then 4
  else if act = some false ∨ (act.isSome ∧ !metro) then 5
  else 0

/-- R501: an image is checked; the reason and FW_VER are shown. -/
def imgCheck (act : Option Bool) (s : Nat) (sigOk : Bool) (c : Chip) : Chip × Bool :=
  let r := imgReason act s sigOk c
  let c := setF Reg.UPD_FW_SLOT_REASON s r (setF Reg.UPD_FW_VER_FW_VER s (Byte.u32 (imgBytes s c) 8) c)
  (if r = 0 then c else flagF Reg.UPD_STAT_CHK_FAIL 0 0 Reg.UPD_STAT_EVT_CNT 0 c, r == 0)

/-! ### The boot header, R502 -/

/-- R502: the header in force; with no valid copy PREF is 0 and a well-formed image counts as state 1. -/
def bootHdr (c : Chip) : BootHeader :=
  match newestHdr c with
  | some h => h
  | none =>
    { seq := 0, pref := 0, states := #v[(imgFormed 0 c).toNat, (imgFormed 1 c).toNat], tries := 0, bare := List.replicate 36 0 }

def slotState (s : Nat) (c : Chip) : Nat := (bootHdr c).states[s]?.getD 0

/-- R511: states and TRIES as shown. -/
def hdrShow (c : Chip) : Chip :=
  (List.range 2).foldl (fun c s =>
    let st := slotState s c
    setF Reg.UPD_FW_SLOT_STATE s st (setF Reg.UPD_FW_SLOT_TRIES s (if st = 2 then (bootHdr c).tries else 0) c)) c

/-- R502: the older copy is written with the next SEQ. -/
def hdrWrite (f : BootHeader → BootHeader) (c : Chip) : Chip :=
  let h := f (bootHdr c)
  let h := { h with seq := h.seq + 1 }
  let older := match c.upd.hdr[0], c.upd.hdr[1] with
    | some a, some b => if a.seq < b.seq then 0 else 1
    | some _, none => 1
    | none, _ => 0
  hdrShow { c with upd := { c.upd with hdr := c.upd.hdr.setIfInBounds older (some h) } }

def BootHeader.setState (s st : Nat) (h : BootHeader) : BootHeader := { h with states := h.states.setIfInBounds s st }

def runSlot (c : Chip) : Nat := getF Reg.UPD_FW_RUN_SLOT 0 c

/-! ### Loading, R504 -/

/-- R504: the slot that FW_LOAD writes: the inactive one, or under the recovery loader the one that ARG names. -/
def fwTarget (arg : Nat) (c : Chip) : Nat := if loaderRuns c then arg else 1 - runSlot c

/-- R504, R465: the checks of FW_LOAD before its data. -/
def fwAdmit (sess arg total : Nat) (c : Chip) : Status :=
  if sess ≠ 5 then .state
  else if total < 4096 ∨ 11534336 < total then .lenRange
  else if (if loaderRuns c then 1 < arg else arg ≠ 0) then .range
  else if getF Reg.UPD_STAT_PENDING 0 c = 1 ∨ c.upd.pause then .busy
  else .ok

/-- R504, step 1: the slot is marked empty. -/
def fwOpen (arg : Nat) (c : Chip) : Chip :=
  let s := fwTarget arg c
  imgPut s [] (hdrWrite (BootHeader.setState s 0) c)

/-- R504, step 2: data are written as they arrive. -/
def fwData (arg : Nat) (data : List Nat) (c : Chip) : Chip :=
  let s := fwTarget arg c
  imgPut s (imgBytes s c ++ data) c

/-- R504, step 3, R508: the slot is read back and takes state 1; loaded by the recovery loader it takes state 2 and becomes
PREF. -/
def fwClose (arg : Nat) (readOk : Bool) (c : Chip) : Chip × Status :=
  let s := fwTarget arg c
  if !readOk then (c, .crc)
  else
    let c := if loaderRuns c then
        hdrWrite (fun h => { h.setState s 2 with pref := s, tries := 0 }) { c with upd := { c.upd with fails := 0 } }
      else hdrWrite (BootHeader.setState s 1) c
    (flagF Reg.UPD_STAT_LOADED 0 0 Reg.UPD_STAT_EVT_CNT 0 c, .ok)

/-- R504: a firmware image arrives by bulk transfer. -/
def fwLoad (sess arg : Nat) (bytes : List Nat) (readOk : Bool) (c : Chip) : Chip × Status :=
  match fwAdmit sess arg bytes.length c with
  | .ok => fwClose arg readOk (fwData arg bytes (fwOpen arg c))
  | e => (c, e)

/-! ### Booting an image, R427, R431, R506, R508 -/

/-- AP0 starts the image of a slot: M_FW is taken, key slots are cleared but for the one of DEV_SIGN, the image's numbers are shown. -/
def bootImage (s : Nat) (c : Chip) : Chip :=
  let p := imgBytes s c
  let m := sha256 (p.take (Byte.u32 p 4))
  let c := setF Reg.UPD_FW_RUN_SLOT 0 s (setF Reg.UPD_FW_SVN_RUN 0 (Byte.u16 p 0xC) c)
  let c := setF Reg.UPD_STAT_TRIAL 0 (decide (slotState s c = 2)).toNat c
  let c := (List.range 8).foldl (fun c k => setF Reg.SEC_MFW_DIGEST k (Byte.u32 m (4 * k)) c) c
  { c with
    sec := { c.sec with mFw := m, slots := c.sec.slots.filter fun k => k == 1 }
    upd := { c.upd with bootAt := c.backup.ms, readyAt := some c.backup.ms, metro := (Byte.u16 p 0x10, Byte.u16 p 0x12) } }

/-- R508: TRIES rises at a boot of a slot in state 2, except after causes 0x00, 0x01, 0x02 and 0x0A. -/
def triesRise (s cause : Nat) (c : Chip) : Chip :=
  if slotState s c = 2 ∧ !([0, 1, 2, 10].contains cause) then hdrWrite (fun h => { h with tries := min 3 (h.tries + 1) }) c
  else c

/-- A fallback takes place. -/
def fallbackNote (c : Chip) : Chip :=
  addSat Reg.UPD_FW_LIFE_FALLBACKS 0 65535 1 (flagF Reg.UPD_STAT_FALLBACK 0 0 Reg.UPD_STAT_EVT_CNT 0 c)

/-! ### Activation, R505-R507 -/

/-- R505: ACTIVATE. -/
def activate (c : Chip) : Chip × Status :=
  let st := slotState (1 - runSlot c) c
  if st ≠ 1 ∧ st ≠ 2 ∧ st ≠ 3 then (c, .state)
  else if !keysAvail c ∨ c.bil.lsFail then (c, .state)
  else if getF Reg.UPD_STAT_PENDING 0 c = 1 ∨ c.upd.pause ∨ ((List.range 6).any fun s => (sess s c).bulk.isSome) ∨
      getF Reg.PWR_PFW_ACTIVE 0 c = 1 ∨ inStandby c then (c, .busy)
  else (activity (setF Reg.UPD_STAT_PENDING 0 1 { c with upd := { c.upd with pendAt := c.backup.ms } }), .ok)

/-- R77: a change of PWR_RSTCAUSE. -/
def rstRecord (cause : Nat) (c : Chip) : Chip :=
  let c := setF Reg.PWR_RSTCAUSE_PREV 0 (getF Reg.PWR_RSTCAUSE_CAUSE 0 c) c
  setF Reg.PWR_RSTCAUSE_CAUSE 0 cause (addSat Reg.PWR_RSTCAUSE_COUNT 0 65535 1 c)

/-- R507: the image of a slot has failed in the pause: state 4, and the previous image is booted at once. -/
def pauseFallback (s : Nat) (c : Chip) : Chip :=
  let old := c.upd.from_
  let c := hdrWrite (fun h => { h.setState s 4 with pref := old }) { c with upd := { c.upd with fails := 0 } }
  bootImage old (fallbackNote c)

/-- R506: the pause begins: host sessions and links stop, cause 0x09 is recorded, the inactive slot becomes PREF; KC checks its
image and boots it, or falls back. -/
def pauseStart (sigOk cardsOk : Bool) (c : Chip) : Chip :=
  if getF Reg.UPD_STAT_PENDING 0 c = 0 ∨ c.pwr.phase ≠ .run then c
  else
    let s := 1 - runSlot c
    let c := setF Reg.UPD_ACT_PREP_MS 0 (min 65535 (c.backup.ms - c.upd.pendAt)) (setF Reg.UPD_STAT_PENDING 0 0 c)
    let c := setF Reg.UPD_STAT_PAUSE 0 1 (closeAllSessions c)
    let c := { c with upd := { c.upd with pause := true, pauseAt := c.backup.ms, from_ := runSlot c, readyAt := none } }
    let c := rstRecord 9 (linksIdle c)
    let c := if slotState s c = 2 ∨ slotState s c = 3 then triesRise s 9 (hdrWrite (fun h => { h with pref := s }) c)
      else hdrWrite (fun h => { h.setState s 2 with pref := s, tries := 1 }) { c with upd := { c.upd with fails := 0 } }
    let c := safetyPause (if chainOn c then setF Reg.LNK_CBUDGET_SRC 0 3 c else c)
    let r := imgCheck (some cardsOk) s sigOk c
    if r.2 then bootImage s r.1 else pauseFallback s r.1

/-- R506, R507: an image reports ready: the pause ends, TC12 is recorded. The chain key is loaded again. -/
def fwReady (c : Chip) : Chip :=
  if !c.upd.pause ∨ c.upd.readyAt.isNone then c
  else
    let c := setF Reg.UPD_ACT_PAUSE_MS 0 (min 65535 (c.backup.ms - c.upd.pauseAt)) (setF Reg.UPD_STAT_PAUSE 0 0 c)
    let new := runSlot c != c.upd.from_
    let c := tamper 12 0 { c with upd := { c.upd with pause := false, readyAt := none } }
    let c := (List.range 16).foldl (fun c n => matchKeep (c.backup.ms - c.upd.pauseAt) n c) c
    let c := if new then
        addSat Reg.UPD_FW_LIFE_ACTS 0 65535 1 (flagF Reg.UPD_STAT_ACTIVATED 0 0 Reg.UPD_STAT_EVT_CNT 0 c)
      else c
    if !chainOn c then c
    else
      let c := keyLoad 0x32 c
      { c with lnk := { c.lnk with chain := { c.lnk.chain with key := keyBytes 0x32 c } } }

/-- R505: tPREP, 10 s, has passed. -/
def prepTimeout (sigOk cardsOk : Bool) (c : Chip) : Chip :=
  if c.backup.ms < c.upd.pendAt + 10000 then c else pauseStart sigOk cardsOk c

/-- R507, reason 0x06: the image does not report ready in time, tFWRDY of 2.6 s. The image that ran before is booted once more. -/
def fwReadyTimeout (c : Chip) : Chip :=
  if !c.upd.pause ∨ c.upd.readyAt.isNone ∨ c.backup.ms < c.upd.bootAt + 2600 then c
  else
    let s := runSlot c
    if s = c.upd.from_ then bootImage s c
    else
      let c := flagF Reg.UPD_STAT_CHK_FAIL 0 0 Reg.UPD_STAT_EVT_CNT 0 (setF Reg.UPD_FW_SLOT_REASON s 6 c)
      pauseFallback s c

/-- R507: a trial image has run for tFWCONF, 600 s: it is confirmed and the floor rises to its FW_SVN. -/
def fwConfirm (c : Chip) : Chip :=
  let s := runSlot c
  if c.pwr.phase ≠ .run ∨ c.upd.pause ∨ slotState s c ≠ 2 ∨ c.backup.ms < c.upd.bootAt + 600000 then c
  else
    let o := 1 - s
    let c := hdrWrite (fun h =>
      let h := h.setState s 3
      if h.states[o]?.getD 0 = 3 then h.setState o 1 else h) { c with upd := { c.upd with fails := 0 } }
    let svn := getF Reg.UPD_FW_SVN_RUN 0 c
    let c := if getF Reg.UPD_FW_SVN_FLOOR 0 c < svn then setF Reg.UPD_FW_SVN_FLOOR 0 svn c else c
    setF Reg.UPD_STAT_TRIAL 0 0 c

/-! ### The firmware of a full start, R508 -/

/-- R508: a reset of cause 0x04-0x08 while a trial image ran is a failed boot; the third sets state 4 and PREF to the other
slot. -/
def failedBoot (c : Chip) : Chip :=
  let cause := getF Reg.PWR_RSTCAUSE_CAUSE 0 c
  let s := (bootHdr c).pref
  let ran := c.upd.ran
  let c := { c with upd := { c.upd with ran := false } }
  if !ran ∨ slotState s c ≠ 2 ∨ cause < 4 ∨ 8 < cause then c
  else if c.upd.fails + 1 < 3 then { c with upd := { c.upd with fails := c.upd.fails + 1 } }
  else
    let c := hdrWrite (fun h => { h.setState s 4 with pref := 1 - s }) { c with upd := { c.upd with fails := 0 } }
    fallbackNote (setF Reg.UPD_FW_SLOT_REASON s 7 c)

/-- R508: PREF is booted in state 2 or 3 with an image that passes; else the other slot in state 3 with one that passes; else the
recovery loader runs, and no image limits the program version of a deck (log entry 55). -/
def fwSelect (imgA imgB : Bool) (c : Chip) : Chip :=
  let c := hdrShow (failedBoot c)
  let sig := fun (s : Nat) => if s = 0 then imgA else imgB
  let cause := getF Reg.PWR_RSTCAUSE_CAUSE 0 c
  let p := (bootHdr c).pref
  let first := if slotState p c = 2 ∨ slotState p c = 3 then imgCheck none p (sig p) c else (c, false)
  if first.2 then bootImage p (triesRise p cause first.1)
  else
    let o := 1 - p
    let second := if slotState o first.1 = 3 then imgCheck none o (sig o) first.1 else (first.1, false)
    if second.2 then bootImage o (fallbackNote second.1)
    else setF Reg.UPD_STAT_NO_FW 0 1 { second.1 with upd := { second.1.upd with metro := (0, 0xFFFFFFFF) } }

def execFwLoad (rq : Request) (slot : Nat) (bytes : List Byte) (readOk : Bool) (s : State) :
    Host.Outcome State Fault Refusal :=
  s.run fun c =>
    let acts := if loaderRuns c then Acts.loader else Acts.run
    bulkCmd rq acts (fwLoad rq.sess.val slot (Byte.nats bytes) readOk) c
def execActivate (rq : Request) (s : State) : Host.Outcome State Fault Refusal := s.run (statusCmd rq true .run activate)
def execActivationPauseStart (i : ImageCheck) (s : State) : Host.Outcome State Fault Refusal :=
  s.run (pauseStart i.sigOk i.cardsOk)
def execPrepTimeout (i : ImageCheck) (s : State) : Host.Outcome State Fault Refusal := s.run (prepTimeout i.sigOk i.cardsOk)
def execFwReady (s : State) : Host.Outcome State Fault Refusal := s.run fwReady
def execFwReadyTimeout (s : State) : Host.Outcome State Fault Refusal := s.run fwReadyTimeout
def execFwConfirm (s : State) : Host.Outcome State Fault Refusal := s.run fwConfirm

end Sys2Proof.Machine
end

