-- ==== Sys2Proof/Machine/Deck.lean ====
section
/-!
DEFINITION. Checking a deck (R82-R93, R98, R99, R523) and the three commands that replace it (R105, R106).
-/

namespace Sys2Proof.Machine
open Sys2Proof

/-! ### The walk, R84-R90 -/

/-- Why a deck is rejected: the reason of R90, the card's index and its offset within the slot. -/
structure Reject where
  reason : Nat
  idx    : Nat
  off    : Nat
  deriving DecidableEq, Repr, Inhabited

/-- R90: the status that goes with a reason. -/
def rejectStatus (reason : Nat) : Status :=
  match reason with
  | 0x01 => .lenRange
  | 0x02 => .crc
  | 0x03 => .typ
  | 0x04 => .version
  | 0x08 => .lenRange
  | 0x09 => .sig
  | 0x0A => .bind
  | 0x0B => .rollback
  | 0x0C => .trump
  | 0x0D => .trump
  | 0x0E => .sealed
  | _ => .range

/-- `n` bytes of a flash region; what has not been written reads erased (R84). -/
def flashRead (p : List Nat) (n : Nat) : List Nat := (p ++ List.replicate (n - p.length) 0xFF).take n

/-- R84: a LENGTH that rejects the deck; one that equals the bytes remaining is valid for the SIGNATURE card alone. -/
def lengthBad (typ len left : Nat) : Bool :=
  len < 16 || len % 4 != 0 || left < len || len == 0xFFFFFFFF || (len == left && typ != 0x7FFF)

/-- R85, R89: type and version of a card: a reason, or whether the card is skipped. -/
def typeCheck (typ version flags : Nat) (payload : List Nat) (metro : Nat × Nat) : Except Nat Bool :=
  let skip := flags % 2 == 1
  let known := (specOf typ).isSome
  if !known && !skip then .error 3
  else if version = 0 then .error 4
  else if !known then .ok true
  else if 1 < version then (if skip then .ok true else .error 4)
  else if typ = 0x0001 ∧ Byte.u16 payload 0 ≠ 1 then .error 4
  else if typ = 0x0012 ∧ !(metro.1 ≤ Byte.u32 payload 0 && Byte.u32 payload 0 ≤ metro.2) then .error 4
  else .ok false

/-- R85-R87: flags, order and repetition, skipped cards among them; SEALED stands on exactly the types marked sealed in R89, so
on no unknown one; `isLast` for the card that ends the deck. -/
def orderBad (idx typ flags : Nat) (payload : List Nat) (isLast : Bool) (seen : Deck) : Bool :=
  let isSealed := flags / 2 % 2 == 1
  let mark := match specOf typ with
    | some s => isSealed != s.isSealed
    | none => isSealed
  let again := (specOf typ).isSome && seen.any fun h =>
    h.card.typ == typ && (!instCard typ || h.inst == Byte.u16 payload 0)
  flags / 4 % 64 != 0 || mark || (idx == 0) != (typ == 0x0001) || (idx == 1) != (typ == 0x0002) ||
    (typ == 0x7FFF && !isLast) || again

/-- R84, R86, R90: the length its chapter fixes, identifiers and ranges of a card. -/
def payloadReason (typ len : Nat) (payload : List Nat) : Nat :=
  match specOf typ with
  | none => 0
  | some s =>
    let lenOk := match s.len with
      | .fixed n => len == n
      | .count f => len == f payload
      | .free => true
    let instOk := match s.inst with
      | some m => decide (Byte.u16 payload 0 < m)
      | none => true
    if !lenOk then 1
    else if !instOk || !s.ids payload then 6
    else if (s.inst.isSome && Byte.u16 payload 2 != 0) || !(s.rngs.all fun r => r.ok payload) || !s.extra payload then 7
    else 0

/-- R90: the walk over the cards from offset `off`; `rest` holds the slot's bytes from there. Answers the cards, the skipped ones
marked, and their number. -/
def deckWalk (metro : Nat × Nat) (total : Nat) : Nat → Nat → Nat → List Nat → Deck → Except Reject (Deck × Nat)
  | 0, off, idx, _, _ => .error { reason := 1, idx := idx, off := off }
  | fuel + 1, off, idx, rest, seen =>
    let hdr := flashRead rest 8
    let typ := Byte.u16 hdr 0
    let len := Byte.u32 hdr 4
    let no := fun (r : Nat) => (.error { reason := r, idx := idx, off := off } : Except Reject (Deck × Nat))
    if total ≤ off then .ok (seen.reverse, idx)
    else if lengthBad typ len (total - off) then no 1
    else
      let bytes := flashRead rest len
      let payload := (bytes.drop 8).take (len - 12)
      let next := rest.drop len
      if crc32c (bytes.take (len - 4)) ≠ Byte.u32 bytes (len - 4) then no 2
      else match typeCheck typ (Byte.u8 hdr 2) (Byte.u8 hdr 3) payload metro with
        | .error r => no r
        | .ok skipped =>
          if orderBad idx typ (Byte.u8 hdr 3) payload (off + len == total) seen then no 5
          else
            let r := if skipped then 0 else payloadReason typ len payload
            if r ≠ 0 then no r
            else
              let h : Held := { idx := idx, off := off, skip := skipped, card :=
                { typ := typ, version := Byte.u8 hdr 2, flags := Byte.u8 hdr 3, payload := payload } }
              deckWalk metro total fuel (off + len) (idx + 1) next (h :: seen)

/-- R87: TOTAL_LEN as the head of a slot gives it. -/
def deckTotal (p : List Nat) : Nat := Byte.u32 (flashRead p 16) 12

/-! ### Every check of R90 but the HSL's -/

/-- R90: the rejection at the card with index `idx`. -/
def rejectAt (d : Deck) (reason idx : Nat) : Reject :=
  { reason := reason, idx := idx, off := ((d.find? fun h => h.idx == idx).map (·.off)).getD 0 }

/-- R88: the deck's signature is verified under the deck key that KEY_IDX names, of the KIND that ALG needs. -/
def deckSigned (d : Deck) (sigOk : Bool) (c : Chip) : Bool :=
  let kind := if d.u8 0x7FFF 0 0 = 2 then 5 else 4
  match keyFind (0x20 + d.u8 0x7FFF 1 0) c with
  | some b => b.kind == kind && sigOk
  | none => false

/-- R98: with SEAL sealed and a sealed copy recorded, the first card that differs from it. -/
def sealedFault (sigIdx : Nat) (d : Deck) (c : Chip) : Option Nat :=
  if sealed c then
    match c.store.sealed with
    | some copy => sealedDiff sigIdx copy d
    | none => none
  else none

/-- R90, R523: every check but reason 0x0C, in the order of the walk; the cards that are not skipped. DESIGN CHOICE (log entry
56): a CARD_COUNT mismatch, reason 0x08, is reported at DECK_HEAD, index and offset 0. -/
def deckCheck (slot : Nat) (sigOk : Bool) (c : Chip) : Except Reject Deck :=
  let p := c.deck.flash[slot]?.getD []
  let total := deckTotal p
  if total < 64 ∨ 4194304 < total then .error { reason := 1, idx := 0, off := 0 }
  else match deckWalk c.upd.metro total (total / 16 + 1) 0 0 p [] with
    | .error r => .error r
    | .ok (all, n) =>
      let d : Deck := all.filter fun h => !h.skip
      let sigIdx := n - 1
      let head := ((d.one 0x0001).map (·.p)).getD []
      if Byte.u32 head 8 ≠ n - 3 then .error (rejectAt all 8 0)
      else match crossCheck sigIdx d with
        | some (i, r) => .error (rejectAt all r i)
        | none =>
          if !deckSigned d sigOk c then .error (rejectAt all 9 sigIdx)
          else if Byte.u64 head 0x10 ≠ 0 ∧ Byte.u64 head 0x10 ≠ deviceId c then .error (rejectAt all 0xA sigIdx)
          else if Byte.u32 head 0xC < c.store.floor then .error (rejectAt all 0xB sigIdx)
          else match trumpBounds d with
            | some (i, r) => .error (rejectAt all r i)
            | none =>
              match sealedFault sigIdx d c with
              | some i => .error (rejectAt all 0xE i)
              | none => .ok d

def deckOkReg (slot : Nat) : Fld := if slot = 0 then Reg.UPD_DECK_STAT_A_OK else Reg.UPD_DECK_STAT_B_OK

/-- R107: the result of a slot's check. -/
def deckRecord (slot : Nat) (r : Option Reject) (c : Chip) : Chip :=
  let x : Reject := r.getD { reason := 0, idx := 0, off := 0 }
  setF (deckOkReg slot) 0 r.isNone.toNat (setF Reg.UPD_DECK_REJ_REASON slot x.reason
    (setF Reg.UPD_DECK_REJ_CARD slot x.idx (setF Reg.UPD_DECK_REJOFF_OFFSET slot x.off c)))

/-- The digest of the deck in a slot (R97). -/
def deckDigest (slot : Nat) (c : Chip) : List Nat :=
  let p := c.deck.flash[slot]?.getD []
  sha256 (flashRead p (deckTotal p))

/-! ### DECK_LOAD, DECK_ACTIVATE, DECK_COMMIT, R99 and R105 -/

/-- The running slot; none in bare mode. -/
def deckRunSlot (c : Chip) : Option Nat := if c.pwr.phase = .bare then none else some (getF Reg.UPD_DECK_STAT_RUN 0 c)

/-- R465, R105: the checks of DECK_LOAD before its data. -/
def deckAdmit (slot total : Nat) (c : Chip) : Status :=
  if total < 300 ∨ 4194304 < total then .lenRange
  else if 1 < slot then .range
  else if deckRunSlot c = some slot then .busy
  else .ok

/-- R105, R106: the slot's OK bit is cleared and the slot written; a supply cut leaves its first `cut` bytes. The rest of the
slot is erased. -/
def deckWrite (slot : Nat) (bytes : List Nat) (cut : Option Nat) (c : Chip) : Chip :=
  let b := match cut with
    | some n => bytes.take n
    | none => bytes
  setF (deckOkReg slot) 0 0 { c with deck := { c.deck with flash := c.deck.flash.setIfInBounds slot b } }

/-- R105: DECK_LOAD: the slot is written, checked, and the result recorded. -/
def deckLoad (slot : Nat) (bytes : List Nat) (sigOk : Bool) (c : Chip) : Chip × Status :=
  match deckAdmit slot bytes.length c with
  | .ok =>
    let c := deckWrite slot bytes none c
    let c := { c with deck := { c.deck with loaded := some slot } }
    match deckCheck slot sigOk c with
    | .ok _ => (deckRecord slot none c, .ok)
    | .error r => (deckRecord slot (some r) c, rejectStatus r.reason)
  | e => (c, e)

/-- R105: the slot that DECK_ACTIVATE makes PREF, if its last check passed. -/
def activateSlot (c : Chip) : Option Nat :=
  let s := match deckRunSlot c with
    | some r => some (1 - r)
    | none => c.deck.loaded
  s.filter fun k => getF (deckOkReg k) 0 c == 1

/-- A command that ends in a restart of cause 0x0A: refused with a status, or answered, carried out and restarted. -/
def restartCmd (rq : Request) (acts : Acts) (check : Chip → Status) (act : Chip → Chip) : Chip → Chip :=
  onFrame rq.sess.val fun c =>
    if !acts.here c then respond 0x20 rq .bare [] c
    else if !isDeclarer rq.sess.val c then respond 0x20 rq .notDeclarer [] c
    else match check c with
      | .ok => restart 10 (act (respond 0x20 rq .ok [] c))
      | e => respond 0x20 rq e [] c

/-- R106: a grant is on its way to the HSL, which counts as held. -/
def grantSent (c : Chip) : Bool := (List.range 16).any fun n => (bayGet n c).grantReq

/-- R105, R106: what refuses DECK_ACTIVATE. -/
def activateRefused (c : Chip) : Status :=
  if (activateSlot c).isNone ∨ bayBusy c ∨ grantSent c ∨ getF Reg.PWR_PFW_ACTIVE 0 c = 1 ∨ getF Reg.UPD_STAT_PENDING 0 c = 1 then .busy
  else .ok

/-- R105: the billing state is saved as an ordinary save, and the slot becomes PREF. -/
def deckActivate (c : Chip) : Chip :=
  let slot := (activateSlot c).getD 0
  let c := if c.bil.ready then saveEnd true (saveStart { c with bil := { c.bil with save := none } }) else c
  setF Reg.UPD_DECK_STAT_PREF 0 slot c

/-- R473: the defaults of the service port, which stand where the deck has no HOST card (R503). -/
def hostDefaults : List Nat :=
  [0, 0, 0, 0] ++ Byte.le 2 7140 ++ [5, 15, 0, 0] ++ Byte.le 2 120 ++ [1] ++ List.replicate 11 0 ++ [1] ++ List.replicate 11 0

/-- R99, R503: the rollback floor rises to the running deck's serial and BARE_HOST is written. -/
def deckCommit (c : Chip) : Chip × Status :=
  let f := max c.store.floor (getF Reg.UPD_DECK_SERIAL_SERIAL 0 c)
  let bare := match cardPayload 0x00A0 0 c with
    | some p => p.take 36
    | none => hostDefaults
  (hdrWrite (fun h => { h with bare := bare })
    (setF Reg.UPD_DECK_FLOOR_FLOOR 0 f { c with store := { c.store with floor := f } }), .ok)

/-- R105, R106: the row DECK_LOAD: a transfer that is complete, or one whose writing a supply cut ends. -/
def deckLoadRow (rq : Request) (slot : Nat) (bytes : List Nat) (sigOk : Bool) (cut : Option Nat) (c : Chip) : Chip :=
  match cut with
  | none => bulkCmd rq .bare (deckLoad slot bytes sigOk) c
  | some n =>
    onFrame rq.sess.val (fun c =>
      if Acts.here .bare c ∧ isDeclarer rq.sess.val c ∧ deckAdmit slot bytes.length c = .ok then
        deckWrite slot bytes (some n) c
      else c) c

def execDeckLoad (rq : Request) (slot : Nat) (bytes : List Byte) (sigOk : Bool) (cut : Option Nat) (s : State) :
    Host.Outcome State Fault Refusal := s.run (deckLoadRow rq slot (Byte.nats bytes) sigOk cut)
def execDeckActivate (rq : Request) (s : State) : Host.Outcome State Fault Refusal :=
  s.run (restartCmd rq .bare activateRefused deckActivate)
def execDeckCommit (rq : Request) (s : State) : Host.Outcome State Fault Refusal := s.run (statusCmd rq true .run deckCommit)

end Sys2Proof.Machine
end

