-- ==== Sys2Proof/Machine/Power.lean ====
section
/-!
DEFINITION. The die bridge (chapter 01), clocks, supplies, power states, PFWARN_N, RESET_N and SVCBTN_N (chapter 03).
Each meaning `exec…` is the whole step of one row of the table; the function above it says what the step does to the chip.
-/

namespace Sys2Proof.Machine
open Sys2Proof

/-! ### The die bridge, R17-R21 and R30 -/

/-- R19: the power die declares the bridge down; the HSL takes its reset state and the logic die is reset, cause 3. -/
def bridgeDownPower (c : Chip) : Chip :=
  if c.bridge.downPower || !c.powered then c
  else
    let c := if c.bridge.downLogic then c else addSat Reg.DEV_BRIDGE_DOWN_CNT 0 255 1 c
    let c := release (logicReset 3 (hslReset c))
    { c with bridge := { c.bridge with downPower := true } }

/-- R20: the logic die declares the bridge down and stops commanding the power die: what waits to cross is dropped, staged commits
are discarded (R125), and a panel update in progress ends without its image. -/
def bridgeDownLogic (c : Chip) : Chip :=
  if c.bridge.downLogic || !c.logicUp then c
  else
    let c := if c.bridge.downPower then c else addSat Reg.DEV_BRIDGE_DOWN_CNT 0 255 1 c
    let c := setF Reg.DEV_BRIDGE_UP 0 0 c
    discardCommits { c with bridge := { c.bridge with downLogic := true, trips := [] }, dsp := { c.dsp with upd := none } }

/-- R18, R21: a negative acknowledgement repeats the flit in flight, at most 3 times; a fourth failure of the same flit declares
the bridge down. `flitSent` and `flitRead` (Ops.lean) begin the count anew with every flit that is delivered. -/
def bridgeNak (dir : Dir) (c : Chip) : Chip :=
  if c.bridge.downPower || c.bridge.downLogic || !c.powered || !c.logicUp then c
  else match dir with
    | .toPower =>
      if c.bridge.toPower.retry < 3 then
        let c := addSat Reg.DEV_BRIDGE_RETRY_CNT 0 255 1 c
        { c with bridge := { c.bridge with toPower := { c.bridge.toPower with retry := c.bridge.toPower.retry + 1 } } }
      else bridgeDownPower c
    | .toLogic =>
      if c.bridge.toLogic.retry < 3 then
        let c := addSat Reg.DEV_BRIDGE_RETRY_CNT 0 255 1 c
        { c with bridge := { c.bridge with toLogic := { c.bridge.toLogic with retry := c.bridge.toLogic.retry + 1 } } }
      else bridgeDownLogic c

/-- R18: a direction with nothing else to send sends an idle flit, which is a new flit with no repeat spent. -/
def bridgeHeartbeat (dir : Dir) (c : Chip) : Chip :=
  if c.bridge.downPower || c.bridge.downLogic || !c.powered || !c.logicUp then c
  else match dir with
    | .toPower =>
      if c.bridge.trips.isEmpty then
        { c with bridge := { c.bridge with toPower := { retry := 0, idle := c.bridge.toPower.idle + 1 } } }
      else c
    | .toLogic => { c with bridge := { c.bridge with toLogic := { retry := 0, idle := c.bridge.toLogic.idle + 1 } } }

/-- R30: the HSL takes the oldest TRIP flit, latches its trip and withdraws permission. -/
def tripFlit (c : Chip) : Chip :=
  if c.bridge.downPower || c.bridge.downLogic || !c.powered then c
  else match c.bridge.trips with
    | [] => c
    | t :: rest =>
      tripTake t { c with bridge := { c.bridge with trips := rest, toPower := { c.bridge.toPower with retry := 0 } } }

def execBridgeFlitNak (dir : Dir) (s : State) : Host.Outcome State Fault Refusal := s.run (bridgeNak dir)
def execBridgeHeartbeat (dir : Dir) (s : State) : Host.Outcome State Fault Refusal := s.run (bridgeHeartbeat dir)
def execBridgeDownPower (s : State) : Host.Outcome State Fault Refusal := s.run bridgeDownPower
def execBridgeDownLogic (s : State) : Host.Outcome State Fault Refusal := s.run bridgeDownLogic
def execTripFlit (s : State) : Host.Outcome State Fault Refusal := s.run tripFlit

/-! ### Clock supervision, R58, R59, R525 -/

/-- R59: MCLK fault or metrology PLL loss. Sensing stops until 100 consecutive windows pass. -/
def mclkFault (c : Chip) : Chip :=
  let c := setF Reg.PWR_CLKSTAT_MCLK_OK 0 0 c
  if c.pwr.mclkFault then { c with pwr := { c.pwr with mclkGood := 0 } }
  else
    let c := flagF Reg.PWR_CLKSTAT_MCLK_FAULT 0 0 Reg.PWR_CLKSTAT_EVT_CNT 0 c
    let c := { c with pwr := { c.pwr with mclkFault := true, mclkGood := 0 } }
    blindAll (withdrawAll (streamsLostAll c))

/-- R58, R59: the 1 ms window of MCLK counted against ICLK; accepted 40,919-41,001. From the first failed window the streams are
lost, so element results are invalid (log entry 16); the second in a row is the MCLK fault. -/
def mclkWindow (count : Nat) (c : Chip) : Chip :=
  if !c.logicUp then c
  else
    let c := setF Reg.PWR_CLKCNT_MCLK 0 (min count 65535) c
    if 40919 ≤ count ∧ count ≤ 41001 then
      let good := c.pwr.mclkGood + 1
      let c := setF Reg.PWR_CLKSTAT_MCLK_OK 0 1 c
      if c.pwr.mclkFault ∧ 100 ≤ good then
        { c with pwr := { c.pwr with mclkFail := 0, mclkGood := 0, mclkFault := false } }
      else if c.pwr.mclkFault then { c with pwr := { c.pwr with mclkFail := 0, mclkGood := good } }
      else { c with pwr := { c.pwr with mclkFail := 0 } }
    else
      let fails := c.pwr.mclkFail + 1
      let c := { c with pwr := { c.pwr with mclkFail := fails, mclkGood := 0 } }
      if 2 ≤ fails then mclkFault c else streamsLostAll c

/-- R59: BCLK fault or stop: the HSL takes its reset state, the logic die is reset with cause 5 and held under R525. -/
def bclkFault (c : Chip) : Chip :=
  let c := logicReset 5 (hslReset c)
  { c with pwr := { c.pwr with bclkHold := true, bmonPass := 0, bclkFlag := true, bclkFail := 0 } }

/-- R58: the 1 ms window of BCLK counted against MCLK; accepted 31,040-32,960; suspended during an MCLK fault. -/
def bclkWindow (count : Nat) (c : Chip) : Chip :=
  if !c.logicUp || c.pwr.mclkFault || c.bridge.downPower || c.bridge.downLogic || !c.powered then c
  else
    let c := setF Reg.PWR_CLKCNT_BCLK 0 (min count 65535) c
    if 31040 ≤ count ∧ count ≤ 32960 then
      setF Reg.PWR_CLKSTAT_BCLK_OK 0 1 { c with pwr := { c.pwr with bclkFail := 0 } }
    else if 1 ≤ c.pwr.bclkFail then bclkFault c
    else { c with pwr := { c.pwr with bclkFail := 1 } }

/-- R58, R525: the BMON window; one window outside 1,843-2,253 is a BCLK stop; 16 passing windows release the die. -/
def bmonWindow (count : Nat) (c : Chip) : Chip :=
  if !c.powered then c
  else if 1843 ≤ count ∧ count ≤ 2253 then
    if c.pwr.bclkHold then
      if 16 ≤ c.pwr.bmonPass + 1 then
        release { c with pwr := { c.pwr with bclkHold := false, bmonPass := 0 } }
      else { c with pwr := { c.pwr with bmonPass := c.pwr.bmonPass + 1 } }
    else c
  else if c.pwr.bclkHold then { c with pwr := { c.pwr with bmonPass := 0 } }
  else bclkFault c

/-- R59: TCLK stop with the main supply present. Meter time takes up the whole milliseconds MCLK has counted. -/
def tclkStop (mclkCycles : Nat) (c : Chip) : Chip :=
  let c := flagF Reg.PWR_CLKSTAT_TCLK_STOP 0 0 Reg.PWR_CLKSTAT_EVT_CNT 0 c
  let c := setF Reg.PWR_CLKSTAT_TCLK_OK 0 0 (setF Reg.PWR_CLKSTAT_MT_MCLK 0 1 c)
  let c := { c with backup := { c.backup with
    ms := (c.backup.ms + mclkCycles / 40960) % 2 ^ 64 } }
  wallLost { c with pwr := { c.pwr with tclkGone := true, tclkBack := false, mclkMs := mclkCycles % 40960 } }

/-- R58: the TCLK presence window; no edge in two consecutive windows is a TCLK stop. `mclkCycles` is the count of
MCLK cycles since the last millisecond counted from TCLK. -/
def tclkWindow (edges mclkCycles : Nat) (c : Chip) : Chip :=
  if !c.logicUp || !c.powered then c
  else if 1 ≤ edges then
    let c := { c with pwr := { c.pwr with tclkFail := 0 } }
    if c.pwr.tclkGone then c else setF Reg.PWR_CLKSTAT_TCLK_OK 0 1 c
  else if c.pwr.tclkGone then c
  else if 1 ≤ c.pwr.tclkFail then tclkStop mclkCycles { c with pwr := { c.pwr with tclkFail := 0 } }
  else { c with pwr := { c.pwr with tclkFail := 1 } }

/-- R58: TCLK outside 327,647-327,713 cycles in two consecutive windows of 10 s is drift, which is reported only. -/
def tclkDrift (count : Nat) (c : Chip) : Chip :=
  if !c.logicUp then c
  else if 327647 ≤ count ∧ count ≤ 327713 then { c with pwr := { c.pwr with driftFail := 0 } }
  else if c.pwr.driftFail = 0 then { c with pwr := { c.pwr with driftFail := 1 } }
  else flagF Reg.PWR_CLKSTAT_TCLK_DRIFT 0 0 Reg.PWR_CLKSTAT_EVT_CNT 0
    { c with pwr := { c.pwr with driftFail := c.pwr.driftFail + 1 } }

/-- R59: TCLK returns; meter time goes back to it at the next millisecond boundary counted from MCLK. -/
def tclkReturn (c : Chip) : Chip :=
  if c.pwr.tclkGone then { c with pwr := { c.pwr with tclkBack := true } } else c

/-- R60, R59: meter time counts one millisecond: from TCLK at the wrap of the fractional accumulator, from MCLK after
40,960 cycles. A pending return of TCLK takes place here, with the accumulator set to zero. R526: the idle timer runs
in meter time. -/
def meterTick (c : Chip) : Chip :=
  if c.pwr.off || c.backup.tclkStop then c
  else
    let cycles := (32768 - c.backup.frac + 999) / 1000
    let frac := if c.pwr.tclkGone then c.backup.frac else (c.backup.frac + 1000 * cycles) % 32768
    let c := { c with backup := { c.backup with ms := (c.backup.ms + 1) % 2 ^ 64, frac := frac } }
    let c := legalPoll (if idleRuns c then { c with pwr := { c.pwr with idleMs := c.pwr.idleMs + 1 } } else c)
    if c.pwr.tclkGone ∧ c.pwr.tclkBack then
      let c := setF Reg.PWR_CLKSTAT_TCLK_OK 0 1 (setF Reg.PWR_CLKSTAT_MT_MCLK 0 0 c)
      { c with backup := { c.backup with frac := 0 }
               pwr := { c.pwr with tclkGone := false, tclkBack := false, mclkMs := 0 } }
    else if c.pwr.tclkGone then { c with pwr := { c.pwr with mclkMs := 0 } }
    else c

/-- R69: TCLK stops while the device is in HOLD and meter time stops with it. -/
def tclkStopInHold (c : Chip) : Chip :=
  if c.pwr.hold then
    { c with backup := { c.backup with
      tclkStop := true, wallValid := false
      wallLostAt := if c.backup.wallValid then c.backup.ms else c.backup.wallLostAt } }
  else c

/-- R59: core PLL loss: the HSL takes its reset state and the logic die is reset, cause 4, until the PLL locks. -/
def corePllLoss (c : Chip) : Chip :=
  if c.pwr.pllLost then c
  else
    let c := logicReset 4 (hslReset c)
    { c with pwr := { c.pwr with pllLost := true } }

def corePllLock (c : Chip) : Chip :=
  if c.pwr.pllLost then release { c with pwr := { c.pwr with pllLost := false } } else c

/-- R59: the metrology PLL loses lock, which is treated as an MCLK fault. -/
def metroPllLoss (c : Chip) : Chip := if c.logicUp then mclkFault c else c

/-- R59: the link PLL loses lock: drivers at high impedance and link hands idle (R328). -/
def linkPllLoss (c : Chip) : Chip :=
  if !c.logicUp || !c.pwr.linkPll then c
  else
    let c := flagF Reg.PWR_CLKSTAT_LINK_PLL 0 0 Reg.PWR_CLKSTAT_EVT_CNT 0 c
    linksIdle { c with pwr := { c.pwr with linkPll := false } }

/-- R328: the link PLL relocks; high-level communication has failed and the chain link restarts election. -/
def linkPllRelock (c : Chip) : Chip :=
  if !c.logicUp || c.pwr.linkPll then c
  else linksRestart { c with pwr := { c.pwr with linkPll := true } }

/-- R59: the host PLL loses lock: Ethernet transmission stops and the network sessions (R453), relayed ones among them, close. -/
def hostPllLoss (c : Chip) : Chip :=
  if !c.logicUp || !c.pwr.hostPll then c
  else
    let c := flagF Reg.PWR_CLKSTAT_HOST_PLL 0 0 Reg.PWR_CLKSTAT_EVT_CNT 0 c
    closeNetSessions { c with pwr := { c.pwr with hostPll := false } }

def hostPllRelock (c : Chip) : Chip := { c with pwr := { c.pwr with hostPll := true } }

/-- R59: FCLK is lost and the reader stops. The tag is unaffected. -/
def fclkLoss (c : Chip) : Chip :=
  if !c.logicUp || !c.pwr.fclk then c
  else
    let c := flagF Reg.PWR_CLKSTAT_FCLK_LOSS 0 0 Reg.PWR_CLKSTAT_EVT_CNT 0 c
    readerStop { c with pwr := { c.pwr with fclk := false } }

def fclkReturn (c : Chip) : Chip := { c with pwr := { c.pwr with fclk := true } }

def execMclkCheckWindow (count : Nat) (s : State) : Host.Outcome State Fault Refusal := s.run (mclkWindow count)
def execBclkCheckWindow (count : Nat) (s : State) : Host.Outcome State Fault Refusal := s.run (bclkWindow count)
def execBmonCheckWindow (count : Nat) (s : State) : Host.Outcome State Fault Refusal := s.run (bmonWindow count)
def execTclkPresenceWindow (edges mclkCycles : Nat) (s : State) : Host.Outcome State Fault Refusal :=
  s.run (tclkWindow edges mclkCycles)
def execTclkDriftWindow (count : Nat) (s : State) : Host.Outcome State Fault Refusal := s.run (tclkDrift count)
def execTclkReturn (s : State) : Host.Outcome State Fault Refusal := s.run tclkReturn
def execCorePllLoss (s : State) : Host.Outcome State Fault Refusal := s.run corePllLoss
def execCorePllLock (s : State) : Host.Outcome State Fault Refusal := s.run corePllLock
def execMetroPllLoss (s : State) : Host.Outcome State Fault Refusal := s.run metroPllLoss
def execLinkPllLoss (s : State) : Host.Outcome State Fault Refusal := s.run linkPllLoss
def execLinkPllRelock (s : State) : Host.Outcome State Fault Refusal := s.run linkPllRelock
def execHostPllLoss (s : State) : Host.Outcome State Fault Refusal := s.run hostPllLoss
def execHostPllRelock (s : State) : Host.Outcome State Fault Refusal := s.run hostPllRelock
def execFclkLoss (s : State) : Host.Outcome State Fault Refusal := s.run fclkLoss
def execFclkReturn (s : State) : Host.Outcome State Fault Refusal := s.run fclkReturn
def execMeterTimeTick (s : State) : Host.Outcome State Fault Refusal := s.run meterTick
def execTclkStopInHold (s : State) : Host.Outcome State Fault Refusal := s.run tclkStopInHold

/-! ### Supplies, R61, R62, R67, R68 -/

/-- R62: VDD_CORE below 0.72 V resets the logic die with cause 6. -/
def vddCoreBrownout (c : Chip) : Chip := release (logicReset 6 (hslReset c))

/-- R62, R64, R67: VPD5 below 4.50 V: the power die is unpowered, the backup rail runs from VBAT, the device is in HOLD. -/
def vpd5Brownout (c : Chip) : Chip :=
  if !c.pwr.vpd5 then c
  else
    let c := powerDieLost (logicReset 3 (hslReset c))
    { c with pwr := { c.pwr with vpd5 := false, hold := true, holdPassed := true, phase := .held } }

/-- R48, R51: the modulator clocks stand low. -/
def mckOff (c : Chip) : Chip := (List.range 6).foldl (fun c g => setF Reg.SNS_GRP_MCK_ON g 0 c) c

/-- R62, R51: VP12 or VN12 leaves its threshold: the power die counts as unpowered, the logic die acts under R20 and its balls
take the bare-mode column: no modulator clock, no CAN traffic, no new write to the legal store. -/
def vp12Brownout (c : Chip) : Chip :=
  if !c.pwr.vp12 then c
  else
    let c := mckOff (powerDieLost (bridgeDownLogic (hslReset c)))
    { c with pwr := { c.pwr with vp12 := false } }

/-- R273, R67: VPD5, VP12 and VN12 are back within range; the HSL restores its latches from the backup mirror. A logic
die that is not held by RESET_N is reset by the power die, which has seen no valid flit (R19). -/
def powerDiePowered (c : Chip) : Chip :=
  if c.powered then c
  else
    let c := { c with pwr := { c.pwr with vpd5 := true, vp12 := true, hold := false, off := false } }
    let c := restoreLatches c
    if c.logicUp then release (logicReset 3 c) else release c

/-- R346, R62: a bank supply falls below 7.0 V. -/
def vbbBrownout (b : Fin 6) (c : Chip) : Chip :=
  let c := { c with pwr := { c.pwr with vbbOk := c.pwr.vbbOk &&& ~~~(BitVec.ofNat 6 (2 ^ b.val)) } }
  let c := bankLost b c
  if c.logicUp then
    setF Reg.PWR_SUPSTAT_VBB_OK 0 c.pwr.vbbOk.toNat
      (flagF Reg.PWR_SUPSTAT_VBB_DROP 0 b.val Reg.PWR_SUPSTAT_EVT_CNT 0 c)
  else c

def vbbRestore (b : Fin 6) (c : Chip) : Chip :=
  if c.pwr.vbbOk.getLsbD b.val then c
  else
    let c := { c with pwr := { c.pwr with vbbOk := c.pwr.vbbOk ||| BitVec.ofNat 6 (2 ^ b.val) } }
    let c := if c.logicUp then setF Reg.PWR_SUPSTAT_VBB_OK 0 c.pwr.vbbOk.toNat c else c
    bankBack b c

/-- R62, R365: VSTO below 19.0 V: STO reads asserted and cause 11 applies to every configured axis. -/
def vstoBrownout (c : Chip) : Chip :=
  let c := { c with pwr := { c.pwr with vstoOk := false } }
  let c := if c.logicUp then
    setF Reg.PWR_SUPSTAT_VSTO_OK 0 0 (flagF Reg.PWR_SUPSTAT_VSTO_DROP 0 0 Reg.PWR_SUPSTAT_EVT_CNT 0 c) else c
  vstoLost c

/-- R368: VSTO returns; cause 11 becomes clearable by a restart edge. -/
def vstoRestore (c : Chip) : Chip :=
  let c := { c with pwr := { c.pwr with vstoOk := true } }
  if c.logicUp then setF Reg.PWR_SUPSTAT_VSTO_OK 0 1 c else c

/-- R62, R405: VCOL below its threshold: every column source is off. -/
def vcolBrownout (c : Chip) : Chip :=
  let c := { c with pwr := { c.pwr with vcolOk := false } }
  let c := if c.logicUp then
    setF Reg.PWR_SUPSTAT_VCOL_OK 0 0 (flagF Reg.PWR_SUPSTAT_VCOL_DROP 0 0 Reg.PWR_SUPSTAT_EVT_CNT 0 c) else c
  columnsOff c

/-- R405: VCOL returns; scanning resumes at the next frame start. -/
def vcolRestore (c : Chip) : Chip :=
  let c := { c with pwr := { c.pwr with vcolOk := true } }
  if c.logicUp then setF Reg.PWR_SUPSTAT_VCOL_OK 0 1 c else c

/-- R67: the backup rail falls below VBKPOR and the device passes from HOLD to OFF. -/
def backupPor (c : Chip) : Chip :=
  if c.pwr.hold then { c with pwr := { c.pwr with porFired := true, hold := false, off := true } } else c

/-- R68: VBAT is measured once per second while the main supply is present. -/
def vbatMeasure (mv : Nat) (c : Chip) : Chip :=
  if !c.logicUp || !c.powered then c
  else
    let c := setF Reg.PWR_BKSTAT_VBAT_MV 0 (min mv 4095) c
    if mv < 2600 then setF Reg.PWR_BKSTAT_VBAT_LOW 0 1 c else c

def execVddCoreBrownout (s : State) : Host.Outcome State Fault Refusal := s.run vddCoreBrownout
def execVpd5Brownout (s : State) : Host.Outcome State Fault Refusal := s.run vpd5Brownout
def execVp12Brownout (s : State) : Host.Outcome State Fault Refusal := s.run vp12Brownout
def execPowerDiePowered (s : State) : Host.Outcome State Fault Refusal := s.run powerDiePowered
def execVbbBrownout (b : Fin 6) (s : State) : Host.Outcome State Fault Refusal := s.run (vbbBrownout b)
def execVbbRestore (b : Fin 6) (s : State) : Host.Outcome State Fault Refusal := s.run (vbbRestore b)
def execVstoBrownout (s : State) : Host.Outcome State Fault Refusal := s.run vstoBrownout
def execVstoRestore (s : State) : Host.Outcome State Fault Refusal := s.run vstoRestore
def execVcolBrownout (s : State) : Host.Outcome State Fault Refusal := s.run vcolBrownout
def execVcolRestore (s : State) : Host.Outcome State Fault Refusal := s.run vcolRestore
def execBackupPor (s : State) : Host.Outcome State Fault Refusal := s.run backupPor
def execVbatMeasure (mv : Nat) (s : State) : Host.Outcome State Fault Refusal := s.run (vbatMeasure mv)

/-! ### Power states, R63-R66 and R526 -/

/-- R64, R65: a request written to PWR_REQ.REQ (1 RUN, 2 LEAN, 3 STANDBY). DESIGN CHOICE (log entry 53): RUN or LEAN written while
an accepted entry into STANDBY is in progress does not cancel the entry. -/
def pwrRequest (req : Nat) (c : Chip) : Chip × Status :=
  let st := getF Reg.PWR_STATE_STATE 0 c
  if req = 1 then
    let c := setF Reg.PWR_REQ_REQ 0 1 c
    (if st = 2 then enterRun c else c, .ok)
  else if req = 2 then
    let c := setF Reg.PWR_REQ_REQ 0 2 c
    (if st = 1 then setF Reg.PWR_STATE_STATE 0 2 c else c, .ok)
  else if req = 3 then
    if standbyForbidden c then (c, .busy)
    else (setF Reg.PWR_REQ_REQ 0 3 { c with pwr := { c.pwr with sbEntry := true } }, .ok)
  else (c, .range)

/-- R81: writes are accepted only from the Declarer or from device firmware, and not in bare mode. -/
def pwrReqWrite (who : Writer) (req : Nat) (c : Chip) : Chip :=
  match writerStatus who c with
  | .ok => let r := pwrRequest req c; { r.1 with reply := r.2 }
  | e => { c with reply := e }

/-- R64, R63: STANDBY is reached; the functions that are off in STANDBY stop. -/
def standbyReached (c : Chip) : Chip :=
  if c.pwr.sbEntry then
    standbyStop (setF Reg.PWR_STATE_STATE 0 3 { c with pwr := { c.pwr with sbEntry := false, timerWake := false } })
  else c

/-- R66: an enabled wake source, or the billing timer, wakes the device; of several the lower-numbered is recorded. -/
def standbyWake (sources : BitVec 8) (c : Chip) : Chip :=
  match firstBit 8 ((sources &&& BitVec.ofNat 8 (regWord 0x10008 c)).toNat) with
  | none => c
  | some k => legalPoll (standbyWakeFrom k c)

/-- R526: the idle timer reaches IDLE_S and RUN passes to LEAN. -/
def idleExpiry (c : Chip) : Chip :=
  if c.pwr.phase = .run ∧ getF Reg.PWR_STATE_STATE 0 c = 1 ∧ 0 < c.idleS ∧ 1000 * c.idleS ≤ c.pwr.idleMs then
    setF Reg.PWR_STATE_STATE 0 2 c
  else c

/-- R526: a firmware load demand moves LEAN to RUN and starts the idle timer from zero. -/
def loadDemand (c : Chip) : Chip := if c.pwr.phase = .run then activity c else c

/-- R66: the firmware watchdog is not served within its period; the logic die is reset with cause 7. -/
def watchdogExpiry (c : Chip) : Chip :=
  if c.logicUp then release (logicReset 7 (hslReset c)) else c

def execPwrReqRun (who : Writer) (s : State) : Host.Outcome State Fault Refusal := s.run (pwrReqWrite who 1)
def execPwrReqLean (who : Writer) (s : State) : Host.Outcome State Fault Refusal := s.run (pwrReqWrite who 2)
def execPwrReqStandby (who : Writer) (s : State) : Host.Outcome State Fault Refusal := s.run (pwrReqWrite who 3)
def execStandbyReached (s : State) : Host.Outcome State Fault Refusal := s.run standbyReached
def execStandbyWake (sources : BitVec 8) (s : State) : Host.Outcome State Fault Refusal := s.run (standbyWake sources)
def execIdleTimerExpiry (s : State) : Host.Outcome State Fault Refusal := s.run idleExpiry
def execLoadDemand (s : State) : Host.Outcome State Fault Refusal := s.run loadDemand
def execWatchdogExpiry (s : State) : Host.Outcome State Fault Refusal := s.run watchdogExpiry

/-! ### PFWARN_N and RESET_N, R70-R77 -/

/-- R72: a low PFWARN_N is recognised. It has no effect in HOLD (R74); a start sequence that is due waits (R75). -/
def pfwarnRecognised (c : Chip) : Chip :=
  if c.pwr.hold || c.pwr.off || c.pwr.pfLow then c
  else
    let c := { c with pwr := { c.pwr with pfLow := true } }
    if !c.logicUp then c
    else if c.pwr.phase = .startDue then
      startHold (addSat Reg.PWR_PFW_PF_CNT 0 65535 1 (setF Reg.PWR_PFW_ACTIVE 0 1 c))
    else
      let c := addSat Reg.PWR_PFW_PF_CNT 0 65535 1 (setF Reg.PWR_PFW_ACTIVE 0 1 c)
      if c.pwr.phase = .run then pfStart c else c

/-- R73: PFWARN_N has stayed high for tPFHI. The device resumes where all supplies are in range. -/
def pfwarnRecovered (c : Chip) : Chip :=
  if !c.pwr.pfLow || c.pwr.hold || c.pwr.off || c.pwr.phase = .startWait then c
  else if !c.logicUp then { c with pwr := { c.pwr with pfLow := false } }
  else if !c.suppliesOk then c
  else
      let c := { c with pwr := { c.pwr with pfLow := false } }
      let c := setF Reg.PWR_PFW_DIP 0 1 (setF Reg.PWR_PFW_ACTIVE 0 0 c)
      if c.pwr.phase = .run then pfEnd c else c

/-- R75: PFWARN_N has been high for tPFHI; the waiting start sequence continues. -/
def startWaitEnd (c : Chip) : Chip :=
  if c.pwr.phase = .startWait then
    setF Reg.PWR_PFW_START_WAIT 0 0 <| setF Reg.PWR_PFW_ACTIVE 0 0 { c with pwr := { c.pwr with phase := .startDue, pfLow := false } }
  else c

/-- R76, R74: RESET_N is recognised low. The final snapshot is not written. No effect in HOLD or OFF. -/
def resetNRecognised (c : Chip) : Chip :=
  if c.pwr.hold || c.pwr.off || c.pwr.resetLow then c
  else
    let c := logicReset 2 (hslReset c)
    { c with pwr := { c.pwr with resetLow := true } }

/-- R76, R79: RESET_N rises and the start sequence is due. A service button that reads low is not a press. -/
def resetNRelease (svcLow : Bool) (c : Chip) : Chip :=
  let c := { c with pwr := { c.pwr with
    resetLow := false, svcStale := if svcLow then some c.backup.ms else none, svcStart := none, svcDone := false } }
  setF Reg.PWR_SVC_HELD 0 (if svcLow then 1 else 0) (release c)

def execPfwarnRecognised (s : State) : Host.Outcome State Fault Refusal := s.run pfwarnRecognised
def execPfwarnRecovered (s : State) : Host.Outcome State Fault Refusal := s.run pfwarnRecovered
def execStartWaitEnd (s : State) : Host.Outcome State Fault Refusal := s.run startWaitEnd
def execResetNRecognised (s : State) : Host.Outcome State Fault Refusal := s.run resetNRecognised
def execResetNRelease (svcLow : Bool) (s : State) : Host.Outcome State Fault Refusal := s.run (resetNRelease svcLow)

/-! ### SVCBTN_N, R78 and R79 -/

/-- R78: a press begins; PWR_SVC.HELD is set. In STANDBY the start of a press wakes the device (R79). -/
def svcPressStart (c : Chip) : Chip :=
  if !c.logicUp || c.pwr.svcStale.isSome || c.pwr.svcStart.isSome then c
  else
    let c := setF Reg.PWR_SVC_HELD 0 1 { c with pwr := { c.pwr with svcStart := some c.backup.ms, svcDone := false } }
    standbyWake 0x20#8 c

/-- R78: the service-port bid window opens for 60 s. -/
def openBidWindow (c : Chip) : Chip :=
  setF Reg.HST_SVC_WINDOW_S 0 60 { c with pwr := { c.pwr with bidOpen := some (c.backup.ms + 60000) } }

/-- R78, R79: a button that has stayed low for more than 60,000 ms is recorded as failed closed, once. -/
def svcFail (c : Chip) : Chip :=
  let c := addSat Reg.PWR_SVC_FAIL_CNT 0 255 1 (setF Reg.PWR_SVC_FAILED 0 1 c)
  eventF Reg.PWR_SVC_FAILED 0 0xFF [] { c with pwr := { c.pwr with svcDone := true } }

/-- R78, R79: a press, or a button low since the release of RESET_N, reaches 60,001 ms. -/
def svcFailedClosed (c : Chip) : Chip :=
  match c.pwr.svcStart <|> c.pwr.svcStale with
  | none => c
  | some t => if !c.logicUp || c.pwr.svcDone || c.backup.ms ≤ t + 60000 then c else svcFail c

/-- R78: a press ends and is classified by its duration in ms of meter time. One of more than 60,000 ms is failed closed, at the
latest now. -/
def svcPressEnd (c : Chip) : Chip :=
  if !c.logicUp then c
  else
    let c := svcFailedClosed (setF Reg.PWR_SVC_HELD 0 0 c)
    match c.pwr.svcStart with
    | none => { c with pwr := { c.pwr with svcStale := none, svcDone := false } }
    | some t =>
      let dur := c.backup.ms - t
      let done := c.pwr.svcDone
      let c := setF Reg.PWR_SVC_LAST_MS 0 (min dur 65535) c
      let c := { c with pwr := { c.pwr with svcStart := none, svcDone := false } }
      if done ∨ dur < 20 ∨ 60000 < dur then c
      else if dur < 10000 then
        let c := openBidWindow (setF Reg.PWR_SVC_ATTENTION 0 1 c)
        eventF Reg.PWR_SVC_ATTENTION 0 0xFF [] c
      else openBidWindow (setF Reg.PWR_SVC_RECOVERY 0 1 (hostSettingsToDeck (closeAllSessions c)))

/-- R78: the 60 s bid window closes. -/
def bidWindowEnd (c : Chip) : Chip :=
  match c.pwr.bidOpen with
  | none => c
  | some t =>
    if c.backup.ms < t then c else setF Reg.HST_SVC_WINDOW_S 0 0 { c with pwr := { c.pwr with bidOpen := none } }

def execSvcbtnPressStart (s : State) : Host.Outcome State Fault Refusal := s.run svcPressStart
def execSvcbtnPressEnd (s : State) : Host.Outcome State Fault Refusal := s.run svcPressEnd
def execSvcbtnFailedClosed (s : State) : Host.Outcome State Fault Refusal := s.run svcFailedClosed
def execServiceBidWindowEnd (s : State) : Host.Outcome State Fault Refusal := s.run bidWindowEnd

end Sys2Proof.Machine
end

