-- ==== Sys2Proof/Machine/Window.lean ====
section
/-!
DEFINITION. The register window (R8-R13, R33, R35, R37, R462, R463): what a word reads, which words may be written, and the write
of a word under the rules of its home chapter.
-/

namespace Sys2Proof.Machine
open Sys2Proof

/-! ### Addresses, R8 and R37 -/

/-- R406: the window of the back buffer. -/
def inBuffer (addr : Nat) : Bool := 0x194000 ≤ addr && addr ≤ 0x195FFF

/-- R495: the aperture of the memory block. -/
def inAperture (addr : Nat) : Bool := 0x1C8000 ≤ addr && addr ≤ 0x1CFFFF

/-- R8, R37: a register or a window stands at the address. -/
def addrOk (addr : Nat) : Bool := addr % 4 == 0 && (inBuffer addr || inAperture addr || !(fieldsAt addr).isEmpty)

/-- R9: a field that takes writes. -/
def Access.writable (a : Access) : Bool := a == .rw || a == .rws || a == .wo || a == .w1c

/-- R462: a word that holds a field its writer may write in some state. R271 keeps BAYn_DC_STAT.LOST to firmware. -/
def mayWrite (who : Writer) (addr : Nat) : Bool :=
  let host : Bool := match who with
    | .session _ => true
    | .firmware => false
  inBuffer addr || inAperture addr ||
    (fieldsAt addr).any fun q => q.1.acc.writable && !(host && q.1 == Reg.BAY_DC_STAT_LOST)

/-! ### What a read shows -/

/-- R450: the derived fields of the security block. -/
def secShow (c : Chip) : Chip :=
  let left := match c.sec.until_ with
    | some t => (t - c.backup.ms + 59999) / 60000
    | none => 0
  let n := debugNonceNow c
  let c := setF Reg.SEC_STAT_KEYS_AVAIL 0 (keysAvail c).toNat (setF Reg.SEC_STAT_DEV_KEY 0 (devKeyOk c).toNat c)
  let c := setF Reg.SEC_LC_LC 0 (lifecycle c) (setF Reg.SEC_LC_SEALED 0 (sealed c).toNat c)
  let c := setF Reg.SEC_DBG_LEFT_MIN 0 (min left 2047) c
  (List.range 4).foldl (fun c k => setF Reg.SEC_DBG_NONCE_NONCE k (n / 2 ^ (32 * k)) c) c

/-- A fault flag of a load-switch channel is set. -/
def lswFault (k : Nat) (c : Chip) : Bool := (List.range 8).any fun b => getF (lswStBit b) k c == 1

/-- R350: the summary fields and the lines of the load-switch block. -/
def lswFields (c : Chip) : Chip :=
  let word := fun (w : Nat) => (List.range 32).foldl (fun a j =>
    if 32 * w + j < 48 && lswFault (32 * w + j) c then a + 2 ^ j else a) 0
  let latched := (List.range 48).any fun k => (lsw k c).latch
  let inj := fun (l : Nat) => let i : InsState := c.prt.ins[l]?.getD {}; i.inj
  let f0 := word 0
  let f1 := word 1
  let c := setF Reg.LSW_STAT_FAULT_ANY 0 (f0 + f1 != 0).toNat (setF Reg.LSW_STAT_LATCH_ANY 0 latched.toNat c)
  let c := setF Reg.LSW_FLT_ANY 0 f0 (setF Reg.LSW_FLT_ANY 1 f1 c)
  (List.range 48).foldl (fun c l =>
    if l < 16 then setF Reg.LSW_LINE_MODE l (inj l).toNat (setF Reg.LSW_LINE_LEVEL l (inj l).toNat c)
    else setF Reg.LSW_LINE_LEVEL l (c.lsw.level[l]?.getD false).toNat c) c

/-- R477: a session as HST_SESS shows it. -/
def sessShow (s : Nat) (c : Chip) : Chip :=
  let x := sess s c
  let idle := if x.state = 0 then 0 else min 65535 ((c.backup.ms - x.last) / 1000)
  let c := setF Reg.HST_SESS_STATE s x.state (setF Reg.HST_SESS_XPORT s x.xport c)
  let c := setF Reg.HST_SESS_DECLARER s (isDeclarer s c).toNat (setF Reg.HST_SESS_BID s x.bid.isSome.toNat c)
  let c := setF Reg.HST_SESS_SUB s x.sub.toNat (setF Reg.HST_SESS_RANK s x.rank c)
  setF Reg.HST_SESS_CLIENT s x.client (setF Reg.HST_SESS_IDLE s idle c)

/-- R477: the derived fields of the host block. -/
def hstShow (c : Chip) : Chip :=
  let h := c.hst
  let left := match h.target with
    | some (_, t) => t + 2000 - c.backup.ms
    | none => 0
  let rank := match h.decl with
    | some s => (sess s c).rank
    | none => 0
  let window := match c.pwr.bidOpen with
    | some t => (t - c.backup.ms + 999) / 1000
    | none => 0
  let c := setF Reg.HST_STAT_NO_DECL 0 h.decl.isNone.toNat (setF Reg.HST_OWNER_DECL 0 (h.decl.getD 15) c)
  let c := setF Reg.HST_OWNER_TARGET 0 ((h.target.map (·.1)).getD 15) (setF Reg.HST_OWNER_HO_LEFT 0 left c)
  let c := setF Reg.HST_OWNER_AUCT 0 h.auct.isSome.toNat (setF Reg.HST_OWNER_RANK 0 rank c)
  let c := setF Reg.HST_SVC_SEC 0 (hostU8 2 0 c) (setF Reg.HST_SVC_BAUD 0 (hostU8 3 0 c) c)
  (List.range 6).foldl (fun c s => sessShow s c) (setF Reg.HST_SVC_WINDOW_S 0 window c)

/-- R187, R192: MTRn_LIFE as the line-cycle groups have published it; zero for an element that is not configured. -/
def lifeShow (c : Chip) : Chip :=
  (List.range 64).foldl (fun c e =>
    setF Reg.MTR_LIFE_REV_EP e (elemGet e c).lifeRev (setF Reg.MTR_LIFE_VMISS_EP e (elemGet e c).lifeVm c)) c

/-- The state with the derived fields of one block at their present values. -/
def blockShow (block : Nat) (c : Chip) : Chip :=
  match block with
  | 0x00 => setF Reg.DEV_TRUMP_STATE_FROZEN 0 (lifecycle c == 2).toNat c
  | 0x04 => setF Reg.SNS_ROMDATA_COEF 0 (romData c) c
  | 0x08 => lifeShow c
  | 0x12 => protShow c
  | 0x16 => lswFields c
  | 0x19 => legalShow c
  | 0x1A => secShow c
  | 0x1B => hstShow c
  | 0x1C => cqShow c
  | _ => c

/-- R9, R33: the word at an address as a read returns it. -/
def shownWord (addr : Nat) (c : Chip) : Nat :=
  let d := blockShow (addr / 65536) c
  (fieldsAt addr).foldl (fun w q => if q.1.acc = .wo then w else w + readF q.1 q.2 d * 2 ^ q.1.lsb) 0

/-- R11: the clearing read of a word's RC fields. -/
def clearWord (addr : Nat) (c : Chip) : Chip :=
  (fieldsAt addr).foldl (fun c q => if q.1.acc = .rc then setF q.1 q.2 0 c else c) c

/-- R462, R495: one word is read; nothing is returned for an uncorrectable word of the aperture. -/
def readWord (clear : Bool) (addr : Nat) (c : Chip) : Chip × Option Nat :=
  if inAperture addr then apertureRead (addr - 0x1C8000) c
  else if inBuffer addr then (c, some (windowRead (addr - 0x194000) c))
  else (if clear then clearWord addr c else c, some (shownWord addr c))

/-- Words in ascending order; none once one cannot be corrected. -/
def readWords (clear : Bool) : List Nat → Chip → Chip × Option (List Nat)
  | [], c => (c, some [])
  | a :: as, c =>
    let r := readWord clear a c
    match r.2 with
    | none => (r.1, none)
    | some w =>
      let q := readWords clear as r.1
      (q.1, q.2.map fun ws => w :: ws)

/-! ### The write of a word, R9, R10, R463 -/

/-- The bits of a field in a word. -/
def Fld.of (f : Fld) (v : Nat) : Nat := v / 2 ^ f.lsb % 2 ^ f.width

/-- R9, R10: RW fields take their bits, W1C bits written 1 are cleared, the rest is ignored. -/
def plainWrite (addr v : Nat) (c : Chip) : Chip × Status :=
  ((fieldsAt addr).foldl (fun c q =>
    match q.1.acc with
    | .rw => setF q.1 q.2 (q.1.of v) c
    | .w1c => setF q.1 q.2 (getF q.1 q.2 c - (getF q.1 q.2 c &&& q.1.of v)) c
    | _ => c) c, .ok)

/-- R475: a write of NET_OFF: refused for the port of the writer's own connection; sessions on a port that goes off close. -/
def netOffWrite (who : Writer) (v : Nat) (c : Chip) : Chip × Status :=
  let own : Bool := match who with
    | .firmware => false
    | .session s => let x := sess s.val c; x.xport < 2 && v.testBit x.xport
  if own then (c, .state)
  else
    ((List.range 4).foldl (fun c s =>
      let x := sess s c
      if x.state ≠ 0 ∧ x.xport < 2 ∧ v.testBit x.xport then endSession s c else c)
      (setF Reg.HST_CTL_NET_OFF 0 v c), .ok)

/-- R405, R406: DSP_ECTL holds I_COL and SWAP; a refused one rejects the word. -/
def ectlWrite (who : Writer) (v : Nat) (c : Chip) : Chip × Status :=
  if v.testBit 31 ∧ getF Reg.DSP_ESTAT_SWAP_PEND 0 c = 1 then (c, .busy)
  else
    let r := icolCommand who (v % 512) c
    if r.2 = .ok ∧ v.testBit 31 then swapWrite r.1 else r

/-- R488: MEM_ECCT. -/
def ecctWrite (addr v : Nat) (c : Chip) : Chip × Status :=
  let op := v / 2 ^ 28 % 4
  if !v.testBit 31 then plainWrite addr v c
  else if op = 0 ∨ op = 3 then (c, .range)
  else eccGo op (v.testBit 30) (v % 256) c

/-- R491: the registers of transfer channel `t`; `o` is the offset of the register. -/
def teWrite (t o addr v : Nat) (c : Chip) : Chip × Status :=
  if (teGet t c).isSome then (c, .busy)
  else if (o = 4 ∨ o = 0x10) ∧ 16384 < v % 32768 then (c, .range)
  else if o = 0x18 ∧ v.testBit 31 then teGo t (v / 65536 % 4) (v % 65536) c
  else plainWrite addr v c

/-- R463: one word written under the rules of its register's home chapter. -/
def writeWord (who : Writer) (addr v : Nat) (c : Chip) : Chip × Status :=
  let go := v.testBit 31
  if inAperture addr then apertureWrite (addr - 0x1C8000) v c
  else if inBuffer addr then windowWrite (addr - 0x194000) v c
  else match fieldsAt addr with
    | [] => (c, .addr)
    | (f, i) :: _ =>
      match f.base with
      | 0x10004 => pwrRequest (v % 8) c
      | 0x20020 => dlrCommitWrite (v % 128) (v.testBit 7) c
      | 0x40050 => romAddrWrite (v / 4096 % 16) (v % 1024) c
      | 0x41004 => dlyWrite i (v % 16384) c
      | 0x80090 => cptWrite i (v / 2 ^ 20) c
      | 0x100050 => offerWrite i (v % 65536) c
      | 0x100054 => bayCmdWrite i (v % 256) c
      | 0x100060 => pwmShWrite who i (v / 65536 % 4) (v % 2048) c
      | 0x100064 => pwmCmtWrite who i (v.testBit 0) c
      | 0x120010 => if c.upd.pause then (c, .ok) else prtClrWrite (v % 32) (BitVec.ofNat 6 (v / 256)) (v.testBit 7) c
      | 0x121004 => ianWrite i (v % 4096) c
      | 0x140004 => lnkTestWrite go c
      | 0x141004 => attWrite i (v % 64) c
      | 0x142008 => attWrite 16 (v % 64) c
      | 0x142020 => ccmdWrite (v % 256) c
      | 0x160010 => lswClear (v % 64) go false c
      | 0x160014 => lswTestWrite go c
      | 0x160100 => lineCommand who i (v / 2 ^ 30) (v % 1024) (v / 65536 % 1024) c
      | 0x161008 => classCommand who i (v % 8) c
      | 0x17100C => speedCommand who i (v / 65536 % 4) (v % 1024) c
      | 0x180018 => nfcVerdict (v / 65536) (v / 256 % 4) (v / 16 % 16) (v.testBit 0) c
      | 0x180044 => tagCmdWrite go (v / 256 % 4) (v % 256) c
      | 0x180080 => if getF Reg.NFC_CFG_TAG_EN 0 c = 1 then plainWrite addr v c else (c, .state)
      | 0x190004 => ectlWrite who v c
      | 0x190010 => if v.testBit 0 then lcmdFull c else (c, .ok)
      | 0x1B0008 => netOffWrite who (v % 4) c
      | 0x1C0030 => ecctWrite addr v c
      | 0x1C0040 => apbaseWrite v c
      | 0x1C0050 => if go then capGo (v.testBit 30) (v / 65536 % 32) (v % 32768) c else plainWrite addr v c
      | 0x1C0080 => if go then cqPop c else (c, .ok)
      | _ => if 0x1C0200 ≤ f.base ∧ f.base < 0x1C0220 then teWrite i (f.base - 0x1C0200) addr v c else plainWrite addr v c

/-- R463: words applied in ascending order up to the first that fails: its status and the number applied. -/
def writeWords (who : Writer) : List (Nat × Nat) → Nat → Chip → Chip × Status × Nat
  | [], n, c => (c, .ok, n)
  | (a, v) :: rest, n, c =>
    let r := writeWord who a v c
    if r.2 = .ok then writeWords who rest (n + 1) r.1 else (r.1, r.2, n)

/-- R9, R96: a write of one register by a session or by firmware. -/
def registerWrite (who : Writer) (addr v : Nat) (c : Chip) : Chip :=
  let host : Bool := match who with
    | .session _ => true
    | .firmware => false
  if host ∧ c.pwr.phase = .bare then { c with reply := .bare }
  else if !addrOk addr ∨ !mayWrite who addr then { c with reply := .addr }
  else asWriter who (writeWord who addr v) c

/-! ### DBG_STAT and MEM_AP, R442 and R443 -/

/-- R443: an access of the memory access port within the rights of the level. -/
def memAp (a : ApAccess) (c : Chip) : Chip :=
  let full := debugLevel c == 2
  if debugLevel c = 0 then tapBypass 0x30 c
  else if !kcUp c then tapOut 0x30 [] c
  else match a with
    | .readReg addr =>
      if addrOk addr then
        let r := readWord false addr c
        tapOut 0x30 ((r.2.map (Byte.le 4)).getD []) r.1
      else tapOut 0x30 [] c
    | .readMem dram addr =>
      let r := apMemRead dram addr c
      tapOut 0x30 r.2 r.1
    | .writeReg addr v => tapOut 0x30 [] (if full then registerWrite .firmware addr (v % 2 ^ 32) c else c)
    | .writeMem dram addr v => tapOut 0x30 [] (if full then apMemWrite dram addr v c else c)

def execDbgStat (s : State) : Host.Outcome State Fault Refusal :=
  s.run (tapKc 0x14 id fun c => Byte.le 4 (shownWord 0x1A0010 c) ++ Byte.le 4 (shownWord 0x1A0014 c))
def execMemAp (access : ApAccess) (s : State) : Host.Outcome State Fault Refusal := s.run (memAp access)
def execHstCtlWrite (who : Writer) (v : BitVec 32) (s : State) : Host.Outcome State Fault Refusal :=
  s.run (asWriter who (netOffWrite who (v.toNat % 4)))
def execRegisterWrite (who : Writer) (addr v : BitVec 32) (s : State) : Host.Outcome State Fault Refusal :=
  s.run (registerWrite who addr.toNat v.toNat)

end Sys2Proof.Machine
end

