-- ==== Sys2Proof/Machine/Host.lean ====
section
/-!
DEFINITION. The host ports (chapter 17): connections and sessions, frames and their checks, the register window, bulk
transfers, event records and the Auction.
-/

namespace Sys2Proof.Machine
open Sys2Proof

/-! ### Ports and keys, R453-R456, R473 -/

/-- R455, R456: frames of a session are encrypted. -/
def secured (s : Nat) (c : Chip) : Bool :=
  c.pwr.phase != .bare && (s == 4 || (s == 5 && hostU8 2 0 c == 1) || (s < 4 && (sess s c).xport == 2))

/-- R473, R474: the port of sessions 4 and 5 runs. -/
def serialUp (s : Nat) (c : Chip) : Bool := if s = 4 then spiUp c else hostUp c

/-- R473: client entries as their keys load when the host ports start: one that is absent, does not unwrap or is not of KIND 4
or 5 is unusable until the next start. -/
def hostStart (c : Chip) : Chip :=
  (List.range (cardU8 0x00A0 0 9 0 c)).foldl (fun c i =>
    let id := cardU16 0x00A0 0 (0x24 + 4 * i) 0 c
    let c := keyLoad id c
    let ok := match keyFind id c with
      | some b => b.kind == 4 || b.kind == 5
      | none => false
    if ok then c else { c with hst := { c.hst with badKey := c.hst.badKey ||| BitVec.ofNat 8 (2 ^ i) } }) c

/-- A session opens. -/
def sessOpen (s : Nat) (x : Session) (c : Chip) : Chip :=
  sessPut s { x with state := 2, last := c.backup.ms, cursor := getF Reg.HST_EVTSEQ_SEQ 0 c + 1 } c

def authFail (c : Chip) : Chip := flagF Reg.HST_STAT_AUTH_FAIL 0 0 Reg.HST_STAT_EVT_CNT 0 c

/-- R454, R456: the TLS handshake of a connection on a port passes with the client key of an entry; bare mode takes any. -/
def tlsPasses (tlsOk : Bool) (client : Option (Fin 8)) (c : Chip) : Bool :=
  if c.pwr.phase = .bare then tlsOk && devKeyOk c
  else tlsOk && keyHeld 0x40 c && match client with
    | some i => i.val < cardU8 0x00A0 0 9 0 c && !c.hst.badKey.getLsbD i.val
    | none => false

/-- R453, R454: a TCP connection on KHP_PORT. A fifth is closed before TLS. -/
def netConnect (p : Nat) (tlsOk : Bool) (client : Option (Fin 8)) (c : Chip) : Chip :=
  if !portUp p c then c
  else match freeNet c with
    | none => c
    | some s =>
      if !tlsPasses tlsOk client c then authFail c
      else if c.pwr.phase = .bare then sessOpen s { xport := p, rank := 1 } c
      else
        let i := match client with
          | some i => i.val
          | none => 15
        sessOpen s { xport := p, client := i, rank := cardU8 0x00A0 0 (0x26 + 4 * i) 0 c } c

/-- R326, R453: the TCP side of a network or relayed session closes. -/
def tcpClose (s : Nat) (c : Chip) : Chip := if (sess s c).state = 0 then c else endSession s c

/-! ### Frames, R457-R459 -/

/-- R459: a frame is discarded; one whose GCM tag fails sets AUTH_FAIL. -/
def frameDiscard (s : Nat) (tag : Bool) (c : Chip) : Chip :=
  let c := addSat Reg.HST_SCNT_ERR s 65535 1 (flagF Reg.HST_STAT_FRAME_ERR 0 0 Reg.HST_STAT_EVT_CNT 0 c)
  if tag then authFail c else c

/-- R459: a session over TCP closes because of a frame. -/
def frameClose (s : Nat) (c : Chip) : Chip := endSession s (flagF Reg.HST_STAT_FRAME_ERR 0 0 Reg.HST_STAT_EVT_CNT 0 c)

/-- R459: MAGIC or LEN fails. -/
def unframed (h : FrameHead) : Bool := h.magic.toNat != 0x4B48 || 1048576 < h.len.toNat

def requestOf (h : FrameHead) : Request := { sess := h.sess, tag := h.tag }

/-- R457, R459: a frame of type `type` arrives on an open session; `f` acts on one that passes every check. -/
def frameRx (type : Nat) (h : FrameHead) (f : Request → Chip → Chip) : Chip → Chip :=
  let s := h.sess.val
  onPort s fun c =>
    let x := sess s c
    let out := h.session.toNat != s || h.seq.toNat != x.rxSeq + 1
    let pass := fun (c : Chip) =>
      let c := frameTake s c
      if h.version.toNat ≠ 1 then respond type (requestOf h) .version [] c else f (requestOf h) c
    if s < 4 then
      if x.state = 0 then c
      else if x.rxSeq = 0xFFFFFFFF then endSession s c
      else if unframed h ∨ out ∨ x.state ≠ 2 then frameClose s c
      else if secured s c ∧ !h.authOk then frameDiscard s true c
      else pass c
    else if !serialUp s c then c
    else if x.state = 2 ∧ x.rxSeq = 0xFFFFFFFF then endSession s (frameDiscard s false c)
    else if unframed h ∨ h.got ≠ h.len.toNat ∨ x.state ≠ 2 ∨ out then frameDiscard s false c
    else if !h.authOk then frameDiscard s (secured s c) c
    else pass c

/-! ### OPEN, CLOSE, KEEPALIVE, R455, R456, R458 -/

/-- R468: the rank of a session, but for a direct network session. -/
def serialRank (s : Nat) (c : Chip) : Nat :=
  if c.pwr.phase = .bare then 1
  else if s = 4 then cardU8 0x00A0 0 6 5 c
  else if s = 5 then cardU8 0x00A0 0 7 15 c
  else cardU8 0x00A0 0 8 0 c

/-- R455: the key of a session, from SPI_HOST, Rh and Rd. -/
def sessionKey (ikm rh rd : List Nat) : List Nat := hkdf32 ikm (rh ++ rd) [0x4B, 0x48, 0x50, 0x2D, 0x53, 0x50, 0x49]

/-- R455: the proof of the device: bytes 0-15 of the HMAC over "KHP-D". -/
def openProof (key : List Nat) : List Nat := (hmac256 key [0x4B, 0x48, 0x50, 0x2D, 0x44]).take 16

/-- R455, R456: an OPEN that passes the checks of a frame, its session free or opening. -/
def openTake (rq : Request) (rh : List Nat) (c : Chip) : Chip :=
  let s := rq.sess.val
  let x : Session := { state := 2, xport := if s < 4 then 2 else 3, rank := serialRank s c, relay := (sess s c).relay }
  let up := fun (data : List Nat) (c : Chip) => respond 1 rq .ok data (frameTake s (sessOpen s x c))
  if rh.length ≠ 16 then respond 1 rq .lenRange [] c
  else if !secured s c then
    if rh.all (· == 0) then up (List.replicate 16 0) c else respond 1 rq .range [] c
  else match keyFind 0x31 c with
    | none => respond 1 rq .sig [] (authFail c)
    | some b =>
      let rd := Byte.le 16 (Config.openRandom c.mem.free).toNat
      up (rd ++ openProof (sessionKey b.mat rh rd)) { c with mem := { c.mem with free := c.mem.free + 1 } }

/-- R453, R455, R474: an OPEN frame. One on a port that has a session closes that session first. After a FULL grant no session
opens but an unencrypted one on the service port. -/
def openFrame (h : FrameHead) (rh : List Nat) : Chip → Chip :=
  let s := h.sess.val
  onPort s fun c =>
    let x := sess s c
    let out := h.session.toNat != 0xFF || h.seq.toNat != 1
    if s < 4 then
      if x.state = 0 then c
      else if x.state ≠ 1 ∨ unframed h ∨ out then frameClose s c
      else if h.version.toNat ≠ 1 then respond 1 (requestOf h) .version [] c
      else openTake (requestOf h) rh c
    else if !serialUp s c then c
    else if unframed h ∨ h.got ≠ h.len.toNat ∨ out ∨ (s = 5 ∧ !h.authOk) then frameDiscard s false c
    else if h.version.toNat ≠ 1 then respond 1 (requestOf h) .version [] c
    else
      let c := sessPut s {} (endSession s c)
      if c.sec.full ∧ secured s c then respond 1 (requestOf h) .state [] c else openTake (requestOf h) rh c

/-- R458: CLOSE is acknowledged and the session closes; the SPI host reads the acknowledgement afterwards. -/
def closeFrame (h : FrameHead) : Chip → Chip :=
  frameRx 2 h fun rq c =>
    let s := rq.sess.val
    if h.len ≠ 0 then respond 2 rq .lenRange [] c
    else
      let c := respond 2 rq .ok [] c
      let held := (sess s c).tx
      let c := endSession s c
      if s = 4 then sessPut 4 { tx := held } c else c

/-- R470: KEEPALIVE. -/
def keepaliveFrame (h : FrameHead) : Chip → Chip :=
  frameRx 3 h fun rq c =>
    if !Acts.here .bare c then respond 3 rq .bare [] c
    else respond 3 rq (if h.len = 0 then .ok else .lenRange) [] c

/-! ### READ and WRITE, R462 and R463 -/

/-- R96: the blocks that bare mode lets read: DEV, PWR, SEC and UPD. -/
def bareBlock (addr : Nat) : Bool := [0x00, 0x01, 0x1A, 0x1D].contains (addr / 65536)

/-- The addresses of a READ or WRITE. -/
def spanOf (addr count : Nat) : List Nat := (List.range count).map fun k => addr + 4 * k

/-- R462: the status and the words of a READ. DESIGN CHOICE (log entry 47): in bare mode R96's E_BARE is judged before the length
and the addresses. -/
def readFrame (s addr count : Nat) (c : Chip) : Chip × Status × List Nat :=
  if c.pwr.phase = .bare ∧ (loaderRuns c ∨ !bareBlock addr) then (c, .bare, [])
  else if 256 < count then (c, .lenRange, [])
  else if (spanOf addr count).any fun a => !addrOk a then (c, .addr, [])
  else
    let r := readWords (isDeclarer s c) (spanOf addr count) c
    match r.2 with
    | some ws => (r.1, .ok, ws.flatMap (Byte.le 4))
    | none => (r.1, .crc, [])

def readRx (h : FrameHead) (addr count : Nat) : Chip → Chip :=
  frameRx 0x10 h fun rq c =>
    if h.len.toNat ≠ 8 then respond 0x10 rq .lenRange [] c
    else
      let r := readFrame rq.sess.val addr count c
      respond 0x10 rq r.2.1 r.2.2 r.1

/-- R462, R463: the status of a WRITE and the number of words applied. DESIGN CHOICE (log entry 47): E_BARE is judged before the
length and the addresses. -/
def writeFrame (s : Fin 6) (addr count : Nat) (words : List Nat) (c : Chip) : Chip × Status × Nat :=
  if c.pwr.phase = .bare then (c, .bare, 0)
  else if 256 < count ∨ words.length ≠ count then (c, .lenRange, 0)
  else if (spanOf addr count).any fun a => !addrOk a || !mayWrite (.session s) a then (c, .addr, 0)
  else if !isDeclarer s.val c then (c, .notDeclarer, 0)
  else writeWords (.session s) ((spanOf addr count).zip words) 0 c

def writeRx (h : FrameHead) (addr count : Nat) (words : List Nat) : Chip → Chip :=
  frameRx 0x11 h fun rq c =>
    let r := writeFrame rq.sess addr count words c
    respond 0x11 rq r.2.1 (Byte.le 4 r.2.2) r.1

/-- R458, R464: frame types and command codes that exist. -/
def knownType (t : Nat) : Bool := [0x01, 0x02, 0x03, 0x10, 0x11, 0x20, 0x40, 0x41, 0x42].contains t
def knownCode (k : Nat) : Bool :=
  (1 ≤ k && k ≤ 7) || (0x10 ≤ k && k ≤ 0x12) || (0x20 ≤ k && k ≤ 0x22) || k == 0x30 || k == 0x31 ||
    (0x40 ≤ k && k ≤ 0x44) || k == 0x50 || k == 0x51

/-- R458, R464: a request of an unknown type, or a COMMAND with an unknown code, is answered with E_TYPE; any other request is
not this row's. -/
def unknownRx (h : FrameHead) (type code : Nat) (c : Chip) : Chip :=
  if type = 0x20 ∧ !knownCode code ∨ !knownType type then frameRx type h (fun rq c => respond type rq .typ [] c) c
  else c

/-! ### Bulk transfers, R465 -/

/-- The commands marked "by bulk", and where they act. -/
def bulkActs (code : Nat) (c : Chip) : Option Acts :=
  match code with
  | 0x10 => some .bare
  | 0x30 => some .run
  | 0x50 => some (if loaderRuns c then .loader else .run)
  | _ => none

/-- R465: the checks at BULK_OPEN. -/
def bulkAdmit (s code total arg : Nat) (c : Chip) : Status :=
  let own := match code with
    | 0x10 => deckAdmit arg total c
    | 0x30 => if total < 96 ∨ 1048576 < total then .lenRange else if arg ≠ 0 then .range else .ok
    | _ => fwAdmit s arg total c
  let taken := (List.range 6).any fun t => match (sess t c).bulk with
    | some b => t == s || b.code == code
    | none => false
  match own with
  | .ok => if taken then .busy else .ok
  | e => e

def bulkOpen (rq : Request) (code total arg : Nat) (c : Chip) : Chip :=
  let s := rq.sess.val
  match bulkActs code c with
  | none => hostReq 0x40 rq false .loader (fun c => (c, .typ, [])) c
  | some acts =>
    hostReq 0x40 rq true acts (fun c =>
      match bulkAdmit s code total arg c with
      | .ok =>
        let b : Bulk := { code := code, total := total, arg := arg, last := c.backup.ms }
        let c := sessPut s { sess s c with bulk := some b } c
        (if code = 0x50 then fwOpen arg c else c, .ok, [])
      | e => (c, e, [])) c

def bulkData (rq : Request) (off : Nat) (data : List Nat) : Chip → Chip :=
  let s := rq.sess.val
  hostReq 0x41 rq false .loader fun c =>
    match (sess s c).bulk with
    | none => (c, .state, [])
    | some b =>
      if off ≠ b.got ∨ b.total < b.got + data.length then (bulkAbort s c, .range, [])
      else
        let b := { b with data := data :: b.data, got := b.got + data.length, last := c.backup.ms }
        let c := sessPut s { sess s c with bulk := some b } c
        (if b.code = 0x50 then fwData b.arg data c else c, .ok, [])

/-- R465: the command of a completed transfer. -/
def bulkRun (b : Bulk) (data : List Nat) (env : BulkEnv) (c : Chip) : Chip × Status :=
  match b.code with
  | 0x10 => deckLoad b.arg data env.sigOk c
  | 0x30 => credDelta data env.sigOk env.journalOk c
  | _ => fwClose b.arg env.readOk c

def bulkClose (rq : Request) (digest : List Nat) (env : BulkEnv) : Chip → Chip :=
  let s := rq.sess.val
  hostReq 0x42 rq false .loader fun c =>
    match (sess s c).bulk with
    | none => (c, .state, [])
    | some b =>
      if b.got < b.total ∨ digest.length ≠ 32 then (c, .lenRange, [])
      else
        let data := b.data.reverse.flatten
        let c := sessPut s { sess s c with bulk := none } c
        if sha256 data ≠ digest then (c, .crc, [])
        else
          let r := bulkRun b data env c
          (r.1, r.2, [])

/-- R465: tBULK, 30 s without BULK_DATA. -/
def bulkTimeout (s : Nat) (c : Chip) : Chip :=
  match (sess s c).bulk with
  | none => c
  | some b => if c.backup.ms < b.last + 30000 then c else bulkAbort s c

/-! ### RESTART, the Auction and ownership, R464, R468-R471 -/

/-- R464: RESTART is refused. -/
def restartRefused (c : Chip) : Status := if bayBusy c ∨ getF Reg.PWR_PFW_ACTIVE 0 c = 1 then .busy else .ok

/-- R469: whether the service session may bid. -/
def serviceBids (c : Chip) : Bool := inService c || match c.pwr.bidOpen with
  | some t => c.backup.ms < t
  | none => false

/-- An Auction begins: no session has bid. -/
def auctionStart (c : Chip) : Chip :=
  { c with hst := { c.hst with auct := some c.backup.ms, bids := 0
                               sess := c.hst.sess.map fun x => { x with bid := none } } }

/-- R469: BID. -/
def bid (s : Nat) (c : Chip) : Chip × Status :=
  if c.hst.decl.isSome ∨ (sess s c).bid.isSome then (c, .busy)
  else if (sess s c).rank = 0 then (c, .state)
  else if s = 5 ∧ !serviceBids c then (c, .state)
  else
    let c := if c.hst.auct.isNone then auctionStart c else c
    let n := c.hst.bids
    (sessPut s { sess s c with bid := some n } { c with hst := { c.hst with bids := n + 1 } }, .ok)

/-- R469: the session that wins: the highest rank, and of equal ranks the earliest bid. -/
def auctionWinner (c : Chip) : Option Nat :=
  (List.range 6).foldl (fun best s =>
    let x := sess s c
    match x.bid with
    | none => best
    | some n => match best with
      | none => some s
      | some b =>
        let y := sess b c
        if y.rank < x.rank ∨ (x.rank = y.rank ∧ n < y.bid.getD 0) then some s else some b) none

/-- R469: tAUCT has passed. -/
def auctionClose (c : Chip) : Chip :=
  match c.hst.auct with
  | none => c
  | some t =>
    if c.backup.ms < t + 1000 then c
    else
      let w := auctionWinner c
      let c := { c with hst := { c.hst with auct := none, bids := 0, decl := w
                                            sess := c.hst.sess.map fun x => { x with bid := none } } }
      match w with
      | none => c
      | some _ =>
        addSat Reg.HST_LIFE_AUCTIONS 0 65535 1 (flagF Reg.HST_STAT_AUCTION 0 0 Reg.HST_STAT_EVT_CNT 0 c)

/-- R470: HANDOVER. -/
def handover (t : Nat) (c : Chip) : Chip × Status :=
  if 5 < t then (c, .range)
  else if (sess t c).state ≠ 2 ∨ (sess t c).rank = 0 ∨ (t = 5 ∧ !serviceBids c) then (c, .state)
  else ({ c with hst := { c.hst with target := some (t, c.backup.ms) } }, .ok)

/-- R470, R471: ACCEPT before tHOVER has passed from the session named; any other makes the handover lapse. -/
def accept (s : Nat) (c : Chip) : Chip × Status :=
  let lapsed := { c with hst := { c.hst with target := none } }
  match c.hst.target with
  | none => (c, .state)
  | some (t, at_) =>
    if t ≠ s ∨ at_ + 2000 ≤ c.backup.ms then (lapsed, .state)
    else
      let c := match c.hst.decl with
        | some d => if d = s then lapsed else bulkAbort d lapsed
        | none => lapsed
      (flagF Reg.HST_STAT_HANDOVER 0 0 Reg.HST_STAT_EVT_CNT 0 { c with hst := { c.hst with decl := some s } }, .ok)

/-- R470: tHOVER has passed. -/
def handoverExpiry (c : Chip) : Chip :=
  match c.hst.target with
  | none => c
  | some (_, t) => if c.backup.ms < t + 2000 then c else { c with hst := { c.hst with target := none } }

/-- R470, R474: tKEEP has passed without a valid frame of the Declarer; an Auction begins. -/
def declarerLapse (c : Chip) : Chip :=
  match c.hst.decl with
  | none => c
  | some s =>
    if inStandby c ∨ c.backup.ms < (sess s c).last + 10000 then c
    else
      let c := auctionStart (declDrop c)
      addSat Reg.HST_LIFE_LAPSES 0 65535 1 (flagF Reg.HST_STAT_LAPSE 0 0 Reg.HST_STAT_EVT_CNT 0 c)

/-- R453, R473: IDLE_S. -/
def idleLimit (c : Chip) : Nat :=
  let v := hostU8 0xA 120 c + 256 * hostU8 0xB 0 c
  if v = 0 then 120 else v

/-- R453, R474: IDLE_S has passed without a valid frame. -/
def sessionIdle (s : Nat) (c : Chip) : Chip :=
  if (sess s c).state = 0 ∨ inStandby c ∨ c.backup.ms < (sess s c).last + 1000 * idleLimit c then c else endSession s c

/-! ### Event records and certificate replies, R464, R466 -/

/-- R466: EVT_READ: the records skipped, then whole records up to MAX bytes. -/
def evtRead (s fromSeq room : Nat) (c : Chip) : Chip × Status × List Nat :=
  if 1048576 < room then (c, .lenRange, [])
  else
    let x := sess s c
    let oldest := match c.hst.ring.getLast? with
      | some r => r.seq
      | none => getF Reg.HST_EVTSEQ_SEQ 0 c + 1
    let cursor := if fromSeq = 0 then x.cursor else fromSeq
    let lost := oldest - cursor
    let first := if fromSeq = 0 then oldest else max fromSeq oldest
    let r := ringRead first (min room 1048568) c.hst.ring
    let c := sessPut s { x with cursor := r.2.2 } c
    let c := if lost = 0 then c else flagF Reg.HST_STAT_EVT_LOST 0 0 Reg.HST_STAT_EVT_CNT 0 c
    (c, .ok, Byte.le 4 lost ++ r.2.1.flatMap EventRec.data)

/-- R466: EVT_SUB; the service port receives records through EVT_READ alone. -/
def evtSub (s arg : Nat) (c : Chip) : Chip × Status :=
  if 1 < arg then (c, .range)
  else if s = 5 ∧ arg = 1 then (c, .state)
  else (sessPut s { sess s c with sub := arg == 1 } c, .ok)

/-- R464, R302: CERT_REPLY answers an open certificate request. -/
def certReply (id : Nat) (c : Chip) : Chip × Status :=
  if c.lnk.certs.any fun r => r.1 == id then (certTimeout id c, .ok) else (c, .state)

/-! ### The SPI host port, R460 -/

/-- R460, R66: a transaction on the SPI host port; in STANDBY its first edge wakes the device. -/
def spiRx (f : Chip → Chip) : Chip → Chip := onPort 4 fun c => if spiUp c then f (wakeIrq 4 false c) else c

/-- R460, R474: HS_IRQ_N is low while a frame is held for the host, and after a wake by the port. -/
def hsIrqLow (c : Chip) : Bool := !(sess 4 c).tx.isEmpty || c.hst.woke

/-- R460: a READ transaction; `whole` says that it reached the frame's last byte. -/
def spiRead (whole : Bool) : Chip → Chip :=
  spiRx fun c =>
    let x := sess 4 c
    match x.tx with
    | [] => { c with hst := { c.hst with miso := [0xFF] } }
    | f :: rest =>
      let c := if whole then sessPut 4 { x with tx := rest } c else c
      { c with hst := { c.hst with miso := 0 :: f } }

/-- R460: a STATUS transaction: RX_FREE and TX_PEND. -/
def spiStatus : Chip → Chip :=
  spiRx fun c => { c with hst := { c.hst with miso := Byte.le 2 4 ++ Byte.le 2 (sess 4 c).tx.length } }

/-! ### The rows of the table -/

def execNetConnect (p : Fin 2) (tlsOk : Bool) (client : Option (Fin 8)) (s : State) : Host.Outcome State Fault Refusal :=
  s.run (netConnect p.val tlsOk client)
def execOpenSess (h : FrameHead) (rh : List Byte) (s : State) : Host.Outcome State Fault Refusal :=
  s.run (openFrame h (Byte.nats rh))
def execClose (h : FrameHead) (s : State) : Host.Outcome State Fault Refusal := s.run (closeFrame h)
def execKeepalive (h : FrameHead) (s : State) : Host.Outcome State Fault Refusal := s.run (keepaliveFrame h)
def execRead (h : FrameHead) (addr count : BitVec 32) (s : State) : Host.Outcome State Fault Refusal :=
  s.run (readRx h addr.toNat count.toNat)
def execWrite (h : FrameHead) (addr count : BitVec 32) (words : List (BitVec 32)) (s : State) :
    Host.Outcome State Fault Refusal := s.run (writeRx h addr.toNat count.toNat (words.map (·.toNat)))
def execUnknownRequest (h : FrameHead) (type : BitVec 8) (code : BitVec 16) (s : State) :
    Host.Outcome State Fault Refusal := s.run (unknownRx h type.toNat code.toNat)
def execBulkOpen (rq : Request) (code : BitVec 16) (total arg : BitVec 32) (s : State) :
    Host.Outcome State Fault Refusal := s.run (bulkOpen rq code.toNat total.toNat arg.toNat)
def execBulkData (rq : Request) (off : BitVec 32) (data : List Byte) (s : State) : Host.Outcome State Fault Refusal :=
  s.run (bulkData rq off.toNat (Byte.nats data))
def execBulkClose (rq : Request) (digest : List Byte) (env : BulkEnv) (s : State) : Host.Outcome State Fault Refusal :=
  s.run (bulkClose rq (Byte.nats digest) env)
def execBulkTimeout (k : Fin 6) (s : State) : Host.Outcome State Fault Refusal := s.run (bulkTimeout k.val)
def execRestart (rq : Request) (s : State) : Host.Outcome State Fault Refusal :=
  s.run (restartCmd rq .loader restartRefused id)
def execBid (rq : Request) (s : State) : Host.Outcome State Fault Refusal :=
  s.run (statusCmd rq false .loader (bid rq.sess.val))
def execHandover (rq : Request) (target : Nat) (s : State) : Host.Outcome State Fault Refusal :=
  s.run (statusCmd rq true .bare (handover target))
def execAccept (rq : Request) (s : State) : Host.Outcome State Fault Refusal :=
  s.run (statusCmd rq false .bare (accept rq.sess.val))
def execRelease (rq : Request) (s : State) : Host.Outcome State Fault Refusal :=
  s.run (statusCmd rq true .bare fun c => (declDrop c, .ok))
def execEvtRead (rq : Request) (fromSeq room : BitVec 32) (s : State) : Host.Outcome State Fault Refusal :=
  s.run (hostCmd rq false .bare (evtRead rq.sess.val fromSeq.toNat room.toNat))
def execEvtSub (rq : Request) (arg : Nat) (s : State) : Host.Outcome State Fault Refusal :=
  s.run (statusCmd rq false .bare (evtSub rq.sess.val arg))
def execCertReply (rq : Request) (reqId : BitVec 32) (_msg : List Byte) (s : State) : Host.Outcome State Fault Refusal :=
  s.run (statusCmd rq true .run (certReply reqId.toNat))
def execSpiRead (whole : Bool) (s : State) : Host.Outcome State Fault Refusal := s.run (spiRead whole)
def execSpiStatus (s : State) : Host.Outcome State Fault Refusal := s.run spiStatus
def execSessionIdleTimeout (k : Fin 6) (s : State) : Host.Outcome State Fault Refusal := s.run (sessionIdle k.val)
def execAuctionClose (s : State) : Host.Outcome State Fault Refusal := s.run auctionClose
def execHandoverExpiry (s : State) : Host.Outcome State Fault Refusal := s.run handoverExpiry
def execDeclarerLapse (s : State) : Host.Outcome State Fault Refusal := s.run declarerLapse
def execTcpConnectionClose (k : Fin 4) (s : State) : Host.Outcome State Fault Refusal := s.run (tcpClose k.val)
def execWallSet (rq : Request) (body : List Byte) (sigOk : Bool) (s : State) : Host.Outcome State Fault Refusal :=
  s.run (statusCmd rq true .run (wallSet rq.sess.val (Byte.nats body) sigOk))
def execTariffSet (rq : Request) (body : List Byte) (sigOk : Bool) (s : State) : Host.Outcome State Fault Refusal :=
  s.run (statusCmd rq true .run (tariffSet rq.sess.val (Byte.nats body) sigOk))
def execBillSnap (rq : Request) (index : Nat) (s : State) : Host.Outcome State Fault Refusal :=
  s.run (hostCmd rq false .run fun c => (c, (billSnap index c).2, (billSnap index c).1))
def execCredDelta (rq : Request) (bytes : List Byte) (sigOk journalOk : Bool) (s : State) :
    Host.Outcome State Fault Refusal := s.run (bulkCmd rq .run (credDelta (Byte.nats bytes) sigOk journalOk))

end Sys2Proof.Machine
end

