-- ==== Sys2Proof/Machine/Start.lean ====
section
/-!
DEFINITION. The start sequence (R100): reset cause and backup contents, root and memories, firmware, the choice of the deck and
its trump card, the cards applied, and the reconciliation of the legal store.
-/

namespace Sys2Proof.Machine
open Sys2Proof

/-! ### Reset cause and backup contents, R68, R69, R77 -/

/-- R68: the backup contents are lost: every backup field reads zero, and meter time resumes from the last value of the legal
store. The tamper inputs are taken as they stand. -/
def backupLost (inputs : BitVec 5) (c : Chip) : Chip :=
  setF Reg.PWR_BKSTAT_BK_LOST 0 1 { c with
    bregs := []
    backup := {
      ms := c.store.lastMt + 1, wallLostAt := c.store.lastMt + 1, lost := true, gap := true, cut := true
      inputs := Vector.ofFn fun k => ({ level := inputs.getLsbD k.val } : TamperIn) } }

/-- R77: the code that CAUSE takes at a start sequence. -/
def startCause (lost : Bool) (c : Chip) : Nat :=
  if lost then 0 else if c.pwr.holdPassed then 1 else c.pwr.firstCause.getD 2

/-- R59: BCLK_FAULT of the reset before this start; R62: the supplies as they stand. -/
def startStatus (c : Chip) : Chip :=
  let c := if c.pwr.bclkFlag then flagF Reg.PWR_CLKSTAT_BCLK_FAULT 0 0 Reg.PWR_CLKSTAT_EVT_CNT 0 c else c
  let c := setF Reg.PWR_CLKSTAT_MT_MCLK 0 c.pwr.tclkGone.toNat (setF Reg.DEV_BRIDGE_UP 0 1 c)
  let c := setF Reg.PWR_SUPSTAT_VBB_OK 0 c.pwr.vbbOk.toNat (setF Reg.PWR_SUPSTAT_VSTO_OK 0 c.pwr.vstoOk.toNat c)
  setF Reg.PWR_SUPSTAT_VCOL_OK 0 c.pwr.vcolOk.toNat (setF Reg.PWR_BKSTAT_RTC_VALID 0 c.backup.wallValid.toNat c)

/-- R67-R69, R77: the backup contents are checked and the cause of the reset recorded. -/
def startBackup (env : StartEnv) (c : Chip) : Chip :=
  let lost := !env.retentionOk || c.pwr.porFired
  let cause := startCause lost c
  let c := if lost then backupLost env.inputs c
    else if c.pwr.holdPassed then { c with backup := { c.backup with cut := true } }
    else c
  let c := if c.backup.tclkStop then
      setF Reg.PWR_BKSTAT_MTIME_GAP 0 1 (wallStop { c with backup := { c.backup with tclkStop := false, gap := true } })
    else c
  let c := startStatus (rstRecord cause c)
  { c with
    pwr := { c.pwr with porFired := false, holdPassed := false, firstCause := none, bclkFlag := false, startAt := c.backup.ms }
    bridge := {} }

/-! ### Root, counters and memories, R424-R426, R434, R441, R481, R482 -/

/-- R424, R425, R434, R441: ROOT is regenerated, the device key generated at the first start in BLANK, the key counter taken
from its fuses; a retired device zeroes its key region. -/
def startKeys (pufOk : Bool) (c : Chip) : Chip :=
  let c := { c with sec := { c.sec with root := pufOk, full := false, slots := [], drawn := c.sec.drawn + 1 } }
  let c := setF Reg.SEC_STAT_PUF_FAIL 0 (!pufOk).toNat c
  let c := if lifecycle c = 0 ∧ pufOk then { c with sec := { c.sec with devKey := true } } else c
  let c := if lifecycle c = 4 then { c with sec := { c.sec with entries := [] } } else c
  let ctr := getF Reg.SEC_KEYCTR_CTR 0 c
  if getF Reg.SEC_KEYCTR_BACKUP 0 c = ctr then c
  else setF Reg.SEC_KEYCTR_BACKUP 0 ctr (flagF Reg.SEC_STAT_CTR_MISM 0 0 Reg.SEC_STAT_EVT_CNT 0 c)

/-- R481, R482: the spares of the SRAM, and the training of the DRAM. -/
def startMemory (ok size4 : Bool) (c : Chip) : Chip :=
  kittyStart (setF Reg.MEM_DSTAT_READY 0 ok.toNat (setF Reg.MEM_DSTAT_TRAIN_FAIL 0 (!ok).toNat
    (setF Reg.MEM_DSTAT_SIZE4 0 (ok && size4).toNat c)))

/-! ### The choice of a deck, R93, R95, R98 -/

/-- R25, R26, R93: the HSL refuses a trump card that does not arrive intact, or that differs from the recorded digest in FIELD
or once all 16 slots are written. -/
def trumpRefused (intact : Bool) (card : Card) (c : Chip) : Bool :=
  !intact || ((lifecycle c == 2 || 16 ≤ c.sec.digests.length) && recordedDigest c != some (sha256 (cardBytes card)))

/-- R93, R97, R101, R107: the HSL holds the trump card and the deck runs. -/
def deckAccept (slot deckMs : Nat) (d : Deck) (h : Held) (c : Chip) : Chip :=
  let dig := deckDigest slot c
  let c := { c with
    hsl := { c.hsl with trump := some h.p }
    deck := { c.deck with cards := d.map (·.card) }
    sec := { c.sec with mDeck := dig } }
  let c := setF Reg.DEV_TRUMP_STATE_HELD 0 1 (setF Reg.DEV_TRUMP_STATE_CARD_VER 0 h.card.version c)
  let c := (List.range 8).foldl (fun c k => setF Reg.UPD_DECK_DIG_DIGEST k (Byte.u32 dig (4 * k)) c) c
  let c := setF Reg.UPD_DECK_STAT_RUN 0 slot
    (setF Reg.UPD_DECK_STAT_FALLBACK 0 (slot != getF Reg.UPD_DECK_STAT_PREF 0 c).toNat c)
  setF Reg.UPD_DECK_SERIAL_SERIAL 0 (Byte.u32 (((d.one 0x0001).map (·.p)).getD []) 0xC) (setF Reg.UPD_DECK_BOOT_DECK_MS 0 (min 65535 deckMs) c)
/-- R90, R93: a slot is checked and its trump card sent to the HSL; whether its deck runs, and the reason of its rejection. -/
def slotTry (slot : Nat) (env : StartEnv) (c : Chip) : Chip × Nat :=
  match deckCheck slot (if slot = 0 then env.sigA else env.sigB) c with
  | .error r => (deckRecord slot (some r) c, r.reason)
  | .ok d =>
    match d.one 0x0002 with
    | none => (deckRecord slot (some (rejectAt d 5 0)) c, 5)
    | some h =>
      if trumpRefused env.trumpOk h.card c then
        (deckRecord slot (some (rejectAt d 0xC (((d.one 0x7FFF).map (·.idx)).getD 0))) c, 0xC)
      else (deckAccept slot env.deckMs d h (deckRecord slot none c), 0)

/-- R95, R98: the preferred slot, then the other; TC10 once per start where sealed content differs. -/
def deckChoose (env : StartEnv) (c : Chip) : Chip × Bool :=
  let pref := getF Reg.UPD_DECK_STAT_PREF 0 c
  let a := slotTry pref env c
  if a.2 = 0 then (a.1, true)
  else
    let b := slotTry (1 - pref) env a.1
    (if a.2 = 0xE ∨ b.2 = 0xE then tamper 10 0 b.1 else b.1, b.2 == 0)

/-! ### The cards applied, R100 -/

/-- Fields of instance `i` take values of a payload: each with its offset and its size in bytes. -/
def loadFields (p : List Nat) (i : Nat) (l : List (Fld × Nat × Nat)) (c : Chip) : Chip :=
  l.foldl (fun c q => setF q.1 i (Byte.at p q.2.1 q.2.2) c) c

/-- R130: the DEALER card or its defaults. -/
def applyDealer (c : Chip) : Chip :=
  let w := fun (m : Nat) => cardU8 0x00D0 0 m (if m = 4 ∨ m = 6 ∨ m = 7 ∨ m = 8 then 8 else 4) c
  let c := setF Reg.DLR_ARB_SAT 0 (cardU16 0x00D0 0 0x18 4096 c) c
  (List.range 6).foldl (fun c k =>
    setF Reg.DLR_WEIGHT_W0 k (w (4 * k)) (setF Reg.DLR_WEIGHT_W1 k (w (4 * k + 1))
      (setF Reg.DLR_WEIGHT_W2 k (w (4 * k + 2)) (setF Reg.DLR_WEIGHT_W3 k (w (4 * k + 3)) c)))) c

/-- R66, R94: the wake sources of the POWER card. -/
def applyPower (c : Chip) : Chip :=
  let m := cardU16 0x0003 0 6 0xFF c
  [(Reg.PWR_WAKE_PILOT, 0), (Reg.PWR_WAKE_PROX, 1), (Reg.PWR_WAKE_CHAIN, 2), (Reg.PWR_WAKE_SPI, 3), (Reg.PWR_WAKE_SERVICE, 4),
   (Reg.PWR_WAKE_SAFETY, 6)].foldl (fun c q => setF q.1 0 (m.testBit q.2).toNat c) c

/-- R133, R134, R137: a STREAM card. -/
def applyStream (p : List Nat) (c : Chip) : Chip :=
  let s := Byte.u16 p 0
  let c := loadFields p s [
    (Reg.SNS_CFG_SENSOR, 4, 1), (Reg.SNS_CFG_ROLE, 5, 1), (Reg.SNS_CFG_POLE, 7, 1), (Reg.SNS_CFG_CIC_ORDER, 8, 1),
    (Reg.SNS_CFG_MCOMP, 9, 1), (Reg.SNS_CFG_PCOMP, 0xA, 1), (Reg.SNS_CFG_QSEL, 0xB, 1), (Reg.SNS_CFG_INTEG_K, 0xC, 1),
    (Reg.SNS_CFG_HOME_GROUP, 0x14, 2), (Reg.SNS_DLY_DLY, 0x10, 2), (Reg.SNS_DLY_REAL, 0x10, 2)] c
  let bay := Byte.u8 p 6
  let c := setF Reg.SNS_CFG_BAY s (if bay = 0xFF then 0 else bay) (setF Reg.SNS_CFG_NOM60 s (Byte.u8 p 0xD == 60).toNat c)
  let g := s / 16
  setF Reg.SNS_GRP_USED g (getF Reg.SNS_GRP_USED g c + 1)
    (setF Reg.SNS_GRP_MCK_ON g 1 (setF Reg.SNS_GRP_SAMPLE_PH g (Byte.u8 p 0xE) c))

/-- R142, R145: latency and settling of a configured stream, known once every stream is. -/
def applyLatency (c : Chip) : Chip :=
  (List.range 96).foldl (fun c s =>
    if streamOn s c then
      setF Reg.SNS_LATM_LAT s (latMet s c) (setF Reg.SNS_LATP_LAT s (latPrt s c)
        (setF Reg.SNS_SETL_MET s (setlMet s c) (setF Reg.SNS_SETL_PRT s (min 65535 (setlPrt s c)) c)))
    else c) c

/-- R164: an ELEMENT card. -/
def applyElement (p : List Nat) (c : Chip) : Chip :=
  let e := Byte.u16 p 0
  let c := loadFields p e [
    (Reg.MTR_CFG_KIND, 4, 1), (Reg.MTR_CFG_VSTREAM, 5, 1), (Reg.MTR_CFG_ISTREAM, 6, 1), (Reg.MTR_CFG_ACC, 0xA, 1),
    (Reg.MTR_CFG_SMODE, 0xB, 1), (Reg.MTR_CFG_IMP_ONLY, 0xC, 1), (Reg.MTR_CHKCFG_ZC_HYST, 0xD, 1), (Reg.MTR_LIM_VNOM, 0xE, 2),
    (Reg.MTR_LIM_CREEP, 0x10, 2), (Reg.MTR_CHKCFG_CHK_TOL, 0x12, 2), (Reg.MTR_CHKCFG_CHK_CYC, 0x14, 2),
    (Reg.MTR_CPT_CFG_N, 0x16, 2), (Reg.MTR_CPT_CFG_UNIT, 0x18, 4)] c
  setF Reg.MTR_CFG_CHECKS e (if Byte.u8 p 4 = 3 then Byte.u8 p 9 else 0x3F) c

/-- R167: a CALIB card. -/
def applyCalib (p : List Nat) (c : Chip) : Chip :=
  loadFields p (Byte.u16 p 0) [
    (Reg.MTR_VFS_VALUE, 4, 4), (Reg.MTR_IFS_VALUE, 8, 4), (Reg.MTR_GAIN_V_VALUE, 0xC, 4), (Reg.MTR_GAIN_I_VALUE, 0x10, 4),
    (Reg.MTR_OFS_V_VALUE, 0x14, 4), (Reg.MTR_OFS_I_VALUE, 0x18, 4)] c

/-- R195, R236: the configuration of the register sets. -/
def applySets (c : Chip) : Chip :=
  (List.range 17).foldl (fun c s =>
    let own := (List.range 64).filter fun e => elemBilling e c && ownerOf e c == s
    let kind := if own.isEmpty then 0 else if s = 16 then 3 else if own.any fun e => getF Reg.MTR_CFG_KIND e c == 2 then 2 else 1
    setF (Reg.setCfgKind s) 0 kind (setF (Reg.setCfgElems s) 0 own.length c)) c

/-- R238: a BAY card; OFFER starts at IDEF. -/
def applyBay (p : List Nat) (c : Chip) : Chip :=
  let n := Byte.u16 p 0
  let c := loadFields p n [
    (Reg.BAY_CFG_TYPE, 4, 1), (Reg.BAY_CFG_PP_MODE, 5, 1), (Reg.BAY_TIM1_CABLE_A, 6, 1), (Reg.BAY_CFG_COIL_CH, 7, 1),
    (Reg.BAY_CFG_WSEN_POL, 8, 1), (Reg.BAY_CFG_LOCK_CH, 9, 1), (Reg.BAY_CFG_BIDIR, 0xB, 1), (Reg.BAY_LIM_IMAX, 0xC, 2),
    (Reg.BAY_LIM_IDEF, 0xE, 2), (Reg.BAY_OFFER_OFFER, 0xE, 2), (Reg.BAY_TIM0_T_LOCK, 0x10, 2), (Reg.BAY_TIM0_T_CLOSE, 0x12, 2),
    (Reg.BAY_TIM0_T_OPEN, 0x14, 2), (Reg.BAY_TIM1_T_STOP, 0x16, 2), (Reg.BAY_TIM1_T_AUTH, 0x18, 2),
    (Reg.BAY_TIM2_PAUSE_MAX, 0x1A, 2), (Reg.BAY_CFG_HLC, 0x1C, 1), (Reg.BAY_CFG_ALLOW_D, 0x1D, 1), (Reg.BAY_CFG_FREE, 0x1E, 1)] c
  let fb := Byte.u8 p 0xA
  setF Reg.BAY_CFG_LOCK_FB n (if fb = 0xFF then 0xF else fb) c

/-- R265: a DC_STACK card. -/
def applyStack (p : List Nat) (c : Chip) : Chip :=
  loadFields p (Byte.u16 p 0) [
    (Reg.BAY_DC_CFG_PORT, 4, 1), (Reg.BAY_DC_CFG_NODE, 5, 1), (Reg.BAY_DC_CFG_NBR, 6, 1), (Reg.BAY_DC_CFG_DBR, 7, 1),
    (Reg.BAY_DC_CFG_VMAX, 8, 2), (Reg.BAY_DC_CFG_PMAX, 0xA, 2)] c

/-- R275: a PROTECT card. -/
def applyProtect (p : List Nat) (c : Chip) : Chip :=
  let n := Byte.u16 p 0
  if n = 16 then setF Reg.PRT_FDR_FEED_A 0 (Byte.u16 p 0xE) (setF Reg.PRT_CFG_AUTO 16 (Byte.u8 p 0xD) c)
  else loadFields p n [
    (Reg.PRT_IAN_IAN, 4, 2), (Reg.PRT_CFG_IAN_DECK, 4, 2), (Reg.PRT_CFG_IAN_LO, 6, 2), (Reg.PRT_CFG_DC_EN, 0xC, 1),
    (Reg.PRT_CFG_AUTO, 0xD, 1)] c

/-- R297, R327: the spectral mask and the attenuations of the trump card, and the CHAIN card. -/
def applyLinks (c : Chip) : Chip :=
  let c := setF Reg.LNK_MASK_MASK_IDX 0 (trumpU8 0x75 c) c
  let c := (List.range 16).foldl (fun c k => setF Reg.LNK_VATT_ATT k (trumpU8 (0x64 + k) c) c) c
  let c := setF Reg.LNK_CATT_ATT 0 (trumpU8 0x74 c) (setF Reg.LNK_CSTAT_CHAIN_ID 0 (cardU8 0x0001 0 0x1E 0 c) c)
  match cardPayload 0x0051 0 c with
  | none => c
  | some p => loadFields p 0 [
      (Reg.LNK_CCFG_PRIORITY, 1, 1), (Reg.LNK_CCFG_MODE, 2, 1), (Reg.LNK_CCFG_INTLV_SYM, 3, 1), (Reg.LNK_CCFG_SLOT_SYM, 4, 1),
      (Reg.LNK_CCFG_POSITION, 5, 1), (Reg.LNK_CBUDGET_BUDGET, 6, 2), (Reg.LNK_CCFG_RELAY_EN, 8, 1)] c

/-- The cards of a deck that fill registers. -/
def applyCard (k : Card) (c : Chip) : Chip :=
  match k.typ with
  | 0x10 => applyStream k.payload c
  | 0x11 => applyElement k.payload c
  | 0x13 => applyCalib k.payload c
  | 0x30 => applyBay k.payload c
  | 0x31 => applyStack k.payload c
  | 0x40 => applyProtect k.payload c
  | _ => c

/-- R281: firmware passes the effective offer of each AC bay to the protection unit. -/
def passOffers (c : Chip) : Chip :=
  (List.range 16).foldl (fun c n =>
    if bayConfigured n c && !isDcBay n c then
      let v := effOffer n c
      setF Reg.BAY_OFFER_EFF n v (limitPass n v c)
    else c) c

/-- R192: the elements start with the lifetime counts of the backup domain. -/
def elemsStart (c : Chip) : Chip :=
  (List.range 64).foldl (fun c e =>
    if !elemConfigured e c then c
    else elemPut e { elemGet e c with
      lifeRev := getF Reg.MTR_LIFE_REV_EP e c, lifeVm := getF Reg.MTR_LIFE_VMISS_EP e c } c) c

/-- R100, "Cards applied": the cards fill the registers, and each block starts with them. -/
def cardsApplied (env : StartEnv) (c : Chip) : Chip :=
  let c := c.deck.cards.foldl (fun c k => applyCard k c) (applyLinks (applyPower (applyDealer c)))
  let c := { c with backup := { c.backup with tamperCfg := (cardU8 0x0022 0 0 15 c, cardU8 0x0022 0 1 3 c) } }
  let c := elemsStart (sensingStart (applySets (applyLatency c)))
  let c := lswCards (baysApply (protectionStart (getF Reg.PWR_BKSTAT_BK_LOST 0 c == 1) c))
  let c := displayCards (nfcCards (safetyCards env.srstHigh c))
  let c := keyLoad 0x32 c
  passOffers (linksStart (keyBytes 0x32 c) c)

/-- R450: the entries read at a start: those with fixed keys, and those the KEYS card names. -/
def readEntries (c : Chip) : Chip :=
  (List.range 11 ++ (keyPairs c).map (·.2)).foldl (fun c e => keymapNote e c) c

/-! ### The legal store, R97, R98, R217, R258, R439 -/

/-- R97: TC11 where the digest of the previously accepted deck differs. -/
def noteDeck (c : Chip) : Chip :=
  let dig := c.sec.mDeck
  let c := match c.store.deckDigest with
    | some old => if old = dig then c else tamper 11 0 c
    | none => c
  { c with store := { c.store with deckDigest := some dig } }

/-- The steps of a start after "Cards applied": the legal store is reconciled, the deck noted, sealed content recorded where
none is or where a closing of the seal waits (R98, R439), interrupted sessions end, the panel refreshes and the host ports
come up. -/
def startLegal (c : Chip) : Chip :=
  let c := noteDeck (restoreLegal c)
  let due := c.backup.sealDue && sealed c
  let c := if sealed c && (c.store.sealed.isNone || due) then sealCopy c else c
  let c := { c with backup := { c.backup with sealDue := false } }
  hostStart (publishSecond (legalRefresh (publishBilling (sessionsCut c))))

/-! ### The start sequence, R96, R100 -/

/-- R96: the device enters bare mode: no card of a deck is applied, also where one was accepted before the DRAM or the firmware
failed. The second snapshot group is published, so that what the backup domain and the fuses keep
reads as they hold it (R13). -/
def bareStart (c : Chip) : Chip :=
  let c := { c with
    pwr := { c.pwr with phase := .bare }
    deck := { c.deck with cards := [] }
    sec := { c.sec with mDeck := List.replicate 32 0 } }
  let c := (List.range 8).foldl (fun c k => setF Reg.UPD_DECK_DIG_DIGEST k 0 c) c
  let c := setF Reg.UPD_DECK_STAT_FALLBACK 0 0 (setF Reg.UPD_DECK_SERIAL_SERIAL 0 0 c)
  publishSecond (legalBare (lswBare (readEntries (setF Reg.UPD_DECK_STAT_RUN 0 0 (setF Reg.UPD_DECK_STAT_BARE 0 1 c)))))

/-- An accepted deck runs. -/
def runStart (env : StartEnv) (c : Chip) : Chip :=
  let c := enterRun { c with pwr := { c.pwr with phase := .run } }
  startLegal (readEntries (cardsApplied env c))

/-- R100: the start sequence of a logic die that has left reset: the deck is checked and its trump card held, then the firmware
starts. The image is chosen before the walk, which needs its METRO_MIN and METRO_MAX (R85); the choice does not depend on the
deck. Without the power die there is no bridge, and it does not
come to its end. -/
def startSequence (env : StartEnv) (c : Chip) : Chip :=
  if c.pwr.phase ≠ .startDue ∨ !c.powered then c
  else if c.pwr.pfLow then startHold c
  else
    let c := startMemory env.dramOk env.size4 (startKeys env.pufOk (startBackup env c))
    let c := setF Reg.UPD_DECK_FLOOR_FLOOR 0 c.store.floor (fwSelect env.imgA env.imgB c)
    let r := deckChoose env c
    if r.2 && env.dramOk && !loaderRuns r.1 then runStart env r.1 else bareStart r.1

def execStartSequence (env : StartEnv) (s : State) : Host.Outcome State Fault Refusal := s.run (startSequence env)

end Sys2Proof.Machine
end

