-- ==== Sys2Proof/Machine/Trick.lean ====
section
/-!
DEFINITION. What runs across chapters at a clock's edge: the metrology trick with its publications (R109, R187-R189, R194), the
protection output (R141), the second tick (R33, R197), commits at their boundaries (R122), boundary actions and saves.
-/

namespace Sys2Proof.Machine
open Sys2Proof

/-! ### The metrology trick, R109, R141, R187, R194 -/

/-- R187, R189, R194, R228: the oldest completed cycle of an element is published; the ledger unit takes it. -/
def publishElem (c : Chip) (e : Nat) : Chip :=
  match (elemGet e c).pub with
  | [] => c
  | s :: rest =>
    let c := cptLatch e c
    let c := publishCycle e s (elemPut e { elemGet e c with pub := rest } c)
    neutralStep e (ledgerTake e s c)

/-- The instant of an edge in 2^-16 ms of meter time. -/
def edgeAt (frac : BitVec 16) (c : Chip) : Int := nowFine c + frac.toNat

/-- R109, R131: ME0 serves H0-H31 and ME1 serves H32-H63 in every trick from the first one. DESIGN CHOICE: the hand of a configured
element waits for its next sample from then on (log 57). -/
def meServe (c : Chip) : Chip :=
  if getF Reg.DLR_HAND_ENGINE 0 c = 0 then c
  else (List.range 64).foldl (fun c h =>
    setF Reg.DLR_HAND_ENGINE h (h / 32) (if elemConfigured h c then setF Reg.DLR_HAND_STATE h 3 c else c)) c

/-- R109, R120, R159: from the first ME trick edge, at which every configured stream has delivered, every element is served. -/
def meDeal (frac : BitVec 16) (c : Chip) : Chip :=
  if edgeServes c then (List.range 64).foldl (elemDeliver (edgeAt frac c)) (meServe c) else c

/-- R109, R187: the trick that ends at an edge: every element finishes its sample, and completed cycles are published. -/
def meEnd (c : Chip) : Chip :=
  (List.range 64).foldl publishElem ((List.range 64).foldl (fun c e => elemTrick e c) c)

/-- R109, R141, R192: an ME trick edge: the trick in progress ends, sample n of every stream is delivered and each element takes
it. An MCLK fault stops the sensing paths: the elements take invalid samples. -/
def meTrick (frac : BitVec 16) (c : Chip) : Chip :=
  if c.pwr.phase ≠ .run then c
  else if c.pwr.mclkFault then meDeal frac (meEnd c)
  else if !metDue c then c
  else meDeal frac (sensingRecover (captureTick false (sensingEdge (meEnd c))))

/-- R141, R489: a protection output of every stream is delivered. -/
def protectionOutput (bits : Vector (BitVec 64) 96) (c : Chip) : Chip :=
  if c.pwr.phase ≠ .run ∨ c.pwr.mclkFault then c
  else captureTick true (protectionUnit (sensingProtection bits c))

/-! ### The second tick, R33, R197, R219, R350 -/

/-- R33: the 1 s tick of meter time: the load switches' measurements are taken, the billing groups published, a failed save is
repeated, and the second snapshot group is published. -/
def secondTick (m : SwitchMeas) (c : Chip) : Chip :=
  match c.pwr.phase with
  | .run => publishSecond (saveAgain (publishBilling (lswMeasure m c)))
  | .bare => publishSecond c
  | _ => c

/-! ### Commits, R122, R190, R297 -/

/-- R190: whether the staging copy of element `g` holds a new N, one that differs from the running one (log 61). -/
def cptNew (g : Nat) (c : Chip) : Bool :=
  match c.dlr.staged.find? fun e => e.1 == g with
  | some (_, copy) => copy.any fun kv => kv.1 == fkey Reg.MTR_CPT_CFG_N g && kv.2 != getF Reg.MTR_CPT_CFG_N g c
  | none => false

/-- R122, R154, R190: an element group takes effect at its trick edge: a new N starts the count of cycles anew, and SLEW of the
group's streams follows the new DLY. The command stands after the ME_TRICK_EDGE of its boundary (log 61). -/
def elemCommit (g : Nat) (c : Chip) : Chip :=
  let new := cptNew g c
  let c := commitTake g c
  let c := if new then elemPut g { elemGet g c with cptCount := 0 } c else c
  (List.range 96).foldl (fun c s => if streamOn s c ∧ getF Reg.SNS_CFG_HOME_GROUP s c = g then slewShow s c else c) c

/-- R122: the staging copy of a group takes effect: an element, a link hand, or a pilot. -/
def commitApplied (g : Nat) (c : Chip) : Chip :=
  if !pendingGroup g c then c
  else if g < 64 then elemCommit g c
  else if g ≤ 80 then attApply (g - 64) (commitTake g c)
  else if 96 ≤ g ∧ g < 112 then pilotTake (g - 96) (afterTrips c)
  else commitTake g c

/-! ### Boundary actions and saves, R66, R216, R219 -/

/-- R216: the waiting actions run once no save is in progress and every cycle that ends by the instant is published. -/
def boundaryActions (c : Chip) : Chip := if c.pwr.phase = .run then timerWakeDone (dueNow c) else c

/-- R219, R66: a save ends with its readback. -/
def saveComplete (ok : Bool) (c : Chip) : Chip := timerWakeDone (saveEnd ok c)

def execMeTrickEdge (frac : BitVec 16) (s : State) : Host.Outcome State Fault Refusal := s.run (meTrick frac)
def execProtectionOutput (bits : Vector (BitVec 64) 96) (s : State) : Host.Outcome State Fault Refusal :=
  s.run (protectionOutput bits)
def execSecondTick (m : SwitchMeas) (s : State) : Host.Outcome State Fault Refusal := s.run (secondTick m)
def execCommitApplied (g : Nat) (s : State) : Host.Outcome State Fault Refusal := s.run (commitApplied g)
def execBoundaryActions (s : State) : Host.Outcome State Fault Refusal := s.run boundaryActions
def execSaveComplete (ok : Bool) (s : State) : Host.Outcome State Fault Refusal := s.run (saveComplete ok)

end Sys2Proof.Machine
end

