-- ==== Sys2Proof/Machine/Dispatch.lean ====
section
/-!
DEFINITION. The command at hand is given its meaning: one arm per constructor of `Instr`.
-/

namespace Sys2Proof.Machine
open Sys2Proof

def exec (i : Instr) (s : State) : Host.Outcome State Fault Refusal :=
  match i with
  | .bridgeFlitNak dir => Sys2Proof.Machine.execBridgeFlitNak dir s
  | .bridgeHeartbeat dir => Sys2Proof.Machine.execBridgeHeartbeat dir s
  | .bridgeDownPower => Sys2Proof.Machine.execBridgeDownPower s
  | .bridgeDownLogic => Sys2Proof.Machine.execBridgeDownLogic s
  | .tripFlit => Sys2Proof.Machine.execTripFlit s
  | .protectionSnapshot => Sys2Proof.Machine.execProtectionSnapshot s
  | .secondTick lsw => Sys2Proof.Machine.execSecondTick lsw s
  | .mclkCheckWindow count => Sys2Proof.Machine.execMclkCheckWindow count s
  | .bclkCheckWindow count => Sys2Proof.Machine.execBclkCheckWindow count s
  | .bmonCheckWindow count => Sys2Proof.Machine.execBmonCheckWindow count s
  | .tclkPresenceWindow edges mclkCycles => Sys2Proof.Machine.execTclkPresenceWindow edges mclkCycles s
  | .tclkDriftWindow count => Sys2Proof.Machine.execTclkDriftWindow count s
  | .tclkReturn => Sys2Proof.Machine.execTclkReturn s
  | .corePllLoss => Sys2Proof.Machine.execCorePllLoss s
  | .corePllLock => Sys2Proof.Machine.execCorePllLock s
  | .metroPllLoss => Sys2Proof.Machine.execMetroPllLoss s
  | .linkPllLoss => Sys2Proof.Machine.execLinkPllLoss s
  | .linkPllRelock => Sys2Proof.Machine.execLinkPllRelock s
  | .hostPllLoss => Sys2Proof.Machine.execHostPllLoss s
  | .fclkLoss => Sys2Proof.Machine.execFclkLoss s
  | .meterTimeTick => Sys2Proof.Machine.execMeterTimeTick s
  | .vddCoreBrownout => Sys2Proof.Machine.execVddCoreBrownout s
  | .vpd5Brownout => Sys2Proof.Machine.execVpd5Brownout s
  | .vp12Brownout => Sys2Proof.Machine.execVp12Brownout s
  | .vbbBrownout bank => Sys2Proof.Machine.execVbbBrownout bank s
  | .vbbRestore bank => Sys2Proof.Machine.execVbbRestore bank s
  | .vstoBrownout => Sys2Proof.Machine.execVstoBrownout s
  | .vcolBrownout => Sys2Proof.Machine.execVcolBrownout s
  | .vcolRestore => Sys2Proof.Machine.execVcolRestore s
  | .backupPor => Sys2Proof.Machine.execBackupPor s
  | .vbatMeasure mv => Sys2Proof.Machine.execVbatMeasure mv s
  | .pwrReqRun who => Sys2Proof.Machine.execPwrReqRun who s
  | .pwrReqLean who => Sys2Proof.Machine.execPwrReqLean who s
  | .pwrReqStandby who => Sys2Proof.Machine.execPwrReqStandby who s
  | .standbyReached => Sys2Proof.Machine.execStandbyReached s
  | .standbyWake sources => Sys2Proof.Machine.execStandbyWake sources s
  | .idleTimerExpiry => Sys2Proof.Machine.execIdleTimerExpiry s
  | .loadDemand => Sys2Proof.Machine.execLoadDemand s
  | .watchdogExpiry => Sys2Proof.Machine.execWatchdogExpiry s
  | .pfwarnRecognised => Sys2Proof.Machine.execPfwarnRecognised s
  | .finalRecordWritten tenUs => Sys2Proof.Machine.execFinalRecordWritten tenUs s
  | .finalRecordRefresh tenUs => Sys2Proof.Machine.execFinalRecordRefresh tenUs s
  | .pfwarnRecovered => Sys2Proof.Machine.execPfwarnRecovered s
  | .startWaitEnd => Sys2Proof.Machine.execStartWaitEnd s
  | .resetNRecognised => Sys2Proof.Machine.execResetNRecognised s
  | .resetNRelease svcLow => Sys2Proof.Machine.execResetNRelease svcLow s
  | .startSequence env => Sys2Proof.Machine.execStartSequence env s
  | .svcbtnPressEnd => Sys2Proof.Machine.execSvcbtnPressEnd s
  | .svcbtnFailedClosed => Sys2Proof.Machine.execSvcbtnFailedClosed s
  | .serviceBidWindowEnd => Sys2Proof.Machine.execServiceBidWindowEnd s
  | .tamperInputChange input level recordOk => Sys2Proof.Machine.execTamperInputChange input level recordOk s
  | .sealOpened => Sys2Proof.Machine.execSealOpened s
  | .sealClosed recordOk => Sys2Proof.Machine.execSealClosed recordOk s
  | .deckLoad rq slot bytes sigOk cut => Sys2Proof.Machine.execDeckLoad rq slot bytes sigOk cut s
  | .deckActivate rq => Sys2Proof.Machine.execDeckActivate rq s
  | .deckCommit rq => Sys2Proof.Machine.execDeckCommit rq s
  | .meTrickEdge frac => Sys2Proof.Machine.execMeTrickEdge frac s
  | .meSlotOverrun elem => Sys2Proof.Machine.execMeSlotOverrun elem s
  | .leTrickEdge edge => Sys2Proof.Machine.execLeTrickEdge edge s
  | .ceTrickEdge => Sys2Proof.Machine.execCeTrickEdge s
  | .ceWindowEnd => Sys2Proof.Machine.execCeWindowEnd s
  | .ceRequest source => Sys2Proof.Machine.execCeRequest source s
  | .ceRequestDone hand => Sys2Proof.Machine.execCeRequestDone hand s
  | .ceBudgetExceeded bay => Sys2Proof.Machine.execCeBudgetExceeded bay s
  | .dlrCommit who group go => Sys2Proof.Machine.execDlrCommit who group go s
  | .commitApplied group => Sys2Proof.Machine.execCommitApplied group s
  | .arbSaturate traffic => Sys2Proof.Machine.execArbSaturate traffic s
  | .protectionOutput bits => Sys2Proof.Machine.execProtectionOutput bits s
  | .lossWindowEnd stream => Sys2Proof.Machine.execLossWindowEnd stream s
  | .mckFault group => Sys2Proof.Machine.execMckFault group s
  | .streamRecovery stream => Sys2Proof.Machine.execStreamRecovery stream s
  | .settleEnd stream path => Sys2Proof.Machine.execSettleEnd stream path s
  | .integPrerollEnd stream => Sys2Proof.Machine.execIntegPrerollEnd stream s
  | .snsDlyWrite who stream value => Sys2Proof.Machine.execSnsDlyWrite who stream value s
  | .cycleTimeout elem => Sys2Proof.Machine.execCycleTimeout elem s
  | .freerunBoundary elem => Sys2Proof.Machine.execFreerunBoundary elem s
  | .checkWindowEnd elem => Sys2Proof.Machine.execCheckWindowEnd elem s
  | .cptLatch elem => Sys2Proof.Machine.execCptLatch elem s
  | .cptCfgWrite who elem n => Sys2Proof.Machine.execCptCfgWrite who elem n s
  | .tariffSwitch => Sys2Proof.Machine.execTariffSwitch s
  | .dstChange => Sys2Proof.Machine.execDstChange s
  | .overrideStart => Sys2Proof.Machine.execOverrideStart s
  | .overrideEnd => Sys2Proof.Machine.execOverrideEnd s
  | .demandIntervalEnd => Sys2Proof.Machine.execDemandIntervalEnd s
  | .periodEnd => Sys2Proof.Machine.execPeriodEnd s
  | .boundaryActions => Sys2Proof.Machine.execBoundaryActions s
  | .timeBehindClear => Sys2Proof.Machine.execTimeBehindClear s
  | .wallSet rq body sigOk => Sys2Proof.Machine.execWallSet rq body sigOk s
  | .tariffSet rq body sigOk => Sys2Proof.Machine.execTariffSet rq body sigOk s
  | .billSnap rq index => Sys2Proof.Machine.execBillSnap rq index s
  | .periodicSave => Sys2Proof.Machine.execPeriodicSave s
  | .saveComplete readbackOk => Sys2Proof.Machine.execSaveComplete readbackOk s
  | .saveRetry => Sys2Proof.Machine.execSaveRetry s
  | .startReading bay => Sys2Proof.Machine.execStartReading bay s
  | .stopReading bay => Sys2Proof.Machine.execStopReading bay s
  | .legalDwellEnd => Sys2Proof.Machine.execLegalDwellEnd s
  | .pilotPeriodStart bay samples contact => Sys2Proof.Machine.execPilotPeriodStart bay samples contact s
  | .proxWindowEnd bay samples => Sys2Proof.Machine.execProxWindowEnd bay samples s
  | .weldFault bay => Sys2Proof.Machine.execWeldFault bay s
  | .contactorGrant bay => Sys2Proof.Machine.execContactorGrant bay s
  | .sessionMachineStep bay => Sys2Proof.Machine.execSessionMachineStep bay s
  | .sessionHandMove bay => Sys2Proof.Machine.execSessionHandMove bay s
  | .tLockExpiry bay => Sys2Proof.Machine.execTLockExpiry bay s
  | .tAuthExpiry bay => Sys2Proof.Machine.execTAuthExpiry bay s
  | .tCloseExpiry bay => Sys2Proof.Machine.execTCloseExpiry bay s
  | .tStopExpiry bay => Sys2Proof.Machine.execTStopExpiry bay s
  | .pauseMaxExpiry bay => Sys2Proof.Machine.execPauseMaxExpiry bay s
  | .faultHoldExpiry bay => Sys2Proof.Machine.execFaultHoldExpiry bay s
  | .undefPilotTimeout bay => Sys2Proof.Machine.execUndefPilotTimeout bay s
  | .auth who bay => Sys2Proof.Machine.execAuth who bay s
  | .stop who bay => Sys2Proof.Machine.execStop who bay s
  | .pause who bay => Sys2Proof.Machine.execPause who bay s
  | .resume who bay => Sys2Proof.Machine.execResume who bay s
  | .faultClr who bay => Sys2Proof.Machine.execFaultClr who bay s
  | .weldClr who bay => Sys2Proof.Machine.execWeldClr who bay s
  | .testEnter who bay => Sys2Proof.Machine.execTestEnter who bay s
  | .testExit who bay => Sys2Proof.Machine.execTestExit who bay s
  | .bayOfferWrite who bay value => Sys2Proof.Machine.execBayOfferWrite who bay value s
  | .bayPwmCommit who bay go => Sys2Proof.Machine.execBayPwmCommit who bay go s
  | .stackStatus bay msg => Sys2Proof.Machine.execStackStatus bay msg s
  | .stackFault bay msg => Sys2Proof.Machine.execStackFault bay msg s
  | .stackCmdSend bay => Sys2Proof.Machine.execStackCmdSend bay s
  | .stackLost bay => Sys2Proof.Machine.execStackLost bay s
  | .prechargeTimeout bay => Sys2Proof.Machine.execPrechargeTimeout bay s
  | .dcStopTimeout bay => Sys2Proof.Machine.execDcStopTimeout bay s
  | .canBusOff port => Sys2Proof.Machine.execCanBusOff port s
  | .canBusOffRecovery port => Sys2Proof.Machine.execCanBusOffRecovery port s
  | .blindClear inst => Sys2Proof.Machine.execBlindClear inst s
  | .ocLimitUpdate inst => Sys2Proof.Machine.execOcLimitUpdate inst s
  | .ocGraceExpiry inst => Sys2Proof.Machine.execOcGraceExpiry inst s
  | .capRelease bay => Sys2Proof.Machine.execCapRelease bay s
  | .insPhaseEnd bay => Sys2Proof.Machine.execInsPhaseEnd bay s
  | .prtClr who inst kinds go => Sys2Proof.Machine.execPrtClr who inst kinds go s
  | .autoClear inst kind => Sys2Proof.Machine.execAutoClear inst kind s
  | .prtIanWrite who inst value => Sys2Proof.Machine.execPrtIanWrite who inst value s
  | .lnkTest who go => Sys2Proof.Machine.execLnkTest who go s
  | .lnkTestDone pass => Sys2Proof.Machine.execLnkTestDone pass s
  | .slacRequest src run levels => Sys2Proof.Machine.execSlacRequest src run levels s
  | .slacTimeout bay => Sys2Proof.Machine.execSlacTimeout bay s
  | .setupTimeout bay => Sys2Proof.Machine.execSetupTimeout bay s
  | .linklossTimeout bay => Sys2Proof.Machine.execLinklossTimeout bay s
  | .vehicleFrame bay crcOk mpdu => Sys2Proof.Machine.execVehicleFrame bay crcOk mpdu s
  | .hlcMessage bay msg => Sys2Proof.Machine.execHlcMessage bay msg s
  | .certRequestTimeout reqId => Sys2Proof.Machine.execCertRequestTimeout reqId s
  | .beaconStart => Sys2Proof.Machine.execBeaconStart s
  | .beaconReceived rx => Sys2Proof.Machine.execBeaconReceived rx s
  | .chainSlotStart => Sys2Proof.Machine.execChainSlotStart s
  | .chainAck fc => Sys2Proof.Machine.execChainAck fc s
  | .joinRequest rx info => Sys2Proof.Machine.execJoinRequest rx info s
  | .budgetReport rx info => Sys2Proof.Machine.execBudgetReport rx info s
  | .relayData ev => Sys2Proof.Machine.execRelayData ev s
  | .relayOpen rx => Sys2Proof.Machine.execRelayOpen rx s
  | .relayClose ev => Sys2Proof.Machine.execRelayClose ev s
  | .chainLeave rx => Sys2Proof.Machine.execChainLeave rx s
  | .listenTimeout => Sys2Proof.Machine.execListenTimeout s
  | .electTimeout => Sys2Proof.Machine.execElectTimeout s
  | .beaconLoss => Sys2Proof.Machine.execBeaconLoss s
  | .rosterExpiry addr => Sys2Proof.Machine.execRosterExpiry addr s
  | .budgetRound => Sys2Proof.Machine.execBudgetRound s
  | .heldRelease addr => Sys2Proof.Machine.execHeldRelease addr s
  | .joinRetry => Sys2Proof.Machine.execJoinRetry s
  | .chainInChange level => Sys2Proof.Machine.execChainInChange level s
  | .chainWaitTimeout => Sys2Proof.Machine.execChainWaitTimeout s
  | .allocationApply => Sys2Proof.Machine.execAllocationApply s
  | .relayConnect header => Sys2Proof.Machine.execRelayConnect header s
  | .rejoin who => Sys2Proof.Machine.execRejoin who s
  | .forget who => Sys2Proof.Machine.execForget who s
  | .lsinChange ball level => Sys2Proof.Machine.execLsinChange ball level s
  | .lineModeOff who line onT offT => Sys2Proof.Machine.execLineModeOff who line onT offT s
  | .lineModeOn who line onT offT => Sys2Proof.Machine.execLineModeOn who line onT offT s
  | .lineModeBlink who line onT offT => Sys2Proof.Machine.execLineModeBlink who line onT offT s
  | .lineBlinkToggle line => Sys2Proof.Machine.execLineBlinkToggle line s
  | .limiterEngage ch => Sys2Proof.Machine.execLimiterEngage ch s
  | .inrushEnd ch engaged => Sys2Proof.Machine.execInrushEnd ch engaged s
  | .lswClassWrite who ch value => Sys2Proof.Machine.execLswClassWrite who ch value s
  | .thermalTrip ch tj caseT peaks => Sys2Proof.Machine.execThermalTrip ch tj caseT peaks s
  | .bankOverload bank => Sys2Proof.Machine.execBankOverload bank s
  | .bankShed bank sumMa => Sys2Proof.Machine.execBankShed bank sumMa s
  | .openLoadOn ch => Sys2Proof.Machine.execOpenLoadOn ch s
  | .lswTest who go => Sys2Proof.Machine.execLswTest who go s
  | .offTestDone ch pullMv freeMv vbbMv => Sys2Proof.Machine.execOffTestDone ch pullMv freeMv vbbMv s
  | .lswRetry ch tj caseT => Sys2Proof.Machine.execLswRetry ch tj caseT s
  | .retryBudgetRestore ch => Sys2Proof.Machine.execRetryBudgetRestore ch s
  | .lswClr who ch go trip => Sys2Proof.Machine.execLswClr who ch go trip s
  | .holdTimeout ch => Sys2Proof.Machine.execHoldTimeout ch s
  | .safetyInputChange input a b => Sys2Proof.Machine.execSafetyInputChange input a b s
  | .discrepancyTimeout input => Sys2Proof.Machine.execDiscrepancyTimeout input s
  | .safSpdWrite who axis mode v => Sys2Proof.Machine.execSafSpdWrite who axis mode v s
  | .brakeReleaseDelay axis => Sys2Proof.Machine.execBrakeReleaseDelay axis s
  | .speedCheck ticks => Sys2Proof.Machine.execSpeedCheck ticks s
  | .stoTestPulse axis outB => Sys2Proof.Machine.execStoTestPulse axis outB s
  | .stoReadbackFault axis a b => Sys2Proof.Machine.execStoReadbackFault axis a b s
  | .channelDisagree axis => Sys2Proof.Machine.execChannelDisagree axis s
  | .axcmdSend axis => Sys2Proof.Machine.execAxcmdSend axis s
  | .axstat axis msg => Sys2Proof.Machine.execAxstat axis msg s
  | .driveLinkLost axis => Sys2Proof.Machine.execDriveLinkLost axis s
  | .srstRelease scEdge => Sys2Proof.Machine.execSrstRelease scEdge s
  | .srstStuck => Sys2Proof.Machine.execSrstStuck s
  | .scMismatch => Sys2Proof.Machine.execScMismatch s
  | .scHeartbeatLoss => Sys2Proof.Machine.execScHeartbeatLoss s
  | .scSelftestDone pass => Sys2Proof.Machine.execScSelftestDone pass s
  | .readerPoll cards ue ns => Sys2Proof.Machine.execReaderPoll cards ue ns s
  | .nfcVerdict who presNo verdict bay useBay => Sys2Proof.Machine.execNfcVerdict who presNo verdict bay useBay s
  | .tHostExpiry ue ns => Sys2Proof.Machine.execTHostExpiry ue ns s
  | .tPendExpiry => Sys2Proof.Machine.execTPendExpiry s
  | .credDelta rq bytes sigOk journalOk => Sys2Proof.Machine.execCredDelta rq bytes sigOk journalOk s
  | .checkpointDone ok => Sys2Proof.Machine.execCheckpointDone ok s
  | .checkpointRetry => Sys2Proof.Machine.execCheckpointRetry s
  | .credTableLoaded okA okB valid ue ns => Sys2Proof.Machine.execCredTableLoaded okA okB valid ue ns s
  | .tagSelect aid => Sys2Proof.Machine.execTagSelect aid s
  | .tinfo => Sys2Proof.Machine.execTinfo s
  | .chal data => Sys2Proof.Machine.execChal data s
  | .muta data => Sys2Proof.Machine.execMuta data s
  | .tread p1 page => Sys2Proof.Machine.execTread p1 page s
  | .twrite p1 page data fieldOk => Sys2Proof.Machine.execTwrite p1 page data fieldOk s
  | .tagApduUnknown => Sys2Proof.Machine.execTagApduUnknown s
  | .tagDeselect => Sys2Proof.Machine.execTagDeselect s
  | .tagFieldLoss => Sys2Proof.Machine.execTagFieldLoss s
  | .tagSessionTimeout => Sys2Proof.Machine.execTagSessionTimeout s
  | .tagWriteDone => Sys2Proof.Machine.execTagWriteDone s
  | .tagWiredRead who page => Sys2Proof.Machine.execTagWiredRead who page s
  | .tagWiredWrite who page => Sys2Proof.Machine.execTagWiredWrite who page s
  | .tagWiredWaitTimeout => Sys2Proof.Machine.execTagWiredWaitTimeout s
  | .emissiveFrameStart => Sys2Proof.Machine.execEmissiveFrameStart s
  | .dspSwap who => Sys2Proof.Machine.execDspSwap who s
  | .dspIcolWrite who value => Sys2Proof.Machine.execDspIcolWrite who value s
  | .crackCheck legal pass => Sys2Proof.Machine.execCrackCheck legal pass s
  | .legalUpdateDone => Sys2Proof.Machine.execLegalUpdateDone s
  | .legalUpdateAdmit => Sys2Proof.Machine.execLegalUpdateAdmit s
  | .epthMeasure tenths => Sys2Proof.Machine.execEpthMeasure tenths s
  | .dspLcmdFull who => Sys2Proof.Machine.execDspLcmdFull who s
  | .keyUpdate rq msg env => Sys2Proof.Machine.execKeyUpdate rq msg env s
  | .devicePub rq => Sys2Proof.Machine.execDevicePub rq s
  | .attest rq challenge => Sys2Proof.Machine.execAttest rq challenge s
  | .debugGrant rq grant sigOk => Sys2Proof.Machine.execDebugGrant rq grant sigOk s
  | .debugEnd rq => Sys2Proof.Machine.execDebugEnd rq s
  | .debugDurationEnd => Sys2Proof.Machine.execDebugDurationEnd s
  | .tapReset => Sys2Proof.Machine.execTapReset s
  | .extest drive => Sys2Proof.Machine.execExtest drive s
  | .samplePreload pins preload => Sys2Proof.Machine.execSamplePreload pins preload s
  | .idcode => Sys2Proof.Machine.execIdcode s
  | .dbgNonce => Sys2Proof.Machine.execDbgNonce s
  | .dbgGrant grant sigOk => Sys2Proof.Machine.execDbgGrant grant sigOk s
  | .dbgOpen level => Sys2Proof.Machine.execDbgOpen level s
  | .dbgEnd => Sys2Proof.Machine.execDbgEnd s
  | .dbgStat => Sys2Proof.Machine.execDbgStat s
  | .kumIn len msg env => Sys2Proof.Machine.execKumIn len msg env s
  | .keyRes => Sys2Proof.Machine.execKeyRes s
  | .devPub => Sys2Proof.Machine.execDevPub s
  | .memAp access => Sys2Proof.Machine.execMemAp access s
  | .bypass ir => Sys2Proof.Machine.execBypass ir s
  | .netConnect port tlsOk client => Sys2Proof.Machine.execNetConnect port tlsOk client s
  | .openSess h rh => Sys2Proof.Machine.execOpenSess h rh s
  | .close h => Sys2Proof.Machine.execClose h s
  | .keepalive h => Sys2Proof.Machine.execKeepalive h s
  | .read h addr count => Sys2Proof.Machine.execRead h addr count s
  | .write h addr count words => Sys2Proof.Machine.execWrite h addr count words s
  | .unknownRequest h type code => Sys2Proof.Machine.execUnknownRequest h type code s
  | .bulkOpen rq code total arg => Sys2Proof.Machine.execBulkOpen rq code total arg s
  | .bulkData rq offset data => Sys2Proof.Machine.execBulkData rq offset data s
  | .bulkClose rq digest env => Sys2Proof.Machine.execBulkClose rq digest env s
  | .bulkTimeout sess => Sys2Proof.Machine.execBulkTimeout sess s
  | .restart rq => Sys2Proof.Machine.execRestart rq s
  | .bid rq => Sys2Proof.Machine.execBid rq s
  | .handover rq target => Sys2Proof.Machine.execHandover rq target s
  | .accept rq => Sys2Proof.Machine.execAccept rq s
  | .release rq => Sys2Proof.Machine.execRelease rq s
  | .evtRead rq fromSeq max => Sys2Proof.Machine.execEvtRead rq fromSeq max s
  | .evtSub rq arg => Sys2Proof.Machine.execEvtSub rq arg s
  | .certReply rq reqId msg => Sys2Proof.Machine.execCertReply rq reqId msg s
  | .spiRead whole => Sys2Proof.Machine.execSpiRead whole s
  | .spiStatus => Sys2Proof.Machine.execSpiStatus s
  | .sessionIdleTimeout sess => Sys2Proof.Machine.execSessionIdleTimeout sess s
  | .auctionClose => Sys2Proof.Machine.execAuctionClose s
  | .handoverExpiry => Sys2Proof.Machine.execHandoverExpiry s
  | .declarerLapse => Sys2Proof.Machine.execDeclarerLapse s
  | .hstCtlWrite who value => Sys2Proof.Machine.execHstCtlWrite who value s
  | .scrubRead dram addr upset lap => Sys2Proof.Machine.execScrubRead dram addr upset lap s
  | .eccUeRestart found => Sys2Proof.Machine.execEccUeRestart found s
  | .eccRawWrite who en chk => Sys2Proof.Machine.execEccRawWrite who en chk s
  | .eccRawRead who en => Sys2Proof.Machine.execEccRawRead who en s
  | .captureGo who path nch samples => Sys2Proof.Machine.execCaptureGo who path nch samples s
  | .captureDone => Sys2Proof.Machine.execCaptureDone s
  | .transferGo who t req tag => Sys2Proof.Machine.execTransferGo who t req tag s
  | .transferBurst t => Sys2Proof.Machine.execTransferBurst t s
  | .transferDone t => Sys2Proof.Machine.execTransferDone t s
  | .cqPop who => Sys2Proof.Machine.execCqPop who s
  | .apbaseWrite who value => Sys2Proof.Machine.execApbaseWrite who value s
  | .fwLoad rq slot bytes readOk => Sys2Proof.Machine.execFwLoad rq slot bytes readOk s
  | .activate rq => Sys2Proof.Machine.execActivate rq s
  | .activationPauseStart image => Sys2Proof.Machine.execActivationPauseStart image s
  | .prepTimeout image => Sys2Proof.Machine.execPrepTimeout image s
  | .fwReady => Sys2Proof.Machine.execFwReady s
  | .fwReadyTimeout => Sys2Proof.Machine.execFwReadyTimeout s
  | .fwConfirm => Sys2Proof.Machine.execFwConfirm s
  | .registerWrite who addr value => Sys2Proof.Machine.execRegisterWrite who addr value s
  | .powerDiePowered => Sys2Proof.Machine.execPowerDiePowered s
  | .vstoRestore => Sys2Proof.Machine.execVstoRestore s
  | .hostPllRelock => Sys2Proof.Machine.execHostPllRelock s
  | .fclkReturn => Sys2Proof.Machine.execFclkReturn s
  | .svcbtnPressStart => Sys2Proof.Machine.execSvcbtnPressStart s
  | .srstPressStart => Sys2Proof.Machine.execSrstPressStart s
  | .tclkStopInHold => Sys2Proof.Machine.execTclkStopInHold s
  | .tcpConnectionClose sess => Sys2Proof.Machine.execTcpConnectionClose sess s

end Sys2Proof.Machine
end

