-- ==== Sys2Proof/Safety.lean ====
section
/-!
DEFINITION. What counts as safe in this device: no contactor coil is energised unless its closing conditions hold together, no
channel is on without its input and its supply, and no command stops the device.
-/

namespace Sys2Proof.Safety
open Sys2Proof Sys2Proof.Machine

/-- R29, R251, R252: a gate line that is on has the grant and every other closing condition. -/
def GatesSafe (c : Chip) : Prop :=
  ∀ n, n < 16 → (hslBay n c).gate = true → (hslBay n c).grant = true ∧ closingOk n c = true

/-- R331, R336, R346: a channel is on exactly while it has what it needs: the conditions of its output, a powered die and its
bank's supply. -/
def OutputsFollow (c : Chip) : Prop :=
  ∀ k, k < 48 → (lsw k c).out = (lswWanted (lsw k c) c && c.powered && c.pwr.vbbOk.getLsbD (k / 8))

/-- R343, R344: the test of a channel has seen the channel's present input. -/
def TestsFollow (c : Chip) : Prop :=
  ∀ k, k < 48 → (lsw k c).test = 0 ∨ lswInput (lsw k c) c = (lsw k c).testIn

/-- The power die is settled: gates, channels and their tests agree with what they depend on. -/
def Settled (c : Chip) : Prop := GatesSafe c ∧ OutputsFollow c ∧ TestsFollow c

/-- R1, R29, R251: the channel of a bay's contactor coil, not frozen, is on only while the bay's closing conditions hold. -/
def CoilsSafe (c : Chip) : Prop :=
  ∀ k n, k < 48 → n < 16 → (lsw k c).kind = 1 → (lsw k c).src = n → (lsw k c).hold = none → (lsw k c).out = true →
    closingOk n c = true

/-- No step stops the device. -/
def NeverStops : Prop := ∀ s, ∃ t, step s = .next t

/-- R48, R50, R53, R77: what a reset of the logic die through the HSL leaves: gates, grants and brake lines off, no trump card
held, the protection latches, the fuses and the legal store kept, meter time kept and stamped
where a trump card was held, and the first cause since the last start recorded. -/
structure LogicDieReset (cause : Nat) (c d : Chip) : Prop where
  gates : ∀ n, n < 16 → (hslBay n d).gate = false ∧ (hslBay n d).grant = false
  brakes : ∀ n, n < 16 → d.hsl.brake[n]?.getD false = false
  trump : d.hsl.trump = none ∧ getF Reg.DEV_TRUMP_STATE_HELD 0 d = 0
  latches : d.hsl.latch = c.hsl.latch
  meter : d.backup.ms = c.backup.ms ∧ d.backup.resetAt = (if c.hsl.trump.isSome then c.backup.ms else c.backup.resetAt)
  kept : d.fregs = c.fregs ∧ d.store = c.store
  fresh : d.bil = {} ∧ d.snap = [] ∧ d.deck.cards = [] ∧ d.hst.decl = none
  down : d.pwr.phase = .held ∨ d.pwr.phase = .startDue ∨ d.pwr.phase = .startWait
  first : d.pwr.firstCause = if c.pwr.phase = .held then c.pwr.firstCause else c.pwr.firstCause <|> some cause

/-- R75, R76, R525: the logic die leaves reset where nothing else holds it: the start sequence is due, or waits for PFWARN_N. -/
def Released (c d : Chip) : Prop :=
  (c.pwr.pfLow = false → d.pwr.phase = .startDue) ∧
    (c.pwr.pfLow = true → d.pwr.phase = .startWait ∧ getF Reg.PWR_PFW_START_WAIT 0 d = 1)

/-- R459, R474: the host ports take a frame of session `k`: the deck runs, no activation pause and no STANDBY, and it is open. -/
def Serves (k : Nat) (c : Chip) : Prop :=
  c.pwr.phase = .run ∧ c.upd.pause = false ∧ inStandby c = false ∧ (sess k c).state = 2

/-- R469: the ports serve the session, and it is the Declarer. -/
def Owns (k : Nat) (c : Chip) : Prop := Serves k c ∧ c.hst.decl = some k

/-- R457: the last response answers request `rq` of frame type `type` with a status and what follows it. -/
def Answered (type : Nat) (rq : Request) (st : Status) (data : List Nat) (d : Chip) : Prop :=
  d.reply = st ∧ ∃ seq, d.hst.resp = some
    { sess := rq.sess.val, type := type, tag := rq.tag.toNat, seq := seq, status := st, data := data }

/-- R48, R53, R77: a running device restarts: gates, grants and the trump card are gone, the logic die is out of its deck, and the
cause stands if no other came first. -/
structure Restarted (cause : Nat) (c d : Chip) : Prop where
  gates : ∀ n, n < 16 → (hslBay n d).gate = false ∧ (hslBay n d).grant = false
  trump : d.hsl.trump = none ∧ getF Reg.DEV_TRUMP_STATE_HELD 0 d = 0
  phase : d.pwr.phase ≠ .run ∧ d.pwr.phase ≠ .bare
  first : d.pwr.firstCause = (c.pwr.firstCause <|> some cause)

/-- R100: what a start sequence has before it chooses a deck: reset cause, keys, memories and firmware. -/
def startPrep (env : StartEnv) (c : Chip) : Chip :=
  let d := startMemory env.dramOk env.size4 (startKeys env.pufOk (startBackup env c))
  setF Reg.UPD_DECK_FLOOR_FLOOR 0 d.store.floor (fwSelect env.imgA env.imgB d)

/-- R105: the state in which DECK_LOAD checks the slot it has written. -/
def deckWritten (slot : Nat) (bytes : List Nat) (c : Chip) : Chip :=
  let d := deckWrite slot bytes none c
  { d with deck := { d.deck with loaded := some slot } }

/-- R261: the inputs of a bay's session machine after steps 1-5 of a publish. -/
def bayInputs (n : Nat) (c : Chip) : Chip :=
  dcAdvance n (dcWatch n (lockConfirm n (undefNote n (fallBack n c))))

/-- R260, R257: bay `n` is in FAULT with a reason, its gate off and no grant. -/
def BayFaulted (n reason : Nat) (d : Chip) : Prop :=
  bayState n d = 9 ∧ getF Reg.BAY_STATE_REASON n d = reason ∧ (hslBay n d).gate = false ∧ (hslBay n d).grant = false

/-- R183, R199, R204, R208, R216: a boundary at which the demand interval ends on the grid is marked: attribution switches and the
actions wait; the registers stand until they have run. -/
structure BoundaryMarked (c d : Chip) : Prop where
  due : d.bil.due = [{
    at_ := nowFine c, mt := c.backup.ms, wall := wallMs c, wallOk := c.backup.wallValid, tariff := c.bil.tariff
    demand := true, short := c.bil.ivlShort, number := periodNow c, periods := periodsDue c }]
  tariff : d.bil.tariff = (tariffNow c).1 ∧ getF Reg.BIL_TARIFF_ACTIVE 0 d = getF Reg.BIL_TARIFF_ACTIVE 0 c
  interval : d.bil.ivlIdx = intervalIdx c ∧ d.bil.ivlAt = c.backup.ms
  bank : d.backup.bankOn = !c.backup.bankOn
  kept : d.bil.sets = c.bil.sets ∧ d.store.period = c.store.period ∧ d.store.ring = c.store.ring ∧ d.backup.ms = c.backup.ms

/-- R262: the state in which a bay's command waits for the session machine. -/
def commanded (n : Fin 16) (code : Nat) (s : State) : State :=
  { s with reply := .ok, bay := (s.bay.set n.val { bayGet n.val s.toChip with cmd := some code }) }

/-- R262: the bay commands and their codes. -/
def BayCommand (who : Writer) (n : Fin 16) (i : Instr) (code : Nat) : Prop :=
  (i = .auth who n ∧ code = 1) ∨ (i = .stop who n ∧ code = 2) ∨ (i = .pause who n ∧ code = 3) ∨
    (i = .resume who n ∧ code = 4) ∨ (i = .faultClr who n ∧ code = 5) ∨ (i = .weldClr who n ∧ code = 6) ∨
    (i = .testEnter who n ∧ code = 7) ∨ (i = .testExit who n ∧ code = 8)

/-- R309, R315: the chain frame with TYPE `typ` passes every check and is delivered. -/
def Heard (typ : Nat) (rx : ChainRx) (c : Chip) : Prop := (chainCheck typ rx c).2 = .deliver

/-- R320: the coordinator's own budget report. -/
def ownReport (c : Chip) : ReportInfo :=
  { demand := postDemand c, floor := shareFloor c, feedA := getF Reg.PRT_FDR_FEED_A 0 c
    ifeed := getF Reg.PRT_OC_IPK 16 c, round := BitVec.ofNat 16 c.lnk.chain.rxRound }

/-- R321: the roster a budget round works on: the coordinator's own entry with its report, the others as they are. -/
def roundPosts (c : Chip) : List RosterEntry :=
  c.lnk.chain.roster.map fun e =>
    if e.addr = ownAddr c then reportTake (ownReport c) { e with lastRx := c.backup.ms } else e

/-- R303: high-level communication of bay `n` has failed. -/
def HlcFailed (n : Nat) (d : Chip) : Prop :=
  vState n d = 5 ∧ (bayGet n d).hlc.failed = true ∧ (bayGet n d).hlc.up = false ∧ (vlink n d).nmk = none

/-- R457, R459: a frame that passes every check on a session of a running device, with a known VERSION. -/
structure FrameOk (h : FrameHead) (c : Chip) : Prop where
  serves : Serves h.sess.val c
  form : h.magic.toNat = 0x4B48 ∧ h.len.toNat ≤ 1048576 ∧ h.got = h.len.toNat ∧ h.version.toNat = 1
  order : h.session.toNat = h.sess.val ∧ h.seq.toNat = (sess h.sess.val c).rxSeq + 1 ∧ (sess h.sess.val c).rxSeq ≠ 0xFFFFFFFF
  auth : h.authOk = true
  port : 4 ≤ h.sess.val → serialUp h.sess.val c = true

/-- R378-R383: the cards a poll reads, the device's own tag apart, and the credentials they yield. -/
def polled (cards : List ReaderCard) (c : Chip) : List ReaderCard := cards.filter fun k => Byte.nats k.uid != tagUid c
def polledCreds (cards : List ReaderCard) (c : Chip) : List (Nat × List Nat) :=
  ((polled cards c).take 8).filterMap fun k => cardCred k c

/-- R396, R397, R399: the tag's field session has ended, and a wired write that waited has begun. -/
structure FieldSessionEnded (c d : Chip) : Prop where
  closed : d.tag.open_ = false ∧ d.tag.opened = [] ∧ getF Reg.NFC_TAGSTAT_FIELD 0 d = 0
  keys : d.tag.key = none ∧ d.tag.chal = none ∧ d.tag.ctr = 0 ∧ d.tag.fails = 0
  wired : d.tag.wired = none ∧ ∀ p b, c.tag.wired = some (p, b) → d.tag.write = some { wired := true, page := p, data := b }
  kept : d.store = c.store ∧ d.nfc = c.nfc

/-- R501, R505-R507: the activation pause has begun: sessions closed, cause 0x09 recorded, and the image of the other slot boots
where it passes its checks, else the running one boots again and the other slot takes state 4. -/
structure PauseBegun (sigOk cardsOk : Bool) (c d : Chip) : Prop where
  pause : getF Reg.UPD_STAT_PENDING 0 d = 0 ∧ getF Reg.UPD_STAT_PAUSE 0 d = 1 ∧ d.upd.pause = true ∧
    d.upd.pauseAt = c.backup.ms ∧ d.upd.readyAt = some c.backup.ms
  cause : getF Reg.PWR_RSTCAUSE_CAUSE 0 d = 9
  sessions : d.hst.decl = none ∧ ∀ k, k < 6 → (sess k d).state = 0
  boots : imgReason (some cardsOk) (1 - runSlot c) sigOk c = 0 → runSlot d = 1 - runSlot c ∧
    d.sec.mFw = sha256 ((imgBytes (1 - runSlot c) c).take (Byte.u32 (imgBytes (1 - runSlot c) c) 4))
  falls : imgReason (some cardsOk) (1 - runSlot c) sigOk c ≠ 0 → runSlot d = runSlot c % 2 ∧
    getF Reg.UPD_STAT_CHK_FAIL 0 d = 1 ∧ getF Reg.UPD_STAT_FALLBACK 0 d = 1 ∧ slotState (1 - runSlot c) d = 4
  kept : d.store = c.store ∧ d.backup.ms = c.backup.ms

/-- R447: a debug level has ended. -/
def DebugEnded (c d : Chip) : Prop :=
  getF Reg.SEC_DBG_LEVEL 0 d = 0 ∧ getF Reg.SEC_DBGRES_RESULT 0 d = 8 ∧ getF Reg.SEC_DBG_SRC 0 d = 0 ∧ d.sec.until_ = none ∧
    (debugLevel c = 2 → getF Reg.SEC_STAT_RESTART_REQ 0 d = 1)

/-- R442: the TAP has instruction `ir` and shifted out `out`; nothing else of the device has changed. -/
def tapShown (ir : Nat) (out : List Nat) (c : Chip) : Chip := { c with sec := { c.sec with ir := ir, tdo := out, extest := false } }

end Sys2Proof.Safety
end

