-- ==== Sys2Proof/Certificates/Slice0/Obligations.lean ====
section
/-!
DEFINITION. The statements for the provers, by chapter of the spec. Every state and every operand a statement does not exclude is
meant; a statement's premises name the modes, enables and operands under which a command has the effect it states.
-/

open Sys2Proof Sys2Proof.Machine Sys2Proof.Safety

/-- A command at the front of the queue runs on the state with the queue's rest. -/
def Obligations.StepRunsFrontCommand : Prop :=
  (∀ (s : State) (i : Instr) (rest : List Instr), s.pending = i :: rest → step s = exec i { s with pending := rest }) ∧
    (∀ s : State, s.pending = [] → step s = .next s)

/-- Every command answers a next state, leaves the queue's rest as it is, and leaves the power die settled: no gate on without
its grant and its closing conditions (R29), every channel as its input, its supply and its protection have it (R336). -/
def Obligations.EveryCommandCompletesSettled : Prop :=
  ∀ (i : Instr) (s : State), ∃ t, exec i s = .next t ∧ t.pending = s.pending ∧ Settled t.toChip

/-- R29: from every settled state a step gives a settled state, and in it the channel of a contactor coil is on only while the
closing conditions of its bay hold together. -/
def Obligations.StepKeepsSettled : Prop :=
  ∀ s t : State, Settled s.toChip → step s = .next t → Settled t.toChip ∧ CoilsSafe t.toChip

/-- The state after reset is settled, and its register maps are in canonical form.
R13: what the registers read when RESET_N has been released: their reset values. -/
def Obligations.ResetStateIsSettledAndRead : Prop :=
  (Settled State.reset.toChip ∧ CoilsSafe State.reset.toChip ∧ mapWf State.reset.regs = true ∧ mapWf State.reset.bregs = true ∧
     mapWf State.reset.fregs = true ∧ mapWf State.reset.snap = true) ∧
  ((∀ f i, getF f i State.reset.toChip = f.rst ∧ readF f i State.reset.toChip = f.rst) ∧
     getF Reg.PWR_STATE_STATE 0 State.reset.toChip = 1 ∧ getF Reg.PWR_REQ_REQ 0 State.reset.toChip = 1 ∧
     getF Reg.DEV_TRUMP_STATE_HELD 0 State.reset.toChip = 0 ∧ getF Reg.DEV_PART_PART 0 State.reset.toChip = 0x1640 ∧
     getF Reg.DEV_PART_SILREV 0 State.reset.toChip = 1 ∧ getF Reg.DEV_TRUMP_STATE_SLOTS_LEFT 0 State.reset.toChip = 16 ∧
     State.reset.pending = [])

/-- A field reads as it was set, in its width; every other field and the canonical form of the maps are kept. -/
def Obligations.FieldSetAndRead : Prop :=
  ∀ (f : Fld) (i v : Nat) (c : Chip),
    getF f i (setF f i v c) = v % 2 ^ f.width ∧
    (∀ g j, f.home ≠ g.home ∨ fkey g j ≠ fkey f i → getF g j (setF f i v c) = getF g j c) ∧
    (mapWf c.regs = true → mapWf c.bregs = true → mapWf c.fregs = true →
      mapWf (setF f i v c).regs = true ∧ mapWf (setF f i v c).bregs = true ∧ mapWf (setF f i v c).fregs = true)

/-- R21: flit retries of either direction count in DEV_BRIDGE.RETRY_CNT, bridge losses in DOWN_CNT, each saturating at 255;
after the third repeat of a flit the direction's receiver declares the bridge down (R18-R20), and where the logic die does, waiting
TRIP flits, pending commits and a legal update in progress are gone. A reset of the logic die keeps
DOWN_CNT: it counts over the device's life. -/
def Obligations.BridgeCountsRetriesAndLosses : Prop :=
  ∀ s : State, Settled s.toChip → s.bridge.downPower = false → s.bridge.downLogic = false → s.powered = true →
    s.logicUp = true →
    (s.bridge.toPower.retry < 3 → exec (.bridgeFlitNak .toPower) s = .next { s with toChip :=
      { setF Reg.DEV_BRIDGE_RETRY_CNT 0 (min (getF Reg.DEV_BRIDGE_RETRY_CNT 0 s.toChip + 1) 255) s.toChip with
        bridge := { s.bridge with toPower := { s.bridge.toPower with retry := s.bridge.toPower.retry + 1 } } } }) ∧
    (s.bridge.toLogic.retry < 3 → exec (.bridgeFlitNak .toLogic) s = .next { s with toChip :=
      { setF Reg.DEV_BRIDGE_RETRY_CNT 0 (min (getF Reg.DEV_BRIDGE_RETRY_CNT 0 s.toChip + 1) 255) s.toChip with
        bridge := { s.bridge with toLogic := { s.bridge.toLogic with retry := s.bridge.toLogic.retry + 1 } } } }) ∧
    (3 ≤ s.bridge.toPower.retry → exec (.bridgeFlitNak .toPower) s = exec .bridgeDownPower s) ∧
    (3 ≤ s.bridge.toLogic.retry → exec (.bridgeFlitNak .toLogic) s = exec .bridgeDownLogic s) ∧
    (∃ t, exec .bridgeDownLogic s = .next t ∧ getF Reg.DEV_BRIDGE_UP 0 t.toChip = 0 ∧
      getF Reg.DEV_BRIDGE_DOWN_CNT 0 t.toChip = min (getF Reg.DEV_BRIDGE_DOWN_CNT 0 s.toChip + 1) 255 ∧
      t.bridge = { s.bridge with downLogic := true, trips := [] } ∧ t.dlr = { s.dlr with staged := [] } ∧
      (∀ g, g < 112 → pendingGroup g t.toChip = false) ∧ t.dsp = { s.dsp with upd := none } ∧ t.hsl = s.hsl ∧
      t.lsw = s.lsw ∧ t.backup = s.backup ∧ t.bil = s.bil ∧ t.store = s.store) ∧
    (∃ t, exec .bridgeDownPower s = .next t ∧ t.bridge.downPower = true ∧
      getF Reg.DEV_BRIDGE_DOWN_CNT 0 t.toChip = min (getF Reg.DEV_BRIDGE_DOWN_CNT 0 s.toChip + 1) 255) ∧
    (∃ t, exec .vddCoreBrownout s = .next t ∧
      getF Reg.DEV_BRIDGE_DOWN_CNT 0 t.toChip = getF Reg.DEV_BRIDGE_DOWN_CNT 0 s.toChip)

/-- R30, R273, R274: the HSL takes the oldest TRIP flit: its latches are set, those of other instances stay, the mirror follows,
and no gate that the latches concern stays on. A flit of the safety controllers is a fault of SC (R371). A heartbeat is a
new flit with no repeat spent; its count of idle flits is the model's own (log entry 12). -/
def Obligations.TripFlitLatches : Prop :=
  (∀ (s : State) (n : Nat) (kinds : BitVec 6) (rest : List TripReq), n < 17 → s.powered = true →
    s.bridge.downPower = false → s.bridge.downLogic = false → s.bridge.trips = .latch n kinds :: rest →
    ∃ t, exec .tripFlit s = .next t ∧ latchOf n t.toChip = latchOf n s.toChip ||| kinds ∧
      (∀ m, m ≠ n → latchOf m t.toChip = latchOf m s.toChip) ∧
      (s.backup.mirror = s.hsl.latch → t.backup.mirror = t.hsl.latch) ∧
      t.bridge = { s.bridge with trips := rest, toPower := { s.bridge.toPower with retry := 0 } } ∧
      (kinds ≠ 0 → ∀ m, m < 16 → m = n ∨ n = 16 → (hslBay m t.toChip).gate = false) ∧
      t.backup.ms = s.backup.ms ∧ t.hsl.trump = s.hsl.trump ∧ t.store = s.store ∧
      { t.bil with done := s.bil.done, read := s.bil.read } = s.bil) ∧
  (∀ (s : State) (rest : List TripReq), s.powered = true → s.bridge.downPower = false → s.bridge.downLogic = false →
    s.bridge.trips = .safety :: rest →
    ∃ t, exec .tripFlit s = .next t ∧ t.saf.scFault = true ∧ t.saf.scTest = true ∧
      t.saf.scAt = some s.backup.ms ∧ t.bridge.trips = rest ∧ t.hsl.latch = s.hsl.latch) ∧
  (∀ s : State, Settled s.toChip → s.bridge.downPower = false → s.bridge.downLogic = false → s.powered = true →
    s.logicUp = true →
    (s.bridge.trips = [] → exec (.bridgeHeartbeat .toPower) s = .next { s with
      bridge := { s.bridge with toPower := { retry := 0, idle := s.bridge.toPower.idle + 1 } } }) ∧
    exec (.bridgeHeartbeat .toLogic) s = .next { s with
      bridge := { s.bridge with toLogic := { retry := 0, idle := s.bridge.toLogic.idle + 1 } } })

/-- R19, R59, R62, R66, R76: each reset of the logic die that the power die takes part in, with its cause code.
R59, R75, R76, R273, R525: what releases the logic die, and R75: the end of the wait for PFWARN_N. -/
def Obligations.ResetsRecordCausesAndRelease : Prop :=
  (∀ s : State,
     (s.bridge.downPower = false → s.powered = true →
       ∃ t, exec .bridgeDownPower s = .next t ∧ LogicDieReset 3 s.toChip t.toChip) ∧
     (s.pwr.pllLost = false →
       ∃ t, exec .corePllLoss s = .next t ∧ LogicDieReset 4 s.toChip t.toChip ∧ t.pwr.phase = .held ∧ t.pwr.pllLost = true) ∧
     (∀ count, count < 31040 ∨ 32960 < count → 1 ≤ s.pwr.bclkFail → s.logicUp = true → s.pwr.mclkFault = false →
       s.bridge.downPower = false → s.bridge.downLogic = false → s.powered = true →
       ∃ t, exec (.bclkCheckWindow count) s = .next t ∧ LogicDieReset 5 s.toChip t.toChip ∧ t.pwr.phase = .held ∧
         t.pwr.bclkHold = true) ∧
     (∀ count, count < 1843 ∨ 2253 < count → s.powered = true → s.pwr.bclkHold = false →
       ∃ t, exec (.bmonCheckWindow count) s = .next t ∧ LogicDieReset 5 s.toChip t.toChip ∧ t.pwr.phase = .held ∧
         t.pwr.bclkHold = true) ∧
     (∃ t, exec .vddCoreBrownout s = .next t ∧ LogicDieReset 6 s.toChip t.toChip) ∧
     (s.logicUp = true → ∃ t, exec .watchdogExpiry s = .next t ∧ LogicDieReset 7 s.toChip t.toChip) ∧
     (s.pwr.hold = false → s.pwr.off = false → s.pwr.resetLow = false →
       ∃ t, exec .resetNRecognised s = .next t ∧ LogicDieReset 2 s.toChip t.toChip ∧ t.pwr.phase = .held ∧
         t.pwr.resetLow = true)) ∧
  (∀ s : State, s.pwr.phase = .held → s.pwr.hold = false → s.pwr.off = false → s.pwr.vpd5 = true →
     (s.pwr.resetLow = false → s.pwr.bclkHold = false → s.pwr.pllLost = true →
       ∃ t, exec .corePllLock s = .next t ∧ Released s.toChip t.toChip ∧ t.pwr.pllLost = false ∧ t.backup = s.backup ∧
         t.store = s.store) ∧
     (∀ svcLow, s.pwr.bclkHold = false → s.pwr.pllLost = false →
       ∃ t, exec (.resetNRelease svcLow) s = .next t ∧ Released s.toChip t.toChip ∧ t.pwr.resetLow = false ∧
         getF Reg.PWR_SVC_HELD 0 t.toChip = svcLow.toNat ∧ t.backup = s.backup ∧ t.store = s.store) ∧
     (∀ count, 1843 ≤ count → count ≤ 2253 → s.pwr.vp12 = true → s.pwr.resetLow = false → s.pwr.pllLost = false →
       s.pwr.bclkHold = true → s.pwr.bmonPass = 15 →
       ∃ t, exec (.bmonCheckWindow count) s = .next t ∧ Released s.toChip t.toChip ∧ t.pwr.bclkHold = false ∧
         t.backup = s.backup ∧ t.store = s.store) ∧
     (s.pwr.vp12 = false → s.pwr.resetLow = false → s.pwr.pllLost = false → s.pwr.bclkHold = false →
       ∃ t, exec .powerDiePowered s = .next t ∧ Released s.toChip t.toChip ∧ t.powered = true ∧
         t.hsl.latch = s.backup.mirror ∧ t.backup = s.backup) ∧
     ∀ u : State, u.pwr.phase = .startWait → Settled u.toChip →
       exec .startWaitEnd u = .next { u with toChip :=
         (setF Reg.PWR_PFW_START_WAIT 0 0 (setF Reg.PWR_PFW_ACTIVE 0 0
           { u.toChip with pwr := { u.pwr with phase := .startDue, pfLow := false } })) })

/-- R58, R59: the windows of the clock checks and the PLLs while the logic die runs: a window that passes, the failure that the
second bad window in a row declares, and what a lost PLL or FCLK stops.
R59, R60, R69: meter time counts one millisecond after 32 or 33 TCLK cycles, at the wrap of the fractional accumulator; it
takes up what MCLK has counted when TCLK stops, goes back to TCLK at a millisecond boundary, and stops with TCLK in HOLD. -/
def Obligations.ClocksAndMeterTime : Prop :=
  (∀ s : State, Settled s.toChip → s.logicUp = true →
     (∀ count, 40919 ≤ count → count ≤ 41001 → s.pwr.mclkFault = false →
       exec (.mclkCheckWindow count) s = .next { s with toChip :=
         { setF Reg.PWR_CLKSTAT_MCLK_OK 0 1 (setF Reg.PWR_CLKCNT_MCLK 0 count s.toChip) with
           pwr := { s.pwr with mclkFail := 0 } } }) ∧
     (∀ count, count < 40919 ∨ 41001 < count → s.pwr.mclkFail = 0 →
       ∃ t, exec (.mclkCheckWindow count) s = .next t ∧ t.pwr.mclkFail = 1 ∧ t.pwr.mclkGood = 0 ∧
         t.pwr.mclkFault = s.pwr.mclkFault ∧ getF Reg.PWR_CLKCNT_MCLK 0 t.toChip = min count 65535 ∧
         (∀ n, n < 96 → streamOn n s.toChip = true → (t.sns.streams[n]?.getD {}).lost = true) ∧ t.hsl = s.hsl) ∧
     (∀ count, count < 40919 ∨ 41001 < count → 1 ≤ s.pwr.mclkFail → s.pwr.mclkFault = false →
       ∃ t, exec (.mclkCheckWindow count) s = .next t ∧ t.pwr.mclkFault = true ∧
         getF Reg.PWR_CLKCNT_MCLK 0 t.toChip = min count 65535 ∧
         getF Reg.PWR_CLKSTAT_MCLK_OK 0 t.toChip = 0 ∧ getF Reg.PWR_CLKSTAT_MCLK_FAULT 0 t.toChip = 1 ∧
         getF Reg.PWR_CLKSTAT_EVT_CNT 0 t.toChip = min (getF Reg.PWR_CLKSTAT_EVT_CNT 0 s.toChip + 1) 255 ∧
         (∀ n, n < 96 → streamOn n s.toChip = true → (t.sns.streams[n]?.getD {}).lost = true) ∧
         ∀ n, n < 16 → (hslBay n t.toChip).gate = false ∧ (hslBay n t.toChip).grant = false) ∧
     (∀ count, 40919 ≤ count → count ≤ 41001 → s.pwr.mclkFault = true →
       exec (.mclkCheckWindow count) s = .next { s with toChip :=
         { setF Reg.PWR_CLKSTAT_MCLK_OK 0 1 (setF Reg.PWR_CLKCNT_MCLK 0 count s.toChip) with
           pwr := { s.pwr with mclkFail := 0, mclkFault := decide (s.pwr.mclkGood < 99)
                               mclkGood := if s.pwr.mclkGood < 99 then s.pwr.mclkGood + 1 else 0 } } }) ∧
     (s.pwr.mclkFault = false →
       ∃ t, exec .metroPllLoss s = .next t ∧ t.pwr.mclkFault = true ∧ getF Reg.PWR_CLKSTAT_MCLK_FAULT 0 t.toChip = 1 ∧
         (∀ n, n < 96 → streamOn n s.toChip = true → (t.sns.streams[n]?.getD {}).lost = true) ∧
         ∀ n, n < 16 → (hslBay n t.toChip).gate = false ∧ (hslBay n t.toChip).grant = false) ∧
     (∀ count, 31040 ≤ count → count ≤ 32960 → s.pwr.mclkFault = false → s.bridge.downPower = false →
       s.bridge.downLogic = false → s.powered = true →
       exec (.bclkCheckWindow count) s = .next { s with toChip :=
         (setF Reg.PWR_CLKSTAT_BCLK_OK 0 1
           { setF Reg.PWR_CLKCNT_BCLK 0 count s.toChip with pwr := { s.pwr with bclkFail := 0 } }) }) ∧
     (∀ count, count < 327647 ∨ 327713 < count →
       (s.pwr.driftFail = 0 →
         exec (.tclkDriftWindow count) s = .next { s with pwr := { s.pwr with driftFail := 1 } }) ∧
       (s.pwr.driftFail ≠ 0 →
         exec (.tclkDriftWindow count) s = .next { s with toChip :=
           (setF Reg.PWR_CLKSTAT_EVT_CNT 0 (min (getF Reg.PWR_CLKSTAT_EVT_CNT 0 s.toChip + 1) 255)
             (setF Reg.PWR_CLKSTAT_TCLK_DRIFT 0 1
               { s.toChip with pwr := { s.pwr with driftFail := s.pwr.driftFail + 1 } })) })) ∧
     (∀ count, 327647 ≤ count → count ≤ 327713 →
       exec (.tclkDriftWindow count) s = .next { s with pwr := { s.pwr with driftFail := 0 } }) ∧
     (s.pwr.linkPll = true →
       ∃ t, exec .linkPllLoss s = .next t ∧ t.pwr = { s.pwr with linkPll := false } ∧
         getF Reg.PWR_CLKSTAT_LINK_PLL 0 t.toChip = 1 ∧
         getF Reg.PWR_CLKSTAT_EVT_CNT 0 t.toChip = min (getF Reg.PWR_CLKSTAT_EVT_CNT 0 s.toChip + 1) 255 ∧
         (∀ (h : Nat) (hh : h < 32), t.dlr.links[h] = {} ∧ getF Reg.DLR_HAND_STATE (64 + h) t.toChip = 0) ∧
         t.lnk = s.lnk ∧ t.hsl = s.hsl ∧ t.bil = s.bil ∧ t.backup = s.backup ∧ t.store = s.store) ∧
     (s.pwr.linkPll = false → ∃ t, exec .linkPllRelock s = .next t ∧ t.pwr.linkPll = true ∧
       (∀ n, n < 16 → hlcLive n s.toChip = true → HlcFailed n t.toChip) ∧ t.backup = s.backup ∧ t.store = s.store) ∧
     (s.pwr.hostPll = true →
       ∃ t, exec .hostPllLoss s = .next t ∧ t.pwr.hostPll = false ∧
         getF Reg.PWR_CLKSTAT_HOST_PLL 0 t.toChip = 1 ∧ (∀ k, k < 4 → (sess k t.toChip).state = 0) ∧
         t.backup = s.backup ∧ t.store = s.store) ∧
     exec .hostPllRelock s = .next { s with pwr := { s.pwr with hostPll := true } } ∧
     (s.pwr.fclk = true →
       exec .fclkLoss s = .next { s with toChip :=
         { setF Reg.PWR_CLKSTAT_EVT_CNT 0 (min (getF Reg.PWR_CLKSTAT_EVT_CNT 0 s.toChip + 1) 255)
             (setF Reg.PWR_CLKSTAT_FCLK_LOSS 0 1 s.toChip) with
           pwr := { s.pwr with fclk := false }, nfc := { s.nfc with seen := [] } } }) ∧
     exec .fclkReturn s = .next { s with pwr := { s.pwr with fclk := true } }) ∧
  ((∀ s : State, Settled s.toChip → s.pwr.off = false → s.backup.tclkStop = false → s.pwr.tclkGone = false →
     s.backup.frac < 1000 → ∃ t n, exec .meterTimeTick s = .next t ∧ t.backup.ms = (s.backup.ms + 1) % 2 ^ 64 ∧ (n = 32 ∨ n = 33) ∧
       s.backup.frac + 1000 * (n - 1) < 32768 ∧ t.backup.frac + 32768 = s.backup.frac + 1000 * n ∧ t.backup.frac < 1000 ∧
       t.backup.wallOff = s.backup.wallOff ∧ t.backup.wallValid = s.backup.wallValid ∧ t.store = s.store ∧ t.bil = s.bil) ∧
   (∀ s : State, Settled s.toChip → s.pwr.off = false → s.backup.tclkStop = false → s.pwr.tclkGone = true →
     s.pwr.tclkBack = true → ∃ t, exec .meterTimeTick s = .next t ∧ t.backup.ms = (s.backup.ms + 1) % 2 ^ 64 ∧ t.backup.frac = 0 ∧
       t.pwr.tclkGone = false ∧ getF Reg.PWR_CLKSTAT_MT_MCLK 0 t.toChip = 0 ∧ getF Reg.PWR_CLKSTAT_TCLK_OK 0 t.toChip = 1 ∧
       t.store = s.store ∧ t.bil = s.bil) ∧
   (∀ (s : State) (cycles : Nat), s.logicUp = true → s.powered = true → s.pwr.tclkGone = false → 1 ≤ s.pwr.tclkFail →
     ∃ t, exec (.tclkPresenceWindow 0 cycles) s = .next t ∧ t.backup.ms = (s.backup.ms + cycles / 40960) % 2 ^ 64 ∧
       t.backup.wallValid = false ∧ (s.backup.wallValid = true → t.backup.wallLostAt = t.backup.ms) ∧
       t.pwr.tclkGone = true ∧ t.pwr.mclkMs = cycles % 40960 ∧ getF Reg.PWR_CLKSTAT_TCLK_STOP 0 t.toChip = 1 ∧
       getF Reg.PWR_CLKSTAT_TCLK_OK 0 t.toChip = 0 ∧ getF Reg.PWR_CLKSTAT_MT_MCLK 0 t.toChip = 1) ∧
   (∀ (s : State) (cycles : Nat), Settled s.toChip → s.logicUp = true → s.powered = true → s.pwr.tclkGone = false →
     s.pwr.tclkFail = 0 → exec (.tclkPresenceWindow 0 cycles) s = .next { s with pwr := { s.pwr with tclkFail := 1 } }) ∧
   (∀ (s : State) (edges cycles : Nat), Settled s.toChip → s.logicUp = true → s.powered = true → s.pwr.tclkGone = false →
     1 ≤ edges → exec (.tclkPresenceWindow edges cycles) s = .next { s with toChip :=
       (setF Reg.PWR_CLKSTAT_TCLK_OK 0 1 { s.toChip with pwr := { s.pwr with tclkFail := 0 } }) }) ∧
   (∀ s : State, Settled s.toChip → s.pwr.tclkGone = true →
     exec .tclkReturn s = .next { s with pwr := { s.pwr with tclkBack := true } }) ∧
   (∀ s : State, Settled s.toChip → s.pwr.hold = true →
     exec .tclkStopInHold s = .next { s with backup := { s.backup with
       tclkStop := true, wallValid := false
       wallLostAt := if s.backup.wallValid = true then s.backup.ms else s.backup.wallLostAt } }))

/-- R62, R67, R346, R365, R368, R405: the supplies: what each brownout switches off and flags, and what its return shows. -/
def Obligations.SuppliesFallAndReturn : Prop :=
  (∀ s : State, s.pwr.vpd5 = true →
    ∃ t, exec .vpd5Brownout s = .next t ∧ t.pwr.hold = true ∧ t.pwr.phase = .held ∧ t.powered = false ∧
      (∀ k, k < 48 → (lsw k t.toChip).out = false) ∧ (∀ n, n < 16 → (hslBay n t.toChip).gate = false) ∧
      t.hsl.latch = Vector.replicate 17 0 ∧ t.backup.mirror = s.backup.mirror ∧ t.backup.ms = s.backup.ms) ∧
  (∀ s : State, s.pwr.vp12 = true →
    ∃ t, exec .vp12Brownout s = .next t ∧ t.powered = false ∧ t.pwr.phase = s.pwr.phase ∧
      (s.logicUp = true → t.bridge.downLogic = true) ∧ t.hsl.trump = none ∧
      (∀ k, k < 48 → (lsw k t.toChip).out = false) ∧ (∀ n, n < 16 → (hslBay n t.toChip).gate = false) ∧
      (∀ g, g < 6 → getF Reg.SNS_GRP_MCK_ON g t.toChip = 0) ∧ t.backup.mirror = s.backup.mirror ∧ t.backup.ms = s.backup.ms) ∧
  (∀ (s : State) (b : Fin 6), s.logicUp = true →
    ∃ t, exec (.vbbBrownout b) s = .next t ∧ t.pwr.vbbOk.getLsbD b.val = false ∧
      (∀ k, k < 48 → k / 8 = b.val → (lsw k t.toChip).out = false) ∧
      (getF Reg.PWR_SUPSTAT_VBB_DROP 0 t.toChip).testBit b.val = true ∧
      getF Reg.PWR_SUPSTAT_EVT_CNT 0 t.toChip = min (getF Reg.PWR_SUPSTAT_EVT_CNT 0 s.toChip + 1) 255 ∧
      getF Reg.PWR_SUPSTAT_VBB_OK 0 t.toChip = t.pwr.vbbOk.toNat ∧ t.backup = s.backup ∧ t.store = s.store) ∧
  (∀ (s : State) (b : Fin 6), s.logicUp = true → s.pwr.vbbOk.getLsbD b.val = false →
    ∃ t, exec (.vbbRestore b) s = .next t ∧ t.pwr.vbbOk = s.pwr.vbbOk ||| BitVec.ofNat 6 (2 ^ b.val) ∧
      getF Reg.PWR_SUPSTAT_VBB_OK 0 t.toChip = t.pwr.vbbOk.toNat ∧ OutputsFollow t.toChip ∧ t.backup = s.backup) ∧
  (∀ s : State, s.logicUp = true →
    (∃ t, exec .vstoBrownout s = .next t ∧ t.pwr.vstoOk = false ∧ t.backup.ms = s.backup.ms) ∧
    (Settled s.toChip → s.saf.on = false → exec .vstoBrownout s = .next { s with toChip :=
      (setF Reg.PWR_SUPSTAT_VSTO_OK 0 0
        (setF Reg.PWR_SUPSTAT_EVT_CNT 0 (min (getF Reg.PWR_SUPSTAT_EVT_CNT 0 s.toChip + 1) 255)
          (setF Reg.PWR_SUPSTAT_VSTO_DROP 0 1 { s.toChip with pwr := { s.pwr with vstoOk := false } }))) }) ∧
    (Settled s.toChip → exec .vstoRestore s = .next { s with toChip :=
      (setF Reg.PWR_SUPSTAT_VSTO_OK 0 1 { s.toChip with pwr := { s.pwr with vstoOk := true } }) }) ∧
    (Settled s.toChip → exec .vcolBrownout s = .next { s with toChip :=
      (setF Reg.DSP_ESTAT_SCAN 0 0 (setF Reg.PWR_SUPSTAT_VCOL_OK 0 0
        (setF Reg.PWR_SUPSTAT_EVT_CNT 0 (min (getF Reg.PWR_SUPSTAT_EVT_CNT 0 s.toChip + 1) 255)
          (setF Reg.PWR_SUPSTAT_VCOL_DROP 0 1 { s.toChip with pwr := { s.pwr with vcolOk := false } })))) }) ∧
    (Settled s.toChip → exec .vcolRestore s = .next { s with toChip :=
      (setF Reg.PWR_SUPSTAT_VCOL_OK 0 1 { s.toChip with pwr := { s.pwr with vcolOk := true } }) })) ∧
  (∀ s : State, Settled s.toChip → s.pwr.hold = true →
    exec .backupPor s = .next { s with pwr := { s.pwr with porFired := true, hold := false, off := true } })

/-- R64-R66, R81, R526: the requests for a power state, entry into STANDBY, the wakes and the idle timer. That RUN or LEAN written
during an entry into STANDBY does not cancel it is the model's choice (log entry 53). -/
def Obligations.PowerStateRequests : Prop :=
  (∀ (s : State) (who : Writer), Settled s.toChip → writerStatus who s.toChip ≠ .ok →
    exec (.pwrReqRun who) s = .next { s with reply := writerStatus who s.toChip } ∧
    exec (.pwrReqLean who) s = .next { s with reply := writerStatus who s.toChip } ∧
    exec (.pwrReqStandby who) s = .next { s with reply := writerStatus who s.toChip }) ∧
  ∀ (s : State) (who : Writer), Settled s.toChip → writerStatus who s.toChip = .ok →
    (getF Reg.PWR_STATE_STATE 0 s.toChip ≠ 2 →
      exec (.pwrReqRun who) s = .next { s with toChip := { setF Reg.PWR_REQ_REQ 0 1 s.toChip with reply := .ok } }) ∧
    (getF Reg.PWR_STATE_STATE 0 s.toChip ≠ 1 →
      exec (.pwrReqLean who) s = .next { s with toChip := { setF Reg.PWR_REQ_REQ 0 2 s.toChip with reply := .ok } }) ∧
    (getF Reg.PWR_STATE_STATE 0 s.toChip = 2 → exec (.pwrReqRun who) s = .next { s with toChip :=
      { setF Reg.PWR_STATE_STATE 0 1 { setF Reg.PWR_REQ_REQ 0 1 s.toChip with
          pwr := { s.pwr with idleMs := 0, timerWake := false } } with reply := .ok } }) ∧
    (getF Reg.PWR_STATE_STATE 0 s.toChip = 1 → exec (.pwrReqLean who) s = .next { s with toChip :=
      { setF Reg.PWR_STATE_STATE 0 2 (setF Reg.PWR_REQ_REQ 0 2 s.toChip) with reply := .ok } }) ∧
    (standbyForbidden s.toChip = false → exec (.pwrReqStandby who) s = .next { s with toChip :=
      { setF Reg.PWR_REQ_REQ 0 3 { s.toChip with pwr := { s.pwr with sbEntry := true } } with reply := .ok } }) ∧
    (cardU8 0x0003 0 0 0 s.toChip ≠ 1 ∨ bayBusy s.toChip = true ∨ getF Reg.UPD_STAT_PENDING 0 s.toChip = 1 →
      exec (.pwrReqStandby who) s = .next { s with reply := .busy }) ∧
    (s.pwr.sbEntry = true → ∃ t, exec .standbyReached s = .next t ∧ getF Reg.PWR_STATE_STATE 0 t.toChip = 3 ∧
      (∀ k, k < 4 → (sess k t.toChip).state = 0) ∧ t.nfc.seen = [] ∧ getF Reg.DSP_ESTAT_SCAN 0 t.toChip = 0 ∧
      t.pwr.sbEntry = false ∧ t.pwr.sbAt = s.backup.ms ∧ t.hsl = s.hsl ∧
      t.backup = s.backup ∧ t.store = s.store ∧ t.bil = s.bil) ∧
    (∀ (sources : BitVec 8) (k : Nat), inStandby s.toChip = true →
      firstBit 8 ((sources &&& BitVec.ofNat 8 (regWord 0x10008 s.toChip)).toNat) = some k → s.dsp.pend = none →
      ∃ t, exec (.standbyWake sources) s = .next t ∧ getF Reg.PWR_STATE_WAKE_SRC 0 t.toChip = k ∧
        getF Reg.PWR_STATE_STATE 0 t.toChip = (if k = 7 then 2 else 1) ∧ t.backup = s.backup ∧ t.store = s.store) ∧
    (s.pwr.phase = .run → getF Reg.PWR_STATE_STATE 0 s.toChip = 1 → 0 < s.idleS → 1000 * s.idleS ≤ s.pwr.idleMs →
      exec .idleTimerExpiry s = .next { s with toChip := (setF Reg.PWR_STATE_STATE 0 2 s.toChip) }) ∧
    (s.pwr.phase = .run → getF Reg.PWR_STATE_STATE 0 s.toChip = 2 →
      exec .loadDemand s = .next { s with toChip :=
        (setF Reg.PWR_STATE_STATE 0 1 { s.toChip with pwr := { s.pwr with idleMs := 0, timerWake := false } }) })

/-- R72, R73: PFWARN_N recognised and recovered; R78: a press of SVCBTN_N begins, ends as an attention or a recovery request, or
is recognised as failed closed, and its bid window ends. -/
def Obligations.PowerFailAndServiceButton : Prop :=
  ∀ s : State, s.logicUp = true →
    (s.pwr.hold = false → s.pwr.off = false → s.pwr.pfLow = false →
      ∃ t, exec .pfwarnRecognised s = .next t ∧ t.pwr.pfLow = true ∧ getF Reg.PWR_PFW_ACTIVE 0 t.toChip = 1 ∧
        getF Reg.PWR_PFW_PF_CNT 0 t.toChip = min (getF Reg.PWR_PFW_PF_CNT 0 s.toChip + 1) 65535 ∧
        (s.pwr.phase = .run → t.bil.save = none ∧ t.dsp.upd = none) ∧
        (s.pwr.phase = .startDue → t.pwr.phase = .startWait ∧ getF Reg.PWR_PFW_START_WAIT 0 t.toChip = 1) ∧
        getF Reg.PWR_STATE_STATE 0 t.toChip = getF Reg.PWR_STATE_STATE 0 s.toChip ∧ t.backup = s.backup) ∧
    (s.pwr.pfLow = true → s.suppliesOk = false → Settled s.toChip → exec .pfwarnRecovered s = .next s) ∧
    (s.pwr.hold = false → s.pwr.off = false → s.pwr.pfLow = true → s.pwr.phase ≠ .startWait → s.suppliesOk = true →
      ∃ t, exec .pfwarnRecovered s = .next t ∧ t.pwr.pfLow = false ∧ getF Reg.PWR_PFW_ACTIVE 0 t.toChip = 0 ∧
        getF Reg.PWR_PFW_DIP 0 t.toChip = 1 ∧ t.backup = s.backup) ∧
    (s.pwr.svcStale = none → s.pwr.svcStart = none → inStandby s.toChip = false → s.dsp.pend = none → Settled s.toChip →
      exec .svcbtnPressStart s = .next { s with toChip := (setF Reg.PWR_SVC_HELD 0 1
        { s.toChip with pwr := { s.pwr with svcStart := some s.backup.ms, svcDone := false } }) }) ∧
    (∀ t0, s.pwr.svcStart = some t0 → s.pwr.svcDone = false → 20 ≤ s.backup.ms - t0 → s.backup.ms - t0 ≤ 9999 →
      ∃ t, exec .svcbtnPressEnd s = .next t ∧ getF Reg.PWR_SVC_ATTENTION 0 t.toChip = 1 ∧
        getF Reg.PWR_SVC_LAST_MS 0 t.toChip = s.backup.ms - t0 ∧ t.pwr.bidOpen = some (s.backup.ms + 60000) ∧
        getF Reg.PWR_SVC_HELD 0 t.toChip = 0 ∧ t.backup = s.backup ∧ t.store = s.store) ∧
    (∀ t0, s.pwr.svcStart = some t0 → s.pwr.svcDone = false → 10000 ≤ s.backup.ms - t0 → s.backup.ms - t0 ≤ 60000 →
      ∃ t, exec .svcbtnPressEnd s = .next t ∧ getF Reg.PWR_SVC_RECOVERY 0 t.toChip = 1 ∧
        (∀ k, k < 6 → (sess k t.toChip).state = 0) ∧ t.hst.decl = none ∧ getF Reg.HST_CTL_NET_OFF 0 t.toChip = 0 ∧
        t.pwr.bidOpen = some (s.backup.ms + 60000) ∧ t.backup = s.backup ∧ t.store = s.store) ∧
    (∀ t0, s.pwr.svcStart = some t0 → s.pwr.svcDone = false → 60000 < s.backup.ms - t0 →
      ∃ t, exec .svcbtnPressEnd s = .next t ∧ getF Reg.PWR_SVC_FAILED 0 t.toChip = 1 ∧
        getF Reg.PWR_SVC_FAIL_CNT 0 t.toChip = min (getF Reg.PWR_SVC_FAIL_CNT 0 s.toChip + 1) 255 ∧
        getF Reg.PWR_SVC_LAST_MS 0 t.toChip = min (s.backup.ms - t0) 65535 ∧ t.pwr.bidOpen = s.pwr.bidOpen ∧
        getF Reg.PWR_SVC_HELD 0 t.toChip = 0 ∧ t.backup = s.backup ∧ t.store = s.store) ∧
    (∀ t0, s.pwr.svcStart = some t0 → s.backup.ms - t0 < 20 →
      ∃ t, exec .svcbtnPressEnd s = .next t ∧ t.pwr = { s.pwr with svcStart := none, svcDone := false } ∧
        getF Reg.PWR_SVC_LAST_MS 0 t.toChip = s.backup.ms - t0 ∧ getF Reg.PWR_SVC_HELD 0 t.toChip = 0 ∧
        getF Reg.PWR_SVC_ATTENTION 0 t.toChip = getF Reg.PWR_SVC_ATTENTION 0 s.toChip ∧ t.backup = s.backup ∧
        t.store = s.store) ∧
    (∀ t0, s.pwr.svcStart = some t0 ∨ s.pwr.svcStart = none ∧ s.pwr.svcStale = some t0 → s.pwr.svcDone = false →
      t0 + 60000 < s.backup.ms →
      ∃ t, exec .svcbtnFailedClosed s = .next t ∧ getF Reg.PWR_SVC_FAILED 0 t.toChip = 1 ∧
        getF Reg.PWR_SVC_FAIL_CNT 0 t.toChip = min (getF Reg.PWR_SVC_FAIL_CNT 0 s.toChip + 1) 255 ∧
        t.pwr.svcDone = true ∧ t.backup = s.backup ∧ t.store = s.store) ∧
    (∀ w, Settled s.toChip → s.pwr.bidOpen = some w → w ≤ s.backup.ms → exec .serviceBidWindowEnd s = .next { s with toChip :=
      (setF Reg.HST_SVC_WINDOW_S 0 0 { s.toChip with pwr := { s.pwr with bidOpen := none } }) })

/-- R90, R105, R107: DECK_LOAD writes the slot, checks it, records the result in UPD_DECK_REJ and the OK bit, and answers it; a
transfer that a supply cut ends leaves what had arrived and no OK bit (R106).
R99, R105, R503: DECK_ACTIVATE makes the other slot PREF and restarts the device; DECK_COMMIT raises the rollback floor to the
running deck's serial and writes BARE_HOST into the newest boot header. -/
def Obligations.DecksLoadActivateAndCommit : Prop :=
  (∀ (s : State) (rq : Request) (slot : Nat) (bytes : List Byte) (sigOk : Bool),
     Owns rq.sess.val s.toChip → slot < 2 → 300 ≤ bytes.length → bytes.length ≤ 4194304 →
     getF Reg.UPD_DECK_STAT_RUN 0 s.toChip ≠ slot →
     let c := deckWritten slot (Byte.nats bytes) (frameTake rq.sess.val s.toChip)
     (∀ d, deckCheck slot sigOk c = .ok d →
       ∃ t, exec (.deckLoad rq slot bytes sigOk none) s = .next t ∧ Answered 0x42 rq .ok [] t.toChip ∧
         getF (deckOkReg slot) 0 t.toChip = 1 ∧ getF Reg.UPD_DECK_REJ_REASON slot t.toChip = 0 ∧
         t.deck.flash[slot]?.getD [] = Byte.nats bytes ∧ t.deck.loaded = some slot ∧ t.deck.cards = s.deck.cards ∧
         t.deck.flash[1 - slot]?.getD [] = s.deck.flash[1 - slot]?.getD [] ∧ t.store = s.store) ∧
     (∀ r, deckCheck slot sigOk c = .error r →
       ∃ t, exec (.deckLoad rq slot bytes sigOk none) s = .next t ∧ Answered 0x42 rq (rejectStatus r.reason) [] t.toChip ∧
         getF (deckOkReg slot) 0 t.toChip = 0 ∧ getF Reg.UPD_DECK_REJ_REASON slot t.toChip = r.reason % 2 ^ 8 ∧
         getF Reg.UPD_DECK_REJ_CARD slot t.toChip = r.idx % 2 ^ 16 ∧
         getF Reg.UPD_DECK_REJOFF_OFFSET slot t.toChip = r.off % 2 ^ 22 ∧
         t.deck.flash[slot]?.getD [] = Byte.nats bytes ∧ t.deck.cards = s.deck.cards ∧ t.store = s.store) ∧
     (∀ cut, ∃ t, exec (.deckLoad rq slot bytes sigOk (some cut)) s = .next t ∧
       t.deck.flash[slot]?.getD [] = (Byte.nats bytes).take cut ∧ getF (deckOkReg slot) 0 t.toChip = 0 ∧
       t.deck.cards = s.deck.cards ∧ t.store = s.store)) ∧
  (∀ (s : State) (rq : Request), Owns rq.sess.val s.toChip →
     (∀ slot, activateSlot (frameTake rq.sess.val s.toChip) = some slot →
       activateRefused (frameTake rq.sess.val s.toChip) = .ok →
       ∃ t, exec (.deckActivate rq) s = .next t ∧ Answered 0x20 rq .ok [] t.toChip ∧ Restarted 10 s.toChip t.toChip ∧
         getF Reg.UPD_DECK_STAT_PREF 0 t.toChip = slot % 2 ∧ t.deck.flash = s.deck.flash ∧ t.fregs = s.fregs) ∧
     (activateRefused (frameTake rq.sess.val s.toChip) = .busy → Settled s.toChip →
       exec (.deckActivate rq) s =
         .next { s with toChip := (respond 0x20 rq .busy [] (frameTake rq.sess.val s.toChip)) }) ∧
     (∃ t h, exec (.deckCommit rq) s = .next t ∧ Answered 0x20 rq .ok [] t.toChip ∧
       t.store = { s.store with floor := max s.store.floor (getF Reg.UPD_DECK_SERIAL_SERIAL 0 s.toChip) } ∧
       getF Reg.UPD_DECK_FLOOR_FLOOR 0 t.toChip = t.store.floor % 2 ^ 32 ∧
       newestHdr t.toChip = some h ∧ h.seq = (bootHdr s.toChip).seq + 1 ∧ h.pref = (bootHdr s.toChip).pref ∧
       h.bare = (match cardPayload 0x00A0 0 s.toChip with
         | some p => p.take 36
         | none => hostDefaults) ∧ t.deck = s.deck ∧ t.backup = s.backup))

/-- R93, R96, R100: the start sequence of a released logic die on a powered device walks the decks first, and a trump card of an
accepted deck is held; it ends in the accepted deck, or in bare mode where the DRAM fails, no firmware is valid, or neither slot is
accepted. R75: with PFWARN_N low it waits. -/
def Obligations.StartSequenceChooses : Prop :=
  ∀ (s : State) (env : StartEnv), s.pwr.phase = .startDue → s.powered = true →
    (s.pwr.pfLow = true → ∃ t, exec (.startSequence env) s = .next t ∧ t.pwr.phase = .startWait ∧
      getF Reg.PWR_PFW_START_WAIT 0 t.toChip = 1) ∧
    (s.pwr.pfLow = false →
      let r := deckChoose env (startPrep env s.toChip)
      ∃ t, exec (.startSequence env) s = .next t ∧ t.pwr.firstCause = none ∧ t.pwr.holdPassed = false ∧
        t.pwr.porFired = false ∧ t.hsl.trump = r.1.hsl.trump ∧
        (r.2 = true → r.1.hsl.trump.isSome = true) ∧ (r.2 = false → r.1.hsl.trump = s.hsl.trump) ∧
        (env.dramOk = false ∨ loaderRuns r.1 = true ∨ r.2 = false → t.pwr.phase = .bare ∧
          getF Reg.UPD_DECK_STAT_BARE 0 t.toChip = 1 ∧ t.deck.cards = []) ∧
        (env.dramOk = true → loaderRuns r.1 = false → r.2 = true →
          t.pwr.phase = .run ∧ getF Reg.PWR_STATE_STATE 0 t.toChip = 1 ∧ t.deck.cards = r.1.deck.cards))

/-- R111-R113: at an LE trick edge the work that is done leaves its hand, the events of the trick arrive, and nothing else is lost; of
the hands that wait for an engine the one of the lowest class, then of the oldest event, then of the lowest number gets LE0, no
engine serves two hands, and at most one chain-link hand is served. A decoded vehicle-link frame goes to firmware. -/
def Obligations.LinkTrickDealsByClassAndAge : Prop :=
  ∀ (s : State) (finished : BitVec 32) (events : List LinkEvent), s.pwr.phase = .run → s.pwr.linkPll = true →
    s.upd.pause = false → getF Reg.PWR_STATE_STATE 0 s.toChip ≠ 3 → Settled s.toChip →
    let key := fun (w : LinkWork) => (w.cls, w.event, w.payload)
    ∃ t, exec (.leTrickEdge ⟨finished, events⟩) s = .next t ∧ t.dlr.edges = s.dlr.edges + 1 ∧
      (∀ (h : Nat) (hh : h < 32), ((t.dlr.links[h]).all.map key).Perm
        ((if finished.getLsbD h = true then (s.dlr.links[h]).work else (s.dlr.links[h]).all).map key ++
          (events.filter fun e => e.hand.val == h).map fun e =>
            (if e.estim = true then 3 else 2, 6400 * s.dlr.edges + e.lclk.val, []))) ∧
      (∀ (h k : Nat) (hh : h < 32) (hk : k < 32), h ≠ k → (t.dlr.links[h]).engine.isSome = true →
        (t.dlr.links[h]).engine ≠ (t.dlr.links[k]).engine ∧
          (16 ≤ h → 16 ≤ k → (t.dlr.links[k]).engine = none)) ∧
      ((∀ (h : Nat) (hh : h < 32), (s.dlr.links[h]).serving = none) → events = [] →
        ∀ (h : Nat) (hh : h < 32), (s.dlr.links[h]).work ≠ [] →
          (∀ (k : Nat) (hk : k < 32), k ≠ h → (s.dlr.links[k]).work ≠ [] →
            (s.dlr.links[h]).cls < (s.dlr.links[k]).cls ∨ ((s.dlr.links[h]).cls = (s.dlr.links[k]).cls ∧
              ((s.dlr.links[h]).oldest.getD 0 < (s.dlr.links[k]).oldest.getD 0 ∨
                ((s.dlr.links[h]).oldest.getD 0 = (s.dlr.links[k]).oldest.getD 0 ∧ h < k)))) →
          (t.dlr.links[h]).engine = some 0 ∧ getF Reg.DLR_HAND_STATE (64 + h) t.toChip = 2 ∧
            getF Reg.DLR_HAND_ENGINE (64 + h) t.toChip = 2) ∧
      (∀ (h : Nat) (hh : h < 16) (w : LinkWork), (s.dlr.links[h]).serving = some w → w.cls = 1 →
        finished.getLsbD h = true →
        (vlink h t.toChip).rxq = (vlink h s.toChip).rxq ++ [w.payload] ∧
          (76800 < 6400 * (s.dlr.edges + 1) - w.event → getF Reg.DLR_STAT_LE_LATE 0 t.toChip = 1)) ∧
      t.backup = s.backup ∧ t.store = s.store ∧ t.bil = s.bil ∧ t.bay = s.bay ∧ t.dlr.reqs = s.dlr.reqs

/-- R114-R118: crypto requests take their hands, wait or are refused; a trick serves class 1 first while its ante is owed; a window's
end renews the antes; an operation that completes frees its hand for the oldest request that waits; a session-start set that has
used 640 tricks goes on in class 4, on a crypto hand where one is free. That it keeps its session hand while none is free is the
model's choice (log entry 58). -/
def Obligations.CryptoRequestsAndTricks : Prop :=
  (∀ s : State, s.pwr.phase = .run →
    (∀ (bay : Fin 16) (slot : Fin 3), (∀ r ∈ s.dlr.reqs, r.hand ≠ 96 + 3 * bay.val + slot.val) →
      ∃ t, exec (.ceRequest (.signing bay slot)) s = .next t ∧ t.reply = .ok ∧ t.dlr.queue = s.dlr.queue ∧
        t.dlr.reqs = s.dlr.reqs ++ [{ hand := 96 + 3 * bay.val + slot.val, cls := 1, no := s.dlr.issued }] ∧
        t.dlr.issued = s.dlr.issued + 1 ∧
        getF Reg.DLR_HAND_STATE (96 + 3 * bay.val + slot.val) t.toChip = 1 ∧ t.backup = s.backup ∧ t.store = s.store) ∧
    (∀ bay : Fin 16, s.dlr.budget[bay] < 640 → (∀ r ∈ s.dlr.reqs, r.hand ≠ 96 + 3 * bay.val) →
      ∃ t, exec (.ceRequest (.vehicle bay)) s = .next t ∧ t.reply = .ok ∧ t.dlr.queue = s.dlr.queue ∧
        t.dlr.reqs = s.dlr.reqs ++ [{ hand := 96 + 3 * bay.val, cls := 3, no := s.dlr.issued }] ∧ t.store = s.store) ∧
    (∀ (bay : Fin 16) (h : Nat), 640 ≤ s.dlr.budget[bay] → freeCryptoHand s.toChip = some h →
      ∃ t, exec (.ceRequest (.vehicle bay)) s = .next t ∧ t.reply = .ok ∧ t.dlr.above[bay] = true ∧
        t.dlr.reqs = s.dlr.reqs ++ [{ hand := h, cls := 4, no := s.dlr.issued }] ∧ t.store = s.store) ∧
    (∀ bay : Fin 16, s.dlr.budget[bay] < 640 → (∃ r ∈ s.dlr.reqs, r.hand = 96 + 3 * bay.val) → Settled s.toChip →
      exec (.ceRequest (.vehicle bay)) s = .next { s with reply := .busy }) ∧
    (∀ h, freeCryptoHand s.toChip = some h →
      ∃ t, exec (.ceRequest .host) s = .next t ∧ t.reply = .ok ∧ t.dlr.queue = s.dlr.queue ∧
        t.dlr.reqs = s.dlr.reqs ++ [{ hand := h, cls := 2, no := s.dlr.issued }] ∧ t.backup = s.backup ∧
        t.store = s.store) ∧
    (freeCryptoHand s.toChip = none → s.dlr.queue.length < 64 → Settled s.toChip →
      exec (.ceRequest .other) s = .next { s with
        reply := .ok
        dlr := { s.dlr with queue := s.dlr.queue ++ [(4, s.dlr.issued)], issued := s.dlr.issued + 1 } }) ∧
    (freeCryptoHand s.toChip = none → 64 ≤ s.dlr.queue.length →
      ∃ t, exec (.ceRequest .host) s = .next t ∧ t.reply = .busy ∧ getF Reg.DLR_STAT_CE_QFULL 0 t.toChip = 1 ∧
        t.dlr = s.dlr ∧ t.backup = s.backup) ∧
    (∀ r ∈ s.dlr.reqs, r.cls = 1 → getF Reg.PWR_STATE_STATE 0 s.toChip ≠ 3 →
      (∀ q ∈ s.dlr.reqs, q.cls = 1 → q ≠ r → r.no < q.no) → (∀ b : Fin 16, s.dlr.budget[b] < 640) →
      ((s.dlr.windows[0]).current).given[0] < 4 →
      ∃ t, exec .ceTrickEdge s = .next t ∧ { r with engine := some 0, served := true } ∈ t.dlr.reqs ∧
        (t.dlr.windows[0]).tricks = ((s.dlr.windows[0]).current).tricks + 1 ∧
        (t.dlr.windows[0]).given[0] = ((s.dlr.windows[0]).current).given[0] + 1 ∧
        t.dlr.reqs.map (·.hand) = s.dlr.reqs.map (·.hand) ∧ t.backup = s.backup ∧ t.store = s.store)) ∧
  (∀ s : State, Settled s.toChip →
    exec .ceWindowEnd s = .next { s with dlr := { s.dlr with
      windows := s.dlr.windows.map fun w => if 16 ≤ w.tricks then {} else w } }) ∧
  (∀ (s : State) (hand : Nat), (∃ r ∈ s.dlr.reqs, r.hand = hand) → (∀ k ∈ s.bil.ksr, k.hand ≠ hand) →
    (hand < 144 → ∃ t, exec (.ceRequestDone hand) s = .next t ∧
      t.dlr.reqs = s.dlr.reqs.filter (fun r => r.hand != hand) ∧ t.dlr.queue = s.dlr.queue ∧ t.store = s.store) ∧
    (∀ k ks, 144 ≤ hand → s.dlr.queue = k :: ks → ∃ t, exec (.ceRequestDone hand) s = .next t ∧
      t.dlr.reqs = s.dlr.reqs.filter (fun r => r.hand != hand) ++ [{ hand := hand, cls := k.1, no := k.2 }] ∧
      t.dlr.queue = ks ∧ t.store = s.store)) ∧
  (∀ (s : State) (bay : Fin 16) (r : CeReq), 640 ≤ s.dlr.budget[bay] → s.dlr.above[bay] = false →
    ceSetWork bay.val s.toChip = some r →
    ∃ t, exec (.ceBudgetExceeded bay) s = .next t ∧ t.dlr.above[bay] = true ∧
      getF Reg.DLR_STAT_CE_BUDGET 0 t.toChip = 1 ∧ t.dlr.reqs = s.dlr.reqs.map (fun q =>
        if q = r then { q with hand := (freeCryptoHand s.toChip).getD r.hand, cls := 4 } else q) ∧
      t.backup = s.backup ∧ t.store = s.store)

/-- R110, R121-R124, R127, R129: an overrun of an ME slot, the requests that become saturated, the limit of four outstanding RT
requests, and commits: a commit stages the group's shadow content,
the boundary makes it take effect as a whole, and one group at a time is pending. -/
def Obligations.CommitsTakeEffectWhole : Prop :=
  (∀ s : State, Settled s.toChip → s.logicUp = true →
    let ripe := fun (r : ArbReq) => r.saturated = false ∧
      getF Reg.DLR_ARB_SAT 0 s.toChip ≤ (s.dlr.arb.now / 4 + 65536 - r.ticket % 65536) % 65536
    (∃ t, exec (.arbSaturate [(1, [])]) s = .next t ∧ t.dlr.arb.now = s.dlr.arb.now + 1 ∧
      ((∃ r ∈ s.dlr.arb.waiting ++ s.dlr.arb.forwarded, ripe r) → getF Reg.DLR_STAT_ARB_SAT 0 t.toChip = 1) ∧
      ((∀ r ∈ s.dlr.arb.waiting ++ s.dlr.arb.forwarded, ¬ ripe r) → t.regs = s.regs) ∧
      (∀ r ∈ t.dlr.arb.waiting ++ t.dlr.arb.forwarded, ¬ ripe r) ∧ t.backup = s.backup ∧ t.bil = s.bil ∧ t.store = s.store) ∧
    (∀ i : ArbIssue, masterClass i.master.val = 0 →
      4 ≤ ((s.dlr.arb.waiting ++ s.dlr.arb.forwarded).filter fun r => r.master == i.master.val).length →
      exec (.arbSaturate [(1, [i])]) s = exec (.arbSaturate [(1, [])]) s)) ∧
  (∀ (s : State) (e : Fin 64), ∃ t, exec (.meSlotOverrun e) s = .next t ∧ getF Reg.DLR_STAT_ME_OVR 0 t.toChip = 1 ∧
    getF Reg.DLR_ME_OVR_COUNT 0 t.toChip = min (getF Reg.DLR_ME_OVR_COUNT 0 s.toChip + 1) 0xFFFFFFFF ∧
    t.mtr[e] = { (s.mtr[e]) with overrun := (s.mtr[e]).overrun || (s.mtr[e]).pending.isSome } ∧ t.store = s.store ∧ t.backup = s.backup) ∧
  (∀ (s : State) (who : Writer) (g : Nat), writerStatus who s.toChip = .ok →
    (g < 112 → groupConfigured g s.toChip = true → pendingGroup g s.toChip = false →
      ∃ t, exec (.dlrCommit who g true) s = .next t ∧ t.reply = .ok ∧ pendingGroup g t.toChip = true ∧
        t.dlr.staged = (g, (s.dlr.shadow.filter fun e => e.1 == g).map fun e => (e.2.1, e.2.2)) ::
          s.dlr.staged.filter (fun e => e.1 != g) ∧ t.dlr.shadow = s.dlr.shadow ∧ t.backup = s.backup) ∧
    (Settled s.toChip → g < 112 → groupConfigured g s.toChip = true → pendingGroup g s.toChip = true →
      exec (.dlrCommit who g true) s = .next { s with reply := .busy }) ∧
    (Settled s.toChip → 112 ≤ g ∨ groupConfigured g s.toChip = false →
      exec (.dlrCommit who g true) s = .next { s with reply := .range })) ∧
  (∀ (s : State) (g n : Nat), g < 64 → pendingGroup g s.toChip = true →
    s.dlr.staged.find? (fun e => e.1 == g) = some (g, [(fkey Reg.MTR_CPT_CFG_N g, n)]) → n < 4096 →
    ∃ t, exec (.commitApplied g) s = .next t ∧ getF Reg.MTR_CPT_CFG_N g t.toChip = n ∧
      (n ≠ getF Reg.MTR_CPT_CFG_N g s.toChip → (elemGet g t.toChip).cptCount = 0) ∧
      (n = getF Reg.MTR_CPT_CFG_N g s.toChip → (elemGet g t.toChip).cptCount = (elemGet g s.toChip).cptCount) ∧ pendingGroup g t.toChip = false ∧
      t.dlr.staged = s.dlr.staged.filter (fun e => e.1 != g) ∧ getF Reg.DLR_CMT_LAST_GROUP 0 t.toChip = g ∧
      getF Reg.DLR_CMT_LAST_APPLIED_CNT 0 t.toChip = (getF Reg.DLR_CMT_LAST_APPLIED_CNT 0 s.toChip + 1) % 65536 ∧
      t.backup = s.backup ∧ t.store = s.store)

/-- R141, R147-R150: every protection output takes 64 bits of each configured stream into its loss window; a good window of a stream
that is not lost clears its count of bad ones, the second bad window in a row declares it lost, an MCK fault declares every
configured stream of its group lost, and 512 good windows recover it at a metrology output's boundary. -/
def Obligations.StreamsAreLostAndRecover : Prop :=
  (∀ (s : State) (bits : Vector (BitVec 64) 96), Settled s.toChip → s.pwr.phase = .run → s.pwr.mclkFault = false →
    ∃ t, exec (.protectionOutput bits) s = .next t ∧ t.sns.prtN = s.sns.prtN + 1 ∧ t.sns.metN = s.sns.metN ∧
      (∀ k : Fin 96, streamOn k.val s.toChip = false → t.sns.streams[k] = s.sns.streams[k]) ∧
      (∀ k : Fin 96, streamOn k.val s.toChip = true →
        t.sns.streams[k] = protectionStream (s.sns.prtN + 1) bits[k] k.val s.toChip s.sns.streams[k] ∧
          (t.sns.streams[k]).winBits = min ((s.sns.streams[k]).winBits + 64) 256) ∧
      t.bil = s.bil ∧ t.mtr = s.mtr) ∧
  (∀ (s : State) (k : Fin 96), streamOn k.val s.toChip = true → Settled s.toChip → 256 ≤ (s.sns.streams[k]).winBits →
    (8 ≤ (s.sns.streams[k]).winOnes → (s.sns.streams[k]).winOnes + 8 ≤ (s.sns.streams[k]).winBits →
      (s.sns.streams[k]).lost = false →
      exec (.lossWindowEnd k) s = .next { s with sns := { s.sns with streams :=
        (s.sns.streams.set k.val { (s.sns.streams[k]) with bad := 0, winOnes := 0, winBits := 0 }) } }) ∧
    ((s.sns.streams[k]).winOnes < 8 ∨ (s.sns.streams[k]).winBits < (s.sns.streams[k]).winOnes + 8 →
      (s.sns.streams[k]).lost = false → (s.sns.streams[k]).recovery = false → (s.sns.streams[k]).bad = 0 →
      exec (.lossWindowEnd k) s = .next { s with sns := { s.sns with streams :=
        (s.sns.streams.set k.val { (s.sns.streams[k]) with bad := 1, winOnes := 0, winBits := 0 }) } }) ∧
    ((s.sns.streams[k]).winOnes < 8 ∨ (s.sns.streams[k]).winBits < (s.sns.streams[k]).winOnes + 8 →
      (s.sns.streams[k]).lost = false → (s.sns.streams[k]).recovery = false → 1 ≤ (s.sns.streams[k]).bad →
      ∃ t, exec (.lossWindowEnd k) s = .next t ∧ (t.sns.streams[k]).lost = true ∧
        getF Reg.SNS_SSTAT_LOST k.val t.toChip = 1 ∧ getF Reg.SNS_SSTAT_CAUSE k.val t.toChip = 1 ∧
        (getF Reg.SNS_LOSS_LOSS (k.val / 32) t.toChip).testBit (k.val % 32) = true ∧
        getF Reg.SNS_LOSSCNT_LOSS k.val t.toChip = min (getF Reg.SNS_LOSSCNT_LOSS k.val s.toChip + 1) 65535 ∧
        (∀ j : Fin 96, j ≠ k → t.sns.streams[j] = s.sns.streams[j]) ∧ t.bil = s.bil)) ∧
  (∀ (s : State) (k : Fin 96), Settled s.toChip →
    ((s.sns.streams[k]).lost = true → 512 ≤ (s.sns.streams[k]).good → s.sns.prtN = 40 * s.sns.metN →
      ∃ t, exec (.streamRecovery k) s = .next t ∧ (t.sns.streams[k]).lost = false ∧
        (t.sns.streams[k]).recovery = true ∧ (t.sns.streams[k]).met.settle = true ∧
        (t.sns.streams[k]).prt.settle = true ∧ (t.sns.streams[k]).met.left = setlMet k.val s.toChip ∧
        (t.sns.streams[k]).prt.left = setlPrt k.val s.toChip ∧ getF Reg.SNS_SSTAT_LOST k.val t.toChip = 0 ∧
        getF Reg.SNS_SSTAT_SETTLE k.val t.toChip = 1 ∧ (∀ j : Fin 96, j ≠ k → t.sns.streams[j] = s.sns.streams[j]) ∧
        t.backup = s.backup ∧ t.store = s.store ∧ t.bil = s.bil)) ∧
  (∀ (s : State) (g : Fin 6), Settled s.toChip → getF Reg.SNS_GRP_MCK_ON g.val s.toChip ≠ 0 →
    ∃ t, exec (.mckFault g) s = .next t ∧ (getF Reg.SNS_STAT_MCK_FAULT 0 t.toChip).testBit g.val = true ∧
      (∀ k : Fin 96, k.val / 16 = g.val → streamOn k.val s.toChip = true → (t.sns.streams[k]).lost = true) ∧
      (∀ k : Fin 96, k.val / 16 ≠ g.val → t.sns.streams[k] = s.sns.streams[k]) ∧ t.bil = s.bil)

/-- R153-R158: settling ends path by path, the pre-roll ends with the mean of what it summed, and a write of a stream's delay goes
to the shadow within the deck's trim, is refused while its group is pending, and with a tamper record while the seal holds. -/
def Obligations.SettlingAndDelayWrites : Prop :=
  (∀ (s : State) (k : Fin 96), (s.sns.streams[k]).met.left = 0 →
    ∃ t, exec (.settleEnd k .metrology) s = .next t ∧ (t.sns.streams[k]).met = { (s.sns.streams[k]).met with settle := false } ∧
      (t.sns.streams[k]).prt = (s.sns.streams[k]).prt ∧
      ((s.sns.streams[k]).prt.settle = false → (t.sns.streams[k]).recovery = false ∧
        getF Reg.SNS_SSTAT_SETTLE k.val t.toChip = 0) ∧
      (∀ j : Fin 96, j ≠ k → t.sns.streams[j] = s.sns.streams[j]) ∧ t.backup = s.backup ∧ t.store = s.store) ∧
  (∀ (s : State) (k : Fin 96), (s.sns.streams[k]).prt.left = 0 →
    ∃ t, exec (.settleEnd k .protection) s = .next t ∧ (t.sns.streams[k]).prt = { (s.sns.streams[k]).prt with settle := false } ∧
      (t.sns.streams[k]).met = (s.sns.streams[k]).met ∧
      (∀ j : Fin 96, j ≠ k → t.sns.streams[j] = s.sns.streams[j]) ∧ t.backup = s.backup ∧ t.store = s.store) ∧
  (∀ (s : State) (k : Fin 96) (n m : Nat) (sum sum' : Int), (s.sns.streams[k]).met.integ.pre = some (n, sum) →
    (s.sns.streams[k]).prt.integ.pre = some (m, sum') →
    ∃ t, exec (.integPrerollEnd k) s = .next t ∧
      (t.sns.streams[k]).met.integ = (if n < 1024 then (s.sns.streams[k]).met.integ else
        { x := divNear (sum * 2 ^ Config.integGuard) 1024, b := 0, y := 0, pre := none }) ∧
      (t.sns.streams[k]).prt.integ = (if m < 40960 then (s.sns.streams[k]).prt.integ else
        { x := divNear (sum' * 2 ^ Config.integGuard) 40960, b := 0, y := 0, pre := none }) ∧
      (t.sns.streams[k]).lost = (s.sns.streams[k]).lost ∧ t.backup = s.backup ∧ t.store = s.store) ∧
  (∀ (s : State) (who : Writer) (k v : Nat), writerStatus who s.toChip = .ok → k < 96 →
    (sealed s.toChip = false ∨ streamBilled k s.toChip = false →
      pendingGroup (getF Reg.SNS_CFG_HOME_GROUP k s.toChip) s.toChip = false →
      cardU16 0x0010 k 0x10 0 s.toChip - cardU16 0x0010 k 0x12 0 s.toChip ≤ v →
      v ≤ cardU16 0x0010 k 0x10 0 s.toChip + cardU16 0x0010 k 0x12 0 s.toChip → v ≤ 16383 →
      ∃ t, exec (.snsDlyWrite who k v) s = .next t ∧ t.reply = .ok ∧
        shadowOf (fkey Reg.SNS_DLY_DLY k) t.toChip = some v ∧
        getF Reg.SNS_DLY_DLY k t.toChip = getF Reg.SNS_DLY_DLY k s.toChip ∧ t.backup = s.backup ∧ t.store = s.store) ∧
    (sealed s.toChip = true → streamBilled k s.toChip = true → s.bil.due = [] →
      ∃ t, exec (.snsDlyWrite who k v) s = .next t ∧ t.reply = .sealed ∧ getF Reg.SNS_STAT_SEAL_REF 0 t.toChip = 1 ∧
        (t.store.tamper[9]).count = (if (s.store.tamper[9]).count = 0 then 1 else min ((s.store.tamper[9]).count + 1) 0xFFFFFFFF) ∧ t.dlr = s.dlr ∧ t.backup = s.backup))

/-- R109, R187: an ME trick edge delivers a metrology sample of every stream and publishes the oldest completed cycle of each element
that has one: its SEQ rises and its snapshot group shows that cycle.
R171, R185: where a forced boundary falls due in the interval of the sample that waits in an element's slot, the timeout, or, in
free-run, the free-run boundary places it: the cycle in progress ends there and waits to be published, and the next one free-runs.
R186, R189, R190: a complete check window is compared, unless an invalid sample or too little energy spoils it; the counters of
the KL-0410 are latched in units of UNIT; a write of N goes to the element's shadow, in its range and while nothing is pending. -/
def Obligations.CyclesPublishAndAreChecked : Prop :=
  (∀ (s : State) (frac : BitVec 16), s.pwr.phase = .run → s.pwr.mclkFault = false →
     s.sns.prtN = 40 * (s.sns.metN + 1) →
     ∃ t, exec (.meTrickEdge frac) s = .next t ∧ t.sns.metN = s.sns.metN + 1 ∧ t.sns.prtN = s.sns.prtN ∧
       (∀ (e : Fin 64) (x : CycleSnap) (rest : List CycleSnap), (s.mtr[e]).pub = x :: rest →
         getF Reg.MTR_SEQ_SEQ e.val t.toChip = (getF Reg.MTR_SEQ_SEQ e.val s.toChip + 1) % 2 ^ 32 ∧
         getF Reg.MTR_VRMS_VRMS e.val t.toChip = x.vrms % 2 ^ 32 ∧
         getF Reg.MTR_FREQ_FREQ e.val t.toChip = x.freq % 2 ^ 17 ∧
         getF Reg.MTR_EA_IMP_LO_TOTAL e.val t.toChip = x.totals[0] % 2 ^ 32) ∧
       (∀ e : Fin 64, maxOrder s.toChip ≤ s.sns.metN + 1 → elemConfigured e.val s.toChip = true →
         (t.mtr[e]).pending.isSome = true) ∧
       (∀ e : Fin 64, (s.mtr[e]).pub = [] → (∀ k : Fin 64, (s.mtr[k]).pending = none) →
         getF Reg.MTR_SEQ_SEQ e.val t.toChip = getF Reg.MTR_SEQ_SEQ e.val s.toChip) ∧
       t.backup.ms = s.backup.ms ∧ t.hsl.latch = s.hsl.latch ∧ t.store.period = s.store.period) ∧
  (∀ (s : State) (e : Fin 64) (off : Nat), elemKind e.val s.toChip = 1 → (s.mtr[e]).pending.isSome = true →
     boundaryOf e.val (slotSample e.val s.toChip) s.toChip = .forced off → checkersOf e.val s.toChip = [] →
     Settled s.toChip →
     ((s.mtr[e]).freerun = false → ∃ t, exec (.cycleTimeout e) s = .next t ∧ (t.mtr[e]).freerun = true ∧
       (t.mtr[e]).held = none ∧ (t.mtr[e]).pending = none ∧ (t.mtr[e]).cycles = (s.mtr[e]).cycles + 1 ∧
       (t.mtr[e]).pub.length = (s.mtr[e]).pub.length + 1 ∧ (t.mtr[e]).age = perT - off ∧
       (∀ k : Fin 64, k ≠ e → t.mtr[k] = s.mtr[k]) ∧ t.backup.ms = s.backup.ms ∧ t.bil = s.bil) ∧
     ((s.mtr[e]).freerun = true → ∃ t, exec (.freerunBoundary e) s = .next t ∧ (t.mtr[e]).freerun = true ∧
       (t.mtr[e]).held = none ∧ (t.mtr[e]).pending = none ∧ (t.mtr[e]).cycles = (s.mtr[e]).cycles + 1 ∧
       (t.mtr[e]).pub.length = (s.mtr[e]).pub.length + 1 ∧ (t.mtr[e]).age = perT - off ∧
       (∀ k : Fin 64, k ≠ e → t.mtr[k] = s.mtr[k]) ∧ t.backup.ms = s.backup.ms ∧ t.bil = s.bil)) ∧
  ((∀ (s : State) (e : Fin 64) (w : CheckWin), (s.mtr[e]).winDone = some w →
     (w.inv = true ∨ w.eb = 0 → Settled s.toChip → exec (.checkWindowEnd e) s = .next { s with mtr :=
       (s.mtr.set e.val { (s.mtr[e]) with winDone := none }) }) ∧
     (w.inv = false → w.eb ≠ 0 → 125 * 10 * getF Reg.MTR_LIM_CREEP e.val s.toChip * w.wb * powerDen ≤ w.eb.natAbs →
       ∃ t, exec (.checkWindowEnd e) s = .next t ∧ (t.mtr[e]).winDone = none ∧
         (t.mtr[e]).chkWin = ((s.mtr[e]).chkWin + 1) % 65536 ∧
         (t.mtr[e]).chkDev = max (-32767) (min 32767 (divNear (10000 * (w.ec - w.eb)) w.eb.natAbs)) ∧
         (getF Reg.MTR_CHKCFG_CHK_TOL e.val s.toChip * w.eb.natAbs < 10000 * (w.ec - w.eb).natAbs →
           getF Reg.MTR_STAT_CHK_DEV e.val t.toChip = 1 ∧
           getF Reg.HST_EVTSEQ_SEQ 0 t.toChip = (getF Reg.HST_EVTSEQ_SEQ 0 s.toChip + 1) % 2 ^ 32) ∧
         (∀ k : Fin 64, k ≠ e → t.mtr[k] = s.mtr[k]) ∧ t.backup = s.backup ∧ t.store = s.store)) ∧
   (∀ (s : State) (e : Fin 64) (totals : Vector Nat 8), (s.mtr[e]).cptDue = some totals → Settled s.toChip →
     exec (.cptLatch e) s = .next { s with mtr := (s.mtr.set e.val { (s.mtr[e]) with
       cptDue := none, cptSeq := ((s.mtr[e]).cptSeq + 1) % 2 ^ 32
       cpt := #v[
         totals[0] / max 1 (getF Reg.MTR_CPT_CFG_UNIT e.val s.toChip) % 2 ^ 32,
         totals[1] / max 1 (getF Reg.MTR_CPT_CFG_UNIT e.val s.toChip) % 2 ^ 32,
         (totals[2] + totals[4]) / max 1 (getF Reg.MTR_CPT_CFG_UNIT e.val s.toChip) % 2 ^ 32,
         (totals[3] + totals[5]) / max 1 (getF Reg.MTR_CPT_CFG_UNIT e.val s.toChip) % 2 ^ 32,
         (totals[6] + totals[7]) / max 1 (getF Reg.MTR_CPT_CFG_UNIT e.val s.toChip) % 2 ^ 32] }) }) ∧
   (∀ (s : State) (who : Writer) (e n : Nat), writerStatus who s.toChip = .ok → e < 64 →
     (pendingGroup e s.toChip = false → 1 ≤ n → n ≤ 4000 → cardU16 0x0011 e 0x16 0 s.toChip ≠ 0 →
       ∃ t, exec (.cptCfgWrite who e n) s = .next t ∧ t.reply = .ok ∧
         shadowOf (fkey Reg.MTR_CPT_CFG_N e) t.toChip = some n ∧ t.mtr = s.mtr ∧
         getF Reg.MTR_CPT_CFG_N e t.toChip = getF Reg.MTR_CPT_CFG_N e s.toChip ∧ t.backup = s.backup ∧ t.store = s.store) ∧
     (elemKind e s.toChip ≠ 0 → pendingGroup e s.toChip = true → Settled s.toChip →
       exec (.cptCfgWrite who e n) s = .next { s with reply := .busy }) ∧
     (pendingGroup e s.toChip = false → n = 0 ∨ 4000 < n → Settled s.toChip →
       exec (.cptCfgWrite who e n) s = .next { s with reply := .range })))

/-- R199, R204, R208, R216: at a boundary instant the ledger unit switches attribution and marks what is due, as long as cycles that
end before it are outstanding: the same for a tariff switch, a change of summer time, the end of an interval and of a period.
R209, R210, R216: the due actions run: the demand interval ends and its energies start from zero, the periods that end close
with their record on the ring; they wait while a save is in progress or cycles that end by the instant are outstanding. -/
def Obligations.BoundariesMarkAndRunWhatIsDue : Prop :=
  (∀ s : State, s.pwr.phase = .run → s.bil.due = [] → intervalIdx s.toChip ≠ s.bil.ivlIdx →
     (∃ e, e < 64 ∧ elemBilling e s.toChip = true ∧ elemPast (nowFine s.toChip) s.toChip e = false) →
     (∃ t, exec .tariffSwitch s = .next t ∧ BoundaryMarked s.toChip t.toChip) ∧
     (∃ t, exec .dstChange s = .next t ∧ BoundaryMarked s.toChip t.toChip) ∧
     (∃ t, exec .demandIntervalEnd s = .next t ∧ BoundaryMarked s.toChip t.toChip) ∧
     (∃ t, exec .periodEnd s = .next t ∧ BoundaryMarked s.toChip t.toChip)) ∧
  (∀ (s : State) (d : Due) (rest : List Due), s.pwr.phase = .run → s.bil.due = d :: rest → dueReady s.toChip = true →
     d.demand = true → s.bil.deferred = [] →
     ∃ t, exec .boundaryActions s = .next t ∧ t.bil.due = rest ∧ t.bil.ivl = Vector.replicate 17 (0, 0) ∧
       t.bil.unsaved = s.bil.unsaved ++ [{ d with done := true }] ∧
       (d.periods = 0 → t.store.period = s.store.period ∧ t.store.ring = s.store.ring) ∧
       (d.periods = 1 → getF Reg.BIL_STAT_PERIOD 0 t.toChip = 1 ∧ t.store.perStart = d.wall ∧
         (s.store.period < 0xFFFFFFFF → 1 ≤ s.store.period → t.store.period = s.store.period + 1) ∧
         ∃ r, t.store.ring.head? = some r ∧ r.number = s.store.period ∧ r.startWall = s.store.perStart ∧
           r.endWall = d.wall ∧ r.endMt = d.mt ∧ (∀ k : Fin 17, (r.sets[k]).reg = (s.bil.sets[k]).reg)) ∧
       (∀ k : Fin 17, (t.bil.sets[k]).reg = (s.bil.sets[k]).reg) ∧ t.bil.tariff = s.bil.tariff ∧
       t.backup.ms = s.backup.ms ∧ t.mtr = s.mtr) ∧
  (∀ s : State, Settled s.toChip → s.pwr.phase = .run → dueReady s.toChip = false → s.pwr.timerWake = false →
     exec .boundaryActions s = .next s)

/-- R204, R205, R213: an override whose START has come decides the tariff, one that reaches END leaves it to the schedule, and
TIME_BEHIND clears once wall time is in the current period again.
R205, R206, R211, R212: the signed commands: one that passes its checks raises the command counter and sets wall time or the
override; one that fails a check changes nothing but its answer. BILL_SNAP answers the record of a closed period. -/
def Obligations.OverridesAndSignedCommands : Prop :=
  (∀ s : State, s.backup.wallValid = true →
     (∀ o, s.pwr.phase = .run → s.store.pending = some o → (o.start : Int) ≤ s.wall →
       ∃ t, exec .overrideStart s = .next t ∧ t.store.override = some o ∧ t.store.pending = none ∧
         t.bil.tariff = o.tariff ∧ t.backup.ms = s.backup.ms ∧ t.store.cmdCtr = s.store.cmdCtr) ∧
     (∀ o, s.pwr.phase = .run → s.store.override = some o → o.stop ≠ 0 → (o.stop : Int) ≤ s.wall →
       ∃ t, exec .overrideEnd s = .next t ∧ t.store.override = none ∧ t.store.pending = s.store.pending ∧
         t.bil.tariff = (match tariffCard s.toChip with
           | some p => scheduled p s.wall s.toChip
           | none => 1) ∧ t.backup.ms = s.backup.ms ∧ t.store.cmdCtr = s.store.cmdCtr) ∧
     (Settled s.toChip → s.bil.behind = true → beforePeriod s.toChip = false →
       exec .timeBehindClear s = .next { s with bil := { s.bil with behind := false } })) ∧
  (∀ (s : State) (rq : Request) (body : List Byte) (sigOk : Bool), Owns rq.sess.val s.toChip →
     (signedCheck rq.sess.val 1 (Byte.nats body) sigOk
         ((List.range 16).all fun k => Byte.u8 (Byte.nats body) (0x18 + k) == 0) (frameTake rq.sess.val s.toChip) = .ok →
       ∃ t, exec (.wallSet rq body sigOk) s = .next t ∧ Answered 0x20 rq .ok [] t.toChip ∧
         t.backup.wallValid = true ∧ t.wall = (Byte.u64 (Byte.nats body) 0x10 : Int) ∧ t.backup.ms = s.backup.ms ∧
         t.store.cmdCtr = Byte.u32 (Byte.nats body) 4 ∧ getF Reg.PWR_BKSTAT_RTC_VALID 0 t.toChip = 1 ∧
         getF Reg.BIL_STAT_STEP 0 t.toChip = 1) ∧
     (∀ e, signedCheck rq.sess.val 1 (Byte.nats body) sigOk
         ((List.range 16).all fun k => Byte.u8 (Byte.nats body) (0x18 + k) == 0) (frameTake rq.sess.val s.toChip) = e →
       e ≠ .ok → Settled s.toChip → exec (.wallSet rq body sigOk) s =
         .next { s with toChip := (respond 0x20 rq e [] (frameTake rq.sess.val s.toChip)) }) ∧
     (signedCheck rq.sess.val 2 (Byte.nats body) sigOk
         (tariffArgs (Byte.nats body) (frameTake rq.sess.val s.toChip)) (frameTake rq.sess.val s.toChip) = .ok →
       ∃ t, exec (.tariffSet rq body sigOk) s = .next t ∧ Answered 0x20 rq .ok [] t.toChip ∧
         t.store.cmdCtr = Byte.u32 (Byte.nats body) 4 ∧ t.backup.ms = s.backup.ms ∧ t.backup.wallOff = s.backup.wallOff ∧
         (Byte.u8 (Byte.nats body) 0x10 = 0xFF → t.store.override = none ∧ t.store.pending = none) ∧
         (Byte.u8 (Byte.nats body) 0x10 ≠ 0xFF → Byte.u64 (Byte.nats body) 0x18 = 0 →
           t.store.override = some { tariff := Byte.u8 (Byte.nats body) 0x10, start := 0
                                     stop := Byte.u64 (Byte.nats body) 0x20 } ∧
           (s.backup.wallValid = true → t.bil.tariff = Byte.u8 (Byte.nats body) 0x10)) ∧
         (Byte.u8 (Byte.nats body) 0x10 ≠ 0xFF → Byte.u64 (Byte.nats body) 0x18 ≠ 0 →
           t.store.override = s.store.override ∧ t.store.pending = some {
             tariff := Byte.u8 (Byte.nats body) 0x10, start := Byte.u64 (Byte.nats body) 0x18
             stop := Byte.u64 (Byte.nats body) 0x20 })) ∧
     (∀ (k : Nat) (r : PeriodRec), Settled s.toChip → k < 24 → s.store.ring[k]? = some r →
       ∃ t, exec (.billSnap rq k) s = .next t ∧ Answered 0x20 rq .ok (periodBytes r) t.toChip ∧
         t.store = s.store ∧ t.bil = s.bil ∧ t.backup = s.backup))

/-- R219, R220: a save takes the registers into the older working copy, its readback ends it or counts a failure that is repeated,
and during a power-fail warning a final record takes the residual banks.
R230-R232, R235: a start reading enters the legal store and the signing queue, a stop reading leaves it and starts the bay's
legal run, and the end of a DWELL shows the other half of an identity or the next item. -/
def Obligations.SavesRecordsAndReadings : Prop :=
  ((∀ s : State, s.pwr.phase = .run → s.powered = true → s.bil.ready = true → s.bil.save = none → s.bil.due = [] →
     getF Reg.PWR_PFW_ACTIVE 0 s.toChip ≠ 1 →
     (s.bil.perSaveAt + 60000 ≤ s.backup.ms → ∃ t r, exec .periodicSave s = .next t ∧ t.bil.save = some r ∧ r.copy.sets = s.bil.sets ∧ r.copy.mt = s.backup.ms ∧
       r.slot < 2 ∧ (∀ w, s.store.copies[r.slot]?.getD none = some w → w.seq < r.copy.seq) ∧
       (∀ w, s.store.copies[1 - r.slot]?.getD none = some w → w.seq < r.copy.seq) ∧ t.bil.perSaveAt = s.backup.ms ∧
       t.store = { s.store with copies := s.store.copies.setIfInBounds r.slot none } ∧
       t.backup = s.backup ∧ t.bil.sets = s.bil.sets) ∧
     (Settled s.toChip → s.backup.ms < s.bil.perSaveAt + 60000 → exec .periodicSave s = .next s) ∧
     (s.bil.saveRetry = true → ∃ t r, exec .saveRetry s = .next t ∧ t.bil.save = some r ∧ r.copy.sets = s.bil.sets ∧
       t.bil.saveRetry = false ∧ t.store = { s.store with copies := s.store.copies.setIfInBounds r.slot none } ∧
       t.backup = s.backup)) ∧
   (∀ (s : State) (r : SaveRun), s.bil.save = some r → r.slot < 2 →
     (∃ t, exec (.saveComplete true) s = .next t ∧ t.bil.save = none ∧ t.store.copies[r.slot]?.getD none = some r.copy ∧
       t.store.copies[1 - r.slot]?.getD none = s.store.copies[1 - r.slot]?.getD none ∧ t.store.lastMt = s.backup.ms ∧
       t.bil.failCnt = 0 ∧ t.bil.saveAt = s.backup.ms ∧ t.bil.saveSlot = r.slot ∧ t.bil.unsaved = [] ∧
       t.bil.lsFail = false ∧
       t.bil.sets = s.bil.sets) ∧
     (∃ t, exec (.saveComplete false) s = .next t ∧ t.bil.save = none ∧ t.store = s.store ∧ t.bil.saveRetry = true ∧
       t.bil.failCnt = s.bil.failCnt + 1 ∧ getF Reg.BIL_STAT_SAVE_FAIL 0 t.toChip = 1 ∧
       t.bil.lsFail = (s.bil.lsFail || decide (3 ≤ s.bil.failCnt + 1)) ∧ t.backup = s.backup)) ∧
   (∀ (s : State) (t10 : Nat), getF Reg.PWR_PFW_ACTIVE 0 s.toChip ≠ 0 → s.pwr.phase = .run → Settled s.toChip →
     let u : State := { s with toChip := (setF Reg.PWR_PFW_SAVE_T 0 (min t10 255)
       { s.toChip with store := { s.store with
           finals := s.store.finals.setIfInBounds (if s.store.finalB = true then 0 else 1)
             (some { banks := s.backup.banks, bankOn := s.backup.bankOn, due := s.bil.unsaved ++ s.bil.due
                     mt := s.backup.ms, seq := max (copySeq 0 s.toChip) (copySeq 1 s.toChip) })
           finalB := !s.store.finalB, lastMt := s.backup.ms } }) }
     exec (.finalRecordWritten t10) s = .next u ∧ exec (.finalRecordRefresh t10) s = .next u)) ∧
  (∀ (s : State) (bay : Fin 16),
     (∀ at_, (s.bil.read[bay]).startAt = some at_ → bayPast bay.val at_ s.toChip = true →
       ∃ t, exec (.startReading bay) s = .next t ∧ (t.bil.read[bay]).startAt = none ∧
         t.store.sessions[bay] = some ((s.bil.read[bay]).number,
           totLess 0 (s.bil.read[bay]).lateStart (setOf bay.val s.toChip)) ∧
         t.store.ksrSeq = (s.store.ksrSeq + 1) % 2 ^ 32 ∧ t.bil.ksr.length = s.bil.ksr.length + 1 ∧
         t.bil.sets = s.bil.sets ∧ t.backup = s.backup) ∧
     (∀ r rest, s.bil.done[bay] = r :: rest → stopReady bay.val s.toChip = true →
       ∃ t, exec (.stopReading bay) s = .next t ∧ t.bil.done[bay] = rest ∧ t.store.sessions[bay] = none ∧
         t.bil.lastStop[bay] =
           (totLess 0 r.lateStop (setOf bay.val s.toChip) + 2 ^ 48 - r.startImp) % 2 ^ 48 ∧
         t.store.ksrSeq = (s.store.ksrSeq + 1) % 2 ^ 32 ∧ t.bil.ksr.length = s.bil.ksr.length + 1 ∧
         (s.legal.running = true → s.legal.queue.length < 16 → bay.val ∈ t.legal.queue) ∧
         t.bil.sets = s.bil.sets ∧ t.backup = s.backup) ∧
     (dwelling s.toChip = true → cardU8 0x0023 0 (8 + 4 * s.legal.item) 0 s.toChip = 9 → s.legal.half = false →
       s.legal.shownAt + 1000 * itemDwell s.toChip ≤ s.backup.ms → Settled s.toChip →
       ∃ t, exec .legalDwellEnd s = .next t ∧ t.legal.half = true ∧ t.legal.item = s.legal.item ∧
         t.legal.running = true ∧ t.bil = s.bil ∧ t.store = s.store) ∧
     (dwelling s.toChip = true → cardU8 0x0023 0 (8 + 4 * s.legal.item) 0 s.toChip ≠ 9 →
       s.legal.item + 1 < legalCount s.toChip → itemSkipped (s.legal.item + 1) s.toChip = false →
       s.legal.shownAt + 1000 * itemDwell s.toChip ≤ s.backup.ms → Settled s.toChip →
       ∃ t, exec .legalDwellEnd s = .next t ∧ t.legal.item = s.legal.item + 1 ∧ t.legal.running = true ∧
         t.legal.half = false ∧ t.legal.bay = s.legal.bay ∧ t.bil = s.bil ∧ t.store = s.store))

/-- R240-R250: a pilot period classifies the period that ends and applies the committed mode and duty, the duty rising by at most
SLEW_MAX, or F without a trump card; a proximity result is recognised on the third window that agrees. -/
def Obligations.PilotAndProximity : Prop :=
  ∀ (s : State) (n : Fin 16), s.powered = true →
    (∀ (samples : List Int) (contact : Bool), held s.toChip = true → bayEnabled n.val s.toChip = true →
      s.upd.pause = false → (hslBay n.val s.toChip).cmdMode ≠ 0 → s.dlr.staged.find? (fun e => e.1 == 96 + n.val) = none →
      ∃ t, exec (.pilotPeriodStart n samples contact) s = .next t ∧
        (hslBay n.val t.toChip).mode = (hslBay n.val s.toChip).cmdMode ∧
        (hslBay n.val t.toChip).raw =
          rawClass (hslBay n.val s.toChip).mode (hslBay n.val s.toChip).duty (hslBay n.val s.toChip).raw samples ∧
        ((hslBay n.val t.toChip).raw = (hslBay n.val s.toChip).raw → 2 ≤ (hslBay n.val s.toChip).rawN →
          (hslBay n.val t.toChip).rec_ = (hslBay n.val t.toChip).raw) ∧
        ((hslBay n.val t.toChip).raw ≠ (hslBay n.val s.toChip).raw → (hslBay n.val t.toChip).raw ≠ 0 →
          (hslBay n.val t.toChip).rec_ = (hslBay n.val s.toChip).rec_) ∧
        ((hslBay n.val s.toChip).cmdMode = 2 → (hslBay n.val s.toChip).mode = 2 → (hslBay n.val s.toChip).duty ≠ 100 →
          (hslBay n.val t.toChip).duty = min (hslBay n.val s.toChip).cmdDuty
            ((hslBay n.val s.toChip).duty + trumpU16 (0x20 + 2 * n.val) s.toChip)) ∧
        (s.pwr.phase = .run → s.bridgeUp = true → getF Reg.BAY_SEQ_SEQ n.val t.toChip =
          (getF Reg.BAY_SEQ_SEQ n.val s.toChip + 1) % 2 ^ 32) ∧
        t.store = s.store ∧ t.hsl.latch = s.hsl.latch ∧ t.backup = s.backup) ∧
    (∀ (samples : List Int) (contact : Bool), held s.toChip = false →
      ∃ t, exec (.pilotPeriodStart n samples contact) s = .next t ∧ (hslBay n.val t.toChip).mode = 0 ∧
        (hslBay n.val t.toChip).rec_ = 0 ∧ (hslBay n.val t.toChip).gate = false) ∧
    (∀ samples : List Nat, baySocket n.val s.toChip = true → proxClass samples = (hslBay n.val s.toChip).proxRaw →
      2 ≤ (hslBay n.val s.toChip).proxN →
      ∃ t, exec (.proxWindowEnd n samples) s = .next t ∧ (hslBay n.val t.toChip).prox = proxClass samples ∧
        (∀ m, m ≠ n.val → (hslBay m t.toChip).prox = (hslBay m s.toChip).prox) ∧ t.bay = s.bay ∧ t.store = s.store ∧
        t.backup = s.backup)

/-- R251-R254: the HSL puts a gate on only where every closing condition holds with the grant; a grant it cannot take is a trump
event, as is one for a channel without gate permission, and a TRIP flit that waits goes first; a contact still closed T_OPEN after the gate went off is a weld fault. -/
def Obligations.GrantsCloseTheGate : Prop :=
  ∀ (s : State) (n : Fin 16), s.powered = true →
    ((bayGet n.val s.toChip).grantReq = true → s.bridgeUp = true → s.upd.pause = false →
      (∀ kinds, s.bridge.trips = [.latch n.val kinds] → kinds ≠ 0 → ∃ t, exec (.contactorGrant n) s = .next t ∧
        (hslBay n.val t.toChip).gate = false ∧ (bayGet n.val t.toChip).grantReq = false ∧ t.bridge.trips = []) ∧
      (s.bridge.trips = [] → gatePermit (getF Reg.BAY_CFG_COIL_CH n.val s.toChip) s.toChip = false →
        ∃ t, exec (.contactorGrant n) s = .next t ∧ (bayGet n.val t.toChip).grantReq = false ∧
          ((hslBay n.val s.toChip).gate = false → (hslBay n.val t.toChip).gate = false) ∧
          (getF Reg.DEV_TRUMP_FLAG_CLAMP 0 t.toChip).testBit 3 = true ∧
          getF Reg.DEV_TRUMP_CNT_COUNT 3 t.toChip = min (getF Reg.DEV_TRUMP_CNT_COUNT 3 s.toChip + 1) 0xFFFFFFFF ∧
          t.store = s.store)) ∧
    ((bayGet n.val s.toChip).grantReq = true → s.bridgeUp = true → s.upd.pause = false → s.bridge.trips = [] →
      gatePermit (getF Reg.BAY_CFG_COIL_CH n.val s.toChip) s.toChip = true →
      (closingOk n.val s.toChip = true → ∃ t, exec (.contactorGrant n) s = .next t ∧
        (hslBay n.val t.toChip).gate = true ∧ (hslBay n.val t.toChip).grant = true ∧
        (bayGet n.val t.toChip).grantReq = false ∧ (bayGet n.val t.toChip).granted = true ∧
        t.store.sessionNo = (if (bayGet n.val s.toChip).granted = true then s.store.sessionNo else s.store.sessionNo + 1) ∧
        t.hsl.latch = s.hsl.latch ∧ t.backup = s.backup) ∧
      (closingOk n.val s.toChip = false → ∃ t, exec (.contactorGrant n) s = .next t ∧
        (hslBay n.val t.toChip).gate = false ∧ (bayGet n.val t.toChip).grantReq = false ∧
        getF Reg.BAY_EVT_GRANT_REF n.val t.toChip = 1 ∧ (getF Reg.DEV_TRUMP_FLAG_CLAMP 0 t.toChip).testBit 2 = true ∧
        getF Reg.DEV_TRUMP_CNT_COUNT 2 t.toChip = min (getF Reg.DEV_TRUMP_CNT_COUNT 2 s.toChip + 1) 0xFFFFFFFF ∧
        t.store = s.store)) ∧
    (∀ t0, (hslBay n.val s.toChip).offAt = some t0 → (hslBay n.val s.toChip).gate = false →
      (hslBay n.val s.toChip).wsen = some true → (hslBay n.val s.toChip).weldDecl = false →
      t0 + (hslBay n.val s.toChip).tOpen ≤ s.backup.ms →
      ∃ t, exec (.weldFault n) s = .next t ∧ (hslBay n.val t.toChip).weldOk = false ∧
        (hslBay n.val t.toChip).weldDecl = true ∧ getF Reg.BAY_EVT_WELD n.val t.toChip = 1 ∧
        getF Reg.BAY_LIFE_WELD n.val t.toChip = min (getF Reg.BAY_LIFE_WELD n.val s.toChip + 1) 255 ∧
        t.store = s.store ∧ t.backup = s.backup ∧ t.bay = s.bay)

/-- R257-R261: a publish of a bay's snapshot drives its session machine: a fault reason leads to FAULT, state F is left once R101
holds, a vehicle begins a session with the active hand, and a session's move between its hands takes place. -/
def Obligations.SessionMachineMoves : Prop :=
  ∀ (s : State) (n : Fin 16),
    (bayRuns n.val s.toChip = true → (bayGet n.val s.toChip).cmd = none → (bayGet n.val s.toChip).cardCmd = none →
      (∀ r, bayState n.val (bayInputs n.val s.toChip) ≠ 0 → bayState n.val (bayInputs n.val s.toChip) ≠ 9 →
        bayState n.val (bayInputs n.val s.toChip) ≠ 10 → faultReason n.val (bayInputs n.val s.toChip) = some r →
        ∃ t, exec (.sessionMachineStep n) s = .next t ∧ BayFaulted n.val r t.toChip) ∧
      (bayState n.val s.toChip = 0 → mayLeaveF n.val s.toChip = true →
        ∃ t, exec (.sessionMachineStep n) s = .next t ∧ bayState n.val t.toChip = 1 ∧
          (bayGet n.val t.toChip).entered = s.backup.ms ∧ t.hsl.latch = s.hsl.latch ∧ t.store = s.store) ∧
      (bayState n.val s.toChip = 1 → faultReason n.val (bayInputs n.val s.toChip) = none →
        2 ≤ recClass n.val s.toChip → recClass n.val s.toChip ≤ 4 → plugOk n.val s.toChip = true →
        s.bil.lsFail = false → actPending s.toChip = false → (bayGet n.val s.toChip).hand = none → (bayGet n.val s.toChip).move = none →
        ∃ t, exec (.sessionMachineStep n) s = .next t ∧ bayState n.val t.toChip = 2 ∧
          (bayGet n.val t.toChip).hand = some 0 ∧ getF Reg.BAY_STATE_ACTIVE_H n.val t.toChip = 1 ∧
          getF Reg.BAY_STATE_REASON n.val t.toChip = 0 ∧ t.hsl.latch = s.hsl.latch ∧ t.store = s.store)) ∧
    ((bayGet n.val s.toChip).move = some 1 →
      ∃ t, exec (.sessionHandMove n) s = .next t ∧ (bayGet n.val t.toChip).hand = some 1 ∧
        (bayGet n.val t.toChip).move = none ∧ getF Reg.BAY_STATE_PAUSED_H n.val t.toChip = 1 ∧
        getF Reg.BAY_STATE_ACTIVE_H n.val t.toChip = 0 ∧ bayState n.val t.toChip = bayState n.val s.toChip ∧
        t.backup = s.backup ∧ t.store = s.store) ∧
    ((bayGet n.val s.toChip).move = some 2 → (bayGet n.val s.toChip).closing = false → mayMoveOut n.val s.toChip = true →
      ∃ t, exec (.sessionHandMove n) s = .next t ∧ (bayGet n.val t.toChip).hand = none ∧
        (bayGet n.val t.toChip).closing = true ∧ getF Reg.BAY_STATE_CLOSING_H n.val t.toChip = 1 ∧
        t.backup = s.backup ∧ t.store = s.store)

/-- R255, R257, R260: the timers of a bay's states, each with the state it leads to and its reason. -/
def Obligations.BayTimersExpire : Prop :=
  ∀ (s : State) (n : Fin 16),
    (timeUp n.val 2 (getF Reg.BAY_TIM0_T_LOCK n.val s.toChip) s.toChip = true → (bayGet n.val s.toChip).locked = false →
      getF Reg.BAY_CFG_LOCK_FB n.val s.toChip ≠ 15 →
      ∃ t, exec (.tLockExpiry n) s = .next t ∧ BayFaulted n.val 8 t.toChip ∧ getF Reg.BAY_EVT_LOCK_FAIL n.val t.toChip = 1) ∧
    (getF Reg.BAY_TIM1_T_AUTH n.val s.toChip ≠ 0 →
      timeUp n.val 2 (1000 * getF Reg.BAY_TIM1_T_AUTH n.val s.toChip) s.toChip = true →
      ∃ t, exec (.tAuthExpiry n) s = .next t ∧ bayState n.val t.toChip = 7 ∧ getF Reg.BAY_STATE_REASON n.val t.toChip =
        (if getF Reg.BAY_STATE_REASON n.val s.toChip = 0 then 15 else getF Reg.BAY_STATE_REASON n.val s.toChip) ∧
        (bayGet n.val t.toChip).entered = s.backup.ms ∧ t.store = s.store) ∧
    (timeUp n.val 4 (getF Reg.BAY_TIM0_T_CLOSE n.val s.toChip) s.toChip = true →
      ∃ t, exec (.tCloseExpiry n) s = .next t ∧ BayFaulted n.val 4 t.toChip ∧
        getF Reg.BAY_EVT_CLOSE_FAIL n.val t.toChip = 1) ∧
    (timeUp n.val 7 (getF Reg.BAY_TIM1_T_STOP n.val s.toChip) s.toChip = true →
      recClass n.val s.toChip = 3 ∨ recClass n.val s.toChip = 4 →
      ∃ t, exec (.tStopExpiry n) s = .next t ∧ bayState n.val t.toChip = 8 ∧ (hslBay n.val t.toChip).gate = false ∧
        getF Reg.BAY_EVT_UNDER_LOAD n.val t.toChip = 1 ∧
        getF Reg.BAY_LIFE_LOADBRK n.val t.toChip = min (getF Reg.BAY_LIFE_LOADBRK n.val s.toChip + 1) 65535 ∧
        t.store = s.store) ∧
    (getF Reg.BAY_TIM2_PAUSE_MAX n.val s.toChip ≠ 0 →
      timeUp n.val 6 (60000 * getF Reg.BAY_TIM2_PAUSE_MAX n.val s.toChip) s.toChip = true →
      ∃ t, exec (.pauseMaxExpiry n) s = .next t ∧ bayState n.val t.toChip = 7 ∧ getF Reg.BAY_STATE_REASON n.val t.toChip =
        (if getF Reg.BAY_STATE_REASON n.val s.toChip = 0 then 14 else getF Reg.BAY_STATE_REASON n.val s.toChip) ∧
        (bayGet n.val t.toChip).entered = s.backup.ms ∧ t.store = s.store) ∧
    (bayRuns n.val s.toChip = true → bayState n.val s.toChip = 9 → mayLeaveFault n.val s.toChip = true →
      ∃ t, exec (.faultHoldExpiry n) s = .next t ∧ bayState n.val t.toChip = 1 ∧
        (bayGet n.val t.toChip).entered = s.backup.ms ∧ t.store = s.store) ∧
    (∀ t0, bayRuns n.val s.toChip = true → (bayGet n.val s.toChip).undefSince = some t0 → t0 + 100 ≤ s.backup.ms →
      recClass n.val s.toChip = 7 → bayState n.val s.toChip ≠ 0 → bayState n.val s.toChip ≠ 9 →
      bayState n.val s.toChip ≠ 10 →
      ∃ t, exec (.undefPilotTimeout n) s = .next t ∧ BayFaulted n.val 6 t.toChip ∧
        getF Reg.BAY_EVT_PILOT_FAULT n.val t.toChip = 1)

/-- R262, R271: a command code is taken in its states and waits for the session machine, one at a time; writes of the offer and of
the pilot's commit. -/
def Obligations.BayCommandsAndWrites : Prop :=
  ∀ (s : State) (who : Writer) (n : Fin 16), writerStatus who s.toChip = .ok → Settled s.toChip →
    ((bayGet n.val s.toChip).cmd = none →
      (cmdAccepted n.val 1 s.toChip = true → exec (.auth who n) s = .next (commanded n 1 s)) ∧
      (cmdAccepted n.val 2 s.toChip = true → exec (.stop who n) s = .next (commanded n 2 s)) ∧
      (cmdAccepted n.val 3 s.toChip = true → exec (.pause who n) s = .next (commanded n 3 s)) ∧
      (cmdAccepted n.val 4 s.toChip = true → exec (.resume who n) s = .next (commanded n 4 s)) ∧
      (cmdAccepted n.val 5 s.toChip = true → exec (.faultClr who n) s = .next (commanded n 5 s)) ∧
      (cmdAccepted n.val 6 s.toChip = true → exec (.weldClr who n) s = .next (commanded n 6 s)) ∧
      (cmdAccepted n.val 7 s.toChip = true → exec (.testEnter who n) s = .next (commanded n 7 s)) ∧
      (cmdAccepted n.val 8 s.toChip = true → exec (.testExit who n) s = .next (commanded n 8 s))) ∧
    (∀ i code, BayCommand who n i code →
      (cmdAccepted n.val code s.toChip = false → exec i s = .next { s with reply := .state }) ∧
      (cmdAccepted n.val code s.toChip = true → (bayGet n.val s.toChip).cmd.isSome = true →
        exec i s = .next { s with reply := .busy })) ∧
    (∀ v, v < 65536 →
      (v = 0 ∨ ((if isDcBay n.val s.toChip = true then 10 else 60) ≤ v ∧ v ≤ getF Reg.BAY_LIM_IMAX n.val s.toChip) →
        ∃ t, exec (.bayOfferWrite who n v) s = .next t ∧ t.reply = .ok ∧ getF Reg.BAY_OFFER_OFFER n.val t.toChip = v ∧
          getF Reg.BAY_OFFER_EFF n.val t.toChip ≤ v ∧ t.hsl = s.hsl ∧ t.backup = s.backup ∧ t.store = s.store) ∧
      (v ≠ 0 → v < (if isDcBay n.val s.toChip = true then 10 else 60) ∨ getF Reg.BAY_LIM_IMAX n.val s.toChip < v →
        exec (.bayOfferWrite who n v) s = .next { s with reply := .range })) ∧
    (mayPilot who n.val s.toChip = true → bayConfigured n.val s.toChip = true → pendingGroup (96 + n.val) s.toChip = false →
      ∃ t, exec (.bayPwmCommit who n true) s = .next t ∧ t.reply = .ok ∧ pendingGroup (96 + n.val) t.toChip = true ∧
        t.hsl = s.hsl ∧ t.backup = s.backup ∧ t.store = s.store) ∧
    (mayPilot who n.val s.toChip = false → exec (.bayPwmCommit who n true) s = .next { s with reply := .state })

/-- R264-R268, R286: messages of a DC stack, the CMD sent to it, its loss, a precharge that does not come, a stop whose current does
not fall, and a port's bus-off. -/
def Obligations.DcStacksOnCan : Prop :=
  (∀ (s : State) (n : Fin 16), canUp n.val s.toChip = true →
    (∀ (msg : List Byte) (cnt lost : Nat),
      canCheck (0x180 + stackNode n.val s.toChip) (bayGet n.val s.toChip).dc.statCnt (Byte.nats msg) = .accepted cnt lost →
      2 ≤ (bayGet n.val s.toChip).dc.okRun → Byte.u8 (Byte.nats msg) 0 ≠ 5 →
      ∃ t, exec (.stackStatus n msg) s = .next t ∧ getF Reg.BAY_DC_STAT_ONLINE n.val t.toChip = 1 ∧
        getF Reg.BAY_DC_MEAS_V_OUT n.val t.toChip = Byte.u16 (Byte.nats msg) 2 % 65536 ∧
        getF Reg.BAY_DC_MEAS_I_OUT n.val t.toChip = Byte.u16 (Byte.nats msg) 4 % 65536 ∧
        (bayGet n.val t.toChip).dc.statAt = s.backup.ms ∧ (bayGet n.val t.toChip).dc.statCnt = some cnt ∧
        t.hsl.latch = s.hsl.latch ∧ t.store = s.store ∧ t.backup = s.backup) ∧
    (∀ (msg : List Byte) (cnt lost : Nat),
      canCheck (0x80 + stackNode n.val s.toChip) (bayGet n.val s.toChip).dc.faultCnt (Byte.nats msg) = .accepted cnt lost →
      ∃ t, exec (.stackFault n msg) s = .next t ∧ (bayGet n.val t.toChip).dc.fault = true ∧
        getF Reg.BAY_DC_STAT_CODE n.val t.toChip = Byte.u8 (Byte.nats msg) 0 % 256 ∧ (hslBay n.val t.toChip).gate = false ∧
        (hslBay n.val t.toChip).grant = false ∧ t.store = s.store ∧ t.backup = s.backup) ∧
    (s.upd.pause = false →
      ∃ t, exec (.stackCmdSend n) s = .next t ∧ (bayGet n.val t.toChip).dc.cmdCnt =
          ((bayGet n.val s.toChip).dc.cmdCnt + 1) % 256 ∧
        (bayGet n.val t.toChip).dc.lastCmd = cmdBytes (stackNode n.val s.toChip)
          (((bayGet n.val s.toChip).dc.cmdCnt + 1) % 256) (stackWant n.val s.toChip) ∧
        t.store = s.store ∧ t.backup = s.backup) ∧
    (getF Reg.BAY_DC_STAT_ONLINE n.val s.toChip = 1 → (bayGet n.val s.toChip).dc.statAt + 60 ≤ s.backup.ms →
      ∃ t, exec (.stackLost n) s = .next t ∧ getF Reg.BAY_DC_STAT_ONLINE n.val t.toChip = 0 ∧
        getF Reg.BAY_DC_STAT_LOST n.val t.toChip = 1 ∧ (bayGet n.val t.toChip).dc.fault = true ∧
        (hslBay n.val t.toChip).gate = false ∧ t.store = s.store ∧ t.backup = s.backup)) ∧
  (∀ (s : State) (n : Fin 16), bayRuns n.val s.toChip = true →
    (bayState n.val s.toChip = 3 → (bayGet n.val s.toChip).dc.stage = 1 ∨ (bayGet n.val s.toChip).dc.stage = 3 →
      (bayGet n.val s.toChip).dc.since + cardU16 0x0031 n.val 0xC 0 s.toChip ≤ s.backup.ms →
      ∃ t, exec (.prechargeTimeout n) s = .next t ∧ BayFaulted n.val 5 t.toChip) ∧
    (∀ t0, (bayGet n.val s.toChip).dc.stopAt = some t0 → isDcBay n.val s.toChip = true →
      getF Reg.BAY_FB_GRANT n.val s.toChip = 1 → t0 + 2000 ≤ s.backup.ms →
      ∃ t, exec (.dcStopTimeout n) s = .next t ∧ (hslBay n.val t.toChip).gate = false ∧
        (hslBay n.val t.toChip).grant = false ∧ getF Reg.BAY_EVT_UNDER_LOAD n.val t.toChip = 1 ∧ t.store = s.store)) ∧
  (∀ (s : State) (p : Fin 2),
    (s.pwr.phase = .run →
      (∃ n, n < 16 ∧ isDcBay n s.toChip = true ∧ getF Reg.BAY_DC_CFG_PORT n s.toChip = p.val) →
      ∃ t, exec (.canBusOff p) s = .next t ∧ t.canOff[p] = true ∧
        getF Reg.HST_EVTSEQ_SEQ 0 t.toChip = (getF Reg.HST_EVTSEQ_SEQ 0 s.toChip + 1) % 2 ^ 32 ∧ t.bay = s.bay ∧
        t.store = s.store) ∧
    (Settled s.toChip → exec (.canBusOffRecovery p) s = .next { s with canOff := (s.canOff.set p.val false) }))

/-- R281, R283: the limit L takes a passed value at once where it rises and after tOCGRACE where it falls, and a bay's cap is
released after tCAPHOLD at or below it.
R284, R288: BLIND and UNK of an instance clear after tBLCLR of valid inputs, its other latches stay; the injection relay
toggles at the end of a measurement state, of 320,000 outputs, and a result below 50 V of the pole voltage is no full one. -/
def Obligations.LimitsFollowAndBlindClears : Prop :=
  ((∀ (s : State) (n : Fin 17) (v : Nat), (s.prt.inst[n]).passed = some v → (s.prt.inst[n]).first = false →
     ((s.prt.inst[n]).follow < v → ∃ t, exec (.ocLimitUpdate n) s = .next t ∧ (t.prt.inst[n]).passed = none ∧
       (t.prt.inst[n]).follow = v ∧ v ≤ (t.prt.inst[n]).lim ∧ (t.prt.inst[n]).olds = (s.prt.inst[n]).olds ∧
       (∀ m : Fin 17, m ≠ n → t.prt.inst[m] = s.prt.inst[m]) ∧ t.backup = s.backup ∧ t.store = s.store) ∧
     (v < (s.prt.inst[n]).follow → ∃ t, exec (.ocLimitUpdate n) s = .next t ∧ (t.prt.inst[n]).follow = v ∧
       (s.prt.inst[n]).follow ≤ (t.prt.inst[n]).lim ∧
       (t.prt.inst[n]).olds = ((s.prt.inst[n]).follow, s.backup.ms) :: (s.prt.inst[n]).olds ∧
       (∀ m : Fin 17, m ≠ n → t.prt.inst[m] = s.prt.inst[m]) ∧ t.backup = s.backup ∧ t.store = s.store)) ∧
   (∀ (s : State) (n : Fin 17), ∃ t, exec (.ocGraceExpiry n) s = .next t ∧
     (∀ o ∈ (t.prt.inst[n]).olds, s.backup.ms < o.2 + 5000 ∧ o.1 ≤ (t.prt.inst[n]).lim) ∧
     (t.prt.inst[n]).follow = (s.prt.inst[n]).follow ∧
     ((∀ o ∈ (s.prt.inst[n]).olds, o.2 + 5000 ≤ s.backup.ms) → (t.prt.inst[n]).lim = (s.prt.inst[n]).follow) ∧
     (∀ m : Fin 17, m ≠ n → t.prt.inst[m] = s.prt.inst[m]) ∧ t.backup = s.backup ∧ t.store = s.store) ∧
   (∀ (s : State) (n : Fin 16) (cap t0 : Nat), (protGet n.val s.toChip).cap = some cap →
     (protGet n.val s.toChip).below = some t0 → t0 + 60000 ≤ s.backup.ms →
     ∃ t, exec (.capRelease n) s = .next t ∧ (protGet n.val t.toChip).cap = none ∧
       (protGet n.val t.toChip).lim = (protGet n.val s.toChip).lim ∧ t.hsl.latch = s.hsl.latch ∧ t.backup = s.backup ∧
       t.store = s.store)) ∧
  ((∀ (s : State) (n : Fin 17), s.pwr.phase = .run → protConfigured n.val s.toChip = true →
     38400 ≤ (s.prt.inst[n]).validN → s.pwr.mclkFault = false → s.bridgeUp = true → s.bridge.trips = [] →
     latchOf n.val s.toChip &&& 0x30#6 ≠ 0 →
     ∃ t, exec (.blindClear n) s = .next t ∧ latchOf n.val t.toChip = latchOf n.val s.toChip &&& 0x0F#6 ∧
       (∀ m, m ≠ n.val → latchOf m t.toChip = latchOf m s.toChip) ∧ t.backup.mirror[n] = t.hsl.latch[n] ∧
       (t.prt.inst[n]).racN = 0 ∧ (t.prt.inst[n]).oc2N = 0 ∧ t.backup.ms = s.backup.ms ∧ t.store = s.store ∧
       t.bay = s.bay) ∧
   (∀ (s : State) (n : Fin 16), s.pwr.phase = .run → isDcBay n.val s.toChip = true →
     (insGet n.val s.toChip).inj = false → insPhase ≤ (insGet n.val s.toChip).n →
     ∃ t, exec (.insPhaseEnd n) s = .next t ∧ (insGet n.val t.toChip).inj = true ∧
       (insGet n.val t.toChip).p0 = (insGet n.val s.toChip).sumP ∧ (insGet n.val t.toChip).n0 = (insGet n.val s.toChip).sumN ∧
       (insGet n.val t.toChip).n = 0 ∧ OutputsFollow t.toChip ∧ t.backup = s.backup ∧ t.store = s.store) ∧
   (∀ (s : State) (n : Fin 16), s.pwr.phase = .run → isDcBay n.val s.toChip = true →
     (insGet n.val s.toChip).inj = true → insPhase ≤ (insGet n.val s.toChip).n →
     ∃ t, exec (.insPhaseEnd n) s = .next t ∧ (insGet n.val t.toChip).inj = false ∧ (insGet n.val t.toChip).n = 0 ∧
       (insGet n.val t.toChip).full =
         (if ((insGet n.val s.toChip).pp0.natAbs : Int) < 50000 * 2 ^ 61 * 160000 ∨
             ((insGet n.val s.toChip).sumPP.natAbs : Int) < 50000 * 2 ^ 61 * 160000 then max (insGet n.val s.toChip).full 1
           else (insGet n.val s.toChip).full + 1) ∧ OutputsFollow t.toChip ∧ t.hsl.latch = s.hsl.latch ∧
       t.backup = s.backup ∧ t.store = s.store))

/-- R279, R289-R291: latches clear by PRT_CLR where its checks pass, and by themselves 60 s after a trip, at most AUTO times within
24 h; a refused clear only flags. A write of the AC threshold goes to the shadow within the deck's range. -/
def Obligations.LatchesClear : Prop :=
  (∀ (s : State) (who : Writer) (n : Nat) (kinds : BitVec 6), s.upd.pause = false → writerStatus who s.toChip = .ok →
    (prtClrCheck n kinds s.toChip = .ok → s.bridge.trips = [] → s.bridgeUp = true →
      ∃ t, exec (.prtClr who n kinds true) s = .next t ∧ t.reply = .ok ∧
        latchOf n t.toChip = latchOf n s.toChip &&& ~~~kinds ∧
        (∀ m, m ≠ n → latchOf m t.toChip = latchOf m s.toChip) ∧ t.backup.ms = s.backup.ms ∧ t.store = s.store) ∧
    (∀ e, prtClrCheck n kinds s.toChip = e → e ≠ .ok → Settled s.toChip →
      exec (.prtClr who n kinds true) s = .next { s with toChip :=
        { setF Reg.PRT_STAT_EVT_CNT 0 (min (getF Reg.PRT_STAT_EVT_CNT 0 s.toChip + 1) 255)
            (setF Reg.PRT_STAT_CLR_REF 0 1 s.toChip) with reply := e } })) ∧
  (∀ (s : State) (n : Fin 17) (k : Fin 4) (t0 : Nat), s.pwr.phase = .run → s.upd.pause = false → k.val < 3 →
    getF Reg.PRT_CFG_AUTO n.val s.toChip ≠ 0 → (latchOf n.val s.toChip).getLsbD k.val = true →
    (s.backup.latchAt[n])[k] = some t0 → t0 + 60000 ≤ s.backup.ms → (s.backup.autoSt[n])[k] = 0 → s.bridgeUp = true →
    s.bridge.trips = [] →
    ((autosLive n.val s.toChip).length < getF Reg.PRT_CFG_AUTO n.val s.toChip → autoCond n.val k.val s.toChip = true →
      ∃ t, exec (.autoClear n k) s = .next t ∧
        latchOf n.val t.toChip = latchOf n.val s.toChip &&& ~~~(kindBit k.val) ∧
        autosLive n.val t.toChip = s.backup.ms :: autosLive n.val s.toChip ∧
        getF Reg.PRT_STAT_AUTO_CLR 0 t.toChip = 1 ∧ t.store = s.store) ∧
    (getF Reg.PRT_CFG_AUTO n.val s.toChip ≤ (autosLive n.val s.toChip).length →
      ∃ t, exec (.autoClear n k) s = .next t ∧ t.hsl.latch = s.hsl.latch ∧ (t.backup.autoSt[n])[k] = 2 ∧
        t.backup.mirror = s.backup.mirror ∧ t.backup.autos = s.backup.autos ∧ t.backup.ms = s.backup.ms ∧
        t.store = s.store)) ∧
  (∀ (s : State) (who : Writer) (n v k : Nat), writerStatus who s.toChip = .ok → n ≤ 16 → bayStream 3 n s.toChip = some k →
    pendingGroup (getF Reg.SNS_CFG_HOME_GROUP k s.toChip) s.toChip = false →
    (getF Reg.PRT_CFG_IAN_LO n s.toChip ≤ v → v ≤ getF Reg.PRT_CFG_IAN_DECK n s.toChip →
      ∃ t, exec (.prtIanWrite who n v) s = .next t ∧ t.reply = .ok ∧
        shadowOf (fkey Reg.PRT_IAN_IAN n) t.toChip = some v ∧
        getF Reg.PRT_IAN_IAN n t.toChip = getF Reg.PRT_IAN_IAN n s.toChip ∧ t.hsl.latch = s.hsl.latch ∧
        t.backup = s.backup ∧ t.store = s.store) ∧
    (v < getF Reg.PRT_CFG_IAN_LO n s.toChip → Settled s.toChip →
      exec (.prtIanWrite who n v) s = .next { s with reply := .range }))

/-- R33, R197, R295, R350: the protection snapshot shows the latches of the HSL and every configured instance, and the second tick
publishes the second snapshot group and raises its SEQ: what a read of it returns is what the field holds then. -/
def Obligations.SnapshotsArePublished : Prop :=
  (∀ s : State, s.pwr.phase = .run →
    ∃ t, exec .protectionSnapshot s = .next t ∧
      getF Reg.PRT_SEQ_SEQ 0 t.toChip = (getF Reg.PRT_SEQ_SEQ 0 s.toChip + 1) % 2 ^ 32 ∧
      (∀ n, n < 17 → ((getF Reg.PRT_LATCH_LATCHED 0 t.toChip).testBit n = true ↔ latchOf n s.toChip ≠ 0)) ∧
      (∀ n, n < 17 → protConfigured n s.toChip = true →
        getF Reg.PRT_LAT_KINDS n t.toChip = (latchOf n s.toChip).toNat ∧
        getF Reg.PRT_LAT_AUTO_CNT n t.toChip = min (autosLive n s.toChip).length 255 ∧
        getF Reg.PRT_OC_LIM n t.toChip = min (protGet n s.toChip).lim 65535 ∧
        (protGet n t.toChip).quietAc = residualQuiet n 0 s.toChip ∧
        (protGet n t.toChip).quietDc = residualQuiet n 1 s.toChip ∧
        (n < 16 → getF Reg.PRT_RED_CAP n t.toChip = (protGet n s.toChip).cap.getD 0xFFFF % 2 ^ 16 ∧
          getF Reg.PRT_INS_INJ n t.toChip = (insGet n s.toChip).inj.toNat ∧
          (insGet n t.toChip).shown = (insGet n s.toChip).low)) ∧
      (∀ n, n < 17 → protConfigured n s.toChip = false → protGet n t.toChip = protGet n s.toChip) ∧
      t.hsl.latch = s.hsl.latch ∧ t.backup = s.backup ∧ t.store = s.store) ∧
  (∀ (s : State) (m : SwitchMeas), s.pwr.phase = .bare → mapWf s.regs = true → mapWf s.bregs = true →
    ∃ t, exec (.secondTick m) s = .next t ∧
      (∀ f ∈ regTable, f.snap = true → ∀ i, i < f.cnt → readF f i t.toChip = getF f i s.toChip) ∧
      t.snapSeq = (s.snapSeq + 1) % 2 ^ 32 ∧ t.backup = s.backup ∧ t.store = s.store ∧ t.pwr = s.pwr) ∧
  (∀ (s : State) (m : SwitchMeas), s.pwr.phase = .run → s.lsw.granted = true → s.bridgeUp = true → s.bil.saveRetry = false →
    ∃ t, exec (.secondTick m) s = .next t ∧ t.snapSeq = (s.snapSeq + 1) % 2 ^ 32 ∧
      (∀ k : Fin 48, getF Reg.LSW_MEAS_I_MA k.val t.toChip = min m.ma[k] 65535) ∧
      (∀ k : Fin 48, (lsw k.val t.toChip).tj = m.tj[k]) ∧ getF Reg.BIL_PERIOD_NUMBER 0 t.toChip = s.store.period % 2 ^ 32 ∧
      getF Reg.BIL_TARIFF_ACTIVE 0 t.toChip = s.bil.tariff % 16 ∧ t.bil.sets = s.bil.sets ∧ t.backup = s.backup ∧
      t.store = s.store)

/-- R298, R301-R303: the self-test of the links, SLAC, and the timers of a vehicle link. -/
def Obligations.VehicleLinksMatchAndFail : Prop :=
  (∀ (s : State) (who : Writer), Settled s.toChip → writerStatus who s.toChip = .ok → getF Reg.LNK_TEST_RUNNING 0 s.toChip = 0 →
    ((∀ n, n < 16 → vState n s.toChip < 2 ∨ 4 < vState n s.toChip) →
      exec (.lnkTest who true) s = .next { s with toChip := { setF Reg.LNK_TEST_RUNNING 0 1 s.toChip with reply := .ok } }) ∧
    (∀ n, n < 16 → 2 ≤ vState n s.toChip → vState n s.toChip ≤ 4 →
      exec (.lnkTest who true) s = .next { s with reply := .busy })) ∧
  (∀ (s : State) (pass : BitVec 17), getF Reg.LNK_TEST_RUNNING 0 s.toChip = 1 →
    ∃ t, exec (.lnkTestDone pass) s = .next t ∧ getF Reg.LNK_TEST_RUNNING 0 t.toChip = 0 ∧
      getF Reg.LNK_TEST_PASS 0 t.toChip = pass.toNat ∧ getF Reg.LNK_STAT_FAILED 0 t.toChip = (~~~pass).toNat ∧
      (∀ n, n < 16 → getF Reg.BAY_CFG_TYPE n s.toChip ≠ 0 → pass.getLsbD n = false →
        vState n t.toChip = if hlcWanted n s.toChip = true then 5 else 0) ∧
      (∀ n, n < 16 → getF Reg.BAY_CFG_TYPE n s.toChip ≠ 0 → pass.getLsbD n = true → vState n s.toChip = 0 →
        vState n t.toChip = 1) ∧
      t.hsl.latch = s.hsl.latch ∧ t.store = s.store ∧ t.backup = s.backup) ∧
  (∀ (s : State) (src : BitVec 48) (run : BitVec 64) (levels : Vector (Option Nat) 16) (w : Nat),
    vlinksRun s.toChip = true → slacWinner src.toNat run.toNat levels s.toChip = some w →
    ∃ t, exec (.slacRequest src run levels) s = .next t ∧ vState w t.toChip = 2 ∧
      (vlink w t.toChip).run = some { src := src.toNat, id := run.toNat } ∧
      (vlink w t.toChip).sent = some (.slacParm src.toNat run.toNat) ∧ getF Reg.PWR_STATE_STATE 0 t.toChip ≠ 2 ∧
      (∀ n, n < 16 → n ≠ w → vState n t.toChip = vState n s.toChip ∧
        ((levels[n]?.getD none).isSome = true → slacQualifies src.toNat run.toNat n s.toChip = true →
          getF Reg.LNK_VEVT_SLAC_DUP n t.toChip = 1 ∧ vlink n t.toChip =
            { vlink n s.toChip with left := (src.toNat, run.toNat) :: (vlink n s.toChip).left }) ∧
        (levels[n]?.getD none = none ∨ slacQualifies src.toNat run.toNat n s.toChip = false →
          vlink n t.toChip = vlink n s.toChip)) ∧ t.hsl.latch = s.hsl.latch ∧ t.store = s.store ∧ t.backup = s.backup) ∧
  (∀ (s : State) (n : Fin 16), bayRuns n.val s.toChip = true →
    (hlcLive n.val s.toChip = true → vState n.val s.toChip = 1 ∨ vState n.val s.toChip = 2 →
      (vlink n.val s.toChip).slacAt + tSlac s.toChip ≤ s.backup.ms →
      ∃ t, exec (.slacTimeout n) s = .next t ∧ getF Reg.LNK_VEVT_SLAC_FAIL n.val t.toChip = 1 ∧
        (getF Reg.LNK_VSTAT_TRY n.val s.toChip < slacTry s.toChip → vState n.val t.toChip = 1 ∧
          (vlink n.val t.toChip).slacAt = s.backup.ms ∧ (vlink n.val t.toChip).run = none ∧
          getF Reg.LNK_VSTAT_TRY n.val t.toChip = (getF Reg.LNK_VSTAT_TRY n.val s.toChip + 1) % 256) ∧
        (slacTry s.toChip ≤ getF Reg.LNK_VSTAT_TRY n.val s.toChip → HlcFailed n.val t.toChip) ∧ t.backup = s.backup) ∧
    (vState n.val s.toChip = 3 → (vlink n.val s.toChip).matchAt + tSetup s.toChip ≤ s.backup.ms →
      ∃ t, exec (.setupTimeout n) s = .next t ∧ HlcFailed n.val t.toChip ∧
        getF Reg.LNK_VEVT_LINK_LOSS n.val t.toChip = 1 ∧ t.backup = s.backup ∧ t.store = s.store) ∧
    (vState n.val s.toChip = 3 ∨ vState n.val s.toChip = 4 →
      (vlink n.val s.toChip).frameAt + tLinkloss s.toChip ≤ s.backup.ms →
      ∃ t, exec (.linklossTimeout n) s = .next t ∧ HlcFailed n.val t.toChip ∧
        getF Reg.LNK_VEVT_LINK_LOSS n.val t.toChip = 1 ∧ t.backup = s.backup ∧ t.store = s.store))

/-- R113, R299, R300, R302, R328: a vehicle-link frame is class-1 work of its hand and counts, or wakes the device; what firmware
takes from SLAC and high-level communication; a certificate request that nobody answers fails. The rounding of the report's means
is the model's choice (log entry 68). -/
def Obligations.VehicleMessagesAreTaken : Prop :=
  (∀ (s : State) (n : Fin 16) (src : BitVec 48) (lclk : Fin 6400) (payload : List Nat), linksRun s.toChip = true →
    getF Reg.BAY_CFG_TYPE n.val s.toChip ≠ 0 → pathFailed n.val s.toChip = false →
    let w : LinkWork := { cls := 1, event := 6400 * s.dlr.edges + lclk.val, payload := payload }
    (getF Reg.PWR_STATE_STATE 0 s.toChip ≠ 3 →
      (∃ t, exec (.vehicleFrame n false ⟨false, src, lclk, payload⟩) s = .next t ∧
        getF Reg.LNK_VCNT_ERR n.val t.toChip = min (getF Reg.LNK_VCNT_ERR n.val s.toChip + 1) 65535 ∧
        (linkHand n.val t.toChip).work = (linkHand n.val s.toChip).work ++ [w] ∧ t.lnk = s.lnk ∧ t.backup = s.backup) ∧
      (matchedPeer n.val src.toNat s.toChip = true →
        ∃ t, exec (.vehicleFrame n true ⟨false, src, lclk, payload⟩) s = .next t ∧
          getF Reg.LNK_VCNT_RX n.val t.toChip = min (getF Reg.LNK_VCNT_RX n.val s.toChip + 1) 65535 ∧
          (vlink n.val t.toChip).frameAt = s.backup.ms ∧
          (linkHand n.val t.toChip).work = (linkHand n.val s.toChip).work ++ [w] ∧ t.backup = s.backup) ∧
      (∀ crcOk, Settled s.toChip → exec (.vehicleFrame n crcOk ⟨true, src, lclk, payload⟩) s = .next s)) ∧
    (getF Reg.PWR_STATE_STATE 0 s.toChip = 3 → (regWord 0x10008 s.toChip).testBit 0 = true →
      ∀ crcOk tone, ∃ t, exec (.vehicleFrame n crcOk ⟨tone, src, lclk, payload⟩) s = .next t ∧
        getF Reg.PWR_STATE_STATE 0 t.toChip = 1 ∧ getF Reg.PWR_STATE_WAKE_SRC 0 t.toChip = 0 ∧ t.lnk = s.lnk)) ∧
  (∀ (s : State) (n : Fin 16), bayRuns n.val s.toChip = true → vlinksRun s.toChip = true → hlcLive n.val s.toChip = true →
    (∀ r : SlacRun, vState n.val s.toChip = 2 → (vlink n.val s.toChip).run = some r →
      (∀ (run : BitVec 64) (src : BitVec 48) (sounds : BitVec 8), r.src = src.toNat → r.id = run.toNat →
        ∃ t, exec (.hlcMessage n (.slacStart run src sounds)) s = .next t ∧
          (vlink n.val t.toChip).run = some { src := r.src, id := r.id, sounds := sounds.toNat } ∧ t.bay = s.bay ∧
          t.backup = s.backup) ∧
      (0 < r.got → r.report = none →
        ∃ t, exec (.hlcMessage n .slacSoundsEnd) s = .next t ∧
          (vlink n.val t.toChip).run = some { r with report := some (r.sum.map fun a => (2 * a + r.got) / (2 * r.got)) } ∧
          (vlink n.val t.toChip).sent =
            some (.attenReport r.src r.id (r.sum.map fun a => (2 * a + r.got) / (2 * r.got))) ∧ t.bay = s.bay ∧
          t.backup = s.backup) ∧
      (∀ (run : BitVec 64) (mac : BitVec 48) (groups : List Nat), r.src = mac.toNat → r.id = run.toNat →
        r.report = some groups →
        ∃ t, exec (.hlcMessage n (.slacMatch run mac)) s = .next t ∧ vState n.val t.toChip = 3 ∧
          getF Reg.LNK_VSTAT_ATTEN n.val t.toChip =
            min 255 ((2 * groups.foldl (· + ·) 0 + groups.length) / (2 * max 1 groups.length)) ∧
          getF Reg.LNK_VPEER_LO_MAC_LO n.val t.toChip + 2 ^ 32 * getF Reg.LNK_VPEER_HI_MAC_HI n.val t.toChip = mac.toNat ∧
          (vlink n.val t.toChip).nmk = some (Config.memberKey s.lnk.draws) ∧ t.lnk.draws = s.lnk.draws + 1 ∧
          (vlink n.val t.toChip).matchAt = s.backup.ms ∧ t.bay = s.bay ∧ t.backup = s.backup)) ∧
    (vState n.val s.toChip = 3 → ∀ (offered : List (Fin 4)) (tls pnc : Bool) (k : Nat),
      protoChoose n.val offered tls s.toChip = some k →
      ∃ t, exec (.hlcMessage n (.setup offered tls pnc)) s = .next t ∧ vState n.val t.toChip = 4 ∧
        getF Reg.LNK_VSTAT_PROTO n.val t.toChip = k ∧ getF Reg.LNK_VSTAT_TLS n.val t.toChip = tls.toNat ∧
        (bayGet n.val t.toChip).hlc.up = true ∧ t.backup = s.backup) ∧
    (vState n.val s.toChip = 3 → ∀ (offered : List (Fin 4)) (tls pnc : Bool),
      protoChoose n.val offered tls s.toChip = none →
      ∃ t, exec (.hlcMessage n (.setup offered tls pnc)) s = .next t ∧ vState n.val t.toChip = 3 ∧ t.bay = s.bay) ∧
    (vState n.val s.toChip = 4 → ∀ vp vm vr ir pr : BitVec 16,
      ∃ t, exec (.hlcMessage n (.target vp vm vr ir pr)) s = .next t ∧
        (bayGet n.val t.toChip).hlc = { (bayGet n.val s.toChip).hlc with
          vPresent := vp.toNat, vMax := vm.toNat, vReq := vr.toNat, iReq := ir.toNat, pReq := pr.toNat } ∧
        (vlink n.val t.toChip).rxq = (vlink n.val s.toChip).rxq.tail ∧ t.store = s.store ∧ t.backup = s.backup) ∧
    (vState n.val s.toChip = 4 → ∀ msg : List Byte,
      ∃ t, exec (.hlcMessage n (.certRequest msg)) s = .next t ∧
        t.lnk.reqNo = s.lnk.reqNo % (2 ^ 32 - 1) + 1 ∧ t.lnk.certs = s.lnk.certs ++ [(t.lnk.reqNo, n.val)] ∧
        getF Reg.HST_EVTSEQ_SEQ 0 t.toChip = (getF Reg.HST_EVTSEQ_SEQ 0 s.toChip + 1) % 2 ^ 32 ∧ t.bay = s.bay) ∧
    (∃ t, exec (.hlcMessage n .tlsFail) s = .next t ∧ HlcFailed n.val t.toChip ∧
      getF Reg.LNK_VEVT_TLS_FAIL n.val t.toChip = 1 ∧ t.backup = s.backup)) ∧
  (∀ (s : State) (id : Nat), Settled s.toChip → exec (.certRequestTimeout id) s =
    .next { s with lnk := { s.lnk with certs := s.lnk.certs.filter fun r => r.1 != id } })

/-- R312-R322: the coordinator's beacon, roster and budget round. -/
def Obligations.CoordinatorRunsTheChain : Prop :=
  ∀ s : State, role s.toChip = 5 →
    (chainRuns s.toChip = true → s.backup.ms % 40 = 0 →
      ∃ t, exec .beaconStart s = .next t ∧ t.lnk.chain.beaconNo = (s.lnk.chain.beaconNo + 1) % 2 ^ 32 ∧
        t.lnk.chain.answer = none ∧ t.lnk.chain.slots = slotOwners (nSlot s.toChip) s.lnk.chain.rot s.lnk.chain.roster ∧
        t.lnk.chain.roster.map (fun e => { e with more := false }) =
          s.lnk.chain.roster.map (fun e => { e with more := false }) ∧
        (s.lnk.chain.key.isSome = true → (t.lnk.chain.sent.map (·.typ)) = some 1 ∧
          t.backup.chainCtr = s.backup.chainCtr + 1) ∧
        (∀ e, s.lnk.chain.roster.find? (fun e => e.addr == ownAddr s.toChip) = some e →
          getF Reg.LNK_CALLOC_RECEIVED 0 t.toChip = e.alloc % 2 ^ 16 ∧ t.lnk.chain.pending = some e.alloc) ∧
        t.store = s.store ∧ t.bay = s.bay) ∧
    (∀ (rx : ChainRx) (i : JoinInfo), Heard 2 rx s.toChip → fcField 8 4 rx.fc.toNat = 2 → s.lnk.chain.answer = none →
      ∃ t, exec (.joinRequest rx i) s = .next t ∧
        t.lnk.chain.answer = some (rxIdent rx, (joinDecide (rxIdent rx) i s.toChip).1,
          (joinDecide (rxIdent rx) i s.toChip).2) ∧
        ((joinDecide (rxIdent rx) i s.toChip).1 = 0 →
          t.lnk.chain.roster.map (·.addr) = s.lnk.chain.roster.map (·.addr)) ∧
        ((joinDecide (rxIdent rx) i s.toChip).1 ≠ 0 →
          ∃ e ∈ t.lnk.chain.roster, e.addr = (joinDecide (rxIdent rx) i s.toChip).1 ∧ e.ident = rxIdent rx ∧
            e.floor = i.floor ∧ e.alloc = e.held) ∧ t.backup = s.backup ∧ t.store = s.store) ∧
    (∀ (rx : ChainRx) (i : ReportInfo), Heard 3 rx s.toChip →
      ∃ t, exec (.budgetReport rx i) s = .next t ∧
        t.lnk.chain.roster = s.lnk.chain.roster.map (fun e => if e.addr = fcField 12 6 rx.fc.toNat ∧ e.ident = rxIdent rx then
          reportTake i { e with lastRx := s.backup.ms, more := fcField 41 1 rx.fc.toNat == 1 } else e) ∧
        t.backup = s.backup ∧ t.store = s.store) ∧
    (∀ rx : ChainRx, Heard 7 rx s.toChip →
      ∃ t, exec (.chainLeave rx) s = .next t ∧
        t.lnk.chain.roster = s.lnk.chain.roster.filter
          (fun e => !(e.addr == fcField 12 6 rx.fc.toNat && e.ident == rxIdent rx)) ∧
        t.backup = s.backup ∧ t.store = s.store) ∧
    (∀ a : Fin 64, a.val ≠ ownAddr s.toChip →
      ∃ t, exec (.rosterExpiry a) s = .next t ∧
        t.lnk.chain.roster = s.lnk.chain.roster.filter
          (fun e => !(e.addr == a.val && decide (e.lastRx + 60000 ≤ s.backup.ms))) ∧
        getF Reg.LNK_CBUDGET_POSTS 0 t.toChip = t.lnk.chain.roster.length % 64 ∧ t.backup = s.backup ∧ t.store = s.store) ∧
    (chainRuns s.toChip = true → s.backup.ms % 100 = 0 →
      ∃ t, exec .budgetRound s = .next t ∧ t.lnk.chain.round = s.lnk.chain.round + 1 ∧
        t.lnk.chain.roster.map (·.addr) = s.lnk.chain.roster.map (·.addr) ∧
        (∀ e ∈ t.lnk.chain.roster, ∃ p ∈ roundRun (getF Reg.LNK_CBUDGET_BUDGET 0 s.toChip) (roundPosts s.toChip),
          p.addr = e.addr ∧ e.alloc = p.new ∧ e.held = p.held) ∧ t.backup = s.backup ∧ t.store = s.store) ∧
    (∀ a : Fin 64, ∃ t, exec (.heldRelease a) s = .next t ∧
      t.lnk.chain.roster = s.lnk.chain.roster.map (fun e => if e.addr = a.val then (match e.low with
        | some (_, t0) => if t0 + 6000 ≤ s.backup.ms then { e with held := e.alloc, low := none } else e
        | none => e) else e) ∧ t.backup = s.backup ∧ t.store = s.store)

/-- R316-R319, R322: how a post comes into its role and out of it, and the allocation it takes. -/
def Obligations.PostsElectJoinAndFallBack : Prop :=
  ∀ s : State, chainRuns s.toChip = true →
    (role s.toChip = 1 → s.lnk.chain.since + 400 ≤ s.backup.ms →
      ∃ t, exec .listenTimeout s = .next t ∧ role t.toChip = 2 ∧ t.lnk.chain.since = s.backup.ms ∧
        t.lnk.chain.roster = s.lnk.chain.roster ∧ t.backup = s.backup ∧ t.store = s.store) ∧
    (s.lnk.chain.key.isSome = true → role s.toChip = 2 → (255 - getF Reg.LNK_CCFG_PRIORITY 0 s.toChip) * 16 +
        deviceId s.toChip % 16 ≤ 4 * (s.backup.ms - s.lnk.chain.since) →
      ∃ t, exec .electTimeout s = .next t ∧ role t.toChip = 5 ∧ getF Reg.LNK_CEVT_ELECTED 0 t.toChip = 1 ∧
        ownAddr t.toChip = (if ownAddr s.toChip = 0 then 1 else ownAddr s.toChip) % 64 ∧
        getF Reg.LNK_CSTAT_COORD 0 t.toChip = ownAddr t.toChip ∧ t.lnk.chain.roster.length = 1 ∧
        t.lnk.chain.coordId = deviceId s.toChip ∧
        getF Reg.LNK_CLIFE_ELECT 0 t.toChip = min (getF Reg.LNK_CLIFE_ELECT 0 s.toChip + 1) 65535 ∧ t.store = s.store) ∧
    (role s.toChip = 3 ∨ role s.toChip = 4 ∨ role s.toChip = 6 → s.lnk.chain.lastBeacon + 200 ≤ s.backup.ms →
      ∃ t, exec .beaconLoss s = .next t ∧ role t.toChip = 1 ∧ getF Reg.LNK_CEVT_BEACON_LOSS 0 t.toChip = 1 ∧
        getF Reg.LNK_CLIFE_LOSS 0 t.toChip = min (getF Reg.LNK_CLIFE_LOSS 0 s.toChip + 1) 65535 ∧
        getF Reg.LNK_CALLOC_RECEIVED 0 t.toChip = shareFloor s.toChip % 2 ^ 16 ∧
        getF Reg.LNK_CALLOC_APPLIED 0 t.toChip = shareFloor s.toChip % 2 ^ 16 ∧
        getF Reg.LNK_CBUDGET_SRC 0 t.toChip = 1 ∧ t.lnk.chain.pending = none ∧ t.store = s.store) ∧
    (∀ t0, s.lnk.chain.key.isSome = true → role s.toChip = 3 → s.lnk.chain.joinAt = some t0 →
      (if s.lnk.chain.refused = true then t0 + 10000 else t0 + 320) ≤ s.backup.ms →
      ∃ t, exec .joinRetry s = .next t ∧ t.lnk.chain.joinAt = some s.backup.ms ∧
        t.lnk.chain.joinN = s.lnk.chain.joinN + 1 ∧ t.lnk.chain.sent.map (·.typ) = some 2 ∧ role t.toChip = 3 ∧
        t.backup.ms = s.backup.ms ∧ t.store = s.store) ∧
    (∀ level : Bool, ∃ t, exec (.chainInChange level) s = .next t ∧
      getF Reg.LNK_CSTAT_CHAIN_IN 0 t.toChip = level.toNat ∧
      role t.toChip = (if level = true ∧ role s.toChip = 6 then 3 else role s.toChip) ∧ t.store = s.store) ∧
    (role s.toChip = 6 → s.lnk.chain.since + 30000 ≤ s.backup.ms →
      ∃ t, exec .chainWaitTimeout s = .next t ∧ role t.toChip = 3 ∧ t.lnk.chain.noPos = true ∧
        t.lnk.chain.joinAt = some s.backup.ms ∧ t.store = s.store) ∧
    (∀ rx : ChainRx, Heard 1 rx s.toChip → fcField 8 4 rx.fc.toNat = 0 → (rxBody rx s.toChip).length = 232 →
      (role s.toChip = 4 → sameParams (rxBody rx s.toChip) s.toChip = true →
        s.lnk.chain.coordId = Byte.u64 (rxBody rx s.toChip) 0 → ownAddr s.toChip ≠ 0 →
        Byte.u16 (rxBody rx s.toChip) (0x44 + 2 * (ownAddr s.toChip - 1)) ≠ 0xFFFF → s.lnk.chain.leaveSent = false →
        ∃ t, exec (.beaconReceived rx) s = .next t ∧ role t.toChip = 4 ∧ t.lnk.chain.lastBeacon = s.backup.ms ∧
          getF Reg.LNK_CALLOC_RECEIVED 0 t.toChip =
            Byte.u16 (rxBody rx s.toChip) (0x44 + 2 * (ownAddr s.toChip - 1)) % 2 ^ 16 ∧
          t.lnk.chain.pending = some (Byte.u16 (rxBody rx s.toChip) (0x44 + 2 * (ownAddr s.toChip - 1))) ∧
          t.lnk.chain.rxRound = Byte.u16 (rxBody rx s.toChip) 0x40 ∧ t.backup = s.backup ∧ t.store = s.store) ∧
      (role s.toChip = 1 ∨ role s.toChip = 2 → sameParams (rxBody rx s.toChip) s.toChip = true → ownAddr s.toChip ≠ 0 →
        ∃ t, exec (.beaconReceived rx) s = .next t ∧ role t.toChip = 3 ∧ t.lnk.chain.joinAt = some s.backup.ms ∧
          t.lnk.chain.lastBeacon = s.backup.ms ∧ t.store = s.store) ∧
      (role s.toChip = 5 →
        ranksAbove (Byte.u8 (rxBody rx s.toChip) 0x11) (Byte.u64 (rxBody rx s.toChip) 0)
          (getF Reg.LNK_CCFG_PRIORITY 0 s.toChip) (deviceId s.toChip) = true →
        ∃ t, exec (.beaconReceived rx) s = .next t ∧ role t.toChip ≠ 5 ∧ t.lnk.chain.roster = [] ∧
          getF Reg.LNK_CEVT_YIELD 0 t.toChip = 1 ∧ t.store = s.store)) ∧
    (∀ v, s.lnk.chain.pending = some v → s.bridgeUp = true → s.upd.pause = false → s.bridge.trips = [] →
      ∃ t, exec .allocationApply s = .next t ∧ t.lnk.chain.pending = none ∧ getF Reg.LNK_CBUDGET_SRC 0 t.toChip = 0 ∧
        getF Reg.LNK_CALLOC_APPLIED 0 t.toChip = max v (shareFloor s.toChip) % 2 ^ 16 ∧
        (v < shareFloor s.toChip → s.lnk.chain.clamped ≠ some v →
          (getF Reg.DEV_TRUMP_FLAG_CLAMP 0 t.toChip).testBit 7 = true ∧
          getF Reg.DEV_TRUMP_CNT_COUNT 7 t.toChip = min (getF Reg.DEV_TRUMP_CNT_COUNT 7 s.toChip + 1) 0xFFFFFFFF) ∧
        t.backup = s.backup ∧ t.store = s.store)

/-- R314, R315, R326, R330: what a post sends in its slot, acks, the relay of KHP, and the commands of LNK_CCMD. -/
def Obligations.SlotsAcksAndRelay : Prop :=
  (∀ s : State, chainRuns s.toChip = true → s.lnk.chain.slots.contains (chainAddr s.toChip) = true →
    chainAddr s.toChip ≠ 0 → role s.toChip = 4 ∨ role s.toChip = 5 → s.lnk.chain.leaveSent = false →
    (s.lnk.chain.leave.isSome = true → s.lnk.chain.wait = [] → s.lnk.chain.key.isSome = true →
      ∃ t, exec .chainSlotStart s = .next t ∧ t.lnk.chain.sent.map (·.typ) = some 7 ∧ t.lnk.chain.leaveSent = true ∧
        t.lnk.chain.wait.map (·.flow) = [1] ∧ role t.toChip = role s.toChip ∧ t.lnk.chain.leave = s.lnk.chain.leave ∧
        t.backup.chainCtr = s.backup.chainCtr + 1 ∧ t.store = s.store) ∧
    (∀ w rest, s.lnk.chain.leave = none → s.lnk.chain.wait = w :: rest → (∀ x ∈ s.lnk.chain.wait, x.reps < 3) →
      ∃ t, exec .chainSlotStart s = .next t ∧ t.lnk.chain.sent = some w.frame ∧
        t.lnk.chain.wait = rest ++ [{ w with reps := w.reps + 1 }] ∧
        getF Reg.LNK_CCNT_RETRY 0 t.toChip = min (getF Reg.LNK_CCNT_RETRY 0 s.toChip + 1) 255 ∧ t.backup = s.backup) ∧
    (∀ w, s.lnk.chain.leave = none → s.lnk.chain.wait = [w] → 3 ≤ w.reps →
      ∃ t, exec .chainSlotStart s = .next t ∧ getF Reg.LNK_CEVT_DROP 0 t.toChip = 1 ∧
        (∀ x ∈ t.lnk.chain.wait, x.reps = 0) ∧
        getF Reg.LNK_CCNT_DROP 0 t.toChip = min (getF Reg.LNK_CCNT_DROP 0 s.toChip + 1) 255 ∧ t.store = s.store) ∧
    (s.lnk.chain.leave = none → role s.toChip = 4 → s.lnk.chain.wait = [] → s.lnk.chain.key.isSome = true →
      s.lnk.chain.lastRep + 100 ≤ s.backup.ms →
      ∃ t, exec .chainSlotStart s = .next t ∧ t.lnk.chain.sent.map (·.typ) = some 3 ∧
        t.lnk.chain.lastRep = s.backup.ms ∧ t.lnk.chain.wait.map (·.flow) = [1] ∧
        t.backup.chainCtr = s.backup.chainCtr + 1 ∧ t.store = s.store)) ∧
  (∀ (s : State) (fc : BitVec 96), Settled s.toChip → chainRuns s.toChip = true → fcSeen fc.toNat s.toChip = true →
    fcField 8 4 fc.toNat = 3 → fcField 18 6 fc.toNat = chainAddr s.toChip →
    (s.lnk.chain.leaveSent = false → exec (.chainAck fc) s = .next { s with lnk := { s.lnk with
      chain := { s.lnk.chain with wait := s.lnk.chain.wait.filter fun w =>
        !(w.flow == fcField 42 4 fc.toNat && w.seq == fcField 46 8 fc.toNat) } } }) ∧
    (s.lnk.chain.leaveSent = true → (∀ w ∈ s.lnk.chain.wait, w.frame.typ = 7 →
        w.flow = fcField 42 4 fc.toNat ∧ w.seq = fcField 46 8 fc.toNat) →
      ∃ t, exec (.chainAck fc) s = .next t ∧ role t.toChip = 1 ∧ t.lnk.chain.leave = none ∧ t.lnk.chain.roster = [] ∧
        t.backup = s.backup ∧ t.store = s.store)) ∧
  (∀ (s : State) (rx : ChainRx), fcField 18 6 rx.fc.toNat = ownAddr s.toChip → 2 ≤ fcField 42 4 rx.fc.toNat →
    inStandby s.toChip = false →
    (∀ x, Heard 4 rx s.toChip → s.lnk.chain.flows[fcField 42 4 rx.fc.toNat]?.getD none = some x →
      x.peer = fcField 12 6 rx.fc.toNat →
      ∃ t, exec (.relayData (.received rx)) s = .next t ∧
        t.lnk.chain.flows[fcField 42 4 rx.fc.toNat]?.getD none = some { x with rx := x.rx ++ rxBody rx s.toChip } ∧
        t.hst = s.hst ∧ t.backup = s.backup ∧ t.store = s.store) ∧
    (Heard 5 rx s.toChip → s.lnk.chain.flows[fcField 42 4 rx.fc.toNat]?.getD none = none →
      ∃ t, exec (.relayOpen rx) s = .next t ∧
        (relayRoom s.toChip = true →
          t.lnk.chain.flows[fcField 42 4 rx.fc.toNat]?.getD none = some { peer := fcField 12 6 rx.fc.toNat } ∧
          ∃ k, k < 4 ∧ (sess k s.toChip).state = 0 ∧ (sess k t.toChip).state = 1 ∧
            (sess k t.toChip).relay = some (fcField 42 4 rx.fc.toNat)) ∧
        (relayRoom s.toChip = false →
          t.lnk.chain.flows[fcField 42 4 rx.fc.toNat]?.getD none =
            some { peer := fcField 12 6 rx.fc.toNat, closing := true } ∧ t.hst = s.hst) ∧ t.store = s.store) ∧
    (∀ x, Heard 6 rx s.toChip → s.lnk.chain.flows[fcField 42 4 rx.fc.toNat]?.getD none = some x →
      x.peer = fcField 12 6 rx.fc.toNat →
      ∃ t, exec (.relayClose (.received rx)) s = .next t ∧ t.lnk.chain.flows[fcField 42 4 rx.fc.toNat]?.getD none = none ∧
        t.backup = s.backup ∧ t.store = s.store)) ∧
  (∀ (s : State) (f : Fin 16) (bytes : List Byte) (x : FlowState), Settled s.toChip → s.lnk.chain.flows[f] = some x →
    x.relay = true →
    (x.closing = false → s.upd.pause = false → exec (.relayData (.side f bytes)) s = .next { s with lnk := { s.lnk with
      chain := { s.lnk.chain with flows :=
        (s.lnk.chain.flows.setIfInBounds f.val (some { x with txq := x.txq ++ [Byte.nats bytes] })) } } }) ∧
    exec (.relayClose (.side f bytes)) s = .next { s with lnk := { s.lnk with
      chain := { s.lnk.chain with flows :=
        (s.lnk.chain.flows.setIfInBounds f.val (some { x with closing := true })) } } }) ∧
  (∀ (s : State) (header : List Byte) (f : Nat), Settled s.toChip → chainRuns s.toChip = true →
    getF Reg.LNK_CCFG_RELAY_EN 0 s.toChip = 1 → netUp s.toChip = true → role s.toChip = 4 ∨ role s.toChip = 5 →
    header.length = 4 → (Byte.nats header).take 3 = [0x4B, 0x52, 0x00] →
    inRoster (Byte.u8 (Byte.nats header) 3) s.toChip = true → Byte.u8 (Byte.nats header) 3 ≠ ownAddr s.toChip →
    freeFlow s.toChip = some f →
    exec (.relayConnect header) s = .next { s with lnk := { s.lnk with chain := { s.lnk.chain with
      flows := (s.lnk.chain.flows.setIfInBounds f
        (some { relay := true, peer := Byte.u8 (Byte.nats header) 3, opening := true })) } } }) ∧
  (∀ (s : State) (who : Writer), Settled s.toChip → writerStatus who s.toChip = .ok →
    (role s.toChip = 4 → ownAddr s.toChip ≠ 0 → s.lnk.chain.leave = none → exec (.rejoin who) s = .next { s with
      reply := .ok, lnk := { s.lnk with chain := { s.lnk.chain with leave := some (ownAddr s.toChip) } } }) ∧
    (anyGate s.toChip = true → exec (.forget who) s = .next { s with reply := .busy }) ∧
    (anyGate s.toChip = false → ∃ t, exec (.forget who) s = .next t ∧ t.reply = .ok ∧ ownAddr t.toChip = 0 ∧
      getF Reg.LNK_CSTAT_POS_UNKNOWN 0 t.toChip = 0 ∧ getF Reg.LNK_CSTAT_CHAIN_OUT 0 t.toChip = 0 ∧
      (role s.toChip = 4 → ownAddr s.toChip ≠ 0 → s.lnk.chain.leave = none →
        t.lnk.chain.leave = some (ownAddr s.toChip)) ∧ t.backup = s.backup ∧ t.store = s.store))

/-- R336, R337, R346: what a step leaves at the outputs: a channel is on exactly while its conditions hold, one that went on in the
step has its inrush window of INRUSH ms open and the class commanded in force, and a channel on throughout keeps its trip state.
The levels that channels follow are those of R331 and R332.
R333: a host line takes its mode and level from a write that names a host line with times in range; blinking begins with the
on phase, and the end of a phase, ON_T or OFF_T units of 10 ms after its begin, toggles the line. A write outside the rule is rejected whole with E_RANGE. -/
def Obligations.ChannelsFollowInputsAndLines : Prop :=
  ((∀ (i : Instr) (s t : State), exec i s = .next t → OutputsFollow t.toChip) ∧
   (∀ (c : Chip) (k : Nat), k < 48 → (lsw k c).out = false → lswWanted (lsw k c) c = true → c.powered = true →
     c.pwr.vbbOk.getLsbD (k / 8) = true →
     (lsw k (lswEval k c)).out = true ∧ (lsw k (lswEval k c)).window = ((lsw k c).u8 0xA != 0) ∧
       (lsw k (lswEval k c)).cls = (lsw k c).cmd ∧ (lsw k (lswEval k c)).test = 0) ∧
   (∀ (s : State) (ball : Fin 8) (level : Bool),
     ∃ t, exec (.lsinChange ball level) s = .next t ∧ lsinHigh ball.val t.toChip = level ∧ OutputsFollow t.toChip ∧
       (∀ j, j < 8 → j ≠ ball.val → lsinHigh j t.toChip = lsinHigh j s.toChip))) ∧
  (∀ (s : State) (who : Writer) (l onT offT : Nat), writerStatus who s.toChip = .ok → 16 ≤ l → l < 48 →
     (who = .firmware ∨ lockLine l s.toChip = false) → s.bridgeUp = true → s.bridge.trips = [] →
     (∃ t, exec (.lineModeOff who l onT offT) s = .next t ∧ t.reply = .ok ∧ getF Reg.LSW_LINE_MODE l t.toChip = 0 ∧
       t.lsw.level[l]?.getD false = false ∧ t.backup = s.backup ∧ t.store = s.store) ∧
     (∃ t, exec (.lineModeOn who l onT offT) s = .next t ∧ t.reply = .ok ∧ getF Reg.LSW_LINE_MODE l t.toChip = 1 ∧
       t.lsw.level[l]?.getD false = true ∧ t.backup = s.backup ∧ t.store = s.store) ∧
     (10 ≤ onT → onT ≤ 1000 → 10 ≤ offT → offT ≤ 1000 →
       ∃ t, exec (.lineModeBlink who l onT offT) s = .next t ∧ t.reply = .ok ∧ getF Reg.LSW_LINE_MODE l t.toChip = 2 ∧
         getF Reg.LSW_LINE_ON_T l t.toChip = onT ∧ getF Reg.LSW_LINE_OFF_T l t.toChip = offT ∧
         t.lsw.level[l]?.getD false = true ∧ t.backup = s.backup ∧ t.store = s.store) ∧
     (Settled s.toChip → onT < 10 ∨ 1000 < onT ∨ offT < 10 ∨ 1000 < offT →
       exec (.lineModeBlink who l onT offT) s = .next { s with reply := .range }) ∧
     (∀ line : Fin 48, s.lsw.granted = true → getF Reg.LSW_LINE_MODE line.val s.toChip = 2 →
       s.lsw.lineAt[line] + 10 * (if s.lsw.level[line] = true then getF Reg.LSW_LINE_ON_T line.val s.toChip
         else getF Reg.LSW_LINE_OFF_T line.val s.toChip) ≤ s.backup.ms →
       ∃ t, exec (.lineBlinkToggle line) s = .next t ∧
         t.lsw.level[line.val]?.getD false = !(s.lsw.level[line.val]?.getD false) ∧
         getF Reg.LSW_LINE_MODE line.val t.toChip = 2 ∧ t.backup = s.backup ∧ t.store = s.store))

/-- R337-R342, R344: trips of a channel that is on: outside its window the limiter trips it, inside it does not; the window's end
trips one that still limits; a junction above its limits trips it, to its own account or as sympathetic; a bank that sheds trips
the channel the rule picks. A trip with budget left waits for the retry, one without latches. An open load only flags.
R341: a bank whose sum has been above 8.0 A for 1.00 s, with no inrush window in that time, sheds, one channel per 20 ms (the first
20 ms after shedding begins: the model's choice, log 70), the highest-numbered that is on, follows an LSIN
ball or a pattern line and has FUNC 0, until the sum is at or below 8.0 A. -/
def Obligations.ChannelTripsAndBankSheds : Prop :=
  (∀ (s : State) (k : Fin 48), Settled s.toChip → s.lsw.granted = true → s.powered = true →
     (lsw k.val s.toChip).out = true → (lsw k.val s.toChip).hold = none →
     ((lsw k.val s.toChip).window = false →
       ∃ t, exec (.limiterEngage k) s = .next t ∧ (lsw k.val t.toChip).out = false ∧
         (lsw k.val t.toChip).retry = (lsw k.val s.toChip).retry - 1 ∧
         (lsw k.val t.toChip).latch = ((lsw k.val s.toChip).latch ||
           ((lsw k.val s.toChip).budget == 0 || (lsw k.val s.toChip).retry == 0)) ∧
         (lsw k.val t.toChip).tripAt = s.backup.ms ∧ t.store = s.store) ∧
     ((lsw k.val s.toChip).window = true → exec (.limiterEngage k) s = .next s) ∧
     ((lsw k.val s.toChip).window = true → (lsw k.val s.toChip).onAt + (lsw k.val s.toChip).u8 0xA ≤ s.backup.ms →
       (∃ t, exec (.inrushEnd k true) s = .next t ∧ (lsw k.val t.toChip).out = false ∧
         (lsw k.val t.toChip).retry = (lsw k.val s.toChip).retry - 1) ∧
       (∃ t, exec (.inrushEnd k false) s = .next t ∧ (lsw k.val t.toChip).window = false ∧
         (lsw k.val t.toChip).out = true)) ∧
     (∀ (tj caseT : Int) (peaks : Vector Int 8), 1750 ≤ tj ∨ 10 * ((lsw k.val s.toChip).u8 0xB : Int) < tj - caseT →
       ∃ t, exec (.thermalTrip k tj caseT peaks) s = .next t ∧ (lsw k.val t.toChip).out = false ∧
         (lsw k.val t.toChip).tj = tj ∧ (lsw k.val t.toChip).caseT = caseT ∧
         (lsw k.val t.toChip).retry = if (List.range 8).all (fun j => peaks[j]?.getD 0 ≤ peaks[k.val % 8]?.getD 0)
           then (lsw k.val s.toChip).retry - 1 else (lsw k.val s.toChip).retry) ∧
     ((lsw k.val s.toChip).window = false → (lsw k.val s.toChip).u8 0xC ≠ 0 →
       (lsw k.val s.toChip).winEnd + 100 ≤ s.backup.ms →
       exec (.openLoadOn k) s = .next { s with toChip :=
         (setF Reg.LSW_ST_EVT_CNT k.val (min (getF Reg.LSW_ST_EVT_CNT k.val
             (setBitF (lswStBit 3) k.val 0 true s.toChip) + 1) 255) (setBitF (lswStBit 3) k.val 0 true s.toChip)) })) ∧
  (∀ (s : State) (b : Fin 6), Settled s.toChip →
     (s.lsw.granted = true → getF Reg.LSW_BANK_OVL b.val s.toChip = 0 →
       (∀ j, j < 8 → (lsw (8 * b.val + j) s.toChip).out = false ∨ ((lsw (8 * b.val + j) s.toChip).window = false ∧
         (lsw (8 * b.val + j) s.toChip).winEnd + 1000 ≤ s.backup.ms)) →
       exec (.bankOverload b) s = .next { s with toChip := (setF Reg.LSW_BANK_OVL b.val 1
         { s.toChip with lsw := { s.lsw with shedAt := s.lsw.shedAt.setIfInBounds b.val s.backup.ms } }) }) ∧
     (getF Reg.LSW_BANK_OVL b.val s.toChip = 1 → s.lsw.shedAt[b] + 20 ≤ s.backup.ms → ∀ sum, sum ≤ 8000 →
       exec (.bankShed b sum) s = .next { s with toChip := (setF Reg.LSW_BANK_OVL b.val 0 s.toChip) }) ∧
     (getF Reg.LSW_BANK_OVL b.val s.toChip = 1 → s.backup.ms < s.lsw.shedAt[b] + 20 → ∀ sum, exec (.bankShed b sum) s = .next s) ∧
     (getF Reg.LSW_BANK_OVL b.val s.toChip = 1 → s.lsw.shedAt[b] + 20 ≤ s.backup.ms → ∀ sum k, 8000 < sum → shedPick b.val s.toChip = some k →
       ∃ t, exec (.bankShed b sum) s = .next t ∧ (lsw k t.toChip).out = false ∧ 8 * b.val ≤ k ∧ k < 8 * b.val + 8 ∧
         (lsw k s.toChip).out = true ∧ (lsw k s.toChip).func = 0 ∧ (lsw k s.toChip).kind ≠ 1 ∧
         (∀ j, k < j → j < 8 * b.val + 8 → (lsw j s.toChip).out = false ∨ (lsw j s.toChip).kind = 1 ∨ (lsw j s.toChip).func ≠ 0) ∧
         t.lsw.shedAt[b] = s.backup.ms ∧ t.backup.ms = s.backup.ms ∧ t.store = s.store))

/-- R338, R343-R345, R49: a class write, the off-state test, a retry, the budget's return, LSW_CLR with its checks in order, and the
end of a HOLD channel's 2 s. -/
def Obligations.ChannelTestsRetriesAndClears : Prop :=
  ∀ (s : State) (who : Writer) (k : Fin 48), writerStatus who s.toChip = .ok → s.lsw.granted = true →
    (∀ v : BitVec 3, (who = .firmware ∨ v.toNat ≤ getF Reg.LSW_CTL_DECKCLASS k.val s.toChip) → s.bridgeUp = true →
      s.bridge.trips = [] →
      ∃ t, exec (.lswClassWrite who k v) s = .next t ∧ t.reply = .ok ∧
        getF Reg.LSW_CTL_CLASS k.val t.toChip = min v.toNat (getF Reg.LSW_CTL_MAXCLASS k.val s.toChip) ∧
        getF Reg.DEV_TRUMP_CNT_COUNT 3 t.toChip =
          (if getF Reg.LSW_CTL_MAXCLASS k.val s.toChip < v.toNat
            then min (getF Reg.DEV_TRUMP_CNT_COUNT 3 s.toChip + 1) 0xFFFFFFFF else getF Reg.DEV_TRUMP_CNT_COUNT 3 s.toChip)) ∧
    (∀ v : BitVec 3, (∃ n, who = .session n) → getF Reg.LSW_CTL_DECKCLASS k.val s.toChip < v.toNat → Settled s.toChip →
      exec (.lswClassWrite who k v) s = .next { s with reply := .range }) ∧
    (Settled s.toChip → getF Reg.LSW_TEST_RUNNING 0 s.toChip = 0 → ∃ t, exec (.lswTest who true) s = .next t ∧ t.reply = .ok ∧
      ((lsw k.val s.toChip).cfg.isSome = true → (lsw k.val s.toChip).offTest = true → (lsw k.val s.toChip).out = false →
        (lsw k.val s.toChip).latch = false → (lsw k.val s.toChip).test = 0 →
        (lsw k.val s.toChip).wait = true ∨ lswInput (lsw k.val s.toChip) s.toChip = false →
        (lsw k.val t.toChip).test = 1 ∧ (lsw k.val t.toChip).testAt = s.backup.ms ∧ getF Reg.LSW_TEST_RUNNING 0 t.toChip = 1)) ∧
    (getF Reg.LSW_TEST_RUNNING 0 s.toChip = 1 → Settled s.toChip → exec (.lswTest who true) s = .next { s with reply := .busy }) ∧
    (∀ pull free vbb, (lsw k.val s.toChip).test ≠ 0 → (lsw k.val s.toChip).testAt + 2 ≤ s.backup.ms →
      ∃ t, exec (.offTestDone k pull free vbb) s = .next t ∧ (lsw k.val t.toChip).test = 0 ∧
        (lsw k.val t.toChip).latch =
          ((lsw k.val s.toChip).latch || (decide ((lsw k.val s.toChip).test = 2) && decide (3000 ≤ free)))) ∧
    (∀ tj caseT : Int, Settled s.toChip → (lsw k.val s.toChip).wait = true → (lsw k.val s.toChip).test = 0 →
      (lsw k.val s.toChip).tripAt + (lsw k.val s.toChip).waitMs ≤ s.backup.ms →
      lswCool { lsw k.val s.toChip with tj := tj, caseT := caseT } = true →
      ∃ t, exec (.lswRetry k tj caseT) s = .next t ∧
        (if (lsw k.val s.toChip).offTest = true then (lsw k.val t.toChip).test = 2 ∧ (lsw k.val t.toChip).wait = true ∧
            (lsw k.val t.toChip).testAt = s.backup.ms
          else (lsw k.val t.toChip).wait = false)) ∧
    ((lsw k.val s.toChip).out = true → (lsw k.val s.toChip).onAt + 10000 ≤ s.backup.ms →
      ∃ t, exec (.retryBudgetRestore k) s = .next t ∧ (lsw k.val t.toChip).retry = (lsw k.val s.toChip).budget) ∧
    ((lsw k.val s.toChip).cfg.isSome = true → lswCool (lsw k.val s.toChip) = true →
      ((lsw k.val s.toChip).func ≠ 1 ∨ lswInput (lsw k.val s.toChip) s.toChip = false) →
      ∃ t, exec (.lswClr who k.val true false) s = .next t ∧ t.reply = .ok ∧ (lsw k.val t.toChip).latch = false ∧
        (lsw k.val t.toChip).retry = (lsw k.val s.toChip).budget) ∧
    (∀ n, 48 ≤ n → Settled s.toChip → exec (.lswClr who n true false) s = .next { s with reply := .range }) ∧
    (∀ u : State, (lsw k.val u.toChip).hold = some true → (lsw k.val u.toChip).holdAt + 1950 ≤ u.backup.ms →
      ∃ t, exec (.holdTimeout k) u = .next t ∧ (lsw k.val t.toChip).out = false ∧ (lsw k.val t.toChip).hold = some false ∧
        t.backup = u.backup ∧ t.store = u.store)

/-- R351, R352, R354, R359: an input whose channels leave their run levels is demanded at once and takes the safety permission,
and with it the contactor, of its bay, or of every bay for inputs 16 and 17; back at run an input with automatic restart acts no
more. R353: channels that disagree past T_DISC are a discrepancy fault.
R369, R370: a press of SRST begins, is classified as stuck at 5,001 ms, also where it ends only then, and ends: one of 200-5,000 ms is a restart edge, which
clears pending demands whose inputs are run, sets no fault and moves no axis. -/
def Obligations.SafetyInputsDemandAndRestart : Prop :=
  ((∀ (s : State) (k : Fin 18) (a b : Bool), s.powered = true → inputOn k.val s.toChip = true →
     (safIn k.val s.toChip).dem = false → ¬(a = true ∧ (b != (getF Reg.SAF_INCFG_POL k.val s.toChip == 1)) = true) →
     ∃ t, exec (.safetyInputChange k a b) s = .next t ∧ (safIn k.val t.toChip).dem = true ∧
       (manualRestart k.val s.toChip = true → (safIn k.val t.toChip).pend = true) ∧
       (∀ n, n < 16 → n = k.val ∨ 16 ≤ k.val → safeOk n t.toChip = false ∧ (hslBay n t.toChip).gate = false) ∧
       (∀ n, n < 16 → n = k.val ∨ 16 ≤ k.val → axisOn n s.toChip = true → getF Reg.SAF_INCFG_STOP_CAT k.val s.toChip ≠ 1 →
         (axis n t.toChip).rel = none) ∧ t.store = s.store ∧ t.hsl.latch = s.hsl.latch) ∧
   (∀ (s : State) (k : Fin 18) (b : Bool), s.powered = true → inputOn k.val s.toChip = true →
     manualRestart k.val s.toChip = false → (safIn k.val s.toChip).pend = false → discFault k.val s.toChip = false →
     (b != (getF Reg.SAF_INCFG_POL k.val s.toChip == 1)) = true →
     ∃ t, exec (.safetyInputChange k true b) s = .next t ∧ inputActs k.val t.toChip = false) ∧
   (∀ (s : State) (k : Fin 18) (t0 : Nat), inputOn k.val s.toChip = true → discFault k.val s.toChip = false →
     (safIn k.val s.toChip).disAt = some t0 → t0 + getF Reg.SAF_INCFG_T_DISC k.val s.toChip + 1 ≤ s.backup.ms →
     ∃ t, exec (.discrepancyTimeout k) s = .next t ∧ discFault k.val t.toChip = true ∧
       (∀ n, n < 16 → n = k.val ∨ 16 ≤ k.val → safeOk n t.toChip = false ∧ (hslBay n t.toChip).gate = false ∧
         (axisOn n s.toChip = true → (axisFaults n t.toChip).getLsbD 2 = true ∧ (axis n t.toChip).rel = none)) ∧
       t.store = s.store ∧ t.hsl.latch = s.hsl.latch)) ∧
  (∀ s : State, Settled s.toChip →
     (s.powered = true → s.logicUp = true → s.saf.press = none → s.saf.stale = false →
       exec .srstPressStart s = .next { s with toChip := (setF Reg.SAF_SRST_HELD 0 1
         { s.toChip with saf := { s.saf with press := some s.backup.ms, stuck := false } }) }) ∧
     (∀ t0, s.saf.press = some t0 → s.saf.stuck = false → t0 + 5001 ≤ s.backup.ms →
       ∃ t, exec .srstStuck s = .next t ∧ t.saf.stuck = true ∧ getF Reg.SAF_STAT_SRST_STUCK 0 t.toChip = 1 ∧
         getF Reg.SAF_SRST_STUCK_CNT 0 t.toChip = min (getF Reg.SAF_SRST_STUCK_CNT 0 s.toChip + 1) 255) ∧
     (∀ t0 scEdge, s.saf.press = some t0 → s.saf.stuck = false → s.saf.on = true → 200 ≤ s.backup.ms - t0 →
       s.backup.ms - t0 ≤ 5000 → scEdge = true ∨ archDual s.toChip = false →
       ∃ t, exec (.srstRelease scEdge) s = .next t ∧ t.saf.press = none ∧
         (∀ k, k < 18 → inputOn k s.toChip = true → (safIn k s.toChip).dem = false → restOf k s.toChip = true →
           discFault k s.toChip = false → (safIn k t.toChip).pend = false) ∧
         (∀ n, axisFaults n t.toChip &&& ~~~(axisFaults n s.toChip) = 0) ∧
         (∀ n, (axis n t.toChip).rel = (axis n s.toChip).rel ∧ (axis n t.toChip).cmd = (axis n s.toChip).cmd)) ∧
     (∀ t0 scEdge, s.saf.press = some t0 → s.saf.stuck = false → t0 + 5001 ≤ s.backup.ms →
       ∃ t, exec (.srstRelease scEdge) s = .next t ∧ t.saf.press = none ∧ getF Reg.SAF_STAT_SRST_STUCK 0 t.toChip = 1 ∧
         getF Reg.SAF_SRST_STUCK_CNT 0 t.toChip = min (getF Reg.SAF_SRST_STUCK_CNT 0 s.toChip + 1) 255 ∧
         t.saf.inp = s.saf.inp ∧ t.saf.axis = s.saf.axis ∧ t.backup = s.backup) ∧
     (∀ t0 scEdge, s.saf.press = some t0 → s.backup.ms < t0 + 200 ∨ s.saf.stuck = true →
       exec (.srstRelease scEdge) s = .next { s with toChip :=
         (setF Reg.SAF_SRST_HELD 0 0 (setF Reg.SAF_SRST_LAST_MS 0 (min (s.backup.ms - t0) 65535)
           { s.toChip with saf := { s.saf with stale := false, press := none, stuck := false } })) }))

/-- R360, R363, R366, R367: speed commands clamped to SPEED_MAX, the normal stop, the brake 50 ms after the release, the AXCMD
of every 10 ms, AXSTAT messages and the loss of a drive link. -/
def Obligations.AxesAreCommanded : Prop :=
  ∀ (s : State) (n : Fin 16),
    (∀ (who : Writer) (mode : BitVec 2) (v : BitVec 10), writerStatus who s.toChip = .ok →
      (who = .firmware ∨ inService s.toChip = true) → s.upd.pause = false → permission n.val s.toChip = true →
      axisState n.val s.toChip = 1 ∨ axisState n.val s.toChip = 2 → (axis n.val s.toChip).lost = false →
      (hslBay n.val s.toChip).gate = false → s.bridgeUp = true → s.bridge.trips = [] →
      (mode = 1 ∨ mode = 2 → 1 ≤ v.toNat → v.toNat ≤ 1000 → 1 ≤ getF Reg.SAF_AXLIM_SPEED_MAX n.val s.toChip →
        ∃ t, exec (.safSpdWrite who n mode v) s = .next t ∧ t.reply = .ok ∧ (axis n.val t.toChip).mode = mode.toNat ∧
          (axis n.val t.toChip).cmd = min v.toNat (getF Reg.SAF_AXLIM_SPEED_MAX n.val s.toChip) ∧
          (axis n.val t.toChip).rel = some ((axis n.val s.toChip).rel.getD s.backup.ms) ∧
          getF Reg.DEV_TRUMP_CNT_COUNT 5 t.toChip =
            (if getF Reg.SAF_AXLIM_SPEED_MAX n.val s.toChip < v.toNat
              then min (getF Reg.DEV_TRUMP_CNT_COUNT 5 s.toChip + 1) 0xFFFFFFFF else getF Reg.DEV_TRUMP_CNT_COUNT 5 s.toChip)) ∧
      (mode = 0 → v.toNat ≤ 1000 → (axis n.val s.toChip).rel.isSome = true → (axis n.val s.toChip).stopAt = none →
        ∃ t, exec (.safSpdWrite who n mode v) s = .next t ∧ t.reply = .ok ∧ (axis n.val t.toChip).cmd = 0 ∧
          (axis n.val t.toChip).stopAt = some s.backup.ms ∧
          (axis n.val t.toChip).v0 = speed8 n.val (axis n.val s.toChip) s.toChip ∧
          (axis n.val t.toChip).rel = (axis n.val s.toChip).rel)) ∧
    (∀ t0, (axis n.val s.toChip).rel = some t0 → axisState n.val s.toChip = 2 → s.hsl.brake[n.val]?.getD false = false →
      t0 + 50 ≤ s.backup.ms →
      ∃ t, exec (.brakeReleaseDelay n) s = .next t ∧ t.hsl.brake[n.val]?.getD false = true ∧
        (∀ m, m ≠ n.val → t.hsl.brake[m]?.getD false = s.hsl.brake[m]?.getD false)) ∧
    (driveUp n.val s.toChip = true → (axis n.val s.toChip).txAt + 10 ≤ s.backup.ms →
      ∃ t, exec (.axcmdSend n) s = .next t ∧ (axis n.val t.toChip).txCnt = ((axis n.val s.toChip).txCnt + 1) % 256 ∧
        (axis n.val t.toChip).last = axcmdBytes (getF Reg.SAF_AXCFG_DRV_NODE n.val s.toChip)
          (((axis n.val s.toChip).txCnt + 1) % 256)
          (if ((axis n.val s.toChip).stopAt.isNone && s.hsl.brake[n.val]?.getD false) = true then (axis n.val s.toChip).mode else 0)
          (if ((axis n.val s.toChip).stopAt.isNone && s.hsl.brake[n.val]?.getD false) = true then (axis n.val s.toChip).cmd else 0)
          (getF Reg.SAF_AXLIM_DECEL n.val s.toChip) ∧ (axis n.val t.toChip).txAt = s.backup.ms ∧ t.hsl.brake = s.hsl.brake) ∧
    (Settled s.toChip → s.backup.ms < (axis n.val s.toChip).txAt + 10 → exec (.axcmdSend n) s = .next s) ∧
    (∀ (msg : List Byte) (cnt missed : Nat), driveUp n.val s.toChip = true →
      canCheck (0x280 + getF Reg.SAF_AXCFG_DRV_NODE n.val s.toChip) (axis n.val s.toChip).cnt (Byte.nats msg) =
        .accepted cnt missed → 2 ≤ (axis n.val s.toChip).okRun →
      ∃ t, exec (.axstat n msg) s = .next t ∧ getF Reg.SAF_AXSTAT_DRV_ONLINE n.val t.toChip = 1 ∧
        (axis n.val t.toChip).lost = false ∧ (axis n.val t.toChip).rxAt = s.backup.ms) ∧
    (axisOn n.val s.toChip = true → getF Reg.SAF_AXCFG_DRV_PORT n.val s.toChip ≠ 3 → (axis n.val s.toChip).lost = false →
      (axis n.val s.toChip).rxAt + 60 ≤ s.backup.ms →
      ∃ t, exec (.driveLinkLost n) s = .next t ∧ getF Reg.SAF_AXSTAT_DRV_ONLINE n.val t.toChip = 0 ∧
        (axis n.val t.toChip).lost = true ∧
        ((axis n.val s.toChip).rel.isSome = true → (axis n.val s.toChip).stopAt = none →
          (axis n.val t.toChip).stopAt = some s.backup.ms ∧ (axis n.val t.toChip).cmd = 0))

/-- R361, R362: every check counts each configured axis's encoder into its position and speed, and an encoder whose channels change
together or count too fast stops its axis with cause 5.
R357, R364, R365, R371: STO pulses and readbacks, the comparison of the two channels, and the faults of the safety core. -/
def Obligations.SpeedCheckAndSafetyFaults : Prop :=
  (∀ (s : State) (ticks : Vector EncTick 16) (n : Fin 16), s.powered = true → s.saf.on = true → axisOn n.val s.toChip = true →
     ∃ t, exec (.speedCheck ticks) s = .next t ∧
       getF Reg.SAF_AXPOS_POS n.val t.toChip =
         unsigned 32 (signed 32 (getF Reg.SAF_AXPOS_POS n.val s.toChip) + ticks[n].delta) ∧
       (axis n.val t.toChip).hist = (ticks[n].delta :: (axis n.val s.toChip).hist).take 8 ∧
       (ticks[n].both = true ∨ 2000 < ticks[n].delta.natAbs →
         (axisFaults n.val t.toChip).getLsbD 5 = true ∧ (axis n.val t.toChip).rel = none ∧
           t.hsl.brake[n.val]?.getD false = false ∧ safeOk n.val t.toChip = false) ∧
       t.store = s.store ∧ t.hsl.latch = s.hsl.latch ∧ t.backup.ms = s.backup.ms) ∧
  (∀ (s : State) (n : Fin 16),
     (Settled s.toChip → axisOn n.val s.toChip = true → (axis n.val s.toChip).rel.isSome = true →
       ((axis n.val s.toChip).pulseA + 1000 ≤ s.backup.ms → exec (.stoTestPulse n false) s = .next { s with toChip :=
         (axisPut n.val { axis n.val s.toChip with pulseA := s.backup.ms } s.toChip) }) ∧
       ((axis n.val s.toChip).pulseA + 500 ≤ s.backup.ms → (axis n.val s.toChip).pulseB < (axis n.val s.toChip).pulseA + 500 →
         exec (.stoTestPulse n true) s = .next { s with toChip :=
           (axisPut n.val { axis n.val s.toChip with pulseB := s.backup.ms } s.toChip) })) ∧
     (∀ a b, axisOn n.val s.toChip = true → a ≠ (axis n.val s.toChip).rel.isSome ∨ b ≠ (axis n.val s.toChip).rel.isSome →
       ∃ t, exec (.stoReadbackFault n a b) s = .next t ∧ (axisFaults n.val t.toChip).getLsbD 7 = true ∧
         (axis n.val t.toChip).rel = none ∧ (axis n.val t.toChip).readBad = true ∧ safeOk n.val t.toChip = false ∧
         (hslBay n.val t.toChip).gate = false) ∧
     (archDual s.toChip = true → axisOn n.val s.toChip = true →
       ∃ t, exec (.channelDisagree n) s = .next t ∧ (axisFaults n.val t.toChip).getLsbD 8 = true ∧
         (axis n.val t.toChip).rel = none ∧ safeOk n.val t.toChip = false ∧ (hslBay n.val t.toChip).gate = false) ∧
     (Settled s.toChip → s.logicUp = true → s.saf.scTest = false → exec .scMismatch s = .next { s with
       saf := { s.saf with scTest := true, scPassed := false },
       bridge := { s.bridge with trips := s.bridge.trips ++ [.safety] } }) ∧
     (s.powered = true → s.saf.on = true → s.saf.scTest = false →
       ∃ t, exec .scHeartbeatLoss s = .next t ∧ t.saf.scFault = true ∧ t.saf.scTest = true ∧
         (∀ t0, s.saf.scAt = some t0 → s.backup.ms < t0 + 3600000 → t.saf.scHeld = true) ∧
         (∀ m, m < 16 → safeOk m t.toChip = false ∧ (hslBay m t.toChip).gate = false) ∧
         (axisOn n.val s.toChip = true → (axisFaults n.val t.toChip).getLsbD 9 = true ∧ (axis n.val t.toChip).rel = none)) ∧
     (∀ pass, Settled s.toChip → s.saf.scTest = true →
       exec (.scSelftestDone pass) s = .next { s with saf := { s.saf with scTest := false, scPassed := pass } }))

/-- R378-R386: a poll, due POLL_MS after the last, makes one presentation of a single new credential; the verdict, T_HOST and T_PEND decide it. -/
def Obligations.ReaderPresentsAndDecides : Prop :=
  (∀ (s : State) (cards : List ReaderCard) (ue : Bool) (ns : Nat), readerOn s.toChip = true →
    pollDue s.toChip = true →
    (∀ k, (polled cards s.toChip).length ≤ 8 → polledCreds cards s.toChip = [k] → s.nfc.seen.contains k = false →
      ∃ t, exec (.readerPoll cards ue ns) s = .next t ∧ getF Reg.NFC_STAT_PRES 0 t.toChip = 1 ∧
        getF Reg.NFC_PRES_PRES_NO 0 t.toChip = (if getF Reg.NFC_PRES_PRES_NO 0 s.toChip = 65535 then 1
          else getF Reg.NFC_PRES_PRES_NO 0 s.toChip + 1) % 65536 ∧
        getF Reg.NFC_PRES_KIND 0 t.toChip = k.1 % 4 ∧ t.nfc.hash = idHash k.1 k.2 ∧ t.nfc.seen = [k] ∧
        t.nfc.at_ = s.backup.ms ∧ t.nfc.pollAt = some s.backup.ms ∧
        getF Reg.HST_EVTSEQ_SEQ 0 t.toChip = (getF Reg.HST_EVTSEQ_SEQ 0 s.toChip + 1) % 2 ^ 32 ∧ t.store = s.store ∧
        t.backup = s.backup) ∧
    (8 < (polled cards s.toChip).length →
      ∃ t, exec (.readerPoll cards ue ns) s = .next t ∧ getF Reg.NFC_PRES_RESULT 0 t.toChip = 10 ∧
        getF Reg.NFC_STAT_MULTI 0 t.toChip = 1 ∧ getF Reg.NFC_STAT_OVER8 0 t.toChip = 1 ∧
        getF Reg.NFC_PRES_PRES_NO 0 t.toChip = getF Reg.NFC_PRES_PRES_NO 0 s.toChip ∧ t.nfc.hash = s.nfc.hash ∧
        t.bay = s.bay ∧ t.store = s.store)) ∧
  (∀ (s : State) (who : Writer) (no bay : Nat) (useBay : Bool), writerStatus who s.toChip = .ok → no ≠ 0 →
    no = getF Reg.NFC_PRES_PRES_NO 0 s.toChip →
    (Settled s.toChip → s.nfc.wait = some .verdict → exec (.nfcVerdict who no 2 bay useBay) s = .next { s with toChip :=
      { setF Reg.NFC_PRES_RESULT 0 7 { s.toChip with nfc := { s.nfc with wait := none } } with reply := .ok } }) ∧
    (s.nfc.wait = some .verdict → eligible 0xFFFF bay s.toChip = true →
      ∃ t, exec (.nfcVerdict who no 1 bay true) s = .next t ∧ t.reply = .ok ∧ getF Reg.NFC_PRES_RESULT 0 t.toChip = 2 ∧
        getF Reg.NFC_PRES_BAY 0 t.toChip = bay ∧ (bayGet bay t.toChip).cardCmd = some s.nfc.hash ∧
        (∀ m, m ≠ bay → bayGet m t.toChip = bayGet m s.toChip) ∧ t.store = s.store) ∧
    (s.nfc.wait ≠ some .verdict → ∀ v, v = 1 ∨ v = 2 →
      ∃ t, exec (.nfcVerdict who no v bay useBay) s = .next t ∧ t.reply = .ok ∧ getF Reg.NFC_STAT_LATE 0 t.toChip = 1 ∧
        t.nfc = s.nfc ∧ t.bay = s.bay ∧ t.store = s.store)) ∧
  (∀ (s : State) (ue : Bool) (ns : Nat), s.pwr.phase = .run →
    (s.nfc.wait = some .verdict → s.nfc.at_ + getF Reg.NFC_CFG2_T_HOST 0 s.toChip ≤ s.backup.ms →
      (Settled s.toChip → authMode s.toChip ≠ 1 → exec (.tHostExpiry ue ns) s = .next { s with toChip :=
        (setF Reg.NFC_PRES_RESULT 0 7 { s.toChip with nfc := { s.nfc with wait := none } }) }) ∧
      (authMode s.toChip = 1 → getF Reg.NFC_STAT_TABLE_READY 0 s.toChip = 1 →
        ∃ t, exec (.tHostExpiry ue ns) s = .next t ∧
          getF Reg.NFC_LOOKUP_COUNT 0 t.toChip = min (getF Reg.NFC_LOOKUP_COUNT 0 s.toChip + 1) 65535 ∧
          (ue = true → getF Reg.NFC_PRES_RESULT 0 t.toChip = 12 ∧ getF Reg.NFC_STAT_UNCORR 0 t.toChip = 1) ∧
          (ue = false → credLookup s.nfc.hash s.nfc.table = none → getF Reg.NFC_PRES_RESULT 0 t.toChip = 3) ∧
          (∀ e, ue = false → credLookup s.nfc.hash s.nfc.table = some e → (credFlags e).testBit 1 = true →
            getF Reg.NFC_PRES_RESULT 0 t.toChip = 4) ∧ t.nfc.table = s.nfc.table ∧ t.store = s.store)) ∧
    (∀ p, Settled s.toChip → s.nfc.pend = some p → p.since + 1000 * getF Reg.NFC_CFG_T_PEND 0 s.toChip ≤ s.backup.ms →
      exec .tPendExpiry s = .next { s with toChip :=
      (setF Reg.NFC_PRES_RESULT 0 9 { s.toChip with nfc := { s.nfc with pend := none } }) }))

/-- R387-R394: a delta is applied whole or rejected whole; checkpoints and the load of the table at a start. -/
def Obligations.CredentialsAreKept : Prop :=
  (∀ (s : State) (rq : Request) (bytes : List Byte) (sigOk journalOk : Bool), Owns rq.sess.val s.toChip →
    s.sec.full = false → getF Reg.NFC_STAT_TABLE_READY 0 s.toChip = 1 →
    (deltaFault (Byte.nats bytes) (deltaOf (Byte.nats bytes)) sigOk journalOk s.toChip = none →
      ∃ t, exec (.credDelta rq bytes sigOk journalOk) s = .next t ∧ Answered 0x42 rq .ok [] t.toChip ∧
        t.nfc.table = (credApply (deltaOf (Byte.nats bytes)) s.nfc.table).1 ∧
        t.emmc.cred.journal = s.emmc.cred.journal ++ [deltaOf (Byte.nats bytes)] ∧
        getF Reg.NFC_TBL_GEN_GEN 0 t.toChip = (deltaOf (Byte.nats bytes)).to_ % 2 ^ 32 ∧
        getF Reg.NFC_DELTA_REASON 0 t.toChip = 0 ∧ t.store = s.store) ∧
    (∀ r st, deltaFault (Byte.nats bytes) (deltaOf (Byte.nats bytes)) sigOk journalOk s.toChip = some (r, st) →
      ∃ t, exec (.credDelta rq bytes sigOk journalOk) s = .next t ∧ Answered 0x42 rq st [] t.toChip ∧ t.nfc = s.nfc ∧
        t.emmc = s.emmc ∧ getF Reg.NFC_DELTA_REASON 0 t.toChip = r % 256 ∧ getF Reg.NFC_STAT_DELTA_REJ 0 t.toChip = 1 ∧
        getF Reg.NFC_TBL_GEN_GEN 0 t.toChip = getF Reg.NFC_TBL_GEN_GEN 0 s.toChip ∧ t.store = s.store)) ∧
  (∀ (s : State) (img : CredImage), s.nfc.ckpt = some img →
    (∃ t, exec (.checkpointDone true) s = .next t ∧ t.nfc.ckpt = none ∧ t.nfc.retry = false ∧ t.emmc.cred.journal = [] ∧
      (imgNewerA s.emmc.cred = true → t.emmc.cred.imgB = some img ∧ t.emmc.cred.imgA = s.emmc.cred.imgA) ∧
      (imgNewerA s.emmc.cred = false → t.emmc.cred.imgA = some img ∧ t.emmc.cred.imgB = s.emmc.cred.imgB) ∧
      t.nfc.table = s.nfc.table ∧ t.store = s.store) ∧
    (∃ t, exec (.checkpointDone false) s = .next t ∧ t.nfc.ckpt = none ∧ t.nfc.retry = true ∧
      t.emmc.cred.journal = s.emmc.cred.journal ∧ getF Reg.NFC_STAT_CKPT_FAIL 0 t.toChip = 1 ∧
      t.nfc.table = s.nfc.table ∧ t.store = s.store)) ∧
  (∀ s : State, s.nfc.retry = true → s.nfc.failAt + 60000 ≤ s.backup.ms → ∃ t, exec .checkpointRetry s = .next t ∧ t.nfc.retry = false ∧
    t.nfc.ckpt = some { gen := getF Reg.NFC_TBL_GEN_GEN 0 s.toChip, slots := s.nfc.table.slots, stash := s.nfc.table.stash } ∧
    getF Reg.NFC_TBL_STAT_CKPT 0 t.toChip = 1 ∧ t.emmc = s.emmc ∧ t.store = s.store) ∧
  (∀ (s : State) (okA okB ue : Bool) (valid ns : Nat), s.pwr.phase = .run →
    getF Reg.NFC_STAT_TABLE_READY 0 s.toChip = 0 →
    let a := if okA then s.emmc.cred.imgA else none
    let b := if okB then s.emmc.cred.imgB else none
    let img := if imgNewerA { s.emmc.cred with imgA := a, imgB := b, journal := s.emmc.cred.journal.take valid } then a else b
    let base : CredTable := match img with
      | some i => { slots := i.slots, stash := i.stash }
      | none => {}
    ∃ t, exec (.credTableLoaded okA okB valid ue ns) s = .next t ∧ getF Reg.NFC_STAT_TABLE_READY 0 t.toChip = 1 ∧
      t.nfc.table = (replay (s.emmc.cred.journal.take valid) ((img.map (·.gen)).getD 0) base 0).2.1 ∧
      getF Reg.NFC_TBL_GEN_GEN 0 t.toChip =
        (replay (s.emmc.cred.journal.take valid) ((img.map (·.gen)).getD 0) base 0).1 % 2 ^ 32 ∧
      (img = none → getF Reg.NFC_STAT_TBL_LOST 0 t.toChip = 1) ∧ t.store = s.store)

/-- R395-R399, R403: the tag's field commands, its sessions, its page writes and the wired side. -/
def Obligations.TagAnswersItsField : Prop :=
  (∀ s : State,
    (∀ aid : List Byte, Byte.nats aid = s.tag.aid → s.tag.aid ≠ [] →
      ∃ t, exec (.tagSelect aid) s = .next t ∧ t.tag = { s.tag with open_ := true, resp := [0x90, 0x00] } ∧
        getF Reg.NFC_TAGSTAT_FIELD 0 t.toChip = 1 ∧ t.store = s.store ∧ t.backup = s.backup) ∧
    (∃ t, exec .tinfo s = .next t ∧ t.tag.resp = tagPage 0 s.toChip ++ [0x90, 0x00] ∧ t.tag.mem = s.tag.mem ∧
      t.store = s.store) ∧
    (∀ data : List Byte, s.tag.open_ = true →
      (s.tag.locked = false → data.length = 16 →
        ∃ t, exec (.chal data) s = .next t ∧ t.tag = { s.tag with
          chal := some (Byte.nats data, Byte.le 16 (Config.tagNonce s.tag.drawn).toNat), key := none, ctr := 0
          drawn := s.tag.drawn + 1
          resp := (Byte.le 16 (Config.tagNonce s.tag.drawn).toNat ++ cmac (tagKey s.toChip) ([1] ++ tagUid s.toChip ++
            Byte.nats data ++ Byte.le 16 (Config.tagNonce s.tag.drawn).toNat) ++ [0x90, 0x00]) }) ∧
      (s.tag.locked = true → ∃ t, exec (.chal data) s = .next t ∧ t.tag.resp = [0x69, 0x83] ∧ t.tag.key = none)) ∧
    (∀ (data : List Byte) (nr nt : List Nat), s.tag.chal = some (nr, nt) → data.length = 16 →
      (Byte.nats data = cmac (tagKey s.toChip) ([2] ++ tagUid s.toChip ++ nt ++ nr) →
        ∃ t, exec (.muta data) s = .next t ∧ t.tag.chal = none ∧ t.tag.ctr = 0 ∧ t.tag.fails = s.tag.fails ∧
          t.tag.key = some (cmac (tagKey s.toChip) ([3] ++ nr ++ nt ++ tagUid s.toChip), nt)) ∧
      (Byte.nats data ≠ cmac (tagKey s.toChip) ([2] ++ tagUid s.toChip ++ nt ++ nr) →
        ∃ t, exec (.muta data) s = .next t ∧ t.tag.chal = none ∧ t.tag.key = none ∧ t.tag.resp = [0x63, 0x00] ∧
          t.tag.fails = s.tag.fails + 1 ∧ t.tag.locked = decide (3 ≤ s.tag.fails + 1))) ∧
    (∀ (ks nt : List Nat) (p1 page : Byte), s.tag.key = some (ks, nt) → s.tag.write = none →
      (fieldReads page.toNat = true → ∃ t, exec (.tread p1 page) s = .next t ∧ t.tag.ctr = s.tag.ctr + 1 ∧
        t.tag.resp = ccmSeal ks (tagNonceOf 1 s.tag.ctr nt) [0xC2, 0x36, p1.toNat, page.toNat] (tagPage page.toNat s.toChip) ++
          [0x90, 0x00] ∧ t.tag.mem = s.tag.mem ∧ t.tag.opened.contains page.toNat = true) ∧
      (∀ (data : List Byte) (plain : List Nat), data.length = 72 → fieldWrites page.toNat = true →
        ccmOpen ks (tagNonceOf 0 s.tag.ctr nt) [0xC2, 0x38, p1.toNat, page.toNat] (Byte.nats data) = some plain →
        (∃ t, exec (.twrite p1 page data true) s = .next t ∧ t.tag.ctr = s.tag.ctr + 1 ∧ t.tag.mem = s.tag.mem ∧
          t.tag.write = some { wired := false, page := page.toNat, data := plain }) ∧
        (∃ t, exec (.twrite p1 page data false) s = .next t ∧ t.tag.ctr = s.tag.ctr + 1 ∧ t.tag.mem = s.tag.mem ∧
          t.tag.write = none))) ∧
    (Settled s.toChip → exec .tagApduUnknown s = .next { s with tag := { s.tag with resp := [0x6D, 0x00] } }) ∧
    (s.tag.open_ = true →
      (∃ t, exec .tagDeselect s = .next t ∧ FieldSessionEnded s.toChip t.toChip ∧ t.tag.locked = s.tag.locked) ∧
      (∃ t, exec .tagSessionTimeout s = .next t ∧ FieldSessionEnded s.toChip t.toChip ∧ t.tag.locked = s.tag.locked) ∧
      (∃ t, exec .tagFieldLoss s = .next t ∧ FieldSessionEnded s.toChip t.toChip ∧ t.tag.locked = false)) ∧
    (∀ w, s.tag.write = some w → w.page ≠ 0 → ∃ t, exec .tagWriteDone s = .next t ∧ t.tag.write = none ∧
      tagPage w.page t.toChip = (List.range 64).map (fun k => Byte.u8 w.data k % 256) ∧
      (w.wired = true → getF Reg.NFC_TAGSTAT_BUSY 0 t.toChip = 0 ∧ getF Reg.NFC_TAGSTAT_RESULT 0 t.toChip = 1)) ∧
    (∀ x, s.tag.wired = some x → s.tag.wiredAt + 200 ≤ s.backup.ms → ∃ t, exec .tagWiredWaitTimeout s = .next t ∧ t.tag = { s.tag with wired := none } ∧
      getF Reg.NFC_TAGSTAT_BUSY 0 t.toChip = 0 ∧ getF Reg.NFC_TAGSTAT_RESULT 0 t.toChip = 3)) ∧
  (∀ (s : State) (who : Writer) (page : Byte), writerStatus who s.toChip = .ok → getF Reg.NFC_CFG_TAG_EN 0 s.toChip = 1 →
    getF Reg.NFC_TAGSTAT_BUSY 0 s.toChip = 0 →
    (fieldReads page.toNat = true → ∃ t, exec (.tagWiredRead who page) s = .next t ∧ t.reply = .ok ∧
      getF Reg.NFC_TAGSTAT_RESULT 0 t.toChip = 1 ∧ getF Reg.NFC_TAGSTAT_PAGE 0 t.toChip = page.toNat ∧
      (∀ j, j < 16 → getF Reg.NFC_TAGDATA_DATA j t.toChip = Byte.u32 (tagPage page.toNat s.toChip) (4 * j) % 2 ^ 32) ∧
      t.tag = s.tag) ∧
    (fieldWrites page.toNat = true → ∃ t, exec (.tagWiredWrite who page) s = .next t ∧ t.reply = .ok ∧
      (s.tag.write = none ∨ s.tag.opened.contains page.toNat = true → getF Reg.NFC_TAGSTAT_BUSY 0 t.toChip = 1) ∧
      (s.tag.opened.contains page.toNat = true → getF Reg.NFC_TAGSTAT_RESULT 0 t.toChip = 2 ∧
        t.tag = { s.tag with wired := some (page.toNat, tagBuffer s.toChip), wiredAt := s.backup.ms }) ∧
      (s.tag.opened.contains page.toNat = false → getF Reg.NFC_TAGSTAT_RESULT 0 t.toChip = 0 ∧
        t.tag.write = some { wired := true, page := page.toNat, data := tagBuffer s.toChip })))

/-- R404-R407, R418: frames of the emissive panel, the swap of its buffers, the column current and the crack loops.
R408-R411, R416: the legal panel: an update completes after its frames of 20 ms, the hourly window admits a deferred one, the thermistor is measured. -/
def Obligations.PanelsSwapUpdateAndCrack : Prop :=
  ((∀ s : State,
     (framesRun s.toChip = true → s.pwr.vcolOk = true → ∃ t, exec .emissiveFrameStart s = .next t ∧
       getF Reg.DSP_ESTAT_SWAP_PEND 0 t.toChip = (if getF Reg.DSP_ESTAT_SWAP_PEND 0 s.toChip = 1 then 0
         else getF Reg.DSP_ESTAT_SWAP_PEND 0 s.toChip) ∧
       getF Reg.DSP_ESTAT_FRONT 0 t.toChip = (if getF Reg.DSP_ESTAT_SWAP_PEND 0 s.toChip = 1 then
         (1 - getF Reg.DSP_ESTAT_FRONT 0 s.toChip) % 2 else getF Reg.DSP_ESTAT_FRONT 0 s.toChip) ∧
       getF Reg.DSP_ECTL_APPLIED 0 t.toChip = colApplied s.toChip % 512 ∧ getF Reg.DSP_ESTAT_SCAN 0 t.toChip = 1 ∧
       getF Reg.DSP_ESTAT_FRAME 0 t.toChip = (getF Reg.DSP_ESTAT_FRAME 0 s.toChip + 1) % 65536 ∧ t.dsp.buf = s.dsp.buf ∧
       t.store = s.store ∧ t.backup = s.backup) ∧
     (Settled s.toChip → framesRun s.toChip = false →
       exec .emissiveFrameStart s = .next { s with toChip := (setF Reg.DSP_ESTAT_SCAN 0 0 s.toChip) })) ∧
   (∀ (s : State) (who : Writer), Settled s.toChip → writerStatus who s.toChip = .ok →
     (getF Reg.DSP_ESTAT_SWAP_PEND 0 s.toChip = 1 → exec (.dspSwap who) s = .next { s with reply := .busy }) ∧
     (getF Reg.DSP_ESTAT_SWAP_PEND 0 s.toChip ≠ 1 → exec (.dspSwap who) s = .next { s with toChip :=
       { setF Reg.DSP_ESTAT_SWAP_PEND 0 1 s.toChip with reply := .ok } }) ∧
     exec (.dspLcmdFull who) s = .next { s with reply := .ok, dsp := { s.dsp with full := true } } ∧
     (∀ (v : BitVec 9) (k : Fin 6), who = .session k → cardU16 0x0090 0 4 511 s.toChip < v.toNat →
       exec (.dspIcolWrite who v) s = .next { s with reply := .range }) ∧
     (∀ v : BitVec 9, who = .firmware ∨ v.toNat ≤ cardU16 0x0090 0 4 511 s.toChip → s.bridgeUp = true →
       s.bridge.trips = [] →
       (v.toNat ≤ trumpU16 0x98 s.toChip → exec (.dspIcolWrite who v) s = .next { s with toChip :=
         { setF Reg.DSP_ECTL_I_COL 0 v.toNat (flitSent s.toChip) with reply := .ok } }) ∧
       (trumpU16 0x98 s.toChip < v.toNat → ∃ t, exec (.dspIcolWrite who v) s = .next t ∧ t.reply = .ok ∧
         getF Reg.DSP_ECTL_I_COL 0 t.toChip = v.toNat ∧ (getF Reg.DEV_TRUMP_FLAG_CLAMP 0 t.toChip).testBit 6 = true ∧
         getF Reg.DEV_TRUMP_CNT_COUNT 6 t.toChip = min (getF Reg.DEV_TRUMP_CNT_COUNT 6 s.toChip + 1) 0xFFFFFFFF))) ∧
   (∀ s : State, s.pwr.phase = .run →
     ((cardPayload 0x0091 0 s.toChip).isSome = true →
       (1 ≤ s.dsp.failL → getF Reg.DSP_LSTAT_CRACK_L 0 s.toChip = 0 → s.bil.due = [] → ∃ t, exec (.crackCheck true false) s = .next t ∧
         getF Reg.DSP_LSTAT_CRACK_L 0 t.toChip = 1 ∧ getF Reg.DSP_STAT_CRACK_L_EV 0 t.toChip = 1 ∧
         (t.store.tamper[12]).count = min ((s.store.tamper[12]).count + 1) 0xFFFFFFFF ∧ t.backup = s.backup) ∧
       (9 ≤ s.dsp.passL → ∃ t, exec (.crackCheck true true) s = .next t ∧ getF Reg.DSP_LSTAT_CRACK_L 0 t.toChip = 0 ∧
         t.dsp.failL = 0 ∧ t.store = s.store)) ∧
     ((cardPayload 0x0090 0 s.toChip).isSome = true → 1 ≤ s.dsp.failE → getF Reg.DSP_ESTAT_CRACK_E 0 s.toChip = 0 →
       ∃ t, exec (.crackCheck false false) s = .next t ∧ getF Reg.DSP_ESTAT_CRACK_E 0 t.toChip = 1 ∧
         getF Reg.HST_EVTSEQ_SEQ 0 t.toChip = (getF Reg.HST_EVTSEQ_SEQ 0 s.toChip + 1) % 2 ^ 32 ∧ t.store = s.store))) ∧
  ((∀ (s : State) (u : LegalUpdate), s.dsp.upd = some u → s.dsp.pend = none → s.legal.press = false →
     (Settled s.toChip → s.backup.ms < u.start + 20 * (u.frames + 8) → exec .legalUpdateDone s = .next s) ∧
     (u.start + 20 * (u.frames + 8) ≤ s.backup.ms →
     ∃ t, exec .legalUpdateDone s = .next t ∧ t.dsp.upd = none ∧ t.dsp.refresh = false ∧ t.glass.rv = u.rv.isSome ∧
       t.glass.image = (u.target ||| (match u.rv with
         | some k => 2 ^ k
         | none => 0)) ∧
       (∀ k, k < 4 → getF Reg.DSP_LIMG_SEG k t.toChip = t.glass.image / 2 ^ (32 * k) % 2 ^ 32) ∧
       t.legal = { s.legal with shownAt := s.backup.ms } ∧ t.store = s.store ∧ t.backup = s.backup)) ∧
   (∀ (s : State) (r : LegalReq), s.dsp.defer = some r → s.dsp.upd = none → legalHeld s.toChip = false →
     getF Reg.PWR_PFW_ACTIVE 0 s.toChip = 0 → legalAdmits s.toChip = true →
     ∃ t, exec .legalUpdateAdmit s = .next t ∧ t.dsp.defer = none ∧ t.dsp.upd.isSome = true ∧ t.glass.rv = false ∧
       t.glass.image = s.glass.image ∧ t.dsp.full = false ∧
       getF Reg.DSP_LLIFE_UPDATES 0 t.toChip = min (getF Reg.DSP_LLIFE_UPDATES 0 s.toChip + 1) 0xFFFFFFFF ∧
       t.store = s.store ∧ t.backup = s.backup) ∧
   (∀ (s : State) (temp : Int), s.pwr.phase = .run ∨ s.pwr.phase = .bare →
     (temp < -450 ∨ 900 < temp → ∃ t, exec (.epthMeasure temp) s = .next t ∧ getF Reg.DSP_LSTAT_EPTH_FAULT 0 t.toChip = 1 ∧
       t.dsp = s.dsp ∧ getF Reg.DSP_LTEMP_TEMP 0 t.toChip = unsigned 16 temp % 65536 ∧ t.store = s.store) ∧
     (-450 ≤ temp → temp ≤ 900 → ∃ t, exec (.epthMeasure temp) s = .next t ∧ getF Reg.DSP_LSTAT_EPTH_FAULT 0 t.toChip = 0 ∧
       getF Reg.DSP_LTEMP_TEMP 0 t.toChip = unsigned 16 temp % 65536 ∧ t.dsp.bandOk = true ∧
       t.dsp.band = (if s.dsp.bandOk = true then bandNext s.dsp.band temp else bandOf temp) ∧ t.store = s.store)))

/-- R69, R226, R229, R439: the seal and the tamper inputs: a registered level, its tamper record, made later where the
legal store is not restored yet or the actions of a boundary of that ms wait, and the sealed copy of a closing. -/
def Obligations.SealAndTamperInputsRecord : Prop :=
  ∀ s : State, inputsSampled s.toChip = true →
    ((s.backup.inputs[0]).level = false → ∃ t, exec .sealOpened s = .next t ∧ (t.backup.inputs[0]).level = true ∧
      t.backup.sealDue = false ∧
      (s.bil.ready = true → s.bil.due.any (fun d => d.mt == s.backup.ms) = false →
        (t.store.tamper[2]).count = min ((s.store.tamper[2]).count + 1) 0xFFFFFFFF ∧ t.store.copies = s.store.copies ∧
          t.backup.late = s.backup.late) ∧
      (s.bil.ready = false ∨ s.bil.due.any (fun d => d.mt == s.backup.ms) = true → t.store = s.store ∧
        t.backup.late = s.backup.late ++ [(3, 0, wallMs s.toChip / 1000, s.backup.ms)]) ∧
      t.backup.ms = s.backup.ms ∧ t.hsl.latch = s.hsl.latch ∧ t.hsl.trump = s.hsl.trump) ∧
    ((s.backup.inputs[0]).level = true → inService s.toChip = false →
      ∃ t, exec (.sealClosed true) s = .next t ∧ (t.backup.inputs[0]).level = false ∧ t.backup.ms = s.backup.ms ∧
        t.sec = s.sec ∧ t.hsl.latch = s.hsl.latch ∧
        (s.pwr.phase = .run → getF Reg.BIL_STAT_COPY_NEW 0 t.toChip = 1 ∧
          t.store = { s.store with sealed := some (sealedOf (runningDeck s.toChip)) }) ∧
        (s.pwr.phase = .bare → t.store = s.store ∧ t.backup.sealDue = s.backup.sealDue) ∧
        (s.pwr.phase ≠ .run → s.pwr.phase ≠ .bare → t.store = s.store ∧ t.backup.sealDue = true)) ∧
    (∀ (k : Fin 5) (level recordOk : Bool), k.val ≠ 0 → (s.backup.inputs[k]).level ≠ level → s.bil.ready = true →
      s.bil.due.any (fun d => d.mt == s.backup.ms) = false →
      ∃ t, exec (.tamperInputChange k level recordOk) s = .next t ∧ (t.backup.inputs[k]).level = level ∧
        (s.backup.tamperCfg.1.testBit (k.val - 1) = level → s.backup.tamperCfg.2.testBit (k.val - 1) = true →
          ∀ code, [1, 2, 14, 15][k.val - 1]? = some code →
          (t.store.tamper[code - 1]?.getD ({} : TamperRec)).count = min ((s.store.tamper[code - 1]?.getD ({} : TamperRec)).count + 1) 0xFFFFFFFF) ∧
        (s.backup.tamperCfg.2.testBit (k.val - 1) = false → t.store = s.store) ∧ t.hsl.latch = s.hsl.latch ∧
        t.sec = s.sec)

/-- R425, R433-R437, R442: key-update messages by KHP and by the TAP, the public device key, and attestation. -/
def Obligations.KeyUpdatesAndAttestation : Prop :=
  (∀ (s : State) (rq : Request), Owns rq.sess.val s.toChip →
    (∀ (msg : List Byte) (env : KumEnv),
      kumReason none (Byte.nats msg) env (keyLoad 0x10 (frameTake rq.sess.val s.toChip)) ≠ 0 →
      ∃ t, exec (.keyUpdate rq msg env) s = .next t ∧ Answered 0x20 rq
          (kumStatus (kumReason none (Byte.nats msg) env (keyLoad 0x10 (frameTake rq.sess.val s.toChip)))) [] t.toChip ∧
        getF Reg.SEC_STAT_KUM_REJ 0 t.toChip = 1 ∧ getF Reg.SEC_KEYRES_REASON 0 t.toChip =
          kumReason none (Byte.nats msg) env (keyLoad 0x10 (frameTake rq.sess.val s.toChip)) % 256 ∧
        t.sec.entries = s.sec.entries ∧ getF Reg.SEC_KEYCTR_CTR 0 t.toChip = getF Reg.SEC_KEYCTR_CTR 0 s.toChip ∧
        lifecycle t.toChip = lifecycle s.toChip ∧ t.store = s.store) ∧
    (∀ (msg : List Byte) (env : KumEnv),
      kumReason none (Byte.nats msg) env (keyLoad 0x10 (frameTake rq.sess.val s.toChip)) = 0 → env.fuseOk = true →
      env.blobOk = true → Byte.u8 (Byte.nats msg) 3 = 1 →
      ∃ t b, exec (.keyUpdate rq msg env) s = .next t ∧ Answered 0x20 rq .ok [] t.toChip ∧
        getF Reg.SEC_STAT_KUM_OK 0 t.toChip = 1 ∧ getF Reg.SEC_KEYRES_REASON 0 t.toChip = 0 ∧
        getF Reg.SEC_KEYCTR_CTR 0 t.toChip = (getF Reg.SEC_KEYCTR_CTR 0 s.toChip + 1) % 2 ^ 12 ∧
        getF Reg.SEC_KEYCTR_BACKUP 0 t.toChip = (getF Reg.SEC_KEYCTR_CTR 0 s.toChip + 1) % 2 ^ 12 ∧
        blobAt (Byte.u16 (Byte.nats msg) 0x14) t.toChip = some b ∧ b.keyId = Byte.u16 (Byte.nats msg) 0x10 ∧
        b.kind = Byte.u8 (Byte.nats msg) 0x12 ∧ b.ctr = Byte.u32 (Byte.nats msg) 4 ∧ t.store = s.store) ∧
    (Settled s.toChip →
      (devKeyOk s.toChip = true → exec (.devicePub rq) s =
        .next { s with toChip := (respond 0x20 rq .ok devPubBytes (frameTake rq.sess.val s.toChip)) }) ∧
      (devKeyOk s.toChip = false → exec (.devicePub rq) s =
        .next { s with toChip := (respond 0x20 rq .state [] (frameTake rq.sess.val s.toChip)) })) ∧
    (∀ (challenge : List Byte) (k : KeyBlob), challenge.length = 32 → keysAvail s.toChip = true →
      keyFind 0x30 s.toChip = some k →
      ∃ t, exec (.attest rq challenge) s = .next t ∧ Answered 0x20 rq .ok
        (attestBody (Byte.nats challenge) s.toChip ++ hmac256 k.mat (attestBody (Byte.nats challenge) s.toChip)) t.toChip ∧
        t.store = s.store)) ∧
  (∀ s : State, kcUp s.toChip = true → tapUp s.toChip = true →
    (Settled s.toChip →
      exec .keyRes s = .next { s with toChip := (tapShown 0x21
        (Byte.le 4 (regWord 0x1A000C s.toChip) ++ Byte.le 4 (regWord 0x1A0008 s.toChip)) s.toChip) } ∧
      exec .devPub s = .next { s with toChip :=
        (tapShown 0x22 (if devKeyOk s.toChip = true then devPubBytes else []) s.toChip) }) ∧
    (∀ (len : BitVec 16) (msg : List Byte) (env : KumEnv),
      (kumReason (some len.toNat) (Byte.nats msg) env (keyLoad 0x10 s.toChip) ≠ 0 →
        ∃ t, exec (.kumIn len msg env) s = .next t ∧ t.sec.ir = 0x20 ∧ t.sec.tdo = [] ∧ t.sec.entries = s.sec.entries ∧
          getF Reg.SEC_STAT_KUM_REJ 0 t.toChip = 1 ∧ getF Reg.SEC_KEYRES_REASON 0 t.toChip =
            kumReason (some len.toNat) (Byte.nats msg) env (keyLoad 0x10 s.toChip) % 256 ∧ t.store = s.store) ∧
      (kumReason (some len.toNat) (Byte.nats msg) env (keyLoad 0x10 s.toChip) = 0 → env.fuseOk = true →
        Byte.u8 (Byte.nats msg) 3 = 2 →
        ∃ t, exec (.kumIn len msg env) s = .next t ∧ t.sec.ir = 0x20 ∧ getF Reg.SEC_STAT_KUM_OK 0 t.toChip = 1 ∧
          getF Reg.SEC_KEYRES_REASON 0 t.toChip = 0 ∧ blobAt (Byte.u16 (Byte.nats msg) 0x14) t.toChip = none ∧
          getF Reg.SEC_KEYCTR_CTR 0 t.toChip = (getF Reg.SEC_KEYCTR_CTR 0 s.toChip + 1) % 2 ^ 12 ∧ t.store = s.store)))

/-- R443-R447: debug grants by KHP and by the TAP, DBG_OPEN, and the end of a level. -/
def Obligations.DebugLevelsAreGranted : Prop :=
  (∀ (s : State) (rq : Request), Owns rq.sess.val s.toChip →
    (∀ (g : List Byte) (sigOk : Bool), g.length = 104 →
      (∀ r, grantResult (Byte.nats g) sigOk (keyLoad 0x11 (frameTake rq.sess.val s.toChip)) = some r →
        ∃ t, exec (.debugGrant rq g sigOk) s = .next t ∧ Answered 0x20 rq (grantStatus (some r)) [] t.toChip ∧
          getF Reg.SEC_DBGRES_RESULT 0 t.toChip = r % 256 ∧ getF Reg.SEC_STAT_DBG_REF 0 t.toChip = 1 ∧
          debugLevel t.toChip = debugLevel s.toChip ∧ t.sec.drawn = s.sec.drawn + 1 ∧ t.sec.full = s.sec.full ∧
          t.store = s.store) ∧
      (grantResult (Byte.nats g) sigOk (keyLoad 0x11 (frameTake rq.sess.val s.toChip)) = none →
        ∃ t, exec (.debugGrant rq g sigOk) s = .next t ∧ Answered 0x20 rq .ok [] t.toChip ∧
          getF Reg.SEC_DBGRES_RESULT 0 t.toChip = 1 ∧ debugLevel t.toChip = Byte.u8 (Byte.nats g) 2 ∧
          getF Reg.SEC_DBG_SRC 0 t.toChip = 2 ∧ t.sec.drawn = s.sec.drawn + 1 ∧
          t.sec.until_ = some (s.backup.ms + 60000 * Byte.u16 (Byte.nats g) 0x20) ∧
          (Byte.u8 (Byte.nats g) 2 = 2 → t.sec.full = true ∧ t.sec.slots = [] ∧ t.lnk.chain.key = none) ∧
          t.store = s.store)) ∧
    (debugLevel s.toChip ≠ 0 → ∃ t, exec (.debugEnd rq) s = .next t ∧ Answered 0x20 rq .ok [] t.toChip ∧
      DebugEnded s.toChip t.toChip ∧ t.sec.full = s.sec.full ∧ t.store = s.store)) ∧
  (∀ (s : State) (t0 : Nat), s.sec.until_ = some t0 → t0 ≤ s.backup.ms → debugLevel s.toChip ≠ 0 →
    ∃ t, exec .debugDurationEnd s = .next t ∧ DebugEnded s.toChip t.toChip ∧ t.sec.full = s.sec.full ∧ t.store = s.store) ∧
  (∀ s : State, kcUp s.toChip = true → tapUp s.toChip = true →
    (∀ (g : List Byte) (sigOk : Bool),
      (∀ r, grantResult (Byte.nats g) sigOk (keyLoad 0x11 s.toChip) = some r →
        ∃ t, exec (.dbgGrant g sigOk) s = .next t ∧ t.sec.ir = 0x11 ∧ getF Reg.SEC_DBGRES_RESULT 0 t.toChip = r % 256 ∧
          debugLevel t.toChip = debugLevel s.toChip ∧ t.sec.drawn = s.sec.drawn + 1 ∧ t.store = s.store) ∧
      (grantResult (Byte.nats g) sigOk (keyLoad 0x11 s.toChip) = none →
        ∃ t, exec (.dbgGrant g sigOk) s = .next t ∧ t.sec.ir = 0x11 ∧ getF Reg.SEC_DBGRES_RESULT 0 t.toChip = 1 ∧
          debugLevel t.toChip = Byte.u8 (Byte.nats g) 2 ∧ getF Reg.SEC_DBG_SRC 0 t.toChip = 1 ∧
          t.sec.drawn = s.sec.drawn + 1 ∧ t.store = s.store)) ∧
    (∀ level : BitVec 2, level = 1 ∨ level = 2 →
      (lifecycle s.toChip = 0 ∨ lifecycle s.toChip = 4 → debugBlocked level.toNat s.toChip = none →
        ∃ t, exec (.dbgOpen level) s = .next t ∧ t.sec.ir = 0x12 ∧ debugLevel t.toChip = level.toNat ∧
          getF Reg.SEC_DBG_SRC 0 t.toChip = 1 ∧ getF Reg.SEC_DBGRES_RESULT 0 t.toChip = 1 ∧
          t.sec.until_ = some (s.backup.ms + 60000 * 1440) ∧ t.store = s.store) ∧
      (lifecycle s.toChip ≠ 0 → lifecycle s.toChip ≠ 4 →
        ∃ t, exec (.dbgOpen level) s = .next t ∧ t.sec.ir = 0x12 ∧ debugLevel t.toChip = debugLevel s.toChip ∧
          getF Reg.SEC_DBGRES_RESULT 0 t.toChip = 5 ∧ getF Reg.SEC_STAT_DBG_REF 0 t.toChip = 1 ∧ t.store = s.store)) ∧
    (debugLevel s.toChip ≠ 0 → ∃ t, exec .dbgEnd s = .next t ∧ t.sec.ir = 0x13 ∧ DebugEnded s.toChip t.toChip ∧
      t.store = s.store))

/-- R442, R443: the instructions of the TAP, with nothing else changed; MEM_AP within the rights of the level. -/
def Obligations.TapInstructionsShiftOut : Prop :=
  ∀ s : State, Settled s.toChip → tapUp s.toChip = true →
    exec .tapReset s = .next { s with toChip := (tapShown 2 [] s.toChip) } ∧
    exec .idcode s = .next { s with toChip := (tapShown 2 (Byte.le 4 (2 ^ 28 * (getF Reg.DEV_PART_SILREV 0 s.toChip % 16) +
      2 ^ 12 * 0x1640 + 2 * 0x2B7 + 1)) s.toChip) } ∧
    (∀ ir : BitVec 8, exec (.bypass ir) s = .next { s with toChip := (tapShown ir.toNat [0] s.toChip) }) ∧
    (∀ pins preload : BitVec 243, exec (.samplePreload pins preload) s = .next { s with sec := { s.sec with
      ir := 1, tdo := (Byte.le 31 pins.toNat), extest := false, scan := preload } }) ∧
    (∀ drive : BitVec 243,
      (debugLevel s.toChip = 2 → exec (.extest drive) s = .next { s with sec := { s.sec with
        ir := 0, scan := drive, extest := true, tdo := (Byte.le 31 s.sec.scan.toNat) } }) ∧
      (debugLevel s.toChip ≠ 2 → exec (.extest drive) s = .next { s with toChip := (tapShown 0 [0] s.toChip) })) ∧
    (kcUp s.toChip = true →
      exec .dbgNonce s = .next { s with toChip :=
        (tapShown 0x10 (Byte.le 16 (Config.debugNonce s.sec.drawn).toNat) s.toChip) } ∧
      exec .dbgStat s = .next { s with toChip := (tapShown 0x14
        (Byte.le 4 (shownWord 0x1A0010 s.toChip) ++ Byte.le 4 (shownWord 0x1A0014 s.toChip)) s.toChip) } ∧
      (∀ addr, debugLevel s.toChip ≠ 0 → addrOk addr = true → inAperture addr = false → inBuffer addr = false →
        exec (.memAp (.readReg addr)) s = .next { s with toChip :=
          (tapShown 0x30 (Byte.le 4 (shownWord addr s.toChip)) s.toChip) }) ∧
      (∀ addr v, debugLevel s.toChip = 1 → exec (.memAp (.writeReg addr v)) s =
        .next { s with toChip := (tapShown 0x30 [] s.toChip) }) ∧
      (∀ dram addr ta v, debugLevel s.toChip = 2 → hostOf dram addr = some ta →
        ∃ t, exec (.memAp (.writeMem dram addr v)) s = .next t ∧ wordGet (ta / 8) t.toChip = v % 2 ^ 64 ∧
          (∀ i, i ≠ ta / 8 → wordGet i t.toChip = wordGet i s.toChip) ∧ t.store = s.store ∧ t.backup = s.backup)) ∧
    (∀ a, debugLevel s.toChip = 0 → exec (.memAp a) s = .next { s with toChip := (tapShown 0x30 [0] s.toChip) })

/-- R453-R460, R473-R475: connections and sessions open and close, frames are answered, the SPI host port, and NET_OFF. -/
def Obligations.SessionsOpenAnswerAndClose : Prop :=
  (∀ (s : State) (p : Fin 2) (tlsOk : Bool) (client : Option (Fin 8)) (k : Nat), portUp p.val s.toChip = true →
    freeNet s.toChip = some k →
    (tlsPasses tlsOk client s.toChip = false → ∃ t, exec (.netConnect p tlsOk client) s = .next t ∧
      getF Reg.HST_STAT_AUTH_FAIL 0 t.toChip = 1 ∧ t.hst = s.hst ∧ t.store = s.store) ∧
    (∀ i, client = some i → s.pwr.phase = .run → tlsPasses tlsOk client s.toChip = true →
      ∃ t, exec (.netConnect p tlsOk client) s = .next t ∧ sess k t.toChip =
          { state := 2, xport := p.val, client := i.val, rank := (cardU8 0x00A0 0 (0x26 + 4 * i.val) 0 s.toChip)
            last := s.backup.ms, cursor := (getF Reg.HST_EVTSEQ_SEQ 0 s.toChip + 1) } ∧
        (∀ m, m ≠ k → sess m t.toChip = sess m s.toChip) ∧ t.hst.decl = s.hst.decl ∧ t.store = s.store)) ∧
  (∀ (s : State) (h : FrameHead) (rh : List Byte), s.pwr.phase = .run → s.upd.pause = false → inStandby s.toChip = false →
    h.sess.val = 5 → secured 5 s.toChip = false → h.session.toNat = 0xFF → h.seq.toNat = 1 → h.magic.toNat = 0x4B48 →
    h.len.toNat ≤ 1048576 → h.got = h.len.toNat → h.authOk = true → h.version.toNat = 1 → Byte.nats rh = List.replicate 16 0 →
    ∃ t, exec (.openSess h rh) s = .next t ∧ Answered 1 (requestOf h) .ok (List.replicate 16 0) t.toChip ∧
      (sess 5 t.toChip).state = 2 ∧ (sess 5 t.toChip).rxSeq = 1 ∧ (sess 5 t.toChip).txSeq = 1 ∧
      (sess 5 t.toChip).rank = serialRank 5 s.toChip ∧ (s.hst.decl ≠ some 5 → t.hst.decl = s.hst.decl) ∧
      t.store = s.store) ∧
  (∀ (s : State) (h : FrameHead), FrameOk h s.toChip →
    (h.len = 0 → ∃ t, exec (.close h) s = .next t ∧ Answered 2 (requestOf h) .ok [] t.toChip ∧
      (sess h.sess.val t.toChip).state = 0 ∧ (sess h.sess.val t.toChip).bulk = none ∧ t.hst.decl ≠ some h.sess.val ∧
      t.store = s.store) ∧
    (Settled s.toChip → h.len = 0 → exec (.keepalive h) s = .next { s with toChip :=
      (respond 3 (requestOf h) .ok [] (frameTake h.sess.val s.toChip)) }) ∧
    (∀ (type : BitVec 8) (code : BitVec 16), Settled s.toChip → knownType type.toNat = false →
      exec (.unknownRequest h type code) s = .next { s with toChip :=
        (respond type.toNat (requestOf h) .typ [] (frameTake h.sess.val s.toChip)) })) ∧
  (∀ (s : State) (k : Fin 6), (sess k.val s.toChip).state ≠ 0 → inStandby s.toChip = false →
    (sess k.val s.toChip).last + 1000 * idleLimit s.toChip ≤ s.backup.ms →
    ∃ t, exec (.sessionIdleTimeout k) s = .next t ∧ (sess k.val t.toChip).state = 0 ∧ t.hst.decl ≠ some k.val ∧
      (∀ m, m ≠ k.val → s.hst.decl ≠ some k.val → sess m t.toChip = sess m s.toChip) ∧ t.store = s.store) ∧
  (∀ (s : State) (k : Fin 4), (sess k.val s.toChip).state ≠ 0 →
    ∃ t, exec (.tcpConnectionClose k) s = .next t ∧ (sess k.val t.toChip).state = 0 ∧ t.hst.decl ≠ some k.val ∧
      t.store = s.store) ∧
  (∀ s : State, Settled s.toChip → inStandby s.toChip = false → spiUp s.toChip = true →
    (∀ whole, (sess 4 s.toChip).tx = [] → exec (.spiRead whole) s =
      .next { s with hst := { s.hst with miso := [0xFF], woke := false } }) ∧
    (∀ whole f rest, (sess 4 s.toChip).tx = f :: rest → ∃ t, exec (.spiRead whole) s = .next t ∧ t.hst.miso = 0 :: f ∧
      (sess 4 t.toChip).tx = (if whole = true then rest else f :: rest) ∧ t.hst.woke = false ∧ t.store = s.store) ∧
    exec .spiStatus s = .next { s with hst := { s.hst with
      miso := (Byte.le 2 4 ++ Byte.le 2 (sess 4 s.toChip).tx.length), woke := false } }) ∧
  (∀ (s : State) (v : BitVec 32),
    (s.pwr.phase = .run → ∃ t, exec (.hstCtlWrite .firmware v) s = .next t ∧ t.reply = .ok ∧
      getF Reg.HST_CTL_NET_OFF 0 t.toChip = v.toNat % 4 ∧
      (∀ k, k < 4 → (sess k s.toChip).xport < 2 → (v.toNat % 4).testBit (sess k s.toChip).xport = true →
        (sess k t.toChip).state = 0) ∧ t.store = s.store) ∧
    (∀ k : Fin 6, Settled s.toChip → writerStatus (.session k) s.toChip = .ok → (sess k.val s.toChip).xport < 2 →
      (v.toNat % 4).testBit (sess k.val s.toChip).xport = true →
      exec (.hstCtlWrite (.session k) v) s = .next { s with reply := .state }))

/-- R462, R463: READ and WRITE of the register window, and a write of one register. -/
def Obligations.WindowReadsAndWrites : Prop :=
  (∀ (s : State) (h : FrameHead) (addr count : BitVec 32), Settled s.toChip → FrameOk h s.toChip → h.len.toNat = 8 →
    (count.toNat ≤ 256 → s.hst.decl ≠ some h.sess.val →
      (∀ a ∈ spanOf addr.toNat count.toNat, addrOk a = true ∧ inAperture a = false ∧ inBuffer a = false) →
      exec (.read h addr count) s = .next { s with toChip := (respond 0x10 (requestOf h) .ok
        ((spanOf addr.toNat count.toNat).flatMap fun a => Byte.le 4 (shownWord a (frameTake h.sess.val s.toChip)))
        (frameTake h.sess.val s.toChip)) }) ∧
    (count = 1 → s.hst.decl = some h.sess.val → addrOk addr.toNat = true → inAperture addr.toNat = false →
      inBuffer addr.toNat = false →
      ∃ t, exec (.read h addr count) s = .next t ∧ Answered 0x10 (requestOf h) .ok
          (Byte.le 4 (shownWord addr.toNat (frameTake h.sess.val s.toChip))) t.toChip ∧
        (∀ q ∈ fieldsAt addr.toNat, q.1.acc = .rc → getF q.1 q.2 t.toChip = 0) ∧ t.store = s.store ∧ t.hsl = s.hsl) ∧
    (256 < count.toNat → exec (.read h addr count) s = .next { s with toChip :=
      (respond 0x10 (requestOf h) .lenRange [] (frameTake h.sess.val s.toChip)) }) ∧
    (count.toNat ≤ 256 → (∃ a ∈ spanOf addr.toNat count.toNat, addrOk a = false) →
      exec (.read h addr count) s = .next { s with toChip :=
        (respond 0x10 (requestOf h) .addr [] (frameTake h.sess.val s.toChip)) })) ∧
  (∀ (s : State) (h : FrameHead), Settled s.toChip → FrameOk h s.toChip →
    (s.hst.decl = some h.sess.val → ∀ v : BitVec 32,
      ∃ t, exec (.write h 0x190020 1 [v]) s = .next t ∧ Answered 0x11 (requestOf h) .ok (Byte.le 4 1) t.toChip ∧
        getF Reg.DSP_WFADDR_FRAME 0 t.toChip = v.toNat % 64 ∧ getF Reg.DSP_WFADDR_ID 0 t.toChip = v.toNat / 256 % 16 ∧
        t.hsl = s.hsl ∧ t.store = s.store) ∧
    (s.hst.decl ≠ some h.sess.val → ∀ v : BitVec 32,
      exec (.write h 0x190020 1 [v]) s = .next { s with toChip :=
        (respond 0x11 (requestOf h) .notDeclarer (Byte.le 4 0) (frameTake h.sess.val s.toChip)) }) ∧
    (∀ (addr count : BitVec 32) (words : List (BitVec 32)), words.length ≠ count.toNat →
      exec (.write h addr count words) s = .next { s with toChip :=
        (respond 0x11 (requestOf h) .lenRange (Byte.le 4 0) (frameTake h.sess.val s.toChip)) }) ∧
    (∀ (addr : BitVec 32) (v : BitVec 32), addrOk addr.toNat = false →
      exec (.write h addr 1 [v]) s = .next { s with toChip :=
        (respond 0x11 (requestOf h) .addr (Byte.le 4 0) (frameTake h.sess.val s.toChip)) })) ∧
  (∀ (s : State) (who : Writer) (addr v : BitVec 32), Settled s.toChip →
    (∀ k, who = .session k → s.pwr.phase = .bare → exec (.registerWrite who addr v) s = .next { s with reply := .bare }) ∧
    (s.pwr.phase ≠ .bare → addrOk addr.toNat = false ∨ mayWrite who addr.toNat = false →
      exec (.registerWrite who addr v) s = .next { s with reply := .addr }) ∧
    (writerStatus who s.toChip = .ok → exec (.registerWrite who 0x190020 v) s = .next { s with toChip :=
      { setF Reg.DSP_WFADDR_FRAME 0 v.toNat (setF Reg.DSP_WFADDR_ID 0 (v.toNat / 256) s.toChip) with reply := .ok } }))

/-- R464-R466, R302: bulk transfers, RESTART, event records and certificate replies. -/
def Obligations.BulkRestartAndEvents : Prop :=
  (∀ (s : State) (rq : Request), Owns rq.sess.val s.toChip →
    (∀ (total arg : BitVec 32),
      (bulkAdmit rq.sess.val 0x10 total.toNat arg.toNat (frameTake rq.sess.val s.toChip) = .ok →
        ∃ t, exec (.bulkOpen rq 0x10 total arg) s = .next t ∧ Answered 0x40 rq .ok [] t.toChip ∧
          (sess rq.sess.val t.toChip).bulk =
            some { code := 0x10, total := total.toNat, arg := arg.toNat, last := s.backup.ms } ∧
          (∀ m, m ≠ rq.sess.val → sess m t.toChip = sess m s.toChip) ∧ t.deck = s.deck ∧ t.store = s.store) ∧
      (∀ e, e ≠ Status.ok → bulkAdmit rq.sess.val 0x10 total.toNat arg.toNat (frameTake rq.sess.val s.toChip) = e →
        Settled s.toChip → exec (.bulkOpen rq 0x10 total arg) s = .next { s with toChip :=
          (respond 0x40 rq e [] (frameTake rq.sess.val s.toChip)) })) ∧
    (restartRefused (frameTake rq.sess.val s.toChip) = .ok →
      ∃ t, exec (.restart rq) s = .next t ∧ Answered 0x20 rq .ok [] t.toChip ∧ Restarted 10 s.toChip t.toChip ∧
        t.deck.flash = s.deck.flash ∧ t.fregs = s.fregs) ∧
    (restartRefused (frameTake rq.sess.val s.toChip) = .busy → Settled s.toChip →
      exec (.restart rq) s = .next { s with toChip := (respond 0x20 rq .busy [] (frameTake rq.sess.val s.toChip)) }) ∧
    (∀ (id : BitVec 32) (msg : List Byte),
      (s.lnk.certs.any (fun r => r.1 == id.toNat) = true →
        ∃ t, exec (.certReply rq id msg) s = .next t ∧ Answered 0x20 rq .ok [] t.toChip ∧
          t.lnk.certs = s.lnk.certs.filter (fun r => r.1 != id.toNat) ∧ t.store = s.store) ∧
      (Settled s.toChip → s.lnk.certs.any (fun r => r.1 == id.toNat) = false →
        exec (.certReply rq id msg) s = .next { s with toChip :=
          (respond 0x20 rq .state [] (frameTake rq.sess.val s.toChip)) }))) ∧
  (∀ (s : State) (rq : Request), Serves rq.sess.val s.toChip →
    (∀ (b : Bulk) (off : BitVec 32) (data : List Byte), (sess rq.sess.val s.toChip).bulk = some b →
      (off.toNat = b.got → b.got + data.length ≤ b.total →
        ∃ t, exec (.bulkData rq off data) s = .next t ∧ Answered 0x41 rq .ok [] t.toChip ∧
          (sess rq.sess.val t.toChip).bulk = some { b with
            data := Byte.nats data :: b.data, got := b.got + data.length, last := s.backup.ms } ∧ t.store = s.store) ∧
      (off.toNat ≠ b.got ∨ b.total < b.got + data.length →
        ∃ t, exec (.bulkData rq off data) s = .next t ∧ Answered 0x41 rq .range [] t.toChip ∧
          (sess rq.sess.val t.toChip).bulk = none ∧ getF Reg.HST_STAT_BULK_ABORT 0 t.toChip = 1 ∧ t.store = s.store)) ∧
    (∀ (b : Bulk) (digest : List Byte) (env : BulkEnv), (sess rq.sess.val s.toChip).bulk = some b → b.total ≤ b.got →
      digest.length = 32 →
      (sha256 b.data.reverse.flatten ≠ Byte.nats digest →
        ∃ t, exec (.bulkClose rq digest env) s = .next t ∧ Answered 0x42 rq .crc [] t.toChip ∧
          (sess rq.sess.val t.toChip).bulk = none ∧ t.deck = s.deck ∧ t.nfc = s.nfc ∧ t.upd = s.upd ∧ t.store = s.store) ∧
      (sha256 b.data.reverse.flatten = Byte.nats digest →
        let c := frameTake rq.sess.val s.toChip
        let r := bulkRun b b.data.reverse.flatten env
          (sessPut rq.sess.val { sess rq.sess.val c with bulk := none } c)
        ∃ t, exec (.bulkClose rq digest env) s = .next t ∧ Answered 0x42 rq r.2 [] t.toChip ∧ t.deck = r.1.deck ∧
          t.nfc = r.1.nfc ∧ t.upd = r.1.upd ∧ t.emmc = r.1.emmc)) ∧
    (∀ fromSeq room : BitVec 32, Settled s.toChip → 1048576 < room.toNat →
      exec (.evtRead rq fromSeq room) s = .next { s with toChip :=
        (respond 0x20 rq .lenRange [] (frameTake rq.sess.val s.toChip)) }) ∧
    (∀ (fromSeq room : BitVec 32) (r : EventRec), room.toNat ≤ 1048576 → s.hst.ring.getLast? = some r → fromSeq ≠ 0 →
      ∃ t, exec (.evtRead rq fromSeq room) s = .next t ∧ Answered 0x20 rq .ok
          (Byte.le 4 (r.seq - fromSeq.toNat) ++ (ringRead (max fromSeq.toNat r.seq) (min room.toNat 1048568)
            s.hst.ring).2.1.flatMap EventRec.data) t.toChip ∧
        (sess rq.sess.val t.toChip).cursor =
          (ringRead (max fromSeq.toNat r.seq) (min room.toNat 1048568) s.hst.ring).2.2 ∧
        t.hst.ring = s.hst.ring ∧ t.store = s.store) ∧
    (∀ arg, arg ≤ 1 → rq.sess.val ≠ 5 →
      ∃ t, exec (.evtSub rq arg) s = .next t ∧ Answered 0x20 rq .ok [] t.toChip ∧
        (sess rq.sess.val t.toChip).sub = (arg == 1) ∧ t.store = s.store)) ∧
  (∀ (s : State) (k : Fin 6) (b : Bulk), (sess k.val s.toChip).bulk = some b → b.last + 30000 ≤ s.backup.ms →
    ∃ t, exec (.bulkTimeout k) s = .next t ∧ (sess k.val t.toChip).bulk = none ∧
      getF Reg.HST_STAT_BULK_ABORT 0 t.toChip = 1 ∧ t.hst.decl = s.hst.decl ∧ t.store = s.store)

/-- R468-R471: the Auction, HANDOVER and ACCEPT, RELEASE, and the lapse of the Declarer. -/
def Obligations.AuctionAndHandover : Prop :=
  (∀ (s : State) (rq : Request), Serves rq.sess.val s.toChip →
    (s.hst.decl = none → (sess rq.sess.val s.toChip).bid = none → (sess rq.sess.val s.toChip).rank ≠ 0 →
      (rq.sess.val = 5 → serviceBids s.toChip = true) →
      ∃ t, exec (.bid rq) s = .next t ∧ Answered 0x20 rq .ok [] t.toChip ∧
        (sess rq.sess.val t.toChip).bid = some (if s.hst.auct = none then 0 else s.hst.bids) ∧
        t.hst.auct = some (s.hst.auct.getD s.backup.ms) ∧ t.hst.decl = none ∧
        t.hst.bids = (if s.hst.auct = none then 0 else s.hst.bids) + 1 ∧ t.store = s.store) ∧
    (Settled s.toChip → s.hst.decl.isSome = true → exec (.bid rq) s = .next { s with toChip :=
      (respond 0x20 rq .busy [] (frameTake rq.sess.val s.toChip)) }) ∧
    (∀ a, s.hst.target = some (rq.sess.val, a) → s.backup.ms < a + 2000 →
      ∃ t, exec (.accept rq) s = .next t ∧ Answered 0x20 rq .ok [] t.toChip ∧ t.hst.decl = some rq.sess.val ∧
        t.hst.target = none ∧ getF Reg.HST_STAT_HANDOVER 0 t.toChip = 1 ∧ t.store = s.store) ∧
    (∀ k a, s.hst.target = some (k, a) → k ≠ rq.sess.val ∨ a + 2000 ≤ s.backup.ms →
      ∃ t, exec (.accept rq) s = .next t ∧ Answered 0x20 rq .state [] t.toChip ∧ t.hst.decl = s.hst.decl ∧
        t.hst.target = none ∧ t.store = s.store)) ∧
  (∀ (s : State) (rq : Request), Owns rq.sess.val s.toChip →
    (∀ k, k ≤ 5 → (sess k s.toChip).state = 2 → (sess k s.toChip).rank ≠ 0 →
      (k = 5 → serviceBids s.toChip = true) →
      ∃ t, exec (.handover rq k) s = .next t ∧ Answered 0x20 rq .ok [] t.toChip ∧
        t.hst.target = some (k, s.backup.ms) ∧ t.hst.decl = s.hst.decl ∧ t.store = s.store) ∧
    (Settled s.toChip → ∀ k, 5 < k → exec (.handover rq k) s = .next { s with toChip :=
      (respond 0x20 rq .range [] (frameTake rq.sess.val s.toChip)) }) ∧
    (∃ t, exec (.release rq) s = .next t ∧ Answered 0x20 rq .ok [] t.toChip ∧ t.hst.decl = none ∧ t.hst.target = none ∧
      (sess rq.sess.val t.toChip).bulk = none ∧ t.store = s.store)) ∧
  (∀ (s : State) (t0 : Nat), s.hst.auct = some t0 → t0 + 1000 ≤ s.backup.ms →
    ∃ t, exec .auctionClose s = .next t ∧ t.hst.auct = none ∧ t.hst.decl = auctionWinner s.toChip ∧
      (∀ k, k < 6 → (sess k t.toChip).bid = none) ∧
      ((auctionWinner s.toChip).isSome = true → getF Reg.HST_STAT_AUCTION 0 t.toChip = 1 ∧
        getF Reg.HST_LIFE_AUCTIONS 0 t.toChip = min (getF Reg.HST_LIFE_AUCTIONS 0 s.toChip + 1) 65535) ∧
      t.store = s.store) ∧
  (∀ (s : State) (k t0 : Nat), Settled s.toChip → s.hst.target = some (k, t0) → t0 + 2000 ≤ s.backup.ms →
    exec .handoverExpiry s = .next { s with hst := { s.hst with target := none } }) ∧
  (∀ (s : State) (k : Nat), s.hst.decl = some k → inStandby s.toChip = false →
    (sess k s.toChip).last + 10000 ≤ s.backup.ms →
    ∃ t, exec .declarerLapse s = .next t ∧ t.hst.decl = none ∧ t.hst.target = none ∧ t.hst.auct = some s.backup.ms ∧
      t.hst.bids = 0 ∧ getF Reg.HST_STAT_LAPSE 0 t.toChip = 1 ∧
      getF Reg.HST_LIFE_LAPSES 0 t.toChip = min (getF Reg.HST_LIFE_LAPSES 0 s.toChip + 1) 65535 ∧ t.store = s.store)

/-- R479-R489: the scrubber corrects a wrong bit, an uncorrectable error restarts the device, raw writes and reads of the test
mode, and captures. -/
def Obligations.MemoryIsScrubbedAndTested : Prop :=
  (∀ (s : State) (addr ta b : Nat), kcUp s.toChip = true → addr % 8 = 0 → addr < 0x1800000 →
    hostOf false addr = some ta → b < 64 → wordGet (ta / 8) s.toChip < 2 ^ 64 → getF Reg.MEM_ECCT_EN 0 s.toChip = 0 →
    ∃ t, exec (.scrubRead false addr (BitVec.ofNat 72 (2 ^ b)) none) s = .next t ∧
      (∀ i, wordGet i t.toChip = wordGet i s.toChip) ∧
      getF Reg.MEM_SERR_CE 0 t.toChip = min (getF Reg.MEM_SERR_CE 0 s.toChip + 1) 65535 ∧
      getF Reg.MEM_STAT_CE_S 0 t.toChip = 1 ∧ getF Reg.MEM_SADDR_ADDR 0 t.toChip = addr ∧ t.store = s.store) ∧
  (∀ s : State, kcUp s.toChip = true →
    (s.mem.ueDue = true → ∃ t, exec (.eccUeRestart none) s = .next t ∧ Restarted 8 s.toChip t.toChip ∧
      t.backup.ms = s.backup.ms ∧ t.fregs = s.fregs) ∧
    (∀ dram addr, ueRestarts dram addr = true →
      ∃ t, exec (.eccUeRestart (some (dram, addr))) s = .next t ∧ Restarted 8 s.toChip t.toChip ∧
        t.backup.ms = s.backup.ms ∧ t.fregs = s.fregs)) ∧
  (∀ (s : State) (who : Writer), writerStatus who s.toChip = .ok →
    (eccAddr (getF Reg.MEM_ECCT_ADDR_ADDR 0 s.toChip) = true →
      (∀ chk : BitVec 8, ∃ t, exec (.eccRawWrite who true chk) s = .next t ∧ t.reply = .ok ∧
        getF Reg.MEM_ECCT_DONE 0 t.toChip = 1 ∧
        wordGet (getF Reg.MEM_ECCT_ADDR_ADDR 0 s.toChip / 8) t.toChip =
          (getF Reg.MEM_ECCT_DLO_DATA 0 s.toChip + 2 ^ 32 * getF Reg.MEM_ECCT_DHI_DATA 0 s.toChip) +
            (chk.toNat ^^^ eccBits (getF Reg.MEM_ECCT_DLO_DATA 0 s.toChip +
              2 ^ 32 * getF Reg.MEM_ECCT_DHI_DATA 0 s.toChip)) * 2 ^ 64 ∧
        (∀ i, i ≠ getF Reg.MEM_ECCT_ADDR_ADDR 0 s.toChip / 8 → wordGet i t.toChip = wordGet i s.toChip) ∧
        t.store = s.store) ∧
      (∃ t, exec (.eccRawRead who true) s = .next t ∧ t.reply = .ok ∧ getF Reg.MEM_ECCT_DONE 0 t.toChip = 1 ∧
        getF Reg.MEM_ECCT_DLO_DATA 0 t.toChip = wordGet (getF Reg.MEM_ECCT_ADDR_ADDR 0 s.toChip / 8) s.toChip % 2 ^ 32 ∧
        getF Reg.MEM_ECCT_DHI_DATA 0 t.toChip =
          wordGet (getF Reg.MEM_ECCT_ADDR_ADDR 0 s.toChip / 8) s.toChip / 2 ^ 32 % 2 ^ 32 ∧
        getF Reg.MEM_ECCT_CHK 0 t.toChip = (wordGet (getF Reg.MEM_ECCT_ADDR_ADDR 0 s.toChip / 8) s.toChip / 2 ^ 64 ^^^
          eccBits (wordGet (getF Reg.MEM_ECCT_ADDR_ADDR 0 s.toChip / 8) s.toChip % 2 ^ 64)) % 256 ∧
        t.mem = s.mem ∧ t.store = s.store)) ∧
    (Settled s.toChip → ∀ chk : BitVec 8, exec (.eccRawWrite who false chk) s = .next { s with reply := .state } ∧
      exec (.eccRawRead who false) s = .next { s with reply := .state })) ∧
  (∀ (s : State) (who : Writer) (path : Bool) (nch : BitVec 5) (samples : BitVec 15), writerStatus who s.toChip = .ok →
    goBarred s.toChip = false →
    (Settled s.toChip → s.mem.cap.isSome = true →
      exec (.captureGo who path nch samples) s = .next { s with reply := .busy }) ∧
    (s.mem.cap = none → 0 < nch.toNat → nch.toNat ≤ 16 → 0 < samples.toNat → samples.toNat ≤ 16384 →
      (∀ st ∈ capStreams nch.toNat s.toChip, st ≤ 95 ∧ streamOn st s.toChip = true) →
      ∃ t, exec (.captureGo who path nch samples) s = .next t ∧ t.reply = .ok ∧ getF Reg.MEM_CAPSTAT_STATE 0 t.toChip = 1 ∧
        t.mem = { s.mem with cap := some { prot := path, chans := (capStreams nch.toNat s.toChip), total := samples.toNat } } ∧
        t.store = s.store)) ∧
  (∀ (s : State) (r : CaptureRun), s.mem.cap = some r → r.total ≤ r.k →
    ∃ t, exec .captureDone s = .next t ∧ t.mem = { s.mem with cap := none } ∧ getF Reg.MEM_CAPSTAT_STATE 0 t.toChip = 3 ∧
      t.store = s.store)

/-- R490-R495: the transfer engine, the completion queue, and the base of the aperture. -/
def Obligations.TransfersMoveAndComplete : Prop :=
  (∀ (s : State) (who : Writer) (ch : Fin 2) (req : BitVec 2) (tag : BitVec 16), writerStatus who s.toChip = .ok →
    (∀ e, e ≠ Status.ok → teCheck ch.val req.toNat s.toChip = e → Settled s.toChip →
      exec (.transferGo who ch req tag) s = .next { s with reply := e }) ∧
    (teCheck ch.val req.toNat s.toChip = .ok → (teSource ch.val s.toChip).total ≠ 0 →
      ∃ t, exec (.transferGo who ch req tag) s = .next t ∧ t.reply = .ok ∧
        teGet ch.val t.toChip = some { src := (teSource ch.val s.toChip), dst := (teDest ch.val s.toChip), req := req.toNat, tag := tag.toNat } ∧
        (∀ m, m ≠ ch.val → teGet m t.toChip = teGet m s.toChip) ∧ t.mem.cq = s.mem.cq ∧
        getF Reg.MEM_TE_STAT_STATE ch.val t.toChip = 1 ∧ getF Reg.MEM_TE_STAT_BYTES ch.val t.toChip = 0 ∧
        (∀ i, wordGet i t.toChip = wordGet i s.toChip) ∧ t.store = s.store)) ∧
  (∀ (s : State) (ch : Fin 2) (x : TransferRun), teGet ch.val s.toChip = some x →
    (x.fail = none → x.moved < x.src.total → inStandby s.toChip = false →
      (requestPresent x.req s.toChip = true →
        let n := min 64 (x.src.lineW - x.moved % x.src.lineW)
        ∃ t, exec (.transferBurst ch) s = .next t ∧ teGet ch.val t.toChip = some (teWords ch.val n x s.toChip).2 ∧
          getF Reg.MEM_TE_STAT_STATE ch.val t.toChip = (if (teWords ch.val n x s.toChip).2.fail.isSome = true ∨
            x.src.total ≤ (teWords ch.val n x s.toChip).2.moved then 3 else 2) ∧
          (∀ i, wordGet i t.toChip = wordGet i (teWords ch.val n x s.toChip).1) ∧
          t.dsp.buf = (teWords ch.val n x s.toChip).1.dsp.buf ∧ t.mem.cq = s.mem.cq ∧ t.store = s.store) ∧
      (Settled s.toChip → requestPresent x.req s.toChip = false → exec (.transferBurst ch) s =
        .next { s with toChip := (setF Reg.MEM_TE_STAT_STATE ch.val 1 s.toChip) })) ∧
    (∀ st, x.fail = some st → ∃ t, exec (.transferDone ch) s = .next t ∧ teGet ch.val t.toChip = none ∧
      t.mem.cq = s.mem.cq ++ [{ tag := x.tag, ch := ch.val, status := st, bytes := (4 * x.moved) }] ∧
      getF Reg.MEM_TE_STAT_STATE ch.val t.toChip = 0 ∧ t.store = s.store) ∧
    (x.fail = none → x.src.total ≤ x.moved → x.moved ≠ 0 → backBuffer (x.dst.at (x.moved - 1)) = false →
      ∃ t, exec (.transferDone ch) s = .next t ∧ teGet ch.val t.toChip = none ∧
        t.mem.cq = s.mem.cq ++ [{
          tag := x.tag, ch := ch.val, bytes := (4 * x.moved)
          status := (if (hostRead (x.dst.at (x.moved - 1)) s.toChip).2 = some x.last then .ok else .crc) }] ∧
        getF Reg.MEM_TE_STAT_STATE ch.val t.toChip = 0 ∧ t.store = s.store)) ∧
  (∀ (s : State) (who : Writer), Settled s.toChip → writerStatus who s.toChip = .ok →
    exec (.cqPop who) s = .next { s with reply := .ok, mem := { s.mem with cq := (s.mem.cq.drop 1) } } ∧
    (∀ v : BitVec 32,
      (apbaseOk (v.toNat % 2 ^ 17) = true → exec (.apbaseWrite who v) s = .next { s with toChip :=
        { setF Reg.MEM_APBASE_BASE 0 (v.toNat % 2 ^ 17) s.toChip with reply := .ok } }) ∧
      (apbaseOk (v.toNat % 2 ^ 17) = false → exec (.apbaseWrite who v) s = .next { s with reply := .range })))

/-- R500-R507: a firmware image is loaded into the inactive slot; ACTIVATE pends; the pause starts, at the latest 10 s after it, boots the new image or falls
back, and ends when the image is ready; a trial image is confirmed. -/
def Obligations.FirmwareLoadsAndActivates : Prop :=
  (∀ (s : State) (rq : Request) (slot : Nat) (bytes : List Byte), Owns rq.sess.val s.toChip → loaderRuns s.toChip = false →
    fwAdmit rq.sess.val slot bytes.length s.toChip = .ok →
    (∃ t, exec (.fwLoad rq slot bytes true) s = .next t ∧ Answered 0x42 rq .ok [] t.toChip ∧
      imgBytes (1 - runSlot s.toChip) t.toChip = Byte.nats bytes ∧ slotState (1 - runSlot s.toChip) t.toChip = 1 ∧
      getF Reg.UPD_STAT_LOADED 0 t.toChip = 1 ∧ runSlot t.toChip = runSlot s.toChip ∧ t.fregs = s.fregs ∧
      t.store = s.store) ∧
    (∃ t, exec (.fwLoad rq slot bytes false) s = .next t ∧ Answered 0x42 rq .crc [] t.toChip ∧
      slotState (1 - runSlot s.toChip) t.toChip = 0 ∧ runSlot t.toChip = runSlot s.toChip ∧ t.store = s.store)) ∧
  (∀ (s : State) (rq : Request), Owns rq.sess.val s.toChip →
    (slotState (1 - runSlot s.toChip) s.toChip = 1 ∨ slotState (1 - runSlot s.toChip) s.toChip = 2 ∨
        slotState (1 - runSlot s.toChip) s.toChip = 3 →
      keysAvail s.toChip = true → s.bil.lsFail = false → getF Reg.UPD_STAT_PENDING 0 s.toChip = 0 →
      (∀ k, k < 6 → (sess k s.toChip).bulk = none) → getF Reg.PWR_PFW_ACTIVE 0 s.toChip = 0 →
      ∃ t, exec (.activate rq) s = .next t ∧ Answered 0x20 rq .ok [] t.toChip ∧ getF Reg.UPD_STAT_PENDING 0 t.toChip = 1 ∧
        t.upd.pendAt = s.backup.ms ∧ t.upd.pause = false ∧ t.store = s.store) ∧
    (Settled s.toChip → slotState (1 - runSlot s.toChip) s.toChip = 0 ∨ slotState (1 - runSlot s.toChip) s.toChip = 4 →
      exec (.activate rq) s = .next { s with toChip := (respond 0x20 rq .state [] (frameTake rq.sess.val s.toChip)) })) ∧
  (∀ (s : State) (sigOk cardsOk : Bool), getF Reg.UPD_STAT_PENDING 0 s.toChip = 1 → s.pwr.phase = .run →
    (∃ t, exec (.activationPauseStart ⟨sigOk, cardsOk⟩) s = .next t ∧ PauseBegun sigOk cardsOk s.toChip t.toChip) ∧
    (s.upd.pendAt + 10000 ≤ s.backup.ms →
      ∃ t, exec (.prepTimeout ⟨sigOk, cardsOk⟩) s = .next t ∧ PauseBegun sigOk cardsOk s.toChip t.toChip) ∧
    (Settled s.toChip → s.backup.ms < s.upd.pendAt + 10000 → exec (.prepTimeout ⟨sigOk, cardsOk⟩) s = .next s)) ∧
  (∀ s : State, s.upd.pause = true → s.upd.readyAt.isSome = true →
    (∃ t, exec .fwReady s = .next t ∧ t.upd.pause = false ∧ t.upd.readyAt = none ∧ getF Reg.UPD_STAT_PAUSE 0 t.toChip = 0 ∧
      getF Reg.UPD_ACT_PAUSE_MS 0 t.toChip = min 65535 (s.backup.ms - s.upd.pauseAt) ∧
      (s.bil.due = [] → (t.store.tamper[11]).count = min ((s.store.tamper[11]).count + 1) 0xFFFFFFFF ∧
        t.backup = s.backup) ∧
      (runSlot s.toChip ≠ s.upd.from_ → getF Reg.UPD_STAT_ACTIVATED 0 t.toChip = 1 ∧
        getF Reg.UPD_FW_LIFE_ACTS 0 t.toChip = min (getF Reg.UPD_FW_LIFE_ACTS 0 s.toChip + 1) 65535) ∧
      t.hsl.latch = s.hsl.latch) ∧
    (runSlot s.toChip = s.upd.from_ → s.upd.bootAt + 2600 ≤ s.backup.ms → ∃ t, exec .fwReadyTimeout s = .next t ∧ t.upd.readyAt = some s.backup.ms ∧
      t.upd.pause = true ∧ runSlot t.toChip = runSlot s.toChip % 2 ∧ t.upd.hdr = s.upd.hdr ∧ t.store = s.store) ∧
    (runSlot s.toChip ≠ s.upd.from_ → runSlot s.toChip < 2 → s.upd.bootAt + 2600 ≤ s.backup.ms →
      ∃ t, exec .fwReadyTimeout s = .next t ∧ t.upd.pause = true ∧ runSlot t.toChip = s.upd.from_ % 2 ∧
        getF Reg.UPD_FW_SLOT_REASON (runSlot s.toChip) t.toChip = 6 ∧ slotState (runSlot s.toChip) t.toChip = 4 ∧
        getF Reg.UPD_STAT_FALLBACK 0 t.toChip = 1 ∧ t.upd.readyAt = some s.backup.ms ∧ t.store = s.store)) ∧
  (∀ s : State, s.pwr.phase = .run → s.upd.pause = false → slotState (runSlot s.toChip) s.toChip = 2 →
    s.upd.bootAt + 600000 ≤ s.backup.ms →
    ∃ t, exec .fwConfirm s = .next t ∧ slotState (runSlot s.toChip) t.toChip = 3 ∧
      getF Reg.UPD_STAT_TRIAL 0 t.toChip = 0 ∧ t.upd.fails = 0 ∧ (slotState (1 - runSlot s.toChip) s.toChip = 3 →
        slotState (1 - runSlot s.toChip) t.toChip = 1) ∧
      getF Reg.UPD_FW_SVN_FLOOR 0 t.toChip = (if getF Reg.UPD_FW_SVN_FLOOR 0 s.toChip < getF Reg.UPD_FW_SVN_RUN 0 s.toChip
        then getF Reg.UPD_FW_SVN_RUN 0 s.toChip % 2 ^ 7 else getF Reg.UPD_FW_SVN_FLOOR 0 s.toChip) ∧
      t.store = s.store ∧ t.backup = s.backup)

/-- R68: VBAT is measured into PWR_BKSTAT.VBAT_MV, and a reading below 2,600 mV sets VBAT_LOW; without the main supply nothing is
measured. -/
def Obligations.VbatIsMeasured : Prop :=
  ∀ (s : State) (mv : Nat), Settled s.toChip → mv < 4096 →
    (s.logicUp = true → s.powered = true →
      (2600 ≤ mv → exec (.vbatMeasure mv) s = .next { s with toChip := (setF Reg.PWR_BKSTAT_VBAT_MV 0 mv s.toChip) }) ∧
      (mv < 2600 → exec (.vbatMeasure mv) s = .next { s with toChip :=
        (setF Reg.PWR_BKSTAT_VBAT_LOW 0 1 (setF Reg.PWR_BKSTAT_VBAT_MV 0 mv s.toChip)) })) ∧
    (s.powered = false → exec (.vbatMeasure mv) s = .next s)

/-- R412: an update that starts latches the band in force, which selects the number of its frames, and a measurement of the
thermistor during an update changes neither the update nor the band it shows. -/
def Obligations.BandIsLatchedPerUpdate : Prop :=
  (∀ (s : State) (r : LegalReq), s.dsp.defer = some r → s.dsp.upd = none → legalHeld s.toChip = false →
    getF Reg.PWR_PFW_ACTIVE 0 s.toChip = 0 → legalAdmits s.toChip = true →
    ∃ t u, exec .legalUpdateAdmit s = .next t ∧ t.dsp.upd = some u ∧
      getF Reg.DSP_LSTAT_BAND 0 t.toChip = s.dsp.band % 2 ^ Reg.DSP_LSTAT_BAND.width ∧
      u.frames = waveFrames (if getF Reg.DSP_LSTAT_FULL 0 t.toChip = 1 then s.dsp.band else 8 + s.dsp.band)) ∧
  (∀ (s : State) (u : LegalUpdate) (temp : Int), s.dsp.upd = some u →
    ∃ t, exec (.epthMeasure temp) s = .next t ∧ t.dsp.upd = some u ∧
      getF Reg.DSP_LSTAT_BAND 0 t.toChip = getF Reg.DSP_LSTAT_BAND 0 s.toChip ∧
      getF Reg.DSP_LSTAT_FULL 0 t.toChip = getF Reg.DSP_LSTAT_FULL 0 s.toChip)
end

