-- ==== Sys2Proof/Laws/Maps.lean ====
section
/-!
SUPPORT. The laws of the sparse maps and of the register fields kept in them: a read after a write, and the canonical form that
every write keeps.
-/

namespace Sys2Proof.Machine
open Sys2Proof

/-! ### Reading after writing -/

theorem mapGet_del_same (m : List (Nat × Nat)) (k : Nat) : mapGet (mapDel m k) k = 0 := by
  induction m with
  | nil => rfl
  | cons e m ih =>
    obtain ⟨a, w⟩ := e
    by_cases h : a = k
    · subst h; simpa [mapDel] using ih
    · have h' : k ≠ a := fun e => h e.symm
      simpa [mapDel, h, mapGet, h'] using ih

theorem mapGet_del_ne (m : List (Nat × Nat)) (k j : Nat) (h : j ≠ k) : mapGet (mapDel m k) j = mapGet m j := by
  induction m with
  | nil => rfl
  | cons e m ih =>
    obtain ⟨a, w⟩ := e
    by_cases ha : a = k
    · subst ha; simpa [mapDel, mapGet, h] using ih
    · have : mapDel ((a, w) :: m) k = (a, w) :: mapDel m k := by simp [mapDel, ha]
      rw [this, mapGet, mapGet, ih]

theorem mapGet_ins_same (m : List (Nat × Nat)) (k v : Nat) : mapGet (mapIns m k v) k = v := by
  induction m with
  | nil => simp [mapIns, mapGet]
  | cons e m ih =>
    obtain ⟨a, w⟩ := e
    unfold mapIns
    split
    · simp [mapGet]
    · split
      · simp [mapGet]
      · simp [mapGet, *]

theorem mapGet_ins_ne (m : List (Nat × Nat)) (k v j : Nat) (h : j ≠ k) : mapGet (mapIns m k v) j = mapGet m j := by
  induction m with
  | nil => simp [mapIns, mapGet, h]
  | cons e m ih =>
    obtain ⟨a, w⟩ := e
    unfold mapIns
    split
    · simp [mapGet, h]
    · split
      · rename_i _ hk; subst hk; simp [mapGet, h]
      · simp only [mapGet, ih]

theorem mapGet_put_same (m : List (Nat × Nat)) (k v : Nat) : mapGet (mapPut m k v) k = v := by
  unfold mapPut
  split
  · rename_i h; rw [mapGet_del_same, h]
  · exact mapGet_ins_same m k v

theorem mapGet_put_ne (m : List (Nat × Nat)) (k v j : Nat) (h : j ≠ k) : mapGet (mapPut m k v) j = mapGet m j := by
  unfold mapPut
  split
  · exact mapGet_del_ne m k j h
  · exact mapGet_ins_ne m k v j h

/-! ### The canonical form -/

theorem mapWfFrom_mono {lo hi : Nat} {m : List (Nat × Nat)} (h : mapWfFrom hi m = true) (hl : lo ≤ hi) :
    mapWfFrom lo m = true := by
  cases m with
  | nil => rfl
  | cons e m =>
    obtain ⟨a, v⟩ := e
    simp only [mapWfFrom, Bool.and_eq_true, decide_eq_true_eq] at h ⊢
    exact ⟨⟨by omega, h.1.2⟩, h.2⟩

theorem mapWfFrom_del (m : List (Nat × Nat)) (k lo : Nat) (h : mapWfFrom lo m = true) :
    mapWfFrom lo (mapDel m k) = true := by
  induction m generalizing lo with
  | nil => rfl
  | cons e m ih =>
    obtain ⟨a, w⟩ := e
    simp only [mapWfFrom, Bool.and_eq_true, decide_eq_true_eq] at h
    by_cases ha : a = k
    · have : mapDel ((a, w) :: m) k = mapDel m k := by simp [mapDel, ha]
      rw [this]
      exact ih lo (mapWfFrom_mono h.2 (by omega))
    · have : mapDel ((a, w) :: m) k = (a, w) :: mapDel m k := by simp [mapDel, ha]
      rw [this]
      simp only [mapWfFrom, Bool.and_eq_true, decide_eq_true_eq]
      exact ⟨h.1, ih _ h.2⟩

theorem mapWfFrom_ins (m : List (Nat × Nat)) (k v lo : Nat) (h : mapWfFrom lo m = true) (hv : v ≠ 0) (hl : lo ≤ k) :
    mapWfFrom lo (mapIns m k v) = true := by
  induction m generalizing lo with
  | nil => simp [mapIns, mapWfFrom, hv, hl]
  | cons e m ih =>
    obtain ⟨a, w⟩ := e
    have h0 := h
    simp only [mapWfFrom, Bool.and_eq_true, decide_eq_true_eq] at h
    unfold mapIns
    split
    · simp only [mapWfFrom, Bool.and_eq_true, decide_eq_true_eq, bne_iff_ne, ne_eq]
      exact ⟨⟨hl, hv⟩, ⟨by omega, by simpa using h.1.2⟩, h.2⟩
    · split
      · rename_i _ he; subst he
        simp only [mapWfFrom, Bool.and_eq_true, decide_eq_true_eq, bne_iff_ne, ne_eq]
        exact ⟨⟨hl, hv⟩, h.2⟩
      · simp only [mapWfFrom, Bool.and_eq_true, decide_eq_true_eq]
        exact ⟨h.1, ih _ h.2 (by omega)⟩

/-- A write keeps the canonical form. -/
theorem mapWf_put (m : List (Nat × Nat)) (k v : Nat) (h : mapWf m = true) : mapWf (mapPut m k v) = true := by
  unfold mapPut
  split
  · exact mapWfFrom_del m k 0 h
  · rename_i hv; exact mapWfFrom_ins m k v 0 h hv (Nat.zero_le k)

theorem mapWf_reset :
    mapWf State.reset.regs = true ∧ mapWf State.reset.bregs = true ∧ mapWf State.reset.fregs = true := ⟨rfl, rfl, rfl⟩

/-- Two maps in canonical form that read alike are equal. -/
theorem mapGet_low {m : List (Nat × Nat)} {lo k : Nat} (h : mapWfFrom lo m = true) (hk : k < lo) : mapGet m k = 0 := by
  induction m generalizing lo with
  | nil => rfl
  | cons e m ih =>
    obtain ⟨a, w⟩ := e
    simp only [mapWfFrom, Bool.and_eq_true, decide_eq_true_eq] at h
    have : k ≠ a := by omega
    rw [mapGet, if_neg this]
    exact ih h.2 (by omega)

/-! ### Register fields -/

theorem mapOf_withMap_same (h : Home) (m : List (Nat × Nat)) (c : Chip) : (c.withMap h m).mapOf h = m := by
  cases h <;> rfl

theorem mapOf_withMap_ne {g h : Home} (m : List (Nat × Nat)) (c : Chip) (e : g ≠ h) :
    (c.withMap h m).mapOf g = c.mapOf g := by
  cases g <;> cases h <;> first | rfl | exact absurd rfl e

theorem xor_xor_self (a b : Nat) : a ^^^ b ^^^ b = a := by rw [Nat.xor_assoc, Nat.xor_self, Nat.xor_zero]

/-- A field reads as it was set, in its width. -/
theorem getF_setF_same (f : Fld) (i v : Nat) (c : Chip) : getF f i (setF f i v c) = v % 2 ^ f.width := by
  simp only [getF, setF, mapOf_withMap_same, mapGet_put_same, xor_xor_self]

/-- Setting a field leaves every field with another key or another home. -/
theorem getF_setF_ne (f g : Fld) (i j v : Nat) (c : Chip) (h : f.home ≠ g.home ∨ fkey g j ≠ fkey f i) :
    getF g j (setF f i v c) = getF g j c := by
  simp only [getF, setF]
  by_cases hh : g.home = f.home
  · rw [hh, mapOf_withMap_same]
    rw [mapGet_put_ne _ _ _ _ (h.resolve_left fun e => e hh.symm)]
  · rw [mapOf_withMap_ne _ _ hh]

/-- The register maps are in canonical form. -/
def MapsWf (c : Chip) : Prop := mapWf c.regs = true ∧ mapWf c.bregs = true ∧ mapWf c.fregs = true

theorem mapsWf_setF (f : Fld) (i v : Nat) (c : Chip) (h : MapsWf c) : MapsWf (setF f i v c) := by
  obtain ⟨h1, h2, h3⟩ := h
  unfold setF
  cases hf : f.home
  · exact ⟨mapWf_put _ _ _ h1, h2, h3⟩
  · exact ⟨h1, mapWf_put _ _ _ h2, h3⟩
  · exact ⟨h1, h2, mapWf_put _ _ _ h3⟩

theorem mapsWf_putReg (key v rst : Nat) (c : Chip) (h : MapsWf c) : MapsWf (putReg key v rst c) :=
  ⟨mapWf_put _ _ _ h.1, h.2.1, h.2.2⟩

end Sys2Proof.Machine
end

