-- ==== Sys2Proof/Laws/State.lean ====
section
/-!
SUPPORT. One lemma for each part of the device and each update of it: what the update leaves as it was. The proofs about commands
cite these and unfold no record update.
-/

namespace Sys2Proof.Machine
open Sys2Proof

/-! ### Register fields -/

@[simp] theorem withMap_snap (h : Home) (m : List (Nat × Nat)) (c : Chip) : (c.withMap h m).snap = c.snap := by cases h <;> rfl
@[simp] theorem withMap_reply (h : Home) (m : List (Nat × Nat)) (c : Chip) : (c.withMap h m).reply = c.reply := by cases h <;> rfl
@[simp] theorem withMap_pwr (h : Home) (m : List (Nat × Nat)) (c : Chip) : (c.withMap h m).pwr = c.pwr := by cases h <;> rfl
@[simp] theorem withMap_bridge (h : Home) (m : List (Nat × Nat)) (c : Chip) : (c.withMap h m).bridge = c.bridge := by cases h <;> rfl
@[simp] theorem withMap_backup (h : Home) (m : List (Nat × Nat)) (c : Chip) : (c.withMap h m).backup = c.backup := by cases h <;> rfl
@[simp] theorem withMap_dlr (h : Home) (m : List (Nat × Nat)) (c : Chip) : (c.withMap h m).dlr = c.dlr := by cases h <;> rfl
@[simp] theorem withMap_sns (h : Home) (m : List (Nat × Nat)) (c : Chip) : (c.withMap h m).sns = c.sns := by cases h <;> rfl
@[simp] theorem withMap_mtr (h : Home) (m : List (Nat × Nat)) (c : Chip) : (c.withMap h m).mtr = c.mtr := by cases h <;> rfl
@[simp] theorem withMap_bil (h : Home) (m : List (Nat × Nat)) (c : Chip) : (c.withMap h m).bil = c.bil := by cases h <;> rfl
@[simp] theorem withMap_store (h : Home) (m : List (Nat × Nat)) (c : Chip) : (c.withMap h m).store = c.store := by cases h <;> rfl
@[simp] theorem withMap_legal (h : Home) (m : List (Nat × Nat)) (c : Chip) : (c.withMap h m).legal = c.legal := by cases h <;> rfl
@[simp] theorem withMap_hsl (h : Home) (m : List (Nat × Nat)) (c : Chip) : (c.withMap h m).hsl = c.hsl := by cases h <;> rfl
@[simp] theorem withMap_prt (h : Home) (m : List (Nat × Nat)) (c : Chip) : (c.withMap h m).prt = c.prt := by cases h <;> rfl
@[simp] theorem withMap_bay (h : Home) (m : List (Nat × Nat)) (c : Chip) : (c.withMap h m).bay = c.bay := by cases h <;> rfl
@[simp] theorem withMap_canOff (h : Home) (m : List (Nat × Nat)) (c : Chip) : (c.withMap h m).canOff = c.canOff := by cases h <;> rfl
@[simp] theorem withMap_lnk (h : Home) (m : List (Nat × Nat)) (c : Chip) : (c.withMap h m).lnk = c.lnk := by cases h <;> rfl
@[simp] theorem withMap_lsw (h : Home) (m : List (Nat × Nat)) (c : Chip) : (c.withMap h m).lsw = c.lsw := by cases h <;> rfl
@[simp] theorem withMap_saf (h : Home) (m : List (Nat × Nat)) (c : Chip) : (c.withMap h m).saf = c.saf := by cases h <;> rfl
@[simp] theorem withMap_deck (h : Home) (m : List (Nat × Nat)) (c : Chip) : (c.withMap h m).deck = c.deck := by cases h <;> rfl
@[simp] theorem withMap_upd (h : Home) (m : List (Nat × Nat)) (c : Chip) : (c.withMap h m).upd = c.upd := by cases h <;> rfl
@[simp] theorem withMap_hst (h : Home) (m : List (Nat × Nat)) (c : Chip) : (c.withMap h m).hst = c.hst := by cases h <;> rfl
@[simp] theorem withMap_emmc (h : Home) (m : List (Nat × Nat)) (c : Chip) : (c.withMap h m).emmc = c.emmc := by cases h <;> rfl
@[simp] theorem withMap_sec (h : Home) (m : List (Nat × Nat)) (c : Chip) : (c.withMap h m).sec = c.sec := by cases h <;> rfl
@[simp] theorem withMap_nfc (h : Home) (m : List (Nat × Nat)) (c : Chip) : (c.withMap h m).nfc = c.nfc := by cases h <;> rfl
@[simp] theorem withMap_tag (h : Home) (m : List (Nat × Nat)) (c : Chip) : (c.withMap h m).tag = c.tag := by cases h <;> rfl
@[simp] theorem withMap_mem (h : Home) (m : List (Nat × Nat)) (c : Chip) : (c.withMap h m).mem = c.mem := by cases h <;> rfl
@[simp] theorem withMap_dsp (h : Home) (m : List (Nat × Nat)) (c : Chip) : (c.withMap h m).dsp = c.dsp := by cases h <;> rfl
@[simp] theorem withMap_glass (h : Home) (m : List (Nat × Nat)) (c : Chip) : (c.withMap h m).glass = c.glass := by cases h <;> rfl

@[simp] theorem setF_snap (f : Fld) (i v : Nat) (c : Chip) : (setF f i v c).snap = c.snap := by simp [setF]
@[simp] theorem setF_reply (f : Fld) (i v : Nat) (c : Chip) : (setF f i v c).reply = c.reply := by simp [setF]
@[simp] theorem setF_pwr (f : Fld) (i v : Nat) (c : Chip) : (setF f i v c).pwr = c.pwr := by simp [setF]
@[simp] theorem setF_bridge (f : Fld) (i v : Nat) (c : Chip) : (setF f i v c).bridge = c.bridge := by simp [setF]
@[simp] theorem setF_backup (f : Fld) (i v : Nat) (c : Chip) : (setF f i v c).backup = c.backup := by simp [setF]
@[simp] theorem setF_dlr (f : Fld) (i v : Nat) (c : Chip) : (setF f i v c).dlr = c.dlr := by simp [setF]
@[simp] theorem setF_sns (f : Fld) (i v : Nat) (c : Chip) : (setF f i v c).sns = c.sns := by simp [setF]
@[simp] theorem setF_mtr (f : Fld) (i v : Nat) (c : Chip) : (setF f i v c).mtr = c.mtr := by simp [setF]
@[simp] theorem setF_bil (f : Fld) (i v : Nat) (c : Chip) : (setF f i v c).bil = c.bil := by simp [setF]
@[simp] theorem setF_store (f : Fld) (i v : Nat) (c : Chip) : (setF f i v c).store = c.store := by simp [setF]
@[simp] theorem setF_legal (f : Fld) (i v : Nat) (c : Chip) : (setF f i v c).legal = c.legal := by simp [setF]
@[simp] theorem setF_hsl (f : Fld) (i v : Nat) (c : Chip) : (setF f i v c).hsl = c.hsl := by simp [setF]
@[simp] theorem setF_prt (f : Fld) (i v : Nat) (c : Chip) : (setF f i v c).prt = c.prt := by simp [setF]
@[simp] theorem setF_bay (f : Fld) (i v : Nat) (c : Chip) : (setF f i v c).bay = c.bay := by simp [setF]
@[simp] theorem setF_canOff (f : Fld) (i v : Nat) (c : Chip) : (setF f i v c).canOff = c.canOff := by simp [setF]
@[simp] theorem setF_lnk (f : Fld) (i v : Nat) (c : Chip) : (setF f i v c).lnk = c.lnk := by simp [setF]
@[simp] theorem setF_lsw (f : Fld) (i v : Nat) (c : Chip) : (setF f i v c).lsw = c.lsw := by simp [setF]
@[simp] theorem setF_saf (f : Fld) (i v : Nat) (c : Chip) : (setF f i v c).saf = c.saf := by simp [setF]
@[simp] theorem setF_deck (f : Fld) (i v : Nat) (c : Chip) : (setF f i v c).deck = c.deck := by simp [setF]
@[simp] theorem setF_upd (f : Fld) (i v : Nat) (c : Chip) : (setF f i v c).upd = c.upd := by simp [setF]
@[simp] theorem setF_hst (f : Fld) (i v : Nat) (c : Chip) : (setF f i v c).hst = c.hst := by simp [setF]
@[simp] theorem setF_emmc (f : Fld) (i v : Nat) (c : Chip) : (setF f i v c).emmc = c.emmc := by simp [setF]
@[simp] theorem setF_sec (f : Fld) (i v : Nat) (c : Chip) : (setF f i v c).sec = c.sec := by simp [setF]
@[simp] theorem setF_nfc (f : Fld) (i v : Nat) (c : Chip) : (setF f i v c).nfc = c.nfc := by simp [setF]
@[simp] theorem setF_tag (f : Fld) (i v : Nat) (c : Chip) : (setF f i v c).tag = c.tag := by simp [setF]
@[simp] theorem setF_mem (f : Fld) (i v : Nat) (c : Chip) : (setF f i v c).mem = c.mem := by simp [setF]
@[simp] theorem setF_dsp (f : Fld) (i v : Nat) (c : Chip) : (setF f i v c).dsp = c.dsp := by simp [setF]
@[simp] theorem setF_glass (f : Fld) (i v : Nat) (c : Chip) : (setF f i v c).glass = c.glass := by simp [setF]

@[simp] theorem putReg_bregs (k v r : Nat) (c : Chip) : (putReg k v r c).bregs = c.bregs := rfl
@[simp] theorem putReg_fregs (k v r : Nat) (c : Chip) : (putReg k v r c).fregs = c.fregs := rfl
@[simp] theorem putReg_snap (k v r : Nat) (c : Chip) : (putReg k v r c).snap = c.snap := rfl
@[simp] theorem putReg_reply (k v r : Nat) (c : Chip) : (putReg k v r c).reply = c.reply := rfl
@[simp] theorem putReg_pwr (k v r : Nat) (c : Chip) : (putReg k v r c).pwr = c.pwr := rfl
@[simp] theorem putReg_bridge (k v r : Nat) (c : Chip) : (putReg k v r c).bridge = c.bridge := rfl
@[simp] theorem putReg_backup (k v r : Nat) (c : Chip) : (putReg k v r c).backup = c.backup := rfl
@[simp] theorem putReg_dlr (k v r : Nat) (c : Chip) : (putReg k v r c).dlr = c.dlr := rfl
@[simp] theorem putReg_sns (k v r : Nat) (c : Chip) : (putReg k v r c).sns = c.sns := rfl
@[simp] theorem putReg_mtr (k v r : Nat) (c : Chip) : (putReg k v r c).mtr = c.mtr := rfl
@[simp] theorem putReg_bil (k v r : Nat) (c : Chip) : (putReg k v r c).bil = c.bil := rfl
@[simp] theorem putReg_store (k v r : Nat) (c : Chip) : (putReg k v r c).store = c.store := rfl
@[simp] theorem putReg_legal (k v r : Nat) (c : Chip) : (putReg k v r c).legal = c.legal := rfl
@[simp] theorem putReg_hsl (k v r : Nat) (c : Chip) : (putReg k v r c).hsl = c.hsl := rfl
@[simp] theorem putReg_prt (k v r : Nat) (c : Chip) : (putReg k v r c).prt = c.prt := rfl
@[simp] theorem putReg_bay (k v r : Nat) (c : Chip) : (putReg k v r c).bay = c.bay := rfl
@[simp] theorem putReg_canOff (k v r : Nat) (c : Chip) : (putReg k v r c).canOff = c.canOff := rfl
@[simp] theorem putReg_lnk (k v r : Nat) (c : Chip) : (putReg k v r c).lnk = c.lnk := rfl
@[simp] theorem putReg_lsw (k v r : Nat) (c : Chip) : (putReg k v r c).lsw = c.lsw := rfl
@[simp] theorem putReg_saf (k v r : Nat) (c : Chip) : (putReg k v r c).saf = c.saf := rfl
@[simp] theorem putReg_deck (k v r : Nat) (c : Chip) : (putReg k v r c).deck = c.deck := rfl
@[simp] theorem putReg_upd (k v r : Nat) (c : Chip) : (putReg k v r c).upd = c.upd := rfl
@[simp] theorem putReg_hst (k v r : Nat) (c : Chip) : (putReg k v r c).hst = c.hst := rfl
@[simp] theorem putReg_emmc (k v r : Nat) (c : Chip) : (putReg k v r c).emmc = c.emmc := rfl
@[simp] theorem putReg_sec (k v r : Nat) (c : Chip) : (putReg k v r c).sec = c.sec := rfl
@[simp] theorem putReg_nfc (k v r : Nat) (c : Chip) : (putReg k v r c).nfc = c.nfc := rfl
@[simp] theorem putReg_tag (k v r : Nat) (c : Chip) : (putReg k v r c).tag = c.tag := rfl
@[simp] theorem putReg_mem (k v r : Nat) (c : Chip) : (putReg k v r c).mem = c.mem := rfl
@[simp] theorem putReg_dsp (k v r : Nat) (c : Chip) : (putReg k v r c).dsp = c.dsp := rfl
@[simp] theorem putReg_glass (k v r : Nat) (c : Chip) : (putReg k v r c).glass = c.glass := rfl

@[simp] theorem setBitF_snap (f : Fld) (i k : Nat) (b : Bool) (c : Chip) : (setBitF f i k b c).snap = c.snap := by simp [setBitF]
@[simp] theorem setBitF_reply (f : Fld) (i k : Nat) (b : Bool) (c : Chip) : (setBitF f i k b c).reply = c.reply := by simp [setBitF]
@[simp] theorem setBitF_pwr (f : Fld) (i k : Nat) (b : Bool) (c : Chip) : (setBitF f i k b c).pwr = c.pwr := by simp [setBitF]
@[simp] theorem setBitF_bridge (f : Fld) (i k : Nat) (b : Bool) (c : Chip) : (setBitF f i k b c).bridge = c.bridge := by simp [setBitF]
@[simp] theorem setBitF_backup (f : Fld) (i k : Nat) (b : Bool) (c : Chip) : (setBitF f i k b c).backup = c.backup := by simp [setBitF]
@[simp] theorem setBitF_dlr (f : Fld) (i k : Nat) (b : Bool) (c : Chip) : (setBitF f i k b c).dlr = c.dlr := by simp [setBitF]
@[simp] theorem setBitF_sns (f : Fld) (i k : Nat) (b : Bool) (c : Chip) : (setBitF f i k b c).sns = c.sns := by simp [setBitF]
@[simp] theorem setBitF_mtr (f : Fld) (i k : Nat) (b : Bool) (c : Chip) : (setBitF f i k b c).mtr = c.mtr := by simp [setBitF]
@[simp] theorem setBitF_bil (f : Fld) (i k : Nat) (b : Bool) (c : Chip) : (setBitF f i k b c).bil = c.bil := by simp [setBitF]
@[simp] theorem setBitF_store (f : Fld) (i k : Nat) (b : Bool) (c : Chip) : (setBitF f i k b c).store = c.store := by simp [setBitF]
@[simp] theorem setBitF_legal (f : Fld) (i k : Nat) (b : Bool) (c : Chip) : (setBitF f i k b c).legal = c.legal := by simp [setBitF]
@[simp] theorem setBitF_hsl (f : Fld) (i k : Nat) (b : Bool) (c : Chip) : (setBitF f i k b c).hsl = c.hsl := by simp [setBitF]
@[simp] theorem setBitF_prt (f : Fld) (i k : Nat) (b : Bool) (c : Chip) : (setBitF f i k b c).prt = c.prt := by simp [setBitF]
@[simp] theorem setBitF_bay (f : Fld) (i k : Nat) (b : Bool) (c : Chip) : (setBitF f i k b c).bay = c.bay := by simp [setBitF]
@[simp] theorem setBitF_canOff (f : Fld) (i k : Nat) (b : Bool) (c : Chip) : (setBitF f i k b c).canOff = c.canOff := by simp [setBitF]
@[simp] theorem setBitF_lnk (f : Fld) (i k : Nat) (b : Bool) (c : Chip) : (setBitF f i k b c).lnk = c.lnk := by simp [setBitF]
@[simp] theorem setBitF_lsw (f : Fld) (i k : Nat) (b : Bool) (c : Chip) : (setBitF f i k b c).lsw = c.lsw := by simp [setBitF]
@[simp] theorem setBitF_saf (f : Fld) (i k : Nat) (b : Bool) (c : Chip) : (setBitF f i k b c).saf = c.saf := by simp [setBitF]
@[simp] theorem setBitF_deck (f : Fld) (i k : Nat) (b : Bool) (c : Chip) : (setBitF f i k b c).deck = c.deck := by simp [setBitF]
@[simp] theorem setBitF_upd (f : Fld) (i k : Nat) (b : Bool) (c : Chip) : (setBitF f i k b c).upd = c.upd := by simp [setBitF]
@[simp] theorem setBitF_hst (f : Fld) (i k : Nat) (b : Bool) (c : Chip) : (setBitF f i k b c).hst = c.hst := by simp [setBitF]
@[simp] theorem setBitF_emmc (f : Fld) (i k : Nat) (b : Bool) (c : Chip) : (setBitF f i k b c).emmc = c.emmc := by simp [setBitF]
@[simp] theorem setBitF_sec (f : Fld) (i k : Nat) (b : Bool) (c : Chip) : (setBitF f i k b c).sec = c.sec := by simp [setBitF]
@[simp] theorem setBitF_nfc (f : Fld) (i k : Nat) (b : Bool) (c : Chip) : (setBitF f i k b c).nfc = c.nfc := by simp [setBitF]
@[simp] theorem setBitF_tag (f : Fld) (i k : Nat) (b : Bool) (c : Chip) : (setBitF f i k b c).tag = c.tag := by simp [setBitF]
@[simp] theorem setBitF_mem (f : Fld) (i k : Nat) (b : Bool) (c : Chip) : (setBitF f i k b c).mem = c.mem := by simp [setBitF]
@[simp] theorem setBitF_dsp (f : Fld) (i k : Nat) (b : Bool) (c : Chip) : (setBitF f i k b c).dsp = c.dsp := by simp [setBitF]
@[simp] theorem setBitF_glass (f : Fld) (i k : Nat) (b : Bool) (c : Chip) : (setBitF f i k b c).glass = c.glass := by simp [setBitF]

@[simp] theorem addSat_snap (f : Fld) (i m n : Nat) (c : Chip) : (addSat f i m n c).snap = c.snap := by simp [addSat]
@[simp] theorem addSat_reply (f : Fld) (i m n : Nat) (c : Chip) : (addSat f i m n c).reply = c.reply := by simp [addSat]
@[simp] theorem addSat_pwr (f : Fld) (i m n : Nat) (c : Chip) : (addSat f i m n c).pwr = c.pwr := by simp [addSat]
@[simp] theorem addSat_bridge (f : Fld) (i m n : Nat) (c : Chip) : (addSat f i m n c).bridge = c.bridge := by simp [addSat]
@[simp] theorem addSat_backup (f : Fld) (i m n : Nat) (c : Chip) : (addSat f i m n c).backup = c.backup := by simp [addSat]
@[simp] theorem addSat_dlr (f : Fld) (i m n : Nat) (c : Chip) : (addSat f i m n c).dlr = c.dlr := by simp [addSat]
@[simp] theorem addSat_sns (f : Fld) (i m n : Nat) (c : Chip) : (addSat f i m n c).sns = c.sns := by simp [addSat]
@[simp] theorem addSat_mtr (f : Fld) (i m n : Nat) (c : Chip) : (addSat f i m n c).mtr = c.mtr := by simp [addSat]
@[simp] theorem addSat_bil (f : Fld) (i m n : Nat) (c : Chip) : (addSat f i m n c).bil = c.bil := by simp [addSat]
@[simp] theorem addSat_store (f : Fld) (i m n : Nat) (c : Chip) : (addSat f i m n c).store = c.store := by simp [addSat]
@[simp] theorem addSat_legal (f : Fld) (i m n : Nat) (c : Chip) : (addSat f i m n c).legal = c.legal := by simp [addSat]
@[simp] theorem addSat_hsl (f : Fld) (i m n : Nat) (c : Chip) : (addSat f i m n c).hsl = c.hsl := by simp [addSat]
@[simp] theorem addSat_prt (f : Fld) (i m n : Nat) (c : Chip) : (addSat f i m n c).prt = c.prt := by simp [addSat]
@[simp] theorem addSat_bay (f : Fld) (i m n : Nat) (c : Chip) : (addSat f i m n c).bay = c.bay := by simp [addSat]
@[simp] theorem addSat_canOff (f : Fld) (i m n : Nat) (c : Chip) : (addSat f i m n c).canOff = c.canOff := by simp [addSat]
@[simp] theorem addSat_lnk (f : Fld) (i m n : Nat) (c : Chip) : (addSat f i m n c).lnk = c.lnk := by simp [addSat]
@[simp] theorem addSat_lsw (f : Fld) (i m n : Nat) (c : Chip) : (addSat f i m n c).lsw = c.lsw := by simp [addSat]
@[simp] theorem addSat_saf (f : Fld) (i m n : Nat) (c : Chip) : (addSat f i m n c).saf = c.saf := by simp [addSat]
@[simp] theorem addSat_deck (f : Fld) (i m n : Nat) (c : Chip) : (addSat f i m n c).deck = c.deck := by simp [addSat]
@[simp] theorem addSat_upd (f : Fld) (i m n : Nat) (c : Chip) : (addSat f i m n c).upd = c.upd := by simp [addSat]
@[simp] theorem addSat_hst (f : Fld) (i m n : Nat) (c : Chip) : (addSat f i m n c).hst = c.hst := by simp [addSat]
@[simp] theorem addSat_emmc (f : Fld) (i m n : Nat) (c : Chip) : (addSat f i m n c).emmc = c.emmc := by simp [addSat]
@[simp] theorem addSat_sec (f : Fld) (i m n : Nat) (c : Chip) : (addSat f i m n c).sec = c.sec := by simp [addSat]
@[simp] theorem addSat_nfc (f : Fld) (i m n : Nat) (c : Chip) : (addSat f i m n c).nfc = c.nfc := by simp [addSat]
@[simp] theorem addSat_tag (f : Fld) (i m n : Nat) (c : Chip) : (addSat f i m n c).tag = c.tag := by simp [addSat]
@[simp] theorem addSat_mem (f : Fld) (i m n : Nat) (c : Chip) : (addSat f i m n c).mem = c.mem := by simp [addSat]
@[simp] theorem addSat_dsp (f : Fld) (i m n : Nat) (c : Chip) : (addSat f i m n c).dsp = c.dsp := by simp [addSat]
@[simp] theorem addSat_glass (f : Fld) (i m n : Nat) (c : Chip) : (addSat f i m n c).glass = c.glass := by simp [addSat]

/-! ### Flags and counts -/

@[simp] theorem flagF_snap (f : Fld) (i k : Nat) (g : Fld) (j : Nat) (c : Chip) : (flagF f i k g j c).snap = c.snap := by simp [flagF, flagBit]
@[simp] theorem flagF_reply (f : Fld) (i k : Nat) (g : Fld) (j : Nat) (c : Chip) : (flagF f i k g j c).reply = c.reply := by simp [flagF, flagBit]
@[simp] theorem flagF_pwr (f : Fld) (i k : Nat) (g : Fld) (j : Nat) (c : Chip) : (flagF f i k g j c).pwr = c.pwr := by simp [flagF, flagBit]
@[simp] theorem flagF_bridge (f : Fld) (i k : Nat) (g : Fld) (j : Nat) (c : Chip) : (flagF f i k g j c).bridge = c.bridge := by simp [flagF, flagBit]
@[simp] theorem flagF_backup (f : Fld) (i k : Nat) (g : Fld) (j : Nat) (c : Chip) : (flagF f i k g j c).backup = c.backup := by simp [flagF, flagBit]
@[simp] theorem flagF_dlr (f : Fld) (i k : Nat) (g : Fld) (j : Nat) (c : Chip) : (flagF f i k g j c).dlr = c.dlr := by simp [flagF, flagBit]
@[simp] theorem flagF_sns (f : Fld) (i k : Nat) (g : Fld) (j : Nat) (c : Chip) : (flagF f i k g j c).sns = c.sns := by simp [flagF, flagBit]
@[simp] theorem flagF_mtr (f : Fld) (i k : Nat) (g : Fld) (j : Nat) (c : Chip) : (flagF f i k g j c).mtr = c.mtr := by simp [flagF, flagBit]
@[simp] theorem flagF_bil (f : Fld) (i k : Nat) (g : Fld) (j : Nat) (c : Chip) : (flagF f i k g j c).bil = c.bil := by simp [flagF, flagBit]
@[simp] theorem flagF_store (f : Fld) (i k : Nat) (g : Fld) (j : Nat) (c : Chip) : (flagF f i k g j c).store = c.store := by simp [flagF, flagBit]
@[simp] theorem flagF_legal (f : Fld) (i k : Nat) (g : Fld) (j : Nat) (c : Chip) : (flagF f i k g j c).legal = c.legal := by simp [flagF, flagBit]
@[simp] theorem flagF_hsl (f : Fld) (i k : Nat) (g : Fld) (j : Nat) (c : Chip) : (flagF f i k g j c).hsl = c.hsl := by simp [flagF, flagBit]
@[simp] theorem flagF_prt (f : Fld) (i k : Nat) (g : Fld) (j : Nat) (c : Chip) : (flagF f i k g j c).prt = c.prt := by simp [flagF, flagBit]
@[simp] theorem flagF_bay (f : Fld) (i k : Nat) (g : Fld) (j : Nat) (c : Chip) : (flagF f i k g j c).bay = c.bay := by simp [flagF, flagBit]
@[simp] theorem flagF_canOff (f : Fld) (i k : Nat) (g : Fld) (j : Nat) (c : Chip) : (flagF f i k g j c).canOff = c.canOff := by simp [flagF, flagBit]
@[simp] theorem flagF_lnk (f : Fld) (i k : Nat) (g : Fld) (j : Nat) (c : Chip) : (flagF f i k g j c).lnk = c.lnk := by simp [flagF, flagBit]
@[simp] theorem flagF_lsw (f : Fld) (i k : Nat) (g : Fld) (j : Nat) (c : Chip) : (flagF f i k g j c).lsw = c.lsw := by simp [flagF, flagBit]
@[simp] theorem flagF_saf (f : Fld) (i k : Nat) (g : Fld) (j : Nat) (c : Chip) : (flagF f i k g j c).saf = c.saf := by simp [flagF, flagBit]
@[simp] theorem flagF_deck (f : Fld) (i k : Nat) (g : Fld) (j : Nat) (c : Chip) : (flagF f i k g j c).deck = c.deck := by simp [flagF, flagBit]
@[simp] theorem flagF_upd (f : Fld) (i k : Nat) (g : Fld) (j : Nat) (c : Chip) : (flagF f i k g j c).upd = c.upd := by simp [flagF, flagBit]
@[simp] theorem flagF_hst (f : Fld) (i k : Nat) (g : Fld) (j : Nat) (c : Chip) : (flagF f i k g j c).hst = c.hst := by simp [flagF, flagBit]
@[simp] theorem flagF_emmc (f : Fld) (i k : Nat) (g : Fld) (j : Nat) (c : Chip) : (flagF f i k g j c).emmc = c.emmc := by simp [flagF, flagBit]
@[simp] theorem flagF_sec (f : Fld) (i k : Nat) (g : Fld) (j : Nat) (c : Chip) : (flagF f i k g j c).sec = c.sec := by simp [flagF, flagBit]
@[simp] theorem flagF_nfc (f : Fld) (i k : Nat) (g : Fld) (j : Nat) (c : Chip) : (flagF f i k g j c).nfc = c.nfc := by simp [flagF, flagBit]
@[simp] theorem flagF_tag (f : Fld) (i k : Nat) (g : Fld) (j : Nat) (c : Chip) : (flagF f i k g j c).tag = c.tag := by simp [flagF, flagBit]
@[simp] theorem flagF_mem (f : Fld) (i k : Nat) (g : Fld) (j : Nat) (c : Chip) : (flagF f i k g j c).mem = c.mem := by simp [flagF, flagBit]
@[simp] theorem flagF_dsp (f : Fld) (i k : Nat) (g : Fld) (j : Nat) (c : Chip) : (flagF f i k g j c).dsp = c.dsp := by simp [flagF, flagBit]
@[simp] theorem flagF_glass (f : Fld) (i k : Nat) (g : Fld) (j : Nat) (c : Chip) : (flagF f i k g j c).glass = c.glass := by simp [flagF, flagBit]

@[simp] theorem flagBit_snap (f : Fld) (i k : Nat) (g : Fld) (j : Nat) (c : Chip) : (flagBit f i k g j c).snap = c.snap := by simp [flagBit]
@[simp] theorem flagBit_reply (f : Fld) (i k : Nat) (g : Fld) (j : Nat) (c : Chip) : (flagBit f i k g j c).reply = c.reply := by simp [flagBit]
@[simp] theorem flagBit_pwr (f : Fld) (i k : Nat) (g : Fld) (j : Nat) (c : Chip) : (flagBit f i k g j c).pwr = c.pwr := by simp [flagBit]
@[simp] theorem flagBit_bridge (f : Fld) (i k : Nat) (g : Fld) (j : Nat) (c : Chip) : (flagBit f i k g j c).bridge = c.bridge := by simp [flagBit]
@[simp] theorem flagBit_backup (f : Fld) (i k : Nat) (g : Fld) (j : Nat) (c : Chip) : (flagBit f i k g j c).backup = c.backup := by simp [flagBit]
@[simp] theorem flagBit_dlr (f : Fld) (i k : Nat) (g : Fld) (j : Nat) (c : Chip) : (flagBit f i k g j c).dlr = c.dlr := by simp [flagBit]
@[simp] theorem flagBit_sns (f : Fld) (i k : Nat) (g : Fld) (j : Nat) (c : Chip) : (flagBit f i k g j c).sns = c.sns := by simp [flagBit]
@[simp] theorem flagBit_mtr (f : Fld) (i k : Nat) (g : Fld) (j : Nat) (c : Chip) : (flagBit f i k g j c).mtr = c.mtr := by simp [flagBit]
@[simp] theorem flagBit_bil (f : Fld) (i k : Nat) (g : Fld) (j : Nat) (c : Chip) : (flagBit f i k g j c).bil = c.bil := by simp [flagBit]
@[simp] theorem flagBit_store (f : Fld) (i k : Nat) (g : Fld) (j : Nat) (c : Chip) : (flagBit f i k g j c).store = c.store := by simp [flagBit]
@[simp] theorem flagBit_legal (f : Fld) (i k : Nat) (g : Fld) (j : Nat) (c : Chip) : (flagBit f i k g j c).legal = c.legal := by simp [flagBit]
@[simp] theorem flagBit_hsl (f : Fld) (i k : Nat) (g : Fld) (j : Nat) (c : Chip) : (flagBit f i k g j c).hsl = c.hsl := by simp [flagBit]
@[simp] theorem flagBit_prt (f : Fld) (i k : Nat) (g : Fld) (j : Nat) (c : Chip) : (flagBit f i k g j c).prt = c.prt := by simp [flagBit]
@[simp] theorem flagBit_bay (f : Fld) (i k : Nat) (g : Fld) (j : Nat) (c : Chip) : (flagBit f i k g j c).bay = c.bay := by simp [flagBit]
@[simp] theorem flagBit_canOff (f : Fld) (i k : Nat) (g : Fld) (j : Nat) (c : Chip) : (flagBit f i k g j c).canOff = c.canOff := by simp [flagBit]
@[simp] theorem flagBit_lnk (f : Fld) (i k : Nat) (g : Fld) (j : Nat) (c : Chip) : (flagBit f i k g j c).lnk = c.lnk := by simp [flagBit]
@[simp] theorem flagBit_lsw (f : Fld) (i k : Nat) (g : Fld) (j : Nat) (c : Chip) : (flagBit f i k g j c).lsw = c.lsw := by simp [flagBit]
@[simp] theorem flagBit_saf (f : Fld) (i k : Nat) (g : Fld) (j : Nat) (c : Chip) : (flagBit f i k g j c).saf = c.saf := by simp [flagBit]
@[simp] theorem flagBit_deck (f : Fld) (i k : Nat) (g : Fld) (j : Nat) (c : Chip) : (flagBit f i k g j c).deck = c.deck := by simp [flagBit]
@[simp] theorem flagBit_upd (f : Fld) (i k : Nat) (g : Fld) (j : Nat) (c : Chip) : (flagBit f i k g j c).upd = c.upd := by simp [flagBit]
@[simp] theorem flagBit_hst (f : Fld) (i k : Nat) (g : Fld) (j : Nat) (c : Chip) : (flagBit f i k g j c).hst = c.hst := by simp [flagBit]
@[simp] theorem flagBit_emmc (f : Fld) (i k : Nat) (g : Fld) (j : Nat) (c : Chip) : (flagBit f i k g j c).emmc = c.emmc := by simp [flagBit]
@[simp] theorem flagBit_sec (f : Fld) (i k : Nat) (g : Fld) (j : Nat) (c : Chip) : (flagBit f i k g j c).sec = c.sec := by simp [flagBit]
@[simp] theorem flagBit_nfc (f : Fld) (i k : Nat) (g : Fld) (j : Nat) (c : Chip) : (flagBit f i k g j c).nfc = c.nfc := by simp [flagBit]
@[simp] theorem flagBit_tag (f : Fld) (i k : Nat) (g : Fld) (j : Nat) (c : Chip) : (flagBit f i k g j c).tag = c.tag := by simp [flagBit]
@[simp] theorem flagBit_mem (f : Fld) (i k : Nat) (g : Fld) (j : Nat) (c : Chip) : (flagBit f i k g j c).mem = c.mem := by simp [flagBit]
@[simp] theorem flagBit_dsp (f : Fld) (i k : Nat) (g : Fld) (j : Nat) (c : Chip) : (flagBit f i k g j c).dsp = c.dsp := by simp [flagBit]
@[simp] theorem flagBit_glass (f : Fld) (i k : Nat) (g : Fld) (j : Nat) (c : Chip) : (flagBit f i k g j c).glass = c.glass := by simp [flagBit]

@[simp] theorem trumpEvent_snap (k : Nat) (c : Chip) : (trumpEvent k c).snap = c.snap := by simp [trumpEvent]
@[simp] theorem trumpEvent_reply (k : Nat) (c : Chip) : (trumpEvent k c).reply = c.reply := by simp [trumpEvent]
@[simp] theorem trumpEvent_pwr (k : Nat) (c : Chip) : (trumpEvent k c).pwr = c.pwr := by simp [trumpEvent]
@[simp] theorem trumpEvent_bridge (k : Nat) (c : Chip) : (trumpEvent k c).bridge = c.bridge := by simp [trumpEvent]
@[simp] theorem trumpEvent_backup (k : Nat) (c : Chip) : (trumpEvent k c).backup = c.backup := by simp [trumpEvent]
@[simp] theorem trumpEvent_dlr (k : Nat) (c : Chip) : (trumpEvent k c).dlr = c.dlr := by simp [trumpEvent]
@[simp] theorem trumpEvent_sns (k : Nat) (c : Chip) : (trumpEvent k c).sns = c.sns := by simp [trumpEvent]
@[simp] theorem trumpEvent_mtr (k : Nat) (c : Chip) : (trumpEvent k c).mtr = c.mtr := by simp [trumpEvent]
@[simp] theorem trumpEvent_bil (k : Nat) (c : Chip) : (trumpEvent k c).bil = c.bil := by simp [trumpEvent]
@[simp] theorem trumpEvent_store (k : Nat) (c : Chip) : (trumpEvent k c).store = c.store := by simp [trumpEvent]
@[simp] theorem trumpEvent_legal (k : Nat) (c : Chip) : (trumpEvent k c).legal = c.legal := by simp [trumpEvent]
@[simp] theorem trumpEvent_hsl (k : Nat) (c : Chip) : (trumpEvent k c).hsl = c.hsl := by simp [trumpEvent]
@[simp] theorem trumpEvent_prt (k : Nat) (c : Chip) : (trumpEvent k c).prt = c.prt := by simp [trumpEvent]
@[simp] theorem trumpEvent_bay (k : Nat) (c : Chip) : (trumpEvent k c).bay = c.bay := by simp [trumpEvent]
@[simp] theorem trumpEvent_canOff (k : Nat) (c : Chip) : (trumpEvent k c).canOff = c.canOff := by simp [trumpEvent]
@[simp] theorem trumpEvent_lnk (k : Nat) (c : Chip) : (trumpEvent k c).lnk = c.lnk := by simp [trumpEvent]
@[simp] theorem trumpEvent_lsw (k : Nat) (c : Chip) : (trumpEvent k c).lsw = c.lsw := by simp [trumpEvent]
@[simp] theorem trumpEvent_saf (k : Nat) (c : Chip) : (trumpEvent k c).saf = c.saf := by simp [trumpEvent]
@[simp] theorem trumpEvent_deck (k : Nat) (c : Chip) : (trumpEvent k c).deck = c.deck := by simp [trumpEvent]
@[simp] theorem trumpEvent_upd (k : Nat) (c : Chip) : (trumpEvent k c).upd = c.upd := by simp [trumpEvent]
@[simp] theorem trumpEvent_hst (k : Nat) (c : Chip) : (trumpEvent k c).hst = c.hst := by simp [trumpEvent]
@[simp] theorem trumpEvent_emmc (k : Nat) (c : Chip) : (trumpEvent k c).emmc = c.emmc := by simp [trumpEvent]
@[simp] theorem trumpEvent_sec (k : Nat) (c : Chip) : (trumpEvent k c).sec = c.sec := by simp [trumpEvent]
@[simp] theorem trumpEvent_nfc (k : Nat) (c : Chip) : (trumpEvent k c).nfc = c.nfc := by simp [trumpEvent]
@[simp] theorem trumpEvent_tag (k : Nat) (c : Chip) : (trumpEvent k c).tag = c.tag := by simp [trumpEvent]
@[simp] theorem trumpEvent_mem (k : Nat) (c : Chip) : (trumpEvent k c).mem = c.mem := by simp [trumpEvent]
@[simp] theorem trumpEvent_dsp (k : Nat) (c : Chip) : (trumpEvent k c).dsp = c.dsp := by simp [trumpEvent]
@[simp] theorem trumpEvent_glass (k : Nat) (c : Chip) : (trumpEvent k c).glass = c.glass := by simp [trumpEvent]

@[simp] theorem tamper_regs (code info : Nat) (c : Chip) : (tamper code info c).regs = c.regs := by
  unfold tamper; split <;> rfl
@[simp] theorem tamper_bregs (code info : Nat) (c : Chip) : (tamper code info c).bregs = c.bregs := by
  unfold tamper; split <;> rfl
@[simp] theorem tamper_fregs (code info : Nat) (c : Chip) : (tamper code info c).fregs = c.fregs := by
  unfold tamper; split <;> rfl
@[simp] theorem tamper_snap (code info : Nat) (c : Chip) : (tamper code info c).snap = c.snap := by
  unfold tamper; split <;> rfl
@[simp] theorem tamper_reply (code info : Nat) (c : Chip) : (tamper code info c).reply = c.reply := by
  unfold tamper; split <;> rfl
@[simp] theorem tamper_pwr (code info : Nat) (c : Chip) : (tamper code info c).pwr = c.pwr := by
  unfold tamper; split <;> rfl
@[simp] theorem tamper_bridge (code info : Nat) (c : Chip) : (tamper code info c).bridge = c.bridge := by
  unfold tamper; split <;> rfl
@[simp] theorem tamper_ms (code info : Nat) (c : Chip) : (tamper code info c).backup.ms = c.backup.ms := by
  unfold tamper; split <;> rfl
@[simp] theorem tamper_dlr (code info : Nat) (c : Chip) : (tamper code info c).dlr = c.dlr := by
  unfold tamper; split <;> rfl
@[simp] theorem tamper_sns (code info : Nat) (c : Chip) : (tamper code info c).sns = c.sns := by
  unfold tamper; split <;> rfl
@[simp] theorem tamper_mtr (code info : Nat) (c : Chip) : (tamper code info c).mtr = c.mtr := by
  unfold tamper; split <;> rfl
@[simp] theorem tamper_bil (code info : Nat) (c : Chip) : (tamper code info c).bil = c.bil := by
  unfold tamper; split <;> rfl
@[simp] theorem tamper_legal (code info : Nat) (c : Chip) : (tamper code info c).legal = c.legal := by
  unfold tamper; split <;> rfl
@[simp] theorem tamper_hsl (code info : Nat) (c : Chip) : (tamper code info c).hsl = c.hsl := by
  unfold tamper; split <;> rfl
@[simp] theorem tamper_prt (code info : Nat) (c : Chip) : (tamper code info c).prt = c.prt := by
  unfold tamper; split <;> rfl
@[simp] theorem tamper_bay (code info : Nat) (c : Chip) : (tamper code info c).bay = c.bay := by
  unfold tamper; split <;> rfl
@[simp] theorem tamper_canOff (code info : Nat) (c : Chip) : (tamper code info c).canOff = c.canOff := by
  unfold tamper; split <;> rfl
@[simp] theorem tamper_lnk (code info : Nat) (c : Chip) : (tamper code info c).lnk = c.lnk := by
  unfold tamper; split <;> rfl
@[simp] theorem tamper_lsw (code info : Nat) (c : Chip) : (tamper code info c).lsw = c.lsw := by
  unfold tamper; split <;> rfl
@[simp] theorem tamper_saf (code info : Nat) (c : Chip) : (tamper code info c).saf = c.saf := by
  unfold tamper; split <;> rfl
@[simp] theorem tamper_deck (code info : Nat) (c : Chip) : (tamper code info c).deck = c.deck := by
  unfold tamper; split <;> rfl
@[simp] theorem tamper_upd (code info : Nat) (c : Chip) : (tamper code info c).upd = c.upd := by
  unfold tamper; split <;> rfl
@[simp] theorem tamper_hst (code info : Nat) (c : Chip) : (tamper code info c).hst = c.hst := by
  unfold tamper; split <;> rfl
@[simp] theorem tamper_emmc (code info : Nat) (c : Chip) : (tamper code info c).emmc = c.emmc := by
  unfold tamper; split <;> rfl
@[simp] theorem tamper_sec (code info : Nat) (c : Chip) : (tamper code info c).sec = c.sec := by
  unfold tamper; split <;> rfl
@[simp] theorem tamper_nfc (code info : Nat) (c : Chip) : (tamper code info c).nfc = c.nfc := by
  unfold tamper; split <;> rfl
@[simp] theorem tamper_tag (code info : Nat) (c : Chip) : (tamper code info c).tag = c.tag := by
  unfold tamper; split <;> rfl
@[simp] theorem tamper_mem (code info : Nat) (c : Chip) : (tamper code info c).mem = c.mem := by
  unfold tamper; split <;> rfl
@[simp] theorem tamper_dsp (code info : Nat) (c : Chip) : (tamper code info c).dsp = c.dsp := by
  unfold tamper; split <;> rfl
@[simp] theorem tamper_glass (code info : Nat) (c : Chip) : (tamper code info c).glass = c.glass := by
  unfold tamper; split <;> rfl

/-! ### Parts -/

@[simp] theorem lswPut_regs (k : Nat) (x : LswChan) (c : Chip) : (lswPut k x c).regs = c.regs := rfl
@[simp] theorem lswPut_bregs (k : Nat) (x : LswChan) (c : Chip) : (lswPut k x c).bregs = c.bregs := rfl
@[simp] theorem lswPut_fregs (k : Nat) (x : LswChan) (c : Chip) : (lswPut k x c).fregs = c.fregs := rfl
@[simp] theorem lswPut_snap (k : Nat) (x : LswChan) (c : Chip) : (lswPut k x c).snap = c.snap := rfl
@[simp] theorem lswPut_reply (k : Nat) (x : LswChan) (c : Chip) : (lswPut k x c).reply = c.reply := rfl
@[simp] theorem lswPut_pwr (k : Nat) (x : LswChan) (c : Chip) : (lswPut k x c).pwr = c.pwr := rfl
@[simp] theorem lswPut_bridge (k : Nat) (x : LswChan) (c : Chip) : (lswPut k x c).bridge = c.bridge := rfl
@[simp] theorem lswPut_backup (k : Nat) (x : LswChan) (c : Chip) : (lswPut k x c).backup = c.backup := rfl
@[simp] theorem lswPut_dlr (k : Nat) (x : LswChan) (c : Chip) : (lswPut k x c).dlr = c.dlr := rfl
@[simp] theorem lswPut_sns (k : Nat) (x : LswChan) (c : Chip) : (lswPut k x c).sns = c.sns := rfl
@[simp] theorem lswPut_mtr (k : Nat) (x : LswChan) (c : Chip) : (lswPut k x c).mtr = c.mtr := rfl
@[simp] theorem lswPut_bil (k : Nat) (x : LswChan) (c : Chip) : (lswPut k x c).bil = c.bil := rfl
@[simp] theorem lswPut_store (k : Nat) (x : LswChan) (c : Chip) : (lswPut k x c).store = c.store := rfl
@[simp] theorem lswPut_legal (k : Nat) (x : LswChan) (c : Chip) : (lswPut k x c).legal = c.legal := rfl
@[simp] theorem lswPut_hsl (k : Nat) (x : LswChan) (c : Chip) : (lswPut k x c).hsl = c.hsl := rfl
@[simp] theorem lswPut_prt (k : Nat) (x : LswChan) (c : Chip) : (lswPut k x c).prt = c.prt := rfl
@[simp] theorem lswPut_bay (k : Nat) (x : LswChan) (c : Chip) : (lswPut k x c).bay = c.bay := rfl
@[simp] theorem lswPut_canOff (k : Nat) (x : LswChan) (c : Chip) : (lswPut k x c).canOff = c.canOff := rfl
@[simp] theorem lswPut_lnk (k : Nat) (x : LswChan) (c : Chip) : (lswPut k x c).lnk = c.lnk := rfl
@[simp] theorem lswPut_saf (k : Nat) (x : LswChan) (c : Chip) : (lswPut k x c).saf = c.saf := rfl
@[simp] theorem lswPut_deck (k : Nat) (x : LswChan) (c : Chip) : (lswPut k x c).deck = c.deck := rfl
@[simp] theorem lswPut_upd (k : Nat) (x : LswChan) (c : Chip) : (lswPut k x c).upd = c.upd := rfl
@[simp] theorem lswPut_hst (k : Nat) (x : LswChan) (c : Chip) : (lswPut k x c).hst = c.hst := rfl
@[simp] theorem lswPut_emmc (k : Nat) (x : LswChan) (c : Chip) : (lswPut k x c).emmc = c.emmc := rfl
@[simp] theorem lswPut_sec (k : Nat) (x : LswChan) (c : Chip) : (lswPut k x c).sec = c.sec := rfl
@[simp] theorem lswPut_nfc (k : Nat) (x : LswChan) (c : Chip) : (lswPut k x c).nfc = c.nfc := rfl
@[simp] theorem lswPut_tag (k : Nat) (x : LswChan) (c : Chip) : (lswPut k x c).tag = c.tag := rfl
@[simp] theorem lswPut_mem (k : Nat) (x : LswChan) (c : Chip) : (lswPut k x c).mem = c.mem := rfl
@[simp] theorem lswPut_dsp (k : Nat) (x : LswChan) (c : Chip) : (lswPut k x c).dsp = c.dsp := rfl
@[simp] theorem lswPut_glass (k : Nat) (x : LswChan) (c : Chip) : (lswPut k x c).glass = c.glass := rfl

@[simp] theorem hslBayPut_regs (n : Nat) (x : HslBay) (c : Chip) : (hslBayPut n x c).regs = c.regs := rfl
@[simp] theorem hslBayPut_bregs (n : Nat) (x : HslBay) (c : Chip) : (hslBayPut n x c).bregs = c.bregs := rfl
@[simp] theorem hslBayPut_fregs (n : Nat) (x : HslBay) (c : Chip) : (hslBayPut n x c).fregs = c.fregs := rfl
@[simp] theorem hslBayPut_snap (n : Nat) (x : HslBay) (c : Chip) : (hslBayPut n x c).snap = c.snap := rfl
@[simp] theorem hslBayPut_reply (n : Nat) (x : HslBay) (c : Chip) : (hslBayPut n x c).reply = c.reply := rfl
@[simp] theorem hslBayPut_pwr (n : Nat) (x : HslBay) (c : Chip) : (hslBayPut n x c).pwr = c.pwr := rfl
@[simp] theorem hslBayPut_bridge (n : Nat) (x : HslBay) (c : Chip) : (hslBayPut n x c).bridge = c.bridge := rfl
@[simp] theorem hslBayPut_backup (n : Nat) (x : HslBay) (c : Chip) : (hslBayPut n x c).backup = c.backup := rfl
@[simp] theorem hslBayPut_dlr (n : Nat) (x : HslBay) (c : Chip) : (hslBayPut n x c).dlr = c.dlr := rfl
@[simp] theorem hslBayPut_sns (n : Nat) (x : HslBay) (c : Chip) : (hslBayPut n x c).sns = c.sns := rfl
@[simp] theorem hslBayPut_mtr (n : Nat) (x : HslBay) (c : Chip) : (hslBayPut n x c).mtr = c.mtr := rfl
@[simp] theorem hslBayPut_bil (n : Nat) (x : HslBay) (c : Chip) : (hslBayPut n x c).bil = c.bil := rfl
@[simp] theorem hslBayPut_store (n : Nat) (x : HslBay) (c : Chip) : (hslBayPut n x c).store = c.store := rfl
@[simp] theorem hslBayPut_legal (n : Nat) (x : HslBay) (c : Chip) : (hslBayPut n x c).legal = c.legal := rfl
@[simp] theorem hslBayPut_prt (n : Nat) (x : HslBay) (c : Chip) : (hslBayPut n x c).prt = c.prt := rfl
@[simp] theorem hslBayPut_bay (n : Nat) (x : HslBay) (c : Chip) : (hslBayPut n x c).bay = c.bay := rfl
@[simp] theorem hslBayPut_canOff (n : Nat) (x : HslBay) (c : Chip) : (hslBayPut n x c).canOff = c.canOff := rfl
@[simp] theorem hslBayPut_lnk (n : Nat) (x : HslBay) (c : Chip) : (hslBayPut n x c).lnk = c.lnk := rfl
@[simp] theorem hslBayPut_lsw (n : Nat) (x : HslBay) (c : Chip) : (hslBayPut n x c).lsw = c.lsw := rfl
@[simp] theorem hslBayPut_saf (n : Nat) (x : HslBay) (c : Chip) : (hslBayPut n x c).saf = c.saf := rfl
@[simp] theorem hslBayPut_deck (n : Nat) (x : HslBay) (c : Chip) : (hslBayPut n x c).deck = c.deck := rfl
@[simp] theorem hslBayPut_upd (n : Nat) (x : HslBay) (c : Chip) : (hslBayPut n x c).upd = c.upd := rfl
@[simp] theorem hslBayPut_hst (n : Nat) (x : HslBay) (c : Chip) : (hslBayPut n x c).hst = c.hst := rfl
@[simp] theorem hslBayPut_emmc (n : Nat) (x : HslBay) (c : Chip) : (hslBayPut n x c).emmc = c.emmc := rfl
@[simp] theorem hslBayPut_sec (n : Nat) (x : HslBay) (c : Chip) : (hslBayPut n x c).sec = c.sec := rfl
@[simp] theorem hslBayPut_nfc (n : Nat) (x : HslBay) (c : Chip) : (hslBayPut n x c).nfc = c.nfc := rfl
@[simp] theorem hslBayPut_tag (n : Nat) (x : HslBay) (c : Chip) : (hslBayPut n x c).tag = c.tag := rfl
@[simp] theorem hslBayPut_mem (n : Nat) (x : HslBay) (c : Chip) : (hslBayPut n x c).mem = c.mem := rfl
@[simp] theorem hslBayPut_dsp (n : Nat) (x : HslBay) (c : Chip) : (hslBayPut n x c).dsp = c.dsp := rfl
@[simp] theorem hslBayPut_glass (n : Nat) (x : HslBay) (c : Chip) : (hslBayPut n x c).glass = c.glass := rfl

@[simp] theorem putLatch_regs (n : Nat) (v : BitVec 6) (c : Chip) : (putLatch n v c).regs = c.regs := rfl
@[simp] theorem putLatch_bregs (n : Nat) (v : BitVec 6) (c : Chip) : (putLatch n v c).bregs = c.bregs := rfl
@[simp] theorem putLatch_fregs (n : Nat) (v : BitVec 6) (c : Chip) : (putLatch n v c).fregs = c.fregs := rfl
@[simp] theorem putLatch_snap (n : Nat) (v : BitVec 6) (c : Chip) : (putLatch n v c).snap = c.snap := rfl
@[simp] theorem putLatch_reply (n : Nat) (v : BitVec 6) (c : Chip) : (putLatch n v c).reply = c.reply := rfl
@[simp] theorem putLatch_pwr (n : Nat) (v : BitVec 6) (c : Chip) : (putLatch n v c).pwr = c.pwr := rfl
@[simp] theorem putLatch_bridge (n : Nat) (v : BitVec 6) (c : Chip) : (putLatch n v c).bridge = c.bridge := rfl
@[simp] theorem putLatch_dlr (n : Nat) (v : BitVec 6) (c : Chip) : (putLatch n v c).dlr = c.dlr := rfl
@[simp] theorem putLatch_sns (n : Nat) (v : BitVec 6) (c : Chip) : (putLatch n v c).sns = c.sns := rfl
@[simp] theorem putLatch_mtr (n : Nat) (v : BitVec 6) (c : Chip) : (putLatch n v c).mtr = c.mtr := rfl
@[simp] theorem putLatch_bil (n : Nat) (v : BitVec 6) (c : Chip) : (putLatch n v c).bil = c.bil := rfl
@[simp] theorem putLatch_store (n : Nat) (v : BitVec 6) (c : Chip) : (putLatch n v c).store = c.store := rfl
@[simp] theorem putLatch_legal (n : Nat) (v : BitVec 6) (c : Chip) : (putLatch n v c).legal = c.legal := rfl
@[simp] theorem putLatch_prt (n : Nat) (v : BitVec 6) (c : Chip) : (putLatch n v c).prt = c.prt := rfl
@[simp] theorem putLatch_bay (n : Nat) (v : BitVec 6) (c : Chip) : (putLatch n v c).bay = c.bay := rfl
@[simp] theorem putLatch_canOff (n : Nat) (v : BitVec 6) (c : Chip) : (putLatch n v c).canOff = c.canOff := rfl
@[simp] theorem putLatch_lnk (n : Nat) (v : BitVec 6) (c : Chip) : (putLatch n v c).lnk = c.lnk := rfl
@[simp] theorem putLatch_lsw (n : Nat) (v : BitVec 6) (c : Chip) : (putLatch n v c).lsw = c.lsw := rfl
@[simp] theorem putLatch_saf (n : Nat) (v : BitVec 6) (c : Chip) : (putLatch n v c).saf = c.saf := rfl
@[simp] theorem putLatch_deck (n : Nat) (v : BitVec 6) (c : Chip) : (putLatch n v c).deck = c.deck := rfl
@[simp] theorem putLatch_upd (n : Nat) (v : BitVec 6) (c : Chip) : (putLatch n v c).upd = c.upd := rfl
@[simp] theorem putLatch_hst (n : Nat) (v : BitVec 6) (c : Chip) : (putLatch n v c).hst = c.hst := rfl
@[simp] theorem putLatch_emmc (n : Nat) (v : BitVec 6) (c : Chip) : (putLatch n v c).emmc = c.emmc := rfl
@[simp] theorem putLatch_sec (n : Nat) (v : BitVec 6) (c : Chip) : (putLatch n v c).sec = c.sec := rfl
@[simp] theorem putLatch_nfc (n : Nat) (v : BitVec 6) (c : Chip) : (putLatch n v c).nfc = c.nfc := rfl
@[simp] theorem putLatch_tag (n : Nat) (v : BitVec 6) (c : Chip) : (putLatch n v c).tag = c.tag := rfl
@[simp] theorem putLatch_mem (n : Nat) (v : BitVec 6) (c : Chip) : (putLatch n v c).mem = c.mem := rfl
@[simp] theorem putLatch_dsp (n : Nat) (v : BitVec 6) (c : Chip) : (putLatch n v c).dsp = c.dsp := rfl
@[simp] theorem putLatch_glass (n : Nat) (v : BitVec 6) (c : Chip) : (putLatch n v c).glass = c.glass := rfl

/-! ### Homes -/

theorem setF_regs {f : Fld} (h : f.home ≠ .vol) (i v : Nat) (c : Chip) : (setF f i v c).regs = c.regs := by
  unfold setF; cases hf : f.home <;> first | rfl | exact absurd hf h
theorem setF_bregs {f : Fld} (h : f.home ≠ .backup) (i v : Nat) (c : Chip) : (setF f i v c).bregs = c.bregs := by
  unfold setF; cases hf : f.home <;> first | rfl | exact absurd hf h
theorem setF_fregs {f : Fld} (h : f.home ≠ .fuse) (i v : Nat) (c : Chip) : (setF f i v c).fregs = c.fregs := by
  unfold setF; cases hf : f.home <;> first | rfl | exact absurd hf h

end Sys2Proof.Machine
end

