-- ==== Sys2Proof/Laws/Settle.lean ====
section
/-!
SUPPORT. Everything that settling the power die can do: a settled device stays as it is, settling any device gives a settled
one, and it changes nothing but gates, grants, channels and the channels' registers.
-/

namespace Sys2Proof.Machine
open Sys2Proof Sys2Proof.Safety

/-- What a channel's output is to be. -/
def lswOn (k : Nat) (c : Chip) : Bool :=
  lswWanted (lsw k c) c && c.powered && c.pwr.vbbOk.getLsbD (k / 8)

theorem outputsFollow_iff (c : Chip) : OutputsFollow c ↔ ∀ k, k < 48 → (lsw k c).out = lswOn k c := Iff.rfl

/-! ### Channels -/

theorem lsw_lswPut_same {k : Nat} (h : k < 48) (x : LswChan) (c : Chip) : lsw k (lswPut k x c) = x := by
  simp [lsw, lswPut, h]

theorem lsw_lswPut_ne {j k : Nat} (h : j ≠ k) (x : LswChan) (c : Chip) : lsw j (lswPut k x c) = lsw j c := by
  simp only [lsw, lswPut]
  rw [Vector.getElem?_setIfInBounds_ne (fun e => h e.symm)]

/-- What LSW_ST and LSW_TEST show changes no part but registers. -/
theorem lswShow_eq (k : Nat) (c : Chip) : ∃ m, lswShow k c = { c with regs := m } := by
  unfold lswShow
  split
  · exact ⟨c.regs, rfl⟩
  · exact ⟨_, rfl⟩

theorem lsw_lswShow (j k : Nat) (c : Chip) : lsw j (lswShow k c) = lsw j c := by
  obtain ⟨m, h⟩ := lswShow_eq k c; rw [h]; rfl

/-! #### Updates of one channel -/

/-- `d` is `c` but for registers and the data of channel `k`. -/
def Touches (k : Nat) (c d : Chip) : Prop := d = c ∨ ∃ m x, d = { lswPut k x c with regs := m }

theorem Touches.trans {k : Nat} {c d e : Chip} (h : Touches k c d) (h' : Touches k d e) : Touches k c e := by
  rcases h with rfl | ⟨m, x, rfl⟩
  · exact h'
  rcases h' with rfl | ⟨m', x', rfl⟩
  · exact .inr ⟨m, x, rfl⟩
  · exact .inr ⟨m', x', by simp [lswPut, Vector.setIfInBounds_setIfInBounds]⟩

theorem Touches.frame {k : Nat} {c d : Chip} (h : Touches k c d) :
    ∃ m v, d = { c with regs := m, lsw := { c.lsw with chan := v } } := by
  rcases h with rfl | ⟨m, x, rfl⟩
  · exact ⟨d.regs, d.lsw.chan, rfl⟩
  · exact ⟨m, _, rfl⟩

theorem Touches.other {j k : Nat} {c d : Chip} (h : Touches k c d) (hj : j ≠ k) : lsw j d = lsw j c := by
  rcases h with rfl | ⟨m, x, rfl⟩
  · rfl
  · exact lsw_lswPut_ne hj x c

theorem Touches.input {k : Nat} {c d : Chip} (h : Touches k c d) (x : LswChan) : lswInput x d = lswInput x c := by
  obtain ⟨m, v, rfl⟩ := h.frame; rfl

theorem Touches.wanted {k : Nat} {c d : Chip} (h : Touches k c d) (x : LswChan) : lswWanted x d = lswWanted x c := by
  obtain ⟨m, v, rfl⟩ := h.frame; rfl

theorem Touches.supply {k : Nat} {c d : Chip} (h : Touches k c d) : d.pwr = c.pwr := by
  obtain ⟨m, v, rfl⟩ := h.frame; rfl

/-- Channel `k` agrees with what it depends on. -/
def chanOk (k : Nat) (c : Chip) : Prop :=
  (lsw k c).out = lswOn k c ∧ ((lsw k c).test = 0 ∨ lswInput (lsw k c) c = (lsw k c).testIn)

theorem Touches.ok {j k : Nat} {c d : Chip} (h : Touches k c d) (hj : j ≠ k) : chanOk j d ↔ chanOk j c := by
  simp only [chanOk, lswOn, h.other hj, h.wanted, h.input, Chip.powered, h.supply]

theorem chans_iff (c : Chip) : (OutputsFollow c ∧ TestsFollow c) ↔ ∀ k, k < 48 → chanOk k c :=
  ⟨fun h k hk => ⟨h.1 k hk, h.2 k hk⟩, fun h => ⟨fun k hk => (h k hk).1, fun k hk => (h k hk).2⟩⟩

/-- A channel's input depends on its card alone. -/
theorem lswInput_cfg {x y : LswChan} (h : x.cfg = y.cfg) (c : Chip) : lswInput x c = lswInput y c := by
  simp only [lswInput, LswChan.kind, LswChan.src, LswChan.u8, h]
  rfl

/-- What the check of a test can do: nothing where the test has seen the channel's input, or it ends or notes the input. -/
theorem testAbort_cases (k : Nat) (c : Chip) :
    (((lsw k c).test = 0 ∨ lswInput (lsw k c) c = (lsw k c).testIn) ∧ testAbort k c = c) ∨
    (∃ m x, testAbort k c = { lswPut k x c with regs := m } ∧ (x.test = 0 ∨ lswInput x c = x.testIn) ∧
      ¬((lsw k c).test = 0 ∨ lswInput (lsw k c) c = (lsw k c).testIn)) := by
  simp only [testAbort]
  split
  · rename_i h; exact .inl ⟨h, rfl⟩
  · rename_i h
    split
    · obtain ⟨m, e⟩ := lswShow_eq k (lswPut k { lsw k c with
        test := 0, wait := (lsw k c).wait && (lsw k c).test != 2 } c)
      exact .inr ⟨m, _, e, .inl rfl, h⟩
    · rename_i hi
      refine .inr ⟨c.regs, { lsw k c with testIn := false }, rfl, .inr ?_, h⟩
      have hf : lswInput (lsw k c) c = false := by simpa using hi
      exact (lswInput_cfg rfl c).trans hf

/-- What driving a channel can do: nothing where its output has its level, or the output takes it. -/
theorem lswDrive_cases (k : Nat) (c : Chip) :
    ((lsw k c).out = lswOn k c ∧ lswDrive k c = c) ∨
    (∃ m x, lswDrive k c = { lswPut k x c with regs := m } ∧ x.out = lswOn k c ∧ (lsw k c).out ≠ lswOn k c ∧
      (x.test = 0 ∨ (x.test = (lsw k c).test ∧ x.testIn = (lsw k c).testIn ∧ x.cfg = (lsw k c).cfg)) ∧
      lswWanted x c = lswWanted (lsw k c) c) := by
  have hon : (lswWanted (lsw k c) c && c.powered && c.pwr.vbbOk.getLsbD (k / 8)) = lswOn k c := rfl
  simp only [lswDrive, hon]
  cases ho : (lsw k c).out <;> cases hn : lswOn k c <;> simp
  · obtain ⟨m, h⟩ := lswShow_eq k (lswPut k { lsw k c with
      out := true, window := (lsw k c).u8 0xA != 0, cls := (lsw k c).cmd, onAt := c.backup.ms, winEnd := c.backup.ms
      test := 0, hot := false } c)
    refine ⟨m, _, h, rfl, .inl rfl, ?_⟩
    have hw : lswWanted (lsw k c) c = true := by
      rw [← hon] at hn; revert hn; cases lswWanted (lsw k c) c <;> simp
    rw [hw]
    revert hw
    simp only [lswWanted]
    cases (lsw k c).hold with
    | some b => exact id
    | none =>
      intro hw
      simp only [Bool.and_eq_true] at hw ⊢
      refine ⟨⟨⟨⟨hw.1.1.1.1, ?_⟩, hw.1.1.2⟩, hw.1.2⟩, rfl⟩
      exact (lswInput_cfg rfl c).trans hw.1.1.1.2
  · obtain ⟨m, h⟩ := lswShow_eq k (lswPut k { lsw k c with out := false, window := false } c)
    exact ⟨m, _, h, rfl, .inr ⟨rfl, rfl, rfl⟩, rfl⟩

theorem touches_testAbort (k : Nat) (c : Chip) : Touches k c (testAbort k c) := by
  rcases testAbort_cases k c with h | ⟨m, x, h, -⟩
  · exact .inl h.2
  · exact .inr ⟨m, x, h⟩

theorem touches_lswDrive (k : Nat) (c : Chip) : Touches k c (lswDrive k c) := by
  rcases lswDrive_cases k c with h | ⟨m, x, h, -⟩
  · exact .inl h.2
  · exact .inr ⟨m, x, h⟩

theorem touches_lswEval (k : Nat) (c : Chip) : Touches k c (lswEval k c) :=
  (touches_testAbort k c).trans (touches_lswDrive k _)

theorem testOk_testAbort {k : Nat} (hk : k < 48) (c : Chip) :
    (lsw k (testAbort k c)).test = 0 ∨ lswInput (lsw k (testAbort k c)) (testAbort k c) = (lsw k (testAbort k c)).testIn := by
  rcases testAbort_cases k c with h | ⟨m, x, h, ht, -⟩
  · rw [h.2]; exact h.1
  · rw [(touches_testAbort k c).input, h]
    have hl : lsw k { lswPut k x c with regs := m } = lsw k (lswPut k x c) := rfl
    rw [hl, lsw_lswPut_same hk]; exact ht

/-- Evaluating a channel makes it agree with what it depends on. -/
theorem chanOk_lswEval {k : Nat} (hk : k < 48) (c : Chip) : chanOk k (lswEval k c) := by
  have ht := testOk_testAbort hk c
  show chanOk k (lswDrive k (testAbort k c))
  generalize testAbort k c = d at ht
  rcases lswDrive_cases k d with h | ⟨m, x, h, ho, -, hx, hw⟩
  · rw [h.2]; exact ⟨h.1, ht⟩
  · have t := touches_lswDrive k d
    have hl : lsw k (lswDrive k d) = x := by
      rw [h]; exact lsw_lswPut_same hk x d
    refine ⟨?_, ?_⟩
    · rw [hl, ho]
      simp only [lswOn, hl, t.wanted, hw, Chip.powered, t.supply]
    · rw [hl, t.input]
      rcases hx with hx | ⟨h1, h2, h3⟩
      · exact .inl hx
      · rw [h1, h2]
        rw [lswInput_cfg h3]; exact ht

/-- A channel that agrees with what it depends on stays as it is. -/
theorem lswEval_of_ok {k : Nat} {c : Chip} (h : chanOk k c) : lswEval k c = c := by
  have h1 : testAbort k c = c := by
    rcases testAbort_cases k c with e | ⟨m, x, -, -, e⟩
    · exact e.2
    · exact absurd h.2 e
  rw [lswEval, h1]
  rcases lswDrive_cases k c with e | ⟨m, x, -, -, e, -⟩
  · exact e.2
  · exact absurd h.1 e

theorem lswWanted_eq {x y : LswChan} {c d : Chip} (hx : x = y) (hg : c.lsw.granted = d.lsw.granted)
    (hs : c.lsw.lsin = d.lsw.lsin) (hv : c.lsw.level = d.lsw.level) (hb : ∀ n, (hslBay n c).gate = (hslBay n d).gate)
    (hk : c.hsl.brake = d.hsl.brake) (hi : c.prt.ins = d.prt.ins) :
    lswInput x c = lswInput y d ∧ lswWanted x c = lswWanted y d := by
  subst hx
  have hin : lswInput x c = lswInput x d := by
    simp only [lswInput, lsinHigh, hs, hv, hb, hk, hi]
  exact ⟨hin, by simp only [lswWanted, hg, hin]⟩

/-! ### All channels -/

theorem lswFold_frame (l : List Nat) (c : Chip) :
    ∃ m v, l.foldl (fun c k => lswEval k c) c = { c with regs := m, lsw := { c.lsw with chan := v } } := by
  induction l generalizing c with
  | nil => exact ⟨c.regs, c.lsw.chan, rfl⟩
  | cons k l ih =>
    obtain ⟨m, v, h⟩ := (touches_lswEval k c).frame
    obtain ⟨m', v', h'⟩ := ih (lswEval k c)
    exact ⟨m', v', by rw [List.foldl_cons, h', h]⟩

theorem lswFold_ok_of_ok (l : List Nat) (j : Nat) (hj : j < 48) (c : Chip) (h : chanOk j c) :
    chanOk j (l.foldl (fun c k => lswEval k c) c) := by
  induction l generalizing c with
  | nil => exact h
  | cons k l ih =>
    refine ih _ ?_
    by_cases e : j = k
    · subst e; exact chanOk_lswEval hj c
    · exact ((touches_lswEval k c).ok e).mpr h

theorem lswFold_ok (l : List Nat) (j : Nat) (hj : j ∈ l) (hb : j < 48) (c : Chip) :
    chanOk j (l.foldl (fun c k => lswEval k c) c) := by
  induction l generalizing c with
  | nil => cases hj
  | cons k l ih =>
    rcases List.mem_cons.mp hj with e | e
    · subst e; exact lswFold_ok_of_ok l j hb _ (chanOk_lswEval hb c)
    · exact ih e _

theorem chanOk_lswAll {k : Nat} (hk : k < 48) (c : Chip) : chanOk k (lswAll c) :=
  lswFold_ok _ k (List.mem_range.mpr hk) hk c

theorem lswAll_frame (c : Chip) : ∃ m v, lswAll c = { c with regs := m, lsw := { c.lsw with chan := v } } :=
  lswFold_frame _ c

theorem chans_lswAll (c : Chip) : OutputsFollow (lswAll c) ∧ TestsFollow (lswAll c) :=
  (chans_iff _).mpr fun _ hk => chanOk_lswAll hk c

theorem lswFold_eq (l : List Nat) (c : Chip) (h : ∀ k, k ∈ l → chanOk k c) :
    l.foldl (fun c k => lswEval k c) c = c := by
  induction l with
  | nil => rfl
  | cons k l ih =>
    rw [List.foldl_cons, lswEval_of_ok (h k List.mem_cons_self)]
    exact ih fun j hj => h j (List.mem_cons_of_mem k hj)

theorem lswAll_eq {c : Chip} (h : OutputsFollow c ∧ TestsFollow c) : lswAll c = c :=
  lswFold_eq _ c fun k hk => (chans_iff c).mp h k (List.mem_range.mp hk)

/-! ### Gates -/

/-- Noting an opening changes the ledgers alone. -/
theorem openingSeen_frame (n : Nat) (c : Chip) : ∃ w, openingSeen n c = { c with bil := w } := by
  simp only [openingSeen]
  split
  · exact ⟨_, rfl⟩
  · split
    · exact ⟨_, rfl⟩
    · exact ⟨c.bil, rfl⟩

/-- The device but for registers, channels, the HSL's bays and the ledgers. -/
def Chip.withDie (c : Chip) (m : List (Nat × Nat)) (v : Vector LswChan 48) (b : Vector HslBay 16) (w : LedgerState) : Chip :=
  { c with regs := m, lsw := { c.lsw with chan := v }, hsl := { c.hsl with bays := b }, bil := w }

/-- Withdrawing a permission changes registers, channels, the HSL's bays and the ledgers only. -/
theorem gateOff_frame (n : Nat) (c : Chip) : ∃ m v b w, gateOff n c = c.withDie m v b w := by
  simp only [gateOff]
  split
  · obtain ⟨m, v, h⟩ := lswAll_frame (hslBayPut n { hslBay n c with
      gate := false, grant := false, offAt := some c.backup.ms } c)
    split
    · obtain ⟨w, e⟩ := openingSeen_frame n (lswAll (hslBayPut n { hslBay n c with
        gate := false, grant := false, offAt := some c.backup.ms } c))
      exact ⟨m, v, _, w, by rw [e, h]; rfl⟩
    · exact ⟨m, v, _, c.bil, h⟩
  · exact ⟨c.regs, c.lsw.chan, _, c.bil, rfl⟩

theorem hslBay_put_same {n : Nat} (h : n < 16) (x : HslBay) (c : Chip) : hslBay n (hslBayPut n x c) = x := by
  simp [hslBay, hslBayPut, h]

theorem hslBay_put_ne {j n : Nat} (h : j ≠ n) (x : HslBay) (c : Chip) : hslBay j (hslBayPut n x c) = hslBay j c := by
  simp only [hslBay, hslBayPut]
  rw [Vector.getElem?_setIfInBounds_ne (fun e => h e.symm)]

theorem hslBay_lswAll (n : Nat) (c : Chip) : hslBay n (lswAll c) = hslBay n c := by
  obtain ⟨m, v, h⟩ := lswAll_frame c; rw [h]; rfl

theorem hslBay_openingSeen (j n : Nat) (c : Chip) : hslBay j (openingSeen n c) = hslBay j c := by
  obtain ⟨w, e⟩ := openingSeen_frame n c; rw [e]; rfl

/-- The bays after a gate that is on goes off. -/
theorem hslBay_gateOff_on {j n : Nat} {c : Chip} (h : (hslBay n c).gate = true) : hslBay j (gateOff n c) =
    hslBay j (hslBayPut n { hslBay n c with gate := false, grant := false, offAt := some c.backup.ms } c) := by
  simp only [gateOff, h, if_true]
  split
  · rw [hslBay_openingSeen, hslBay_lswAll]
  · rw [hslBay_lswAll]

theorem hslBay_gateOff_ne {j n : Nat} (h : j ≠ n) (c : Chip) : hslBay j (gateOff n c) = hslBay j c := by
  cases hg : (hslBay n c).gate with
  | true => rw [hslBay_gateOff_on hg, hslBay_put_ne h]
  | false => simp only [gateOff, hg, Bool.false_eq_true, if_false]; rw [hslBay_put_ne h]

/-- A bay whose gate is withdrawn: its gate and grant are off, what its closing conditions read is as it was. -/
theorem hslBay_gateOff_same {n : Nat} (hn : n < 16) (c : Chip) :
    (hslBay n (gateOff n c)).gate = false ∧ (hslBay n (gateOff n c)).grant = false ∧
    (hslBay n (gateOff n c)).rec_ = (hslBay n c).rec_ ∧ (hslBay n (gateOff n c)).weldOk = (hslBay n c).weldOk := by
  cases h : (hslBay n c).gate with
  | true => rw [hslBay_gateOff_on h, hslBay_put_same hn]; exact ⟨rfl, rfl, rfl, rfl⟩
  | false =>
    simp only [gateOff, h, Bool.false_eq_true, if_false]
    rw [hslBay_put_same hn]
    exact ⟨rfl, rfl, rfl, rfl⟩

theorem closingOk_gateOff (j n : Nat) (c : Chip) : closingOk j (gateOff n c) = closingOk j c := by
  have hp : pilotOk j (gateOff n c) = pilotOk j c ∧ (hslBay j (gateOff n c)).weldOk = (hslBay j c).weldOk := by
    by_cases h : j = n
    · subst h
      by_cases hn : j < 16
      · have e := hslBay_gateOff_same hn c
        simp only [pilotOk, e.2.2.1, e.2.2.2, and_self]
      · have e1 : hslBay j c = {} := by simp [hslBay, hn]
        have e2 : hslBay j (gateOff j c) = {} := by simp [hslBay, hn]
        simp only [pilotOk, e1, e2, and_self]
    · simp only [pilotOk, hslBay_gateOff_ne h, and_self]
  obtain ⟨m, v, b, w, e⟩ := gateOff_frame n c
  simp only [closingOk, hp.1, hp.2]
  rw [e]
  rfl

/-- A bay's gate agrees with its closing conditions. -/
def gateOk (n : Nat) (c : Chip) : Bool := !(hslBay n c).gate || (closingOk n c && (hslBay n c).grant)

theorem gatesSafe_iff (c : Chip) : GatesSafe c ↔ ∀ n, n < 16 → gateOk n c = true := by
  refine forall_congr' fun n => forall_congr' fun _ => ?_
  simp only [gateOk]
  cases (hslBay n c).gate <;> cases (hslBay n c).grant <;> cases closingOk n c <;> simp

theorem recheck_cases (n : Nat) (c : Chip) :
    (gateOk n c = true ∧ recheck n c = c) ∨ (gateOk n c = false ∧ recheck n c = gateOff n c) := by
  simp only [recheck, gateOk]
  cases (hslBay n c).gate <;> cases (hslBay n c).grant <;> cases closingOk n c <;> simp

theorem gateOk_recheck_ne {j n : Nat} (h : j ≠ n) (c : Chip) : gateOk j (recheck n c) = gateOk j c := by
  rcases recheck_cases n c with e | e
  · rw [e.2]
  · rw [e.2]; simp only [gateOk, closingOk_gateOff, hslBay_gateOff_ne h]

theorem gateOk_recheck_same {n : Nat} (hn : n < 16) (c : Chip) : gateOk n (recheck n c) = true := by
  rcases recheck_cases n c with e | e
  · rw [e.2]; exact e.1
  · rw [e.2]; simp only [gateOk, (hslBay_gateOff_same hn c).1]; rfl

theorem recheckFold_not_mem (l : List Nat) (j : Nat) (c : Chip) (h : j ∉ l) :
    gateOk j (l.foldl (fun c n => recheck n c) c) = gateOk j c := by
  induction l generalizing c with
  | nil => rfl
  | cons k l ih =>
    rw [List.foldl_cons, ih _ (fun e => h (List.mem_cons_of_mem k e)),
      gateOk_recheck_ne (fun e => h (by rw [e]; exact List.mem_cons_self))]

theorem recheckFold_ok (l : List Nat) (hn : l.Nodup) (j : Nat) (hj : j ∈ l) (hb : j < 16) (c : Chip) :
    gateOk j (l.foldl (fun c n => recheck n c) c) = true := by
  induction l generalizing c with
  | nil => cases hj
  | cons k l ih =>
    rw [List.foldl_cons]
    have hc := List.nodup_cons.mp hn
    by_cases he : j = k
    · subst he
      rw [recheckFold_not_mem l j _ hc.1, gateOk_recheck_same hb]
    · exact ih hc.2 ((List.mem_cons.mp hj).resolve_left he) _

theorem gatesSafe_recheckAll (c : Chip) : GatesSafe (recheckAll c) :=
  (gatesSafe_iff _).mpr fun n hn => recheckFold_ok _ List.nodup_range n (List.mem_range.mpr hn) hn c

theorem recheckFold_eq (l : List Nat) (c : Chip) (h : ∀ n, n ∈ l → gateOk n c = true) :
    l.foldl (fun c n => recheck n c) c = c := by
  induction l with
  | nil => rfl
  | cons k l ih =>
    have hk : recheck k c = c := by
      rcases recheck_cases k c with e | e
      · exact e.2
      · rw [h k List.mem_cons_self] at e; exact absurd e.1 (by decide)
    rw [List.foldl_cons, hk]
    exact ih fun j hj => h j (List.mem_cons_of_mem k hj)

theorem recheckFold_frame (l : List Nat) (c : Chip) :
    ∃ m v b w, l.foldl (fun c n => recheck n c) c = c.withDie m v b w := by
  induction l generalizing c with
  | nil => exact ⟨c.regs, c.lsw.chan, c.hsl.bays, c.bil, rfl⟩
  | cons k l ih =>
    obtain ⟨m, v, b, w, h⟩ : ∃ m v b w, recheck k c = c.withDie m v b w := by
      rcases recheck_cases k c with e | e
      · exact ⟨c.regs, c.lsw.chan, c.hsl.bays, c.bil, e.2⟩
      · rw [e.2]; exact gateOff_frame k c
    obtain ⟨m', v', b', w', h'⟩ := ih (recheck k c)
    exact ⟨m', v', b', w', by rw [List.foldl_cons, h', h]; rfl⟩

/-! ### Settling -/

/-- Settling changes registers, channels, the HSL's bays and the ledgers only. -/
theorem settle_frame (c : Chip) : ∃ m v b w, settle c = c.withDie m v b w := by
  obtain ⟨m, v, b, w, h⟩ := recheckFold_frame (List.range 16) c
  obtain ⟨m', v', h'⟩ := lswAll_frame (recheckAll c)
  refine ⟨m', v', b, w, ?_⟩
  rw [settle, h', recheckAll, h]
  rfl

theorem closingOk_congr {c d : Chip} (h : d.hsl = c.hsl) (n : Nat) : closingOk n d = closingOk n c := by
  simp only [closingOk, bayEnabled, trumpU16, pilotOk, protOk, latchOf, safeOk, hslBay, h]

theorem gateOk_congr {c d : Chip} (h : d.hsl = c.hsl) (n : Nat) : gateOk n d = gateOk n c := by
  simp only [gateOk, closingOk_congr h, hslBay, h]

theorem hsl_lswAll (c : Chip) : (lswAll c).hsl = c.hsl := by
  obtain ⟨m, v, e⟩ := lswAll_frame c; rw [e]

theorem settled_settle (c : Chip) : Settled (settle c) := by
  unfold settle
  refine ⟨?_, chans_lswAll _⟩
  rw [gatesSafe_iff]
  intro n hn
  rw [gateOk_congr (hsl_lswAll _)]
  exact (gatesSafe_iff _).mp (gatesSafe_recheckAll c) n hn

/-- A settled device stays as it is. -/
theorem settle_of_settled {c : Chip} (h : Settled c) : settle c = c := by
  have hr : recheckAll c = c :=
    recheckFold_eq _ c fun n hn => (gatesSafe_iff c).mp h.1 n (List.mem_range.mp hn)
  rw [settle, hr, lswAll_eq h.2]

/-- What a device's settling depends on. -/
theorem settled_congr {c d : Chip} (h : Settled c) (h1 : d.hsl = c.hsl) (h2 : d.lsw = c.lsw) (h3 : d.pwr.vpd5 = c.pwr.vpd5)
    (h4 : d.pwr.vp12 = c.pwr.vp12) (h5 : d.pwr.vbbOk = c.pwr.vbbOk) (h6 : d.prt.ins = c.prt.ins) : Settled d := by
  have hb : ∀ n, hslBay n d = hslBay n c := fun n => by simp only [hslBay, h1]
  have hc : ∀ n, closingOk n d = closingOk n c := fun n => by
    simp only [closingOk, bayEnabled, trumpU16, pilotOk, protOk, latchOf, safeOk, hb, h1]
  have hl : ∀ k, lsw k d = lsw k c := fun k => by simp only [lsw, h2]
  have hw : ∀ k, lswInput (lsw k d) d = lswInput (lsw k c) c ∧ lswWanted (lsw k d) d = lswWanted (lsw k c) c := fun k =>
    lswWanted_eq (hl k) (by rw [h2]) (by rw [h2]) (by rw [h2]) (fun n => by rw [hb]) (by rw [h1]) h6
  refine ⟨fun n hn => ?_, fun k hk => ?_, fun k hk => ?_⟩
  · rw [hb, hc]; exact h.1 n hn
  · have := h.2.1 k hk
    rw [(hw k).2, hl, this]
    simp only [Chip.powered, h3, h4, h5]
  · have := h.2.2 k hk
    rw [(hw k).1, hl]; exact this

/-- The step of a command that leaves what the power die depends on. -/
theorem run_settled {s : State} {f : Chip → Chip} (h : Settled (f s.toChip)) :
    s.run f = .next { toChip := f s.toChip, pending := s.pending } := by
  simp only [State.run, settle_of_settled h]

end Sys2Proof.Machine
end

