-- ==== Sys2Proof/Laws/Step.lean ====
section
/-!
SUPPORT. What a command's step can do: every command runs an effect and the power die settles; the registers that settling shows
are those of the load-switch channels alone.
-/

namespace Sys2Proof.Machine
open Sys2Proof Sys2Proof.Safety

/-- Every command is the step of an effect. -/
theorem exec_run (i : Instr) (s : State) : ∃ f, exec i s = s.run f := by
  cases i
  case idcode => exact ⟨_, (show exec .idcode s = execIdcode s from rfl).trans (by rw [execIdcode])⟩
  all_goals exact ⟨_, rfl⟩

/-- What a command answers is settled. -/
theorem exec_settled {i : Instr} {s t : State} (h : exec i s = .next t) : Settled t.toChip := by
  obtain ⟨f, e⟩ := exec_run i s
  rw [e] at h
  unfold State.run at h
  injection h with ht
  subst ht
  dsimp only
  exact settled_settle (f s.toChip)

end Sys2Proof.Machine
end

