-- ==== Sys2Proof/Laws/Shown.lean ====
section
/-!
SUPPORT. Settling reaches no register but LSW_ST and LSW_TEST.
-/

namespace Sys2Proof.Machine
open Sys2Proof Sys2Proof.Safety

/-- The keys of the words LSW_ST[k] and LSW_TEST. -/
def shownKey (key : Nat) : Bool :=
  let w := key / 32
  (0x16100C ≤ w && w < 0x16100C + 32 * 48 && (w - 0x16100C) % 32 == 0) || w == 0x160014

/-- The two devices' registers agree outside LSW_ST and LSW_TEST. -/
def Alike (c d : Chip) : Prop := ∀ key, shownKey key = false → mapGet d.regs key = mapGet c.regs key

theorem Alike.refl (c : Chip) : Alike c c := fun _ _ => rfl
theorem Alike.trans {a b c : Chip} (h : Alike a b) (g : Alike b c) : Alike a c := fun k hk => (g k hk).trans (h k hk)

theorem alike_setF {f : Fld} {i : Nat} (hv : f.home = .vol) (hk : shownKey (fkey f i) = true) (v : Nat) (c : Chip) :
    Alike c (setF f i v c) := by
  intro key hs
  have hne : key ≠ fkey f i := by intro e; rw [e, hk] at hs; cases hs
  simp only [setF, hv, Chip.withMap, Chip.mapOf, mapGet_put_ne _ _ _ _ hne]

theorem shown_stateKey {k l : Nat} (hk : k < 48) (hl : l < 32) :
    shownKey ((0x16100C + 32 * k) * 32 + l) = true := by
  have h : ((0x16100C + 32 * k) * 32 + l) / 32 = 0x16100C + 32 * k := by omega
  simp only [shownKey, h, Bool.or_eq_true, Bool.and_eq_true, decide_eq_true_eq, beq_iff_eq]
  omega

theorem alike_lswShow {k : Nat} (hk : k < 48) (c : Chip) : Alike c (lswShow k c) := by
  have h1 : shownKey (fkey Reg.LSW_ST_STATE k) = true := shown_stateKey hk (by decide)
  have h2 : shownKey (fkey Reg.LSW_ST_APPLIED k) = true := shown_stateKey hk (by decide)
  have h3 : shownKey (fkey Reg.LSW_ST_RETRY_LEFT k) = true := shown_stateKey hk (by decide)
  simp only [lswShow]
  split
  · exact .refl c
  · exact (((alike_setF rfl h3 _ c).trans (alike_setF rfl h2 _ _)).trans (alike_setF rfl h1 _ _)).trans
      (alike_setF rfl (by decide) _ _)

theorem alike_testAbort {k : Nat} (hk : k < 48) (c : Chip) : Alike c (testAbort k c) := by
  simp only [testAbort]
  split
  · exact .refl c
  · split
    · exact fun key h => alike_lswShow hk _ key h
    · exact .refl c

theorem alike_lswDrive {k : Nat} (hk : k < 48) (c : Chip) : Alike c (lswDrive k c) := by
  simp only [lswDrive]
  split
  · exact fun key h => alike_lswShow hk _ key h
  · split
    · exact fun key h => alike_lswShow hk _ key h
    · exact .refl c

theorem alike_lswEval {k : Nat} (hk : k < 48) (c : Chip) : Alike c (lswEval k c) :=
  (alike_testAbort hk c).trans (alike_lswDrive hk _)

theorem alike_lswAll (c : Chip) : Alike c (lswAll c) := by
  have : ∀ (l : List Nat) (c : Chip), (∀ k, k ∈ l → k < 48) → Alike c (l.foldl (fun c k => lswEval k c) c) := by
    intro l
    induction l with
    | nil => exact fun c _ => .refl c
    | cons k l ih =>
      intro c h
      exact (alike_lswEval (h k List.mem_cons_self) c).trans (ih _ fun j hj => h j (List.mem_cons_of_mem k hj))
  exact this _ c fun k hk => List.mem_range.mp hk

theorem alike_openingSeen (n : Nat) (c : Chip) : Alike c (openingSeen n c) := by
  obtain ⟨w, e⟩ := openingSeen_frame n c
  rw [e]
  exact fun _ _ => rfl

theorem alike_gateOff (n : Nat) (c : Chip) : Alike c (gateOff n c) := by
  simp only [gateOff]
  split
  · have h : ∀ x, Alike c (lswAll (hslBayPut n x c)) := fun x => fun key h => alike_lswAll _ key h
    split
    · exact (h _).trans (alike_openingSeen n _)
    · exact h _
  · exact .refl c

theorem alike_settle (c : Chip) : Alike c (settle c) := by
  have : ∀ (l : List Nat) (c : Chip), Alike c (l.foldl (fun c n => recheck n c) c) := by
    intro l
    induction l with
    | nil => exact fun c => .refl c
    | cons k l ih =>
      intro c
      refine Alike.trans ?_ (ih _)
      show Alike c (recheck k c)
      rcases recheck_cases k c with e | e
      · rw [e.2]; exact .refl c
      · rw [e.2]; exact alike_gateOff k c
  exact (this _ c).trans (alike_lswAll _)

/-- A field outside LSW_ST and LSW_TEST reads after settling as before. -/
theorem getF_settle {f : Fld} {i : Nat} (h : shownKey (fkey f i) = false) (c : Chip) :
    getF f i (settle c) = getF f i c := by
  obtain ⟨m, v, b, w, e⟩ := settle_frame c
  have ha := alike_settle c (fkey f i) h
  simp only [getF]
  cases hf : f.home
  · show mapGet (settle c).regs _ ^^^ _ = mapGet c.regs _ ^^^ _
    rw [ha]
  · show mapGet (settle c).bregs _ ^^^ _ = _
    rw [e]; rfl
  · show mapGet (settle c).fregs _ ^^^ _ = _
    rw [e]; rfl

end Sys2Proof.Machine
end

