-- ==== Sys2Proof/Laws/Gates.lean ====
section
/-!
SUPPORT. Gates, grants and protection latches: what withdrawing, settling and latching leave.
-/

namespace Sys2Proof.Machine
open Sys2Proof Sys2Proof.Safety

/-! ### Withdrawing every gate -/

theorem gate_gateOff_of_off {j n : Nat} (c : Chip) (h : (hslBay j c).gate = false) : (hslBay j (gateOff n c)).gate = false := by
  by_cases e : j = n
  · subst e
    by_cases hn : j < 16
    · exact (hslBay_gateOff_same hn c).1
    · simp [hslBay, hn]
  · rw [hslBay_gateOff_ne e]; exact h

theorem gate_gateFold_off (l : List Nat) (j : Nat) (c : Chip) (h : (hslBay j c).gate = false) :
    (hslBay j (l.foldl (fun c n => gateOff n c) c)).gate = false := by
  induction l generalizing c with
  | nil => exact h
  | cons k l ih => exact ih _ (gate_gateOff_of_off c h)

theorem gate_gateFold (l : List Nat) (j : Nat) (hj : j ∈ l) (hb : j < 16) (c : Chip) :
    (hslBay j (l.foldl (fun c n => gateOff n c) c)).gate = false := by
  induction l generalizing c with
  | nil => cases hj
  | cons k l ih =>
    rcases List.mem_cons.mp hj with e | e
    · subst e
      exact gate_gateFold_off l j _ (hslBay_gateOff_same hb c).1
    · exact ih e _

/-- Withdrawing every permission leaves no gate on. -/
theorem gate_withdrawAll {n : Nat} (h : n < 16) (c : Chip) : (hslBay n (withdrawAll c)).gate = false :=
  gate_gateFold _ n (List.mem_range.mpr h) h c

theorem gateFold_frame (l : List Nat) (c : Chip) : ∃ m v b w, l.foldl (fun c n => gateOff n c) c = c.withDie m v b w := by
  induction l generalizing c with
  | nil => exact ⟨c.regs, c.lsw.chan, c.hsl.bays, c.bil, rfl⟩
  | cons k l ih =>
    obtain ⟨m, v, b, w, h⟩ := gateOff_frame k c
    obtain ⟨m', v', b', w', h'⟩ := ih (gateOff k c)
    exact ⟨m', v', b', w', by rw [List.foldl_cons, h', h]; rfl⟩

theorem withdrawAll_frame (c : Chip) : ∃ m v b w, withdrawAll c = c.withDie m v b w := gateFold_frame _ c

/-! ### Settling and the gates -/

theorem hslBay_recheck_ne {j n : Nat} (h : j ≠ n) (c : Chip) : hslBay j (recheck n c) = hslBay j c := by
  rcases recheck_cases n c with e | e
  · rw [e.2]
  · rw [e.2, hslBay_gateOff_ne h]

theorem closingOk_recheck (j n : Nat) (c : Chip) : closingOk j (recheck n c) = closingOk j c := by
  rcases recheck_cases n c with e | e
  · rw [e.2]
  · rw [e.2, closingOk_gateOff]

theorem gate_recheck_same {n : Nat} (h : n < 16) (c : Chip) :
    (hslBay n (recheck n c)).gate = ((hslBay n c).gate && gateOk n c) := by
  rcases recheck_cases n c with e | e
  · rw [e.2, e.1, Bool.and_true]
  · rw [e.2, (hslBay_gateOff_same h c).1, e.1, Bool.and_false]

theorem recheckFold_other (l : List Nat) (j : Nat) (h : j ∉ l) (c : Chip) :
    hslBay j (l.foldl (fun c n => recheck n c) c) = hslBay j c := by
  induction l generalizing c with
  | nil => rfl
  | cons k l ih =>
    rw [List.foldl_cons, ih (fun e => h (List.mem_cons_of_mem k e)),
      hslBay_recheck_ne (fun e => h (by rw [e]; exact List.mem_cons_self))]

theorem gateOk_recheck_gate (n : Nat) (c : Chip) :
    ((hslBay n c).gate && gateOk n c) = ((hslBay n c).gate && closingOk n c && (hslBay n c).grant) := by
  simp only [gateOk]
  cases (hslBay n c).gate <;> simp

theorem recheckFold_gate (l : List Nat) (hn : l.Nodup) (j : Nat) (hj : j ∈ l) (hb : j < 16) (c : Chip) :
    (hslBay j (l.foldl (fun c n => recheck n c) c)).gate = ((hslBay j c).gate && gateOk j c) := by
  induction l generalizing c with
  | nil => cases hj
  | cons k l ih =>
    rw [List.foldl_cons]
    have hc := List.nodup_cons.mp hn
    by_cases he : j = k
    · subst he
      rw [recheckFold_other l j hc.1, gate_recheck_same hb]
    · rw [ih hc.2 ((List.mem_cons.mp hj).resolve_left he), hslBay_recheck_ne he, gateOk_recheck_ne he]

/-- After settling a gate is on exactly where it was on with its grant and its closing conditions. -/
theorem gate_settle {n : Nat} (h : n < 16) (c : Chip) :
    (hslBay n (settle c)).gate = ((hslBay n c).gate && closingOk n c && (hslBay n c).grant) := by
  rw [settle, hslBay_lswAll, recheckAll, recheckFold_gate _ List.nodup_range n (List.mem_range.mpr h) h, gateOk_recheck_gate]

theorem gate_settle_off {n : Nat} (h : n < 16) {c : Chip} (hg : (hslBay n c).gate = false) :
    (hslBay n (settle c)).gate = false := by
  rw [gate_settle h, hg]; rfl

theorem grant_gateOff_of_off {j n : Nat} (c : Chip) (h : (hslBay j c).grant = false) : (hslBay j (gateOff n c)).grant = false := by
  by_cases e : j = n
  · subst e
    by_cases hn : j < 16
    · exact (hslBay_gateOff_same hn c).2.1
    · simp [hslBay, hn]
  · rw [hslBay_gateOff_ne e]; exact h

theorem grant_settle_off {n : Nat} {c : Chip} (hg : (hslBay n c).grant = false) : (hslBay n (settle c)).grant = false := by
  rw [settle, hslBay_lswAll]
  have : ∀ (l : List Nat) (c : Chip), (hslBay n c).grant = false →
      (hslBay n (l.foldl (fun c n => recheck n c) c)).grant = false := by
    intro l
    induction l with
    | nil => exact fun c h => h
    | cons k l ih =>
      intro c h
      refine ih (recheck k c) ?_
      rcases recheck_cases k c with e | e
      · rw [e.2]; exact h
      · rw [e.2]; exact grant_gateOff_of_off c h
  exact this _ c hg

/-! ### The parts that settling keeps -/

@[simp] theorem settle_bregs (c : Chip) : (settle c).bregs = c.bregs := by
  obtain ⟨m, v, b, w, e⟩ := settle_frame c; rw [e]; rfl
@[simp] theorem settle_fregs (c : Chip) : (settle c).fregs = c.fregs := by
  obtain ⟨m, v, b, w, e⟩ := settle_frame c; rw [e]; rfl
@[simp] theorem settle_snap (c : Chip) : (settle c).snap = c.snap := by
  obtain ⟨m, v, b, w, e⟩ := settle_frame c; rw [e]; rfl
@[simp] theorem settle_reply (c : Chip) : (settle c).reply = c.reply := by
  obtain ⟨m, v, b, w, e⟩ := settle_frame c; rw [e]; rfl
@[simp] theorem settle_pwr (c : Chip) : (settle c).pwr = c.pwr := by
  obtain ⟨m, v, b, w, e⟩ := settle_frame c; rw [e]; rfl
@[simp] theorem settle_bridge (c : Chip) : (settle c).bridge = c.bridge := by
  obtain ⟨m, v, b, w, e⟩ := settle_frame c; rw [e]; rfl
@[simp] theorem settle_backup (c : Chip) : (settle c).backup = c.backup := by
  obtain ⟨m, v, b, w, e⟩ := settle_frame c; rw [e]; rfl
@[simp] theorem settle_dlr (c : Chip) : (settle c).dlr = c.dlr := by
  obtain ⟨m, v, b, w, e⟩ := settle_frame c; rw [e]; rfl
@[simp] theorem settle_sns (c : Chip) : (settle c).sns = c.sns := by
  obtain ⟨m, v, b, w, e⟩ := settle_frame c; rw [e]; rfl
@[simp] theorem settle_mtr (c : Chip) : (settle c).mtr = c.mtr := by
  obtain ⟨m, v, b, w, e⟩ := settle_frame c; rw [e]; rfl
@[simp] theorem settle_store (c : Chip) : (settle c).store = c.store := by
  obtain ⟨m, v, b, w, e⟩ := settle_frame c; rw [e]; rfl
@[simp] theorem settle_legal (c : Chip) : (settle c).legal = c.legal := by
  obtain ⟨m, v, b, w, e⟩ := settle_frame c; rw [e]; rfl
@[simp] theorem settle_prt (c : Chip) : (settle c).prt = c.prt := by
  obtain ⟨m, v, b, w, e⟩ := settle_frame c; rw [e]; rfl
@[simp] theorem settle_bay (c : Chip) : (settle c).bay = c.bay := by
  obtain ⟨m, v, b, w, e⟩ := settle_frame c; rw [e]; rfl
@[simp] theorem settle_canOff (c : Chip) : (settle c).canOff = c.canOff := by
  obtain ⟨m, v, b, w, e⟩ := settle_frame c; rw [e]; rfl
@[simp] theorem settle_lnk (c : Chip) : (settle c).lnk = c.lnk := by
  obtain ⟨m, v, b, w, e⟩ := settle_frame c; rw [e]; rfl
@[simp] theorem settle_saf (c : Chip) : (settle c).saf = c.saf := by
  obtain ⟨m, v, b, w, e⟩ := settle_frame c; rw [e]; rfl
@[simp] theorem settle_deck (c : Chip) : (settle c).deck = c.deck := by
  obtain ⟨m, v, b, w, e⟩ := settle_frame c; rw [e]; rfl
@[simp] theorem settle_upd (c : Chip) : (settle c).upd = c.upd := by
  obtain ⟨m, v, b, w, e⟩ := settle_frame c; rw [e]; rfl
@[simp] theorem settle_hst (c : Chip) : (settle c).hst = c.hst := by
  obtain ⟨m, v, b, w, e⟩ := settle_frame c; rw [e]; rfl
@[simp] theorem settle_emmc (c : Chip) : (settle c).emmc = c.emmc := by
  obtain ⟨m, v, b, w, e⟩ := settle_frame c; rw [e]; rfl
@[simp] theorem settle_sec (c : Chip) : (settle c).sec = c.sec := by
  obtain ⟨m, v, b, w, e⟩ := settle_frame c; rw [e]; rfl
@[simp] theorem settle_nfc (c : Chip) : (settle c).nfc = c.nfc := by
  obtain ⟨m, v, b, w, e⟩ := settle_frame c; rw [e]; rfl
@[simp] theorem settle_tag (c : Chip) : (settle c).tag = c.tag := by
  obtain ⟨m, v, b, w, e⟩ := settle_frame c; rw [e]; rfl
@[simp] theorem settle_mem (c : Chip) : (settle c).mem = c.mem := by
  obtain ⟨m, v, b, w, e⟩ := settle_frame c; rw [e]; rfl
@[simp] theorem settle_dsp (c : Chip) : (settle c).dsp = c.dsp := by
  obtain ⟨m, v, b, w, e⟩ := settle_frame c; rw [e]; rfl
@[simp] theorem settle_glass (c : Chip) : (settle c).glass = c.glass := by
  obtain ⟨m, v, b, w, e⟩ := settle_frame c; rw [e]; rfl
@[simp] theorem settle_hsl_trump (c : Chip) : (settle c).hsl.trump = c.hsl.trump := by
  obtain ⟨m, v, b, w, e⟩ := settle_frame c; rw [e]; rfl
@[simp] theorem settle_hsl_latch (c : Chip) : (settle c).hsl.latch = c.hsl.latch := by
  obtain ⟨m, v, b, w, e⟩ := settle_frame c; rw [e]; rfl
@[simp] theorem settle_hsl_safe (c : Chip) : (settle c).hsl.safe = c.hsl.safe := by
  obtain ⟨m, v, b, w, e⟩ := settle_frame c; rw [e]; rfl
@[simp] theorem settle_hsl_brake (c : Chip) : (settle c).hsl.brake = c.hsl.brake := by
  obtain ⟨m, v, b, w, e⟩ := settle_frame c; rw [e]; rfl
@[simp] theorem settle_lsw_lsin (c : Chip) : (settle c).lsw.lsin = c.lsw.lsin := by
  obtain ⟨m, v, b, w, e⟩ := settle_frame c; rw [e]; rfl
@[simp] theorem settle_lsw_level (c : Chip) : (settle c).lsw.level = c.lsw.level := by
  obtain ⟨m, v, b, w, e⟩ := settle_frame c; rw [e]; rfl
@[simp] theorem settle_lsw_granted (c : Chip) : (settle c).lsw.granted = c.lsw.granted := by
  obtain ⟨m, v, b, w, e⟩ := settle_frame c; rw [e]; rfl

end Sys2Proof.Machine
end

