-- ==== Sys2Proof/Laws/Resets.lean ====
section
/-!
SUPPORT. What the reset of the HSL and of the logic die, and the release from it, leave as it was.
-/

namespace Sys2Proof.Machine
open Sys2Proof Sys2Proof.Safety

/-- What every step of a fold keeps, the fold keeps. -/
theorem foldl_keeps {β : Type} (g : Chip → β) (f : Chip → Nat → Chip) (h : ∀ c n, g (f c n) = g c) (l : List Nat) (c : Chip) :
    g (l.foldl f c) = g c := by
  induction l generalizing c with
  | nil => rfl
  | cons k l ih => rw [List.foldl_cons, ih, h]

/-! ### Withdrawing and settling -/

@[simp] theorem lswAll_bregs (c : Chip) : (lswAll c).bregs = c.bregs := by
  obtain ⟨m, v, e⟩ := lswAll_frame c; rw [e]
@[simp] theorem lswAll_fregs (c : Chip) : (lswAll c).fregs = c.fregs := by
  obtain ⟨m, v, e⟩ := lswAll_frame c; rw [e]
@[simp] theorem lswAll_snap (c : Chip) : (lswAll c).snap = c.snap := by
  obtain ⟨m, v, e⟩ := lswAll_frame c; rw [e]
@[simp] theorem lswAll_reply (c : Chip) : (lswAll c).reply = c.reply := by
  obtain ⟨m, v, e⟩ := lswAll_frame c; rw [e]
@[simp] theorem lswAll_pwr (c : Chip) : (lswAll c).pwr = c.pwr := by
  obtain ⟨m, v, e⟩ := lswAll_frame c; rw [e]
@[simp] theorem lswAll_bridge (c : Chip) : (lswAll c).bridge = c.bridge := by
  obtain ⟨m, v, e⟩ := lswAll_frame c; rw [e]
@[simp] theorem lswAll_backup (c : Chip) : (lswAll c).backup = c.backup := by
  obtain ⟨m, v, e⟩ := lswAll_frame c; rw [e]
@[simp] theorem lswAll_dlr (c : Chip) : (lswAll c).dlr = c.dlr := by
  obtain ⟨m, v, e⟩ := lswAll_frame c; rw [e]
@[simp] theorem lswAll_sns (c : Chip) : (lswAll c).sns = c.sns := by
  obtain ⟨m, v, e⟩ := lswAll_frame c; rw [e]
@[simp] theorem lswAll_mtr (c : Chip) : (lswAll c).mtr = c.mtr := by
  obtain ⟨m, v, e⟩ := lswAll_frame c; rw [e]
@[simp] theorem lswAll_bil (c : Chip) : (lswAll c).bil = c.bil := by
  obtain ⟨m, v, e⟩ := lswAll_frame c; rw [e]
@[simp] theorem lswAll_store (c : Chip) : (lswAll c).store = c.store := by
  obtain ⟨m, v, e⟩ := lswAll_frame c; rw [e]
@[simp] theorem lswAll_legal (c : Chip) : (lswAll c).legal = c.legal := by
  obtain ⟨m, v, e⟩ := lswAll_frame c; rw [e]
@[simp] theorem lswAll_prt (c : Chip) : (lswAll c).prt = c.prt := by
  obtain ⟨m, v, e⟩ := lswAll_frame c; rw [e]
@[simp] theorem lswAll_bay (c : Chip) : (lswAll c).bay = c.bay := by
  obtain ⟨m, v, e⟩ := lswAll_frame c; rw [e]
@[simp] theorem lswAll_canOff (c : Chip) : (lswAll c).canOff = c.canOff := by
  obtain ⟨m, v, e⟩ := lswAll_frame c; rw [e]
@[simp] theorem lswAll_lnk (c : Chip) : (lswAll c).lnk = c.lnk := by
  obtain ⟨m, v, e⟩ := lswAll_frame c; rw [e]
@[simp] theorem lswAll_saf (c : Chip) : (lswAll c).saf = c.saf := by
  obtain ⟨m, v, e⟩ := lswAll_frame c; rw [e]
@[simp] theorem lswAll_deck (c : Chip) : (lswAll c).deck = c.deck := by
  obtain ⟨m, v, e⟩ := lswAll_frame c; rw [e]
@[simp] theorem lswAll_upd (c : Chip) : (lswAll c).upd = c.upd := by
  obtain ⟨m, v, e⟩ := lswAll_frame c; rw [e]
@[simp] theorem lswAll_hst (c : Chip) : (lswAll c).hst = c.hst := by
  obtain ⟨m, v, e⟩ := lswAll_frame c; rw [e]
@[simp] theorem lswAll_emmc (c : Chip) : (lswAll c).emmc = c.emmc := by
  obtain ⟨m, v, e⟩ := lswAll_frame c; rw [e]
@[simp] theorem lswAll_sec (c : Chip) : (lswAll c).sec = c.sec := by
  obtain ⟨m, v, e⟩ := lswAll_frame c; rw [e]
@[simp] theorem lswAll_nfc (c : Chip) : (lswAll c).nfc = c.nfc := by
  obtain ⟨m, v, e⟩ := lswAll_frame c; rw [e]
@[simp] theorem lswAll_tag (c : Chip) : (lswAll c).tag = c.tag := by
  obtain ⟨m, v, e⟩ := lswAll_frame c; rw [e]
@[simp] theorem lswAll_mem (c : Chip) : (lswAll c).mem = c.mem := by
  obtain ⟨m, v, e⟩ := lswAll_frame c; rw [e]
@[simp] theorem lswAll_dsp (c : Chip) : (lswAll c).dsp = c.dsp := by
  obtain ⟨m, v, e⟩ := lswAll_frame c; rw [e]
@[simp] theorem lswAll_glass (c : Chip) : (lswAll c).glass = c.glass := by
  obtain ⟨m, v, e⟩ := lswAll_frame c; rw [e]
@[simp] theorem lswAll_hsl_trump (c : Chip) : (lswAll c).hsl.trump = c.hsl.trump := by
  obtain ⟨m, v, e⟩ := lswAll_frame c; rw [e]
@[simp] theorem lswAll_hsl_latch (c : Chip) : (lswAll c).hsl.latch = c.hsl.latch := by
  obtain ⟨m, v, e⟩ := lswAll_frame c; rw [e]
@[simp] theorem lswAll_hsl_safe (c : Chip) : (lswAll c).hsl.safe = c.hsl.safe := by
  obtain ⟨m, v, e⟩ := lswAll_frame c; rw [e]
@[simp] theorem lswAll_hsl_brake (c : Chip) : (lswAll c).hsl.brake = c.hsl.brake := by
  obtain ⟨m, v, e⟩ := lswAll_frame c; rw [e]
@[simp] theorem withdrawAll_bregs (c : Chip) : (withdrawAll c).bregs = c.bregs := by
  obtain ⟨m, v, b, w, e⟩ := withdrawAll_frame c; rw [e]; rfl
@[simp] theorem withdrawAll_fregs (c : Chip) : (withdrawAll c).fregs = c.fregs := by
  obtain ⟨m, v, b, w, e⟩ := withdrawAll_frame c; rw [e]; rfl
@[simp] theorem withdrawAll_snap (c : Chip) : (withdrawAll c).snap = c.snap := by
  obtain ⟨m, v, b, w, e⟩ := withdrawAll_frame c; rw [e]; rfl
@[simp] theorem withdrawAll_reply (c : Chip) : (withdrawAll c).reply = c.reply := by
  obtain ⟨m, v, b, w, e⟩ := withdrawAll_frame c; rw [e]; rfl
@[simp] theorem withdrawAll_pwr (c : Chip) : (withdrawAll c).pwr = c.pwr := by
  obtain ⟨m, v, b, w, e⟩ := withdrawAll_frame c; rw [e]; rfl
@[simp] theorem withdrawAll_bridge (c : Chip) : (withdrawAll c).bridge = c.bridge := by
  obtain ⟨m, v, b, w, e⟩ := withdrawAll_frame c; rw [e]; rfl
@[simp] theorem withdrawAll_backup (c : Chip) : (withdrawAll c).backup = c.backup := by
  obtain ⟨m, v, b, w, e⟩ := withdrawAll_frame c; rw [e]; rfl
@[simp] theorem withdrawAll_dlr (c : Chip) : (withdrawAll c).dlr = c.dlr := by
  obtain ⟨m, v, b, w, e⟩ := withdrawAll_frame c; rw [e]; rfl
@[simp] theorem withdrawAll_sns (c : Chip) : (withdrawAll c).sns = c.sns := by
  obtain ⟨m, v, b, w, e⟩ := withdrawAll_frame c; rw [e]; rfl
@[simp] theorem withdrawAll_mtr (c : Chip) : (withdrawAll c).mtr = c.mtr := by
  obtain ⟨m, v, b, w, e⟩ := withdrawAll_frame c; rw [e]; rfl
@[simp] theorem withdrawAll_store (c : Chip) : (withdrawAll c).store = c.store := by
  obtain ⟨m, v, b, w, e⟩ := withdrawAll_frame c; rw [e]; rfl
@[simp] theorem withdrawAll_legal (c : Chip) : (withdrawAll c).legal = c.legal := by
  obtain ⟨m, v, b, w, e⟩ := withdrawAll_frame c; rw [e]; rfl
@[simp] theorem withdrawAll_prt (c : Chip) : (withdrawAll c).prt = c.prt := by
  obtain ⟨m, v, b, w, e⟩ := withdrawAll_frame c; rw [e]; rfl
@[simp] theorem withdrawAll_bay (c : Chip) : (withdrawAll c).bay = c.bay := by
  obtain ⟨m, v, b, w, e⟩ := withdrawAll_frame c; rw [e]; rfl
@[simp] theorem withdrawAll_canOff (c : Chip) : (withdrawAll c).canOff = c.canOff := by
  obtain ⟨m, v, b, w, e⟩ := withdrawAll_frame c; rw [e]; rfl
@[simp] theorem withdrawAll_lnk (c : Chip) : (withdrawAll c).lnk = c.lnk := by
  obtain ⟨m, v, b, w, e⟩ := withdrawAll_frame c; rw [e]; rfl
@[simp] theorem withdrawAll_saf (c : Chip) : (withdrawAll c).saf = c.saf := by
  obtain ⟨m, v, b, w, e⟩ := withdrawAll_frame c; rw [e]; rfl
@[simp] theorem withdrawAll_deck (c : Chip) : (withdrawAll c).deck = c.deck := by
  obtain ⟨m, v, b, w, e⟩ := withdrawAll_frame c; rw [e]; rfl
@[simp] theorem withdrawAll_upd (c : Chip) : (withdrawAll c).upd = c.upd := by
  obtain ⟨m, v, b, w, e⟩ := withdrawAll_frame c; rw [e]; rfl
@[simp] theorem withdrawAll_hst (c : Chip) : (withdrawAll c).hst = c.hst := by
  obtain ⟨m, v, b, w, e⟩ := withdrawAll_frame c; rw [e]; rfl
@[simp] theorem withdrawAll_emmc (c : Chip) : (withdrawAll c).emmc = c.emmc := by
  obtain ⟨m, v, b, w, e⟩ := withdrawAll_frame c; rw [e]; rfl
@[simp] theorem withdrawAll_sec (c : Chip) : (withdrawAll c).sec = c.sec := by
  obtain ⟨m, v, b, w, e⟩ := withdrawAll_frame c; rw [e]; rfl
@[simp] theorem withdrawAll_nfc (c : Chip) : (withdrawAll c).nfc = c.nfc := by
  obtain ⟨m, v, b, w, e⟩ := withdrawAll_frame c; rw [e]; rfl
@[simp] theorem withdrawAll_tag (c : Chip) : (withdrawAll c).tag = c.tag := by
  obtain ⟨m, v, b, w, e⟩ := withdrawAll_frame c; rw [e]; rfl
@[simp] theorem withdrawAll_mem (c : Chip) : (withdrawAll c).mem = c.mem := by
  obtain ⟨m, v, b, w, e⟩ := withdrawAll_frame c; rw [e]; rfl
@[simp] theorem withdrawAll_dsp (c : Chip) : (withdrawAll c).dsp = c.dsp := by
  obtain ⟨m, v, b, w, e⟩ := withdrawAll_frame c; rw [e]; rfl
@[simp] theorem withdrawAll_glass (c : Chip) : (withdrawAll c).glass = c.glass := by
  obtain ⟨m, v, b, w, e⟩ := withdrawAll_frame c; rw [e]; rfl
@[simp] theorem withdrawAll_hsl_trump (c : Chip) : (withdrawAll c).hsl.trump = c.hsl.trump := by
  obtain ⟨m, v, b, w, e⟩ := withdrawAll_frame c; rw [e]; rfl
@[simp] theorem withdrawAll_hsl_latch (c : Chip) : (withdrawAll c).hsl.latch = c.hsl.latch := by
  obtain ⟨m, v, b, w, e⟩ := withdrawAll_frame c; rw [e]; rfl
@[simp] theorem withdrawAll_hsl_safe (c : Chip) : (withdrawAll c).hsl.safe = c.hsl.safe := by
  obtain ⟨m, v, b, w, e⟩ := withdrawAll_frame c; rw [e]; rfl
@[simp] theorem withdrawAll_hsl_brake (c : Chip) : (withdrawAll c).hsl.brake = c.hsl.brake := by
  obtain ⟨m, v, b, w, e⟩ := withdrawAll_frame c; rw [e]; rfl

/-! ### The reset state of the HSL -/

/-- One bay in the reset state of R48. -/
def bayToReset (c : Chip) (n : Nat) : Chip :=
  let b := hslBay n c
  bayPut n { bayGet n c with grantReq := false }
    (hslBayPut n { b with mode := 0, duty := 0, cmdMode := 0, cmdDuty := 0, rec_ := 0, raw := 0, rawN := 0 } c)

theorem baysHslReset_eq (c : Chip) : baysHslReset c = (List.range 16).foldl bayToReset (withdrawAll c) := by
  unfold baysHslReset; rfl

@[simp] theorem baysHslReset_bregs (c : Chip) : (baysHslReset c).bregs = c.bregs := by
  rw [baysHslReset_eq, foldl_keeps (·.bregs) bayToReset (fun _ _ => rfl), withdrawAll_bregs]
@[simp] theorem baysHslReset_fregs (c : Chip) : (baysHslReset c).fregs = c.fregs := by
  rw [baysHslReset_eq, foldl_keeps (·.fregs) bayToReset (fun _ _ => rfl), withdrawAll_fregs]
@[simp] theorem baysHslReset_snap (c : Chip) : (baysHslReset c).snap = c.snap := by
  rw [baysHslReset_eq, foldl_keeps (·.snap) bayToReset (fun _ _ => rfl), withdrawAll_snap]
@[simp] theorem baysHslReset_reply (c : Chip) : (baysHslReset c).reply = c.reply := by
  rw [baysHslReset_eq, foldl_keeps (·.reply) bayToReset (fun _ _ => rfl), withdrawAll_reply]
@[simp] theorem baysHslReset_pwr (c : Chip) : (baysHslReset c).pwr = c.pwr := by
  rw [baysHslReset_eq, foldl_keeps (·.pwr) bayToReset (fun _ _ => rfl), withdrawAll_pwr]
@[simp] theorem baysHslReset_bridge (c : Chip) : (baysHslReset c).bridge = c.bridge := by
  rw [baysHslReset_eq, foldl_keeps (·.bridge) bayToReset (fun _ _ => rfl), withdrawAll_bridge]
@[simp] theorem baysHslReset_backup (c : Chip) : (baysHslReset c).backup = c.backup := by
  rw [baysHslReset_eq, foldl_keeps (·.backup) bayToReset (fun _ _ => rfl), withdrawAll_backup]
@[simp] theorem baysHslReset_dlr (c : Chip) : (baysHslReset c).dlr = c.dlr := by
  rw [baysHslReset_eq, foldl_keeps (·.dlr) bayToReset (fun _ _ => rfl), withdrawAll_dlr]
@[simp] theorem baysHslReset_sns (c : Chip) : (baysHslReset c).sns = c.sns := by
  rw [baysHslReset_eq, foldl_keeps (·.sns) bayToReset (fun _ _ => rfl), withdrawAll_sns]
@[simp] theorem baysHslReset_mtr (c : Chip) : (baysHslReset c).mtr = c.mtr := by
  rw [baysHslReset_eq, foldl_keeps (·.mtr) bayToReset (fun _ _ => rfl), withdrawAll_mtr]
@[simp] theorem baysHslReset_store (c : Chip) : (baysHslReset c).store = c.store := by
  rw [baysHslReset_eq, foldl_keeps (·.store) bayToReset (fun _ _ => rfl), withdrawAll_store]
@[simp] theorem baysHslReset_legal (c : Chip) : (baysHslReset c).legal = c.legal := by
  rw [baysHslReset_eq, foldl_keeps (·.legal) bayToReset (fun _ _ => rfl), withdrawAll_legal]
@[simp] theorem baysHslReset_prt (c : Chip) : (baysHslReset c).prt = c.prt := by
  rw [baysHslReset_eq, foldl_keeps (·.prt) bayToReset (fun _ _ => rfl), withdrawAll_prt]
@[simp] theorem baysHslReset_canOff (c : Chip) : (baysHslReset c).canOff = c.canOff := by
  rw [baysHslReset_eq, foldl_keeps (·.canOff) bayToReset (fun _ _ => rfl), withdrawAll_canOff]
@[simp] theorem baysHslReset_lnk (c : Chip) : (baysHslReset c).lnk = c.lnk := by
  rw [baysHslReset_eq, foldl_keeps (·.lnk) bayToReset (fun _ _ => rfl), withdrawAll_lnk]
@[simp] theorem baysHslReset_saf (c : Chip) : (baysHslReset c).saf = c.saf := by
  rw [baysHslReset_eq, foldl_keeps (·.saf) bayToReset (fun _ _ => rfl), withdrawAll_saf]
@[simp] theorem baysHslReset_deck (c : Chip) : (baysHslReset c).deck = c.deck := by
  rw [baysHslReset_eq, foldl_keeps (·.deck) bayToReset (fun _ _ => rfl), withdrawAll_deck]
@[simp] theorem baysHslReset_upd (c : Chip) : (baysHslReset c).upd = c.upd := by
  rw [baysHslReset_eq, foldl_keeps (·.upd) bayToReset (fun _ _ => rfl), withdrawAll_upd]
@[simp] theorem baysHslReset_hst (c : Chip) : (baysHslReset c).hst = c.hst := by
  rw [baysHslReset_eq, foldl_keeps (·.hst) bayToReset (fun _ _ => rfl), withdrawAll_hst]
@[simp] theorem baysHslReset_emmc (c : Chip) : (baysHslReset c).emmc = c.emmc := by
  rw [baysHslReset_eq, foldl_keeps (·.emmc) bayToReset (fun _ _ => rfl), withdrawAll_emmc]
@[simp] theorem baysHslReset_sec (c : Chip) : (baysHslReset c).sec = c.sec := by
  rw [baysHslReset_eq, foldl_keeps (·.sec) bayToReset (fun _ _ => rfl), withdrawAll_sec]
@[simp] theorem baysHslReset_nfc (c : Chip) : (baysHslReset c).nfc = c.nfc := by
  rw [baysHslReset_eq, foldl_keeps (·.nfc) bayToReset (fun _ _ => rfl), withdrawAll_nfc]
@[simp] theorem baysHslReset_tag (c : Chip) : (baysHslReset c).tag = c.tag := by
  rw [baysHslReset_eq, foldl_keeps (·.tag) bayToReset (fun _ _ => rfl), withdrawAll_tag]
@[simp] theorem baysHslReset_mem (c : Chip) : (baysHslReset c).mem = c.mem := by
  rw [baysHslReset_eq, foldl_keeps (·.mem) bayToReset (fun _ _ => rfl), withdrawAll_mem]
@[simp] theorem baysHslReset_dsp (c : Chip) : (baysHslReset c).dsp = c.dsp := by
  rw [baysHslReset_eq, foldl_keeps (·.dsp) bayToReset (fun _ _ => rfl), withdrawAll_dsp]
@[simp] theorem baysHslReset_glass (c : Chip) : (baysHslReset c).glass = c.glass := by
  rw [baysHslReset_eq, foldl_keeps (·.glass) bayToReset (fun _ _ => rfl), withdrawAll_glass]
@[simp] theorem baysHslReset_hsl_trump (c : Chip) : (baysHslReset c).hsl.trump = c.hsl.trump := by
  rw [baysHslReset_eq, foldl_keeps (·.hsl.trump) bayToReset (fun _ _ => rfl), withdrawAll_hsl_trump]
@[simp] theorem baysHslReset_hsl_latch (c : Chip) : (baysHslReset c).hsl.latch = c.hsl.latch := by
  rw [baysHslReset_eq, foldl_keeps (·.hsl.latch) bayToReset (fun _ _ => rfl), withdrawAll_hsl_latch]
@[simp] theorem safetyReset_bregs (c : Chip) : (safetyReset c).bregs = c.bregs := by simp [safetyReset]
@[simp] theorem safetyReset_fregs (c : Chip) : (safetyReset c).fregs = c.fregs := by simp [safetyReset]
@[simp] theorem safetyReset_snap (c : Chip) : (safetyReset c).snap = c.snap := by simp [safetyReset]
@[simp] theorem safetyReset_reply (c : Chip) : (safetyReset c).reply = c.reply := by simp [safetyReset]
@[simp] theorem safetyReset_pwr (c : Chip) : (safetyReset c).pwr = c.pwr := by simp [safetyReset]
@[simp] theorem safetyReset_bridge (c : Chip) : (safetyReset c).bridge = c.bridge := by simp [safetyReset]
@[simp] theorem safetyReset_backup (c : Chip) : (safetyReset c).backup = c.backup := by simp [safetyReset]
@[simp] theorem safetyReset_dlr (c : Chip) : (safetyReset c).dlr = c.dlr := by simp [safetyReset]
@[simp] theorem safetyReset_sns (c : Chip) : (safetyReset c).sns = c.sns := by simp [safetyReset]
@[simp] theorem safetyReset_mtr (c : Chip) : (safetyReset c).mtr = c.mtr := by simp [safetyReset]
@[simp] theorem safetyReset_bil (c : Chip) : (safetyReset c).bil = c.bil := by simp [safetyReset]
@[simp] theorem safetyReset_store (c : Chip) : (safetyReset c).store = c.store := by simp [safetyReset]
@[simp] theorem safetyReset_legal (c : Chip) : (safetyReset c).legal = c.legal := by simp [safetyReset]
@[simp] theorem safetyReset_prt (c : Chip) : (safetyReset c).prt = c.prt := by simp [safetyReset]
@[simp] theorem safetyReset_bay (c : Chip) : (safetyReset c).bay = c.bay := by simp [safetyReset]
@[simp] theorem safetyReset_canOff (c : Chip) : (safetyReset c).canOff = c.canOff := by simp [safetyReset]
@[simp] theorem safetyReset_lnk (c : Chip) : (safetyReset c).lnk = c.lnk := by simp [safetyReset]
@[simp] theorem safetyReset_deck (c : Chip) : (safetyReset c).deck = c.deck := by simp [safetyReset]
@[simp] theorem safetyReset_upd (c : Chip) : (safetyReset c).upd = c.upd := by simp [safetyReset]
@[simp] theorem safetyReset_hst (c : Chip) : (safetyReset c).hst = c.hst := by simp [safetyReset]
@[simp] theorem safetyReset_emmc (c : Chip) : (safetyReset c).emmc = c.emmc := by simp [safetyReset]
@[simp] theorem safetyReset_sec (c : Chip) : (safetyReset c).sec = c.sec := by simp [safetyReset]
@[simp] theorem safetyReset_nfc (c : Chip) : (safetyReset c).nfc = c.nfc := by simp [safetyReset]
@[simp] theorem safetyReset_tag (c : Chip) : (safetyReset c).tag = c.tag := by simp [safetyReset]
@[simp] theorem safetyReset_mem (c : Chip) : (safetyReset c).mem = c.mem := by simp [safetyReset]
@[simp] theorem safetyReset_dsp (c : Chip) : (safetyReset c).dsp = c.dsp := by simp [safetyReset]
@[simp] theorem safetyReset_glass (c : Chip) : (safetyReset c).glass = c.glass := by simp [safetyReset]
@[simp] theorem safetyReset_hsl_trump (c : Chip) : (safetyReset c).hsl.trump = c.hsl.trump := by simp [safetyReset]
@[simp] theorem safetyReset_hsl_latch (c : Chip) : (safetyReset c).hsl.latch = c.hsl.latch := by simp [safetyReset]
@[simp] theorem lswReset_bregs (c : Chip) : (lswReset c).bregs = c.bregs := rfl
@[simp] theorem lswReset_fregs (c : Chip) : (lswReset c).fregs = c.fregs := rfl
@[simp] theorem lswReset_snap (c : Chip) : (lswReset c).snap = c.snap := rfl
@[simp] theorem lswReset_reply (c : Chip) : (lswReset c).reply = c.reply := rfl
@[simp] theorem lswReset_pwr (c : Chip) : (lswReset c).pwr = c.pwr := rfl
@[simp] theorem lswReset_bridge (c : Chip) : (lswReset c).bridge = c.bridge := rfl
@[simp] theorem lswReset_backup (c : Chip) : (lswReset c).backup = c.backup := rfl
@[simp] theorem lswReset_dlr (c : Chip) : (lswReset c).dlr = c.dlr := rfl
@[simp] theorem lswReset_sns (c : Chip) : (lswReset c).sns = c.sns := rfl
@[simp] theorem lswReset_mtr (c : Chip) : (lswReset c).mtr = c.mtr := rfl
@[simp] theorem lswReset_bil (c : Chip) : (lswReset c).bil = c.bil := rfl
@[simp] theorem lswReset_store (c : Chip) : (lswReset c).store = c.store := rfl
@[simp] theorem lswReset_legal (c : Chip) : (lswReset c).legal = c.legal := rfl
@[simp] theorem lswReset_prt (c : Chip) : (lswReset c).prt = c.prt := rfl
@[simp] theorem lswReset_bay (c : Chip) : (lswReset c).bay = c.bay := rfl
@[simp] theorem lswReset_canOff (c : Chip) : (lswReset c).canOff = c.canOff := rfl
@[simp] theorem lswReset_lnk (c : Chip) : (lswReset c).lnk = c.lnk := rfl
@[simp] theorem lswReset_saf (c : Chip) : (lswReset c).saf = c.saf := rfl
@[simp] theorem lswReset_deck (c : Chip) : (lswReset c).deck = c.deck := rfl
@[simp] theorem lswReset_upd (c : Chip) : (lswReset c).upd = c.upd := rfl
@[simp] theorem lswReset_hst (c : Chip) : (lswReset c).hst = c.hst := rfl
@[simp] theorem lswReset_emmc (c : Chip) : (lswReset c).emmc = c.emmc := rfl
@[simp] theorem lswReset_sec (c : Chip) : (lswReset c).sec = c.sec := rfl
@[simp] theorem lswReset_nfc (c : Chip) : (lswReset c).nfc = c.nfc := rfl
@[simp] theorem lswReset_tag (c : Chip) : (lswReset c).tag = c.tag := rfl
@[simp] theorem lswReset_mem (c : Chip) : (lswReset c).mem = c.mem := rfl
@[simp] theorem lswReset_dsp (c : Chip) : (lswReset c).dsp = c.dsp := rfl
@[simp] theorem lswReset_glass (c : Chip) : (lswReset c).glass = c.glass := rfl
@[simp] theorem lswReset_hsl_trump (c : Chip) : (lswReset c).hsl.trump = c.hsl.trump := rfl
@[simp] theorem lswReset_hsl_latch (c : Chip) : (lswReset c).hsl.latch = c.hsl.latch := rfl
@[simp] theorem discardCommits_bregs (c : Chip) : (discardCommits c).bregs = c.bregs :=
  foldl_keeps (·.bregs) _ (fun c n => by simp [setF, Chip.withMap, Reg.DLR_PEND_PENDING]) _ c
@[simp] theorem discardCommits_fregs (c : Chip) : (discardCommits c).fregs = c.fregs :=
  foldl_keeps (·.fregs) _ (fun c n => by simp [setF, Chip.withMap, Reg.DLR_PEND_PENDING]) _ c
@[simp] theorem discardCommits_snap (c : Chip) : (discardCommits c).snap = c.snap :=
  foldl_keeps (·.snap) _ (fun c n => by simp [setF, Chip.withMap, Reg.DLR_PEND_PENDING]) _ c
@[simp] theorem discardCommits_reply (c : Chip) : (discardCommits c).reply = c.reply :=
  foldl_keeps (·.reply) _ (fun c n => by simp [setF, Chip.withMap, Reg.DLR_PEND_PENDING]) _ c
@[simp] theorem discardCommits_pwr (c : Chip) : (discardCommits c).pwr = c.pwr :=
  foldl_keeps (·.pwr) _ (fun c n => by simp [setF, Chip.withMap, Reg.DLR_PEND_PENDING]) _ c
@[simp] theorem discardCommits_bridge (c : Chip) : (discardCommits c).bridge = c.bridge :=
  foldl_keeps (·.bridge) _ (fun c n => by simp [setF, Chip.withMap, Reg.DLR_PEND_PENDING]) _ c
@[simp] theorem discardCommits_backup (c : Chip) : (discardCommits c).backup = c.backup :=
  foldl_keeps (·.backup) _ (fun c n => by simp [setF, Chip.withMap, Reg.DLR_PEND_PENDING]) _ c
@[simp] theorem discardCommits_sns (c : Chip) : (discardCommits c).sns = c.sns :=
  foldl_keeps (·.sns) _ (fun c n => by simp [setF, Chip.withMap, Reg.DLR_PEND_PENDING]) _ c
@[simp] theorem discardCommits_mtr (c : Chip) : (discardCommits c).mtr = c.mtr :=
  foldl_keeps (·.mtr) _ (fun c n => by simp [setF, Chip.withMap, Reg.DLR_PEND_PENDING]) _ c
@[simp] theorem discardCommits_bil (c : Chip) : (discardCommits c).bil = c.bil :=
  foldl_keeps (·.bil) _ (fun c n => by simp [setF, Chip.withMap, Reg.DLR_PEND_PENDING]) _ c
@[simp] theorem discardCommits_store (c : Chip) : (discardCommits c).store = c.store :=
  foldl_keeps (·.store) _ (fun c n => by simp [setF, Chip.withMap, Reg.DLR_PEND_PENDING]) _ c
@[simp] theorem discardCommits_legal (c : Chip) : (discardCommits c).legal = c.legal :=
  foldl_keeps (·.legal) _ (fun c n => by simp [setF, Chip.withMap, Reg.DLR_PEND_PENDING]) _ c
@[simp] theorem discardCommits_prt (c : Chip) : (discardCommits c).prt = c.prt :=
  foldl_keeps (·.prt) _ (fun c n => by simp [setF, Chip.withMap, Reg.DLR_PEND_PENDING]) _ c
@[simp] theorem discardCommits_bay (c : Chip) : (discardCommits c).bay = c.bay :=
  foldl_keeps (·.bay) _ (fun c n => by simp [setF, Chip.withMap, Reg.DLR_PEND_PENDING]) _ c
@[simp] theorem discardCommits_canOff (c : Chip) : (discardCommits c).canOff = c.canOff :=
  foldl_keeps (·.canOff) _ (fun c n => by simp [setF, Chip.withMap, Reg.DLR_PEND_PENDING]) _ c
@[simp] theorem discardCommits_lnk (c : Chip) : (discardCommits c).lnk = c.lnk :=
  foldl_keeps (·.lnk) _ (fun c n => by simp [setF, Chip.withMap, Reg.DLR_PEND_PENDING]) _ c
@[simp] theorem discardCommits_saf (c : Chip) : (discardCommits c).saf = c.saf :=
  foldl_keeps (·.saf) _ (fun c n => by simp [setF, Chip.withMap, Reg.DLR_PEND_PENDING]) _ c
@[simp] theorem discardCommits_deck (c : Chip) : (discardCommits c).deck = c.deck :=
  foldl_keeps (·.deck) _ (fun c n => by simp [setF, Chip.withMap, Reg.DLR_PEND_PENDING]) _ c
@[simp] theorem discardCommits_upd (c : Chip) : (discardCommits c).upd = c.upd :=
  foldl_keeps (·.upd) _ (fun c n => by simp [setF, Chip.withMap, Reg.DLR_PEND_PENDING]) _ c
@[simp] theorem discardCommits_hst (c : Chip) : (discardCommits c).hst = c.hst :=
  foldl_keeps (·.hst) _ (fun c n => by simp [setF, Chip.withMap, Reg.DLR_PEND_PENDING]) _ c
@[simp] theorem discardCommits_emmc (c : Chip) : (discardCommits c).emmc = c.emmc :=
  foldl_keeps (·.emmc) _ (fun c n => by simp [setF, Chip.withMap, Reg.DLR_PEND_PENDING]) _ c
@[simp] theorem discardCommits_sec (c : Chip) : (discardCommits c).sec = c.sec :=
  foldl_keeps (·.sec) _ (fun c n => by simp [setF, Chip.withMap, Reg.DLR_PEND_PENDING]) _ c
@[simp] theorem discardCommits_nfc (c : Chip) : (discardCommits c).nfc = c.nfc :=
  foldl_keeps (·.nfc) _ (fun c n => by simp [setF, Chip.withMap, Reg.DLR_PEND_PENDING]) _ c
@[simp] theorem discardCommits_tag (c : Chip) : (discardCommits c).tag = c.tag :=
  foldl_keeps (·.tag) _ (fun c n => by simp [setF, Chip.withMap, Reg.DLR_PEND_PENDING]) _ c
@[simp] theorem discardCommits_mem (c : Chip) : (discardCommits c).mem = c.mem :=
  foldl_keeps (·.mem) _ (fun c n => by simp [setF, Chip.withMap, Reg.DLR_PEND_PENDING]) _ c
@[simp] theorem discardCommits_dsp (c : Chip) : (discardCommits c).dsp = c.dsp :=
  foldl_keeps (·.dsp) _ (fun c n => by simp [setF, Chip.withMap, Reg.DLR_PEND_PENDING]) _ c
@[simp] theorem discardCommits_glass (c : Chip) : (discardCommits c).glass = c.glass :=
  foldl_keeps (·.glass) _ (fun c n => by simp [setF, Chip.withMap, Reg.DLR_PEND_PENDING]) _ c
@[simp] theorem discardCommits_hsl_trump (c : Chip) : (discardCommits c).hsl.trump = c.hsl.trump :=
  foldl_keeps (·.hsl.trump) _ (fun c n => by simp [setF, Chip.withMap, Reg.DLR_PEND_PENDING]) _ c
@[simp] theorem discardCommits_hsl_latch (c : Chip) : (discardCommits c).hsl.latch = c.hsl.latch :=
  foldl_keeps (·.hsl.latch) _ (fun c n => by simp [setF, Chip.withMap, Reg.DLR_PEND_PENDING]) _ c
@[simp] theorem resetStamp_regs (c : Chip) : (resetStamp c).regs = c.regs := by unfold resetStamp; split <;> rfl
@[simp] theorem resetStamp_bregs (c : Chip) : (resetStamp c).bregs = c.bregs := by unfold resetStamp; split <;> rfl
@[simp] theorem resetStamp_fregs (c : Chip) : (resetStamp c).fregs = c.fregs := by unfold resetStamp; split <;> rfl
@[simp] theorem resetStamp_snap (c : Chip) : (resetStamp c).snap = c.snap := by unfold resetStamp; split <;> rfl
@[simp] theorem resetStamp_reply (c : Chip) : (resetStamp c).reply = c.reply := by unfold resetStamp; split <;> rfl
@[simp] theorem resetStamp_pwr (c : Chip) : (resetStamp c).pwr = c.pwr := by unfold resetStamp; split <;> rfl
@[simp] theorem resetStamp_bridge (c : Chip) : (resetStamp c).bridge = c.bridge := by unfold resetStamp; split <;> rfl
@[simp] theorem resetStamp_dlr (c : Chip) : (resetStamp c).dlr = c.dlr := by unfold resetStamp; split <;> rfl
@[simp] theorem resetStamp_sns (c : Chip) : (resetStamp c).sns = c.sns := by unfold resetStamp; split <;> rfl
@[simp] theorem resetStamp_mtr (c : Chip) : (resetStamp c).mtr = c.mtr := by unfold resetStamp; split <;> rfl
@[simp] theorem resetStamp_bil (c : Chip) : (resetStamp c).bil = c.bil := by unfold resetStamp; split <;> rfl
@[simp] theorem resetStamp_store (c : Chip) : (resetStamp c).store = c.store := by unfold resetStamp; split <;> rfl
@[simp] theorem resetStamp_legal (c : Chip) : (resetStamp c).legal = c.legal := by unfold resetStamp; split <;> rfl
@[simp] theorem resetStamp_hsl (c : Chip) : (resetStamp c).hsl = c.hsl := by unfold resetStamp; split <;> rfl
@[simp] theorem resetStamp_prt (c : Chip) : (resetStamp c).prt = c.prt := by unfold resetStamp; split <;> rfl
@[simp] theorem resetStamp_bay (c : Chip) : (resetStamp c).bay = c.bay := by unfold resetStamp; split <;> rfl
@[simp] theorem resetStamp_canOff (c : Chip) : (resetStamp c).canOff = c.canOff := by unfold resetStamp; split <;> rfl
@[simp] theorem resetStamp_lnk (c : Chip) : (resetStamp c).lnk = c.lnk := by unfold resetStamp; split <;> rfl
@[simp] theorem resetStamp_lsw (c : Chip) : (resetStamp c).lsw = c.lsw := by unfold resetStamp; split <;> rfl
@[simp] theorem resetStamp_saf (c : Chip) : (resetStamp c).saf = c.saf := by unfold resetStamp; split <;> rfl
@[simp] theorem resetStamp_deck (c : Chip) : (resetStamp c).deck = c.deck := by unfold resetStamp; split <;> rfl
@[simp] theorem resetStamp_upd (c : Chip) : (resetStamp c).upd = c.upd := by unfold resetStamp; split <;> rfl
@[simp] theorem resetStamp_hst (c : Chip) : (resetStamp c).hst = c.hst := by unfold resetStamp; split <;> rfl
@[simp] theorem resetStamp_emmc (c : Chip) : (resetStamp c).emmc = c.emmc := by unfold resetStamp; split <;> rfl
@[simp] theorem resetStamp_sec (c : Chip) : (resetStamp c).sec = c.sec := by unfold resetStamp; split <;> rfl
@[simp] theorem resetStamp_nfc (c : Chip) : (resetStamp c).nfc = c.nfc := by unfold resetStamp; split <;> rfl
@[simp] theorem resetStamp_tag (c : Chip) : (resetStamp c).tag = c.tag := by unfold resetStamp; split <;> rfl
@[simp] theorem resetStamp_mem (c : Chip) : (resetStamp c).mem = c.mem := by unfold resetStamp; split <;> rfl
@[simp] theorem resetStamp_dsp (c : Chip) : (resetStamp c).dsp = c.dsp := by unfold resetStamp; split <;> rfl
@[simp] theorem resetStamp_glass (c : Chip) : (resetStamp c).glass = c.glass := by unfold resetStamp; split <;> rfl
/-- R221: the HSL's reset state is stamped where a trump card was held. -/
@[simp] theorem resetStamp_backup (c : Chip) : (resetStamp c).backup =
    { c.backup with resetAt := if c.hsl.trump.isSome then c.backup.ms else c.backup.resetAt } := by
  unfold resetStamp
  split <;> rfl

@[simp] theorem hslReset_bregs (c : Chip) : (hslReset c).bregs = c.bregs := by
  rw [hslReset, setF_bregs (by decide)]
  simp
@[simp] theorem hslReset_fregs (c : Chip) : (hslReset c).fregs = c.fregs := by
  rw [hslReset, setF_fregs (by decide)]
  simp
@[simp] theorem hslReset_snap (c : Chip) : (hslReset c).snap = c.snap := by simp [hslReset]
@[simp] theorem hslReset_reply (c : Chip) : (hslReset c).reply = c.reply := by simp [hslReset]
@[simp] theorem hslReset_pwr (c : Chip) : (hslReset c).pwr = c.pwr := by simp [hslReset]
@[simp] theorem hslReset_bridge (c : Chip) : (hslReset c).bridge = c.bridge := by simp [hslReset]
@[simp] theorem hslReset_sns (c : Chip) : (hslReset c).sns = c.sns := by simp [hslReset]
@[simp] theorem hslReset_mtr (c : Chip) : (hslReset c).mtr = c.mtr := by simp [hslReset]
@[simp] theorem hslReset_store (c : Chip) : (hslReset c).store = c.store := by simp [hslReset]
@[simp] theorem hslReset_legal (c : Chip) : (hslReset c).legal = c.legal := by simp [hslReset]
@[simp] theorem hslReset_prt (c : Chip) : (hslReset c).prt = c.prt := by simp [hslReset]
@[simp] theorem hslReset_canOff (c : Chip) : (hslReset c).canOff = c.canOff := by simp [hslReset]
@[simp] theorem hslReset_lnk (c : Chip) : (hslReset c).lnk = c.lnk := by simp [hslReset]
@[simp] theorem hslReset_deck (c : Chip) : (hslReset c).deck = c.deck := by simp [hslReset]
@[simp] theorem hslReset_upd (c : Chip) : (hslReset c).upd = c.upd := by simp [hslReset]
@[simp] theorem hslReset_hst (c : Chip) : (hslReset c).hst = c.hst := by simp [hslReset]
@[simp] theorem hslReset_emmc (c : Chip) : (hslReset c).emmc = c.emmc := by simp [hslReset]
@[simp] theorem hslReset_sec (c : Chip) : (hslReset c).sec = c.sec := by simp [hslReset]
@[simp] theorem hslReset_nfc (c : Chip) : (hslReset c).nfc = c.nfc := by simp [hslReset]
@[simp] theorem hslReset_tag (c : Chip) : (hslReset c).tag = c.tag := by simp [hslReset]
@[simp] theorem hslReset_mem (c : Chip) : (hslReset c).mem = c.mem := by simp [hslReset]
@[simp] theorem hslReset_dsp (c : Chip) : (hslReset c).dsp = c.dsp := by simp [hslReset]
@[simp] theorem hslReset_glass (c : Chip) : (hslReset c).glass = c.glass := by simp [hslReset]
@[simp] theorem hslReset_hsl_latch (c : Chip) : (hslReset c).hsl.latch = c.hsl.latch := by simp [hslReset]
@[simp] theorem hslReset_backup (c : Chip) :
    (hslReset c).backup = { c.backup with resetAt := if c.hsl.trump.isSome then c.backup.ms else c.backup.resetAt } := by
  simp [hslReset]
@[simp] theorem hslReset_hsl_trump (c : Chip) : (hslReset c).hsl.trump = none := by simp [hslReset]

/-! ### Gates, grants and brake lines after the reset -/

theorem grant_withdrawAll {n : Nat} (h : n < 16) (c : Chip) : (hslBay n (withdrawAll c)).grant = false := by
  have hk : ∀ (l : List Nat) (c : Chip), (hslBay n c).grant = false →
      (hslBay n (l.foldl (fun c n => gateOff n c) c)).grant = false := by
    intro l
    induction l with
    | nil => exact fun c h => h
    | cons k l ih => exact fun c h => ih _ (grant_gateOff_of_off c h)
  have : ∀ (l : List Nat) (c : Chip), n ∈ l → (hslBay n (l.foldl (fun c n => gateOff n c) c)).grant = false := by
    intro l
    induction l with
    | nil => intro c hj; cases hj
    | cons k l ih =>
      intro c hj
      by_cases hm : n ∈ l
      · exact ih _ hm
      · have e : n = k := (List.mem_cons.mp hj).resolve_right hm
        subst e
        exact hk l _ (hslBay_gateOff_same h c).2.1
  exact this _ c (List.mem_range.mpr h)

theorem bayToReset_gate (j n : Nat) (c : Chip) :
    (hslBay j (bayToReset c n)).gate = (hslBay j c).gate ∧ (hslBay j (bayToReset c n)).grant = (hslBay j c).grant := by
  have e : hslBay j (bayToReset c n) = hslBay j (hslBayPut n { hslBay n c with
      mode := 0, duty := 0, cmdMode := 0, cmdDuty := 0, rec_ := 0, raw := 0, rawN := 0 } c) := rfl
  rw [e]
  by_cases h : j = n
  · subst h
    by_cases hn : j < 16
    · rw [hslBay_put_same hn]; exact ⟨rfl, rfl⟩
    · simp [hslBay, hn]
  · rw [hslBay_put_ne h]; exact ⟨rfl, rfl⟩

theorem baysHslReset_gate {n : Nat} (h : n < 16) (c : Chip) :
    (hslBay n (baysHslReset c)).gate = false ∧ (hslBay n (baysHslReset c)).grant = false := by
  rw [baysHslReset_eq]
  constructor
  · rw [foldl_keeps (fun c => (hslBay n c).gate) _ (fun c k => (bayToReset_gate n k c).1)]; exact gate_withdrawAll h c
  · rw [foldl_keeps (fun c => (hslBay n c).grant) _ (fun c k => (bayToReset_gate n k c).2)]; exact grant_withdrawAll h c

theorem hslBay_congr {c d : Chip} (h : d.hsl.bays = c.hsl.bays) (n : Nat) : hslBay n d = hslBay n c := by
  simp only [hslBay, h]

theorem discardCommits_hsl (c : Chip) : (discardCommits c).hsl = c.hsl :=
  foldl_keeps (·.hsl) _ (fun c n => by simp) _ c

theorem safetyReset_hsl (c : Chip) : (safetyReset c).hsl =
    { c.hsl with brake := Vector.replicate 16 false, safe := Vector.replicate 16 false } := by
  simp only [safetyReset, hsl_lswAll]

theorem hslReset_hsl (c : Chip) : (hslReset c).hsl = { (baysHslReset (resetStamp c)).hsl with
    trump := none, brake := Vector.replicate 16 false, safe := Vector.replicate 16 false } := by
  have h : (discardCommits (lswReset (safetyReset (baysHslReset (resetStamp c))))).hsl = { (baysHslReset (resetStamp c)).hsl with
      brake := Vector.replicate 16 false, safe := Vector.replicate 16 false } := by
    rw [discardCommits_hsl, ← safetyReset_hsl]; simp only [lswReset]
  simp only [hslReset, setF_hsl, h]

/-- R48: the HSL's reset state has no gate, no grant and no brake line. -/
theorem hslReset_gate {n : Nat} (h : n < 16) (c : Chip) :
    (hslBay n (hslReset c)).gate = false ∧ (hslBay n (hslReset c)).grant = false := by
  rw [hslBay_congr (c := baysHslReset (resetStamp c)) (by rw [hslReset_hsl])]
  exact baysHslReset_gate h _

theorem hslReset_brake (c : Chip) (n : Nat) : (hslReset c).hsl.brake[n]?.getD false = false := by
  rw [hslReset_hsl]
  by_cases h : n < 16 <;> simp [h]

/-! ### The logic die -/

theorem logicReset_phase (k : Nat) (c : Chip) : (logicReset k c).pwr.phase = .held := rfl
theorem tagLogicReset_frame (c : Chip) : ∃ m t, tagLogicReset c = { c with regs := m, tag := t } := by
  simp only [tagLogicReset, tagWriteEnd, tagPagePut]
  split
  · exact ⟨_, _, rfl⟩
  · split <;> exact ⟨_, _, rfl⟩

theorem logicReset_cause (k : Nat) (c : Chip) : (logicReset k c).pwr.firstCause =
    (if c.pwr.phase = .held then c.pwr.firstCause else c.pwr.firstCause <|> some k) := by
  obtain ⟨m, t, e⟩ := tagLogicReset_frame c; simp only [logicReset, e]

@[simp] theorem logicReset_bregs (k : Nat) (c : Chip) : (logicReset k c).bregs = c.bregs := by
  obtain ⟨m, t, e⟩ := tagLogicReset_frame c; simp only [logicReset, e]
@[simp] theorem logicReset_fregs (k : Nat) (c : Chip) : (logicReset k c).fregs = c.fregs := by
  obtain ⟨m, t, e⟩ := tagLogicReset_frame c; simp only [logicReset, e]
@[simp] theorem logicReset_reply (k : Nat) (c : Chip) : (logicReset k c).reply = c.reply := by
  obtain ⟨m, t, e⟩ := tagLogicReset_frame c; simp only [logicReset, e]
@[simp] theorem logicReset_backup (k : Nat) (c : Chip) : (logicReset k c).backup = c.backup := by
  obtain ⟨m, t, e⟩ := tagLogicReset_frame c; simp only [logicReset, e]
@[simp] theorem logicReset_emmc (k : Nat) (c : Chip) : (logicReset k c).emmc = c.emmc := by
  obtain ⟨m, t, e⟩ := tagLogicReset_frame c; simp only [logicReset, e]
@[simp] theorem logicReset_hsl (k : Nat) (c : Chip) : (logicReset k c).hsl = c.hsl := by
  obtain ⟨m, t, e⟩ := tagLogicReset_frame c; simp only [logicReset, e]
@[simp] theorem logicReset_lsw (k : Nat) (c : Chip) : (logicReset k c).lsw = c.lsw := by
  obtain ⟨m, t, e⟩ := tagLogicReset_frame c; simp only [logicReset, e]
@[simp] theorem logicReset_saf (k : Nat) (c : Chip) : (logicReset k c).saf = c.saf := by
  obtain ⟨m, t, e⟩ := tagLogicReset_frame c; simp only [logicReset, e]
@[simp] theorem logicReset_deck_cards (k : Nat) (c : Chip) : (logicReset k c).deck.cards = [] := by
  obtain ⟨m, t, e⟩ := tagLogicReset_frame c; simp only [logicReset, e]
@[simp] theorem logicReset_hst_decl (k : Nat) (c : Chip) : (logicReset k c).hst.decl = none := by
  obtain ⟨m, t, e⟩ := tagLogicReset_frame c; simp only [logicReset, e]
@[simp] theorem logicReset_store_copies (k : Nat) (c : Chip) : (logicReset k c).store.copies = c.store.copies := by
  obtain ⟨m, t, e⟩ := tagLogicReset_frame c; simp only [logicReset, e]
@[simp] theorem logicReset_store_ring (k : Nat) (c : Chip) : (logicReset k c).store.ring = c.store.ring := by
  obtain ⟨m, t, e⟩ := tagLogicReset_frame c; simp only [logicReset, e]
@[simp] theorem logicReset_upd_hdr (k : Nat) (c : Chip) : (logicReset k c).upd.hdr = c.upd.hdr := by
  obtain ⟨m, t, e⟩ := tagLogicReset_frame c; simp only [logicReset, e]
@[simp] theorem logicReset_regs (k : Nat) (c : Chip) : (logicReset k c).regs = [] := by
  obtain ⟨m, t, e⟩ := tagLogicReset_frame c; simp only [logicReset, e]
@[simp] theorem logicReset_pwr_resetLow (k : Nat) (c : Chip) : (logicReset k c).pwr.resetLow = c.pwr.resetLow := by
  obtain ⟨m, t, e⟩ := tagLogicReset_frame c; simp only [logicReset, e]
@[simp] theorem logicReset_pwr_bclkHold (k : Nat) (c : Chip) : (logicReset k c).pwr.bclkHold = c.pwr.bclkHold := by
  obtain ⟨m, t, e⟩ := tagLogicReset_frame c; simp only [logicReset, e]
@[simp] theorem logicReset_pwr_pllLost (k : Nat) (c : Chip) : (logicReset k c).pwr.pllLost = c.pwr.pllLost := by
  obtain ⟨m, t, e⟩ := tagLogicReset_frame c; simp only [logicReset, e]
@[simp] theorem logicReset_pwr_hold (k : Nat) (c : Chip) : (logicReset k c).pwr.hold = c.pwr.hold := by
  obtain ⟨m, t, e⟩ := tagLogicReset_frame c; simp only [logicReset, e]
@[simp] theorem logicReset_pwr_off (k : Nat) (c : Chip) : (logicReset k c).pwr.off = c.pwr.off := by
  obtain ⟨m, t, e⟩ := tagLogicReset_frame c; simp only [logicReset, e]
@[simp] theorem logicReset_pwr_vpd5 (k : Nat) (c : Chip) : (logicReset k c).pwr.vpd5 = c.pwr.vpd5 := by
  obtain ⟨m, t, e⟩ := tagLogicReset_frame c; simp only [logicReset, e]
@[simp] theorem logicReset_pwr_vp12 (k : Nat) (c : Chip) : (logicReset k c).pwr.vp12 = c.pwr.vp12 := by
  obtain ⟨m, t, e⟩ := tagLogicReset_frame c; simp only [logicReset, e]
@[simp] theorem logicReset_pwr_pfLow (k : Nat) (c : Chip) : (logicReset k c).pwr.pfLow = c.pwr.pfLow := by
  obtain ⟨m, t, e⟩ := tagLogicReset_frame c; simp only [logicReset, e]
@[simp] theorem logicReset_pwr_vbbOk (k : Nat) (c : Chip) : (logicReset k c).pwr.vbbOk = c.pwr.vbbOk := by
  obtain ⟨m, t, e⟩ := tagLogicReset_frame c; simp only [logicReset, e]

/-- What a release can do: nothing, or the start sequence is due, or it waits for PFWARN_N. -/
theorem release_cases (c : Chip) :
    release c = c ∨ release c = { c with pwr := { c.pwr with phase := .startDue } } ∨
    release c = setF Reg.PWR_PFW_START_WAIT 0 1 { c with pwr := { c.pwr with phase := .startWait } } := by
  unfold release
  split
  · exact .inl rfl
  · split
    · exact .inr (.inr rfl)
    · exact .inr (.inl rfl)

theorem release_eq {β : Type} (g : Chip → β) (c : Chip)
    (h : ∀ p, g { c with pwr := { c.pwr with phase := p } } = g c)
    (h2 : ∀ d : Chip, g (setF Reg.PWR_PFW_START_WAIT 0 1 d) = g d) : g (release c) = g c := by
  rcases release_cases c with e | e | e <;> rw [e]
  · exact h _
  · rw [h2]; exact h _

theorem release_phase (c : Chip) (h : c.pwr.phase = .held) :
    (release c).pwr.phase = .held ∨ (release c).pwr.phase = .startDue ∨ (release c).pwr.phase = .startWait := by
  rcases release_cases c with e | e | e <;> rw [e]
  · exact .inl h
  · exact .inr (.inl rfl)
  · exact .inr (.inr (by simp))

@[simp] theorem release_reply (c : Chip) : (release c).reply = c.reply :=
  release_eq (·.reply) c (fun _ => rfl) fun d => by simp [setF, Chip.withMap, Reg.PWR_PFW_START_WAIT]
@[simp] theorem release_backup (c : Chip) : (release c).backup = c.backup :=
  release_eq (·.backup) c (fun _ => rfl) fun d => by simp [setF, Chip.withMap, Reg.PWR_PFW_START_WAIT]
@[simp] theorem release_emmc (c : Chip) : (release c).emmc = c.emmc :=
  release_eq (·.emmc) c (fun _ => rfl) fun d => by simp [setF, Chip.withMap, Reg.PWR_PFW_START_WAIT]
@[simp] theorem release_hsl (c : Chip) : (release c).hsl = c.hsl :=
  release_eq (·.hsl) c (fun _ => rfl) fun d => by simp [setF, Chip.withMap, Reg.PWR_PFW_START_WAIT]
@[simp] theorem release_lsw (c : Chip) : (release c).lsw = c.lsw :=
  release_eq (·.lsw) c (fun _ => rfl) fun d => by simp [setF, Chip.withMap, Reg.PWR_PFW_START_WAIT]
@[simp] theorem release_saf (c : Chip) : (release c).saf = c.saf :=
  release_eq (·.saf) c (fun _ => rfl) fun d => by simp [setF, Chip.withMap, Reg.PWR_PFW_START_WAIT]
@[simp] theorem release_fregs (c : Chip) : (release c).fregs = c.fregs :=
  release_eq (·.fregs) c (fun _ => rfl) fun d => by simp [setF, Chip.withMap, Reg.PWR_PFW_START_WAIT]
@[simp] theorem release_deck (c : Chip) : (release c).deck = c.deck :=
  release_eq (·.deck) c (fun _ => rfl) fun d => by simp [setF, Chip.withMap, Reg.PWR_PFW_START_WAIT]
@[simp] theorem release_hst (c : Chip) : (release c).hst = c.hst :=
  release_eq (·.hst) c (fun _ => rfl) fun d => by simp [setF, Chip.withMap, Reg.PWR_PFW_START_WAIT]
@[simp] theorem release_store (c : Chip) : (release c).store = c.store :=
  release_eq (·.store) c (fun _ => rfl) fun d => by simp [setF, Chip.withMap, Reg.PWR_PFW_START_WAIT]
@[simp] theorem release_upd (c : Chip) : (release c).upd = c.upd :=
  release_eq (·.upd) c (fun _ => rfl) fun d => by simp [setF, Chip.withMap, Reg.PWR_PFW_START_WAIT]
@[simp] theorem release_bridge (c : Chip) : (release c).bridge = c.bridge :=
  release_eq (·.bridge) c (fun _ => rfl) fun d => by simp [setF, Chip.withMap, Reg.PWR_PFW_START_WAIT]
@[simp] theorem release_bil (c : Chip) : (release c).bil = c.bil :=
  release_eq (·.bil) c (fun _ => rfl) fun d => by simp [setF, Chip.withMap, Reg.PWR_PFW_START_WAIT]
@[simp] theorem release_pwr_firstCause (c : Chip) : (release c).pwr.firstCause = c.pwr.firstCause :=
  release_eq (·.pwr.firstCause) c (fun _ => rfl) fun d => by simp
@[simp] theorem release_pwr_resetLow (c : Chip) : (release c).pwr.resetLow = c.pwr.resetLow :=
  release_eq (·.pwr.resetLow) c (fun _ => rfl) fun d => by simp
@[simp] theorem release_pwr_bclkHold (c : Chip) : (release c).pwr.bclkHold = c.pwr.bclkHold :=
  release_eq (·.pwr.bclkHold) c (fun _ => rfl) fun d => by simp
@[simp] theorem release_pwr_pllLost (c : Chip) : (release c).pwr.pllLost = c.pwr.pllLost :=
  release_eq (·.pwr.pllLost) c (fun _ => rfl) fun d => by simp
@[simp] theorem release_pwr_hold (c : Chip) : (release c).pwr.hold = c.pwr.hold :=
  release_eq (·.pwr.hold) c (fun _ => rfl) fun d => by simp
@[simp] theorem release_pwr_off (c : Chip) : (release c).pwr.off = c.pwr.off :=
  release_eq (·.pwr.off) c (fun _ => rfl) fun d => by simp
@[simp] theorem release_pwr_vpd5 (c : Chip) : (release c).pwr.vpd5 = c.pwr.vpd5 :=
  release_eq (·.pwr.vpd5) c (fun _ => rfl) fun d => by simp
@[simp] theorem release_pwr_vp12 (c : Chip) : (release c).pwr.vp12 = c.pwr.vp12 :=
  release_eq (·.pwr.vp12) c (fun _ => rfl) fun d => by simp
@[simp] theorem release_pwr_pfLow (c : Chip) : (release c).pwr.pfLow = c.pwr.pfLow :=
  release_eq (·.pwr.pfLow) c (fun _ => rfl) fun d => by simp
@[simp] theorem release_pwr_vbbOk (c : Chip) : (release c).pwr.vbbOk = c.pwr.vbbOk :=
  release_eq (·.pwr.vbbOk) c (fun _ => rfl) fun d => by simp

end Sys2Proof.Machine
end

