-- ==== Sys2Proof/Laws/Events.lean ====
section
/-!
SUPPORT. What an event record leaves as it was: everything but registers and the host's ring and sessions.
-/

namespace Sys2Proof.Machine
open Sys2Proof Sys2Proof.Safety

@[simp] theorem pushEvents_fregs (s : Nat) (c : Chip) : ((pushEvents s c).1).fregs = c.fregs := by
  unfold pushEvents; dsimp only; split <;> rfl
@[simp] theorem pushEvents_snap (s : Nat) (c : Chip) : ((pushEvents s c).1).snap = c.snap := by
  unfold pushEvents; dsimp only; split <;> rfl
@[simp] theorem pushEvents_reply (s : Nat) (c : Chip) : ((pushEvents s c).1).reply = c.reply := by
  unfold pushEvents; dsimp only; split <;> rfl
@[simp] theorem pushEvents_pwr (s : Nat) (c : Chip) : ((pushEvents s c).1).pwr = c.pwr := by
  unfold pushEvents; dsimp only; split <;> rfl
@[simp] theorem pushEvents_bridge (s : Nat) (c : Chip) : ((pushEvents s c).1).bridge = c.bridge := by
  unfold pushEvents; dsimp only; split <;> rfl
@[simp] theorem pushEvents_backup (s : Nat) (c : Chip) : ((pushEvents s c).1).backup = c.backup := by
  unfold pushEvents; dsimp only; split <;> rfl
@[simp] theorem pushEvents_dlr (s : Nat) (c : Chip) : ((pushEvents s c).1).dlr = c.dlr := by
  unfold pushEvents; dsimp only; split <;> rfl
@[simp] theorem pushEvents_sns (s : Nat) (c : Chip) : ((pushEvents s c).1).sns = c.sns := by
  unfold pushEvents; dsimp only; split <;> rfl
@[simp] theorem pushEvents_mtr (s : Nat) (c : Chip) : ((pushEvents s c).1).mtr = c.mtr := by
  unfold pushEvents; dsimp only; split <;> rfl
@[simp] theorem pushEvents_bil (s : Nat) (c : Chip) : ((pushEvents s c).1).bil = c.bil := by
  unfold pushEvents; dsimp only; split <;> rfl
@[simp] theorem pushEvents_store (s : Nat) (c : Chip) : ((pushEvents s c).1).store = c.store := by
  unfold pushEvents; dsimp only; split <;> rfl
@[simp] theorem pushEvents_legal (s : Nat) (c : Chip) : ((pushEvents s c).1).legal = c.legal := by
  unfold pushEvents; dsimp only; split <;> rfl
@[simp] theorem pushEvents_hsl (s : Nat) (c : Chip) : ((pushEvents s c).1).hsl = c.hsl := by
  unfold pushEvents; dsimp only; split <;> rfl
@[simp] theorem pushEvents_prt (s : Nat) (c : Chip) : ((pushEvents s c).1).prt = c.prt := by
  unfold pushEvents; dsimp only; split <;> rfl
@[simp] theorem pushEvents_bay (s : Nat) (c : Chip) : ((pushEvents s c).1).bay = c.bay := by
  unfold pushEvents; dsimp only; split <;> rfl
@[simp] theorem pushEvents_canOff (s : Nat) (c : Chip) : ((pushEvents s c).1).canOff = c.canOff := by
  unfold pushEvents; dsimp only; split <;> rfl
@[simp] theorem pushEvents_lnk (s : Nat) (c : Chip) : ((pushEvents s c).1).lnk = c.lnk := by
  unfold pushEvents; dsimp only; split <;> rfl
@[simp] theorem pushEvents_lsw (s : Nat) (c : Chip) : ((pushEvents s c).1).lsw = c.lsw := by
  unfold pushEvents; dsimp only; split <;> rfl
@[simp] theorem pushEvents_saf (s : Nat) (c : Chip) : ((pushEvents s c).1).saf = c.saf := by
  unfold pushEvents; dsimp only; split <;> rfl
@[simp] theorem pushEvents_deck (s : Nat) (c : Chip) : ((pushEvents s c).1).deck = c.deck := by
  unfold pushEvents; dsimp only; split <;> rfl
@[simp] theorem pushEvents_upd (s : Nat) (c : Chip) : ((pushEvents s c).1).upd = c.upd := by
  unfold pushEvents; dsimp only; split <;> rfl
@[simp] theorem pushEvents_emmc (s : Nat) (c : Chip) : ((pushEvents s c).1).emmc = c.emmc := by
  unfold pushEvents; dsimp only; split <;> rfl
@[simp] theorem pushEvents_sec (s : Nat) (c : Chip) : ((pushEvents s c).1).sec = c.sec := by
  unfold pushEvents; dsimp only; split <;> rfl
@[simp] theorem pushEvents_nfc (s : Nat) (c : Chip) : ((pushEvents s c).1).nfc = c.nfc := by
  unfold pushEvents; dsimp only; split <;> rfl
@[simp] theorem pushEvents_tag (s : Nat) (c : Chip) : ((pushEvents s c).1).tag = c.tag := by
  unfold pushEvents; dsimp only; split <;> rfl
@[simp] theorem pushEvents_mem (s : Nat) (c : Chip) : ((pushEvents s c).1).mem = c.mem := by
  unfold pushEvents; dsimp only; split <;> rfl
@[simp] theorem pushEvents_dsp (s : Nat) (c : Chip) : ((pushEvents s c).1).dsp = c.dsp := by
  unfold pushEvents; dsimp only; split <;> rfl
@[simp] theorem pushEvents_glass (s : Nat) (c : Chip) : ((pushEvents s c).1).glass = c.glass := by
  unfold pushEvents; dsimp only; split <;> rfl

@[simp] theorem pushAll_fregs (c : Chip) : (pushAll c).fregs = c.fregs := by
  unfold pushAll
  refine foldl_keeps (·.fregs) _ (fun c s => ?_) _ c
  dsimp only; split
  · simp [flagF, flagBit, addSat, setBitF, setF_fregs, Reg.HST_STAT_EVT_LOST, Reg.HST_STAT_EVT_CNT]
  · simp
@[simp] theorem pushAll_snap (c : Chip) : (pushAll c).snap = c.snap := by
  unfold pushAll
  refine foldl_keeps (·.snap) _ (fun c s => ?_) _ c
  dsimp only; split
  · simp
  · simp
@[simp] theorem pushAll_reply (c : Chip) : (pushAll c).reply = c.reply := by
  unfold pushAll
  refine foldl_keeps (·.reply) _ (fun c s => ?_) _ c
  dsimp only; split
  · simp
  · simp
@[simp] theorem pushAll_pwr (c : Chip) : (pushAll c).pwr = c.pwr := by
  unfold pushAll
  refine foldl_keeps (·.pwr) _ (fun c s => ?_) _ c
  dsimp only; split
  · simp
  · simp
@[simp] theorem pushAll_bridge (c : Chip) : (pushAll c).bridge = c.bridge := by
  unfold pushAll
  refine foldl_keeps (·.bridge) _ (fun c s => ?_) _ c
  dsimp only; split
  · simp
  · simp
@[simp] theorem pushAll_backup (c : Chip) : (pushAll c).backup = c.backup := by
  unfold pushAll
  refine foldl_keeps (·.backup) _ (fun c s => ?_) _ c
  dsimp only; split
  · simp
  · simp
@[simp] theorem pushAll_dlr (c : Chip) : (pushAll c).dlr = c.dlr := by
  unfold pushAll
  refine foldl_keeps (·.dlr) _ (fun c s => ?_) _ c
  dsimp only; split
  · simp
  · simp
@[simp] theorem pushAll_sns (c : Chip) : (pushAll c).sns = c.sns := by
  unfold pushAll
  refine foldl_keeps (·.sns) _ (fun c s => ?_) _ c
  dsimp only; split
  · simp
  · simp
@[simp] theorem pushAll_mtr (c : Chip) : (pushAll c).mtr = c.mtr := by
  unfold pushAll
  refine foldl_keeps (·.mtr) _ (fun c s => ?_) _ c
  dsimp only; split
  · simp
  · simp
@[simp] theorem pushAll_bil (c : Chip) : (pushAll c).bil = c.bil := by
  unfold pushAll
  refine foldl_keeps (·.bil) _ (fun c s => ?_) _ c
  dsimp only; split
  · simp
  · simp
@[simp] theorem pushAll_store (c : Chip) : (pushAll c).store = c.store := by
  unfold pushAll
  refine foldl_keeps (·.store) _ (fun c s => ?_) _ c
  dsimp only; split
  · simp
  · simp
@[simp] theorem pushAll_legal (c : Chip) : (pushAll c).legal = c.legal := by
  unfold pushAll
  refine foldl_keeps (·.legal) _ (fun c s => ?_) _ c
  dsimp only; split
  · simp
  · simp
@[simp] theorem pushAll_hsl (c : Chip) : (pushAll c).hsl = c.hsl := by
  unfold pushAll
  refine foldl_keeps (·.hsl) _ (fun c s => ?_) _ c
  dsimp only; split
  · simp
  · simp
@[simp] theorem pushAll_prt (c : Chip) : (pushAll c).prt = c.prt := by
  unfold pushAll
  refine foldl_keeps (·.prt) _ (fun c s => ?_) _ c
  dsimp only; split
  · simp
  · simp
@[simp] theorem pushAll_bay (c : Chip) : (pushAll c).bay = c.bay := by
  unfold pushAll
  refine foldl_keeps (·.bay) _ (fun c s => ?_) _ c
  dsimp only; split
  · simp
  · simp
@[simp] theorem pushAll_canOff (c : Chip) : (pushAll c).canOff = c.canOff := by
  unfold pushAll
  refine foldl_keeps (·.canOff) _ (fun c s => ?_) _ c
  dsimp only; split
  · simp
  · simp
@[simp] theorem pushAll_lnk (c : Chip) : (pushAll c).lnk = c.lnk := by
  unfold pushAll
  refine foldl_keeps (·.lnk) _ (fun c s => ?_) _ c
  dsimp only; split
  · simp
  · simp
@[simp] theorem pushAll_lsw (c : Chip) : (pushAll c).lsw = c.lsw := by
  unfold pushAll
  refine foldl_keeps (·.lsw) _ (fun c s => ?_) _ c
  dsimp only; split
  · simp
  · simp
@[simp] theorem pushAll_saf (c : Chip) : (pushAll c).saf = c.saf := by
  unfold pushAll
  refine foldl_keeps (·.saf) _ (fun c s => ?_) _ c
  dsimp only; split
  · simp
  · simp
@[simp] theorem pushAll_deck (c : Chip) : (pushAll c).deck = c.deck := by
  unfold pushAll
  refine foldl_keeps (·.deck) _ (fun c s => ?_) _ c
  dsimp only; split
  · simp
  · simp
@[simp] theorem pushAll_upd (c : Chip) : (pushAll c).upd = c.upd := by
  unfold pushAll
  refine foldl_keeps (·.upd) _ (fun c s => ?_) _ c
  dsimp only; split
  · simp
  · simp
@[simp] theorem pushAll_emmc (c : Chip) : (pushAll c).emmc = c.emmc := by
  unfold pushAll
  refine foldl_keeps (·.emmc) _ (fun c s => ?_) _ c
  dsimp only; split
  · simp
  · simp
@[simp] theorem pushAll_sec (c : Chip) : (pushAll c).sec = c.sec := by
  unfold pushAll
  refine foldl_keeps (·.sec) _ (fun c s => ?_) _ c
  dsimp only; split
  · simp
  · simp
@[simp] theorem pushAll_nfc (c : Chip) : (pushAll c).nfc = c.nfc := by
  unfold pushAll
  refine foldl_keeps (·.nfc) _ (fun c s => ?_) _ c
  dsimp only; split
  · simp
  · simp
@[simp] theorem pushAll_tag (c : Chip) : (pushAll c).tag = c.tag := by
  unfold pushAll
  refine foldl_keeps (·.tag) _ (fun c s => ?_) _ c
  dsimp only; split
  · simp
  · simp
@[simp] theorem pushAll_mem (c : Chip) : (pushAll c).mem = c.mem := by
  unfold pushAll
  refine foldl_keeps (·.mem) _ (fun c s => ?_) _ c
  dsimp only; split
  · simp
  · simp
@[simp] theorem pushAll_dsp (c : Chip) : (pushAll c).dsp = c.dsp := by
  unfold pushAll
  refine foldl_keeps (·.dsp) _ (fun c s => ?_) _ c
  dsimp only; split
  · simp
  · simp
@[simp] theorem pushAll_glass (c : Chip) : (pushAll c).glass = c.glass := by
  unfold pushAll
  refine foldl_keeps (·.glass) _ (fun c s => ?_) _ c
  dsimp only; split
  · simp
  · simp

@[simp] theorem eventRec_fregs (b r k i : Nat) (x : List Nat) (c : Chip) : (eventRec b r k i x c).fregs = c.fregs := by simp [eventRec, setF_fregs, Reg.HST_EVTSEQ_SEQ]
@[simp] theorem eventRec_snap (b r k i : Nat) (x : List Nat) (c : Chip) : (eventRec b r k i x c).snap = c.snap := by simp [eventRec]
@[simp] theorem eventRec_reply (b r k i : Nat) (x : List Nat) (c : Chip) : (eventRec b r k i x c).reply = c.reply := by simp [eventRec]
@[simp] theorem eventRec_pwr (b r k i : Nat) (x : List Nat) (c : Chip) : (eventRec b r k i x c).pwr = c.pwr := by simp [eventRec]
@[simp] theorem eventRec_bridge (b r k i : Nat) (x : List Nat) (c : Chip) : (eventRec b r k i x c).bridge = c.bridge := by simp [eventRec]
@[simp] theorem eventRec_backup (b r k i : Nat) (x : List Nat) (c : Chip) : (eventRec b r k i x c).backup = c.backup := by simp [eventRec]
@[simp] theorem eventRec_dlr (b r k i : Nat) (x : List Nat) (c : Chip) : (eventRec b r k i x c).dlr = c.dlr := by simp [eventRec]
@[simp] theorem eventRec_sns (b r k i : Nat) (x : List Nat) (c : Chip) : (eventRec b r k i x c).sns = c.sns := by simp [eventRec]
@[simp] theorem eventRec_mtr (b r k i : Nat) (x : List Nat) (c : Chip) : (eventRec b r k i x c).mtr = c.mtr := by simp [eventRec]
@[simp] theorem eventRec_bil (b r k i : Nat) (x : List Nat) (c : Chip) : (eventRec b r k i x c).bil = c.bil := by simp [eventRec]
@[simp] theorem eventRec_store (b r k i : Nat) (x : List Nat) (c : Chip) : (eventRec b r k i x c).store = c.store := by simp [eventRec]
@[simp] theorem eventRec_legal (b r k i : Nat) (x : List Nat) (c : Chip) : (eventRec b r k i x c).legal = c.legal := by simp [eventRec]
@[simp] theorem eventRec_hsl (b r k i : Nat) (x : List Nat) (c : Chip) : (eventRec b r k i x c).hsl = c.hsl := by simp [eventRec]
@[simp] theorem eventRec_prt (b r k i : Nat) (x : List Nat) (c : Chip) : (eventRec b r k i x c).prt = c.prt := by simp [eventRec]
@[simp] theorem eventRec_bay (b r k i : Nat) (x : List Nat) (c : Chip) : (eventRec b r k i x c).bay = c.bay := by simp [eventRec]
@[simp] theorem eventRec_canOff (b r k i : Nat) (x : List Nat) (c : Chip) : (eventRec b r k i x c).canOff = c.canOff := by simp [eventRec]
@[simp] theorem eventRec_lnk (b r k i : Nat) (x : List Nat) (c : Chip) : (eventRec b r k i x c).lnk = c.lnk := by simp [eventRec]
@[simp] theorem eventRec_lsw (b r k i : Nat) (x : List Nat) (c : Chip) : (eventRec b r k i x c).lsw = c.lsw := by simp [eventRec]
@[simp] theorem eventRec_saf (b r k i : Nat) (x : List Nat) (c : Chip) : (eventRec b r k i x c).saf = c.saf := by simp [eventRec]
@[simp] theorem eventRec_deck (b r k i : Nat) (x : List Nat) (c : Chip) : (eventRec b r k i x c).deck = c.deck := by simp [eventRec]
@[simp] theorem eventRec_upd (b r k i : Nat) (x : List Nat) (c : Chip) : (eventRec b r k i x c).upd = c.upd := by simp [eventRec]
@[simp] theorem eventRec_emmc (b r k i : Nat) (x : List Nat) (c : Chip) : (eventRec b r k i x c).emmc = c.emmc := by simp [eventRec]
@[simp] theorem eventRec_sec (b r k i : Nat) (x : List Nat) (c : Chip) : (eventRec b r k i x c).sec = c.sec := by simp [eventRec]
@[simp] theorem eventRec_nfc (b r k i : Nat) (x : List Nat) (c : Chip) : (eventRec b r k i x c).nfc = c.nfc := by simp [eventRec]
@[simp] theorem eventRec_tag (b r k i : Nat) (x : List Nat) (c : Chip) : (eventRec b r k i x c).tag = c.tag := by simp [eventRec]
@[simp] theorem eventRec_mem (b r k i : Nat) (x : List Nat) (c : Chip) : (eventRec b r k i x c).mem = c.mem := by simp [eventRec]
@[simp] theorem eventRec_dsp (b r k i : Nat) (x : List Nat) (c : Chip) : (eventRec b r k i x c).dsp = c.dsp := by simp [eventRec]
@[simp] theorem eventRec_glass (b r k i : Nat) (x : List Nat) (c : Chip) : (eventRec b r k i x c).glass = c.glass := by simp [eventRec]

@[simp] theorem eventBit_fregs (f : Fld) (i k n : Nat) (x : List Nat) (c : Chip) : (eventBit f i k n x c).fregs = c.fregs := by simp [eventBit]
@[simp] theorem eventBit_snap (f : Fld) (i k n : Nat) (x : List Nat) (c : Chip) : (eventBit f i k n x c).snap = c.snap := by simp [eventBit]
@[simp] theorem eventBit_reply (f : Fld) (i k n : Nat) (x : List Nat) (c : Chip) : (eventBit f i k n x c).reply = c.reply := by simp [eventBit]
@[simp] theorem eventBit_pwr (f : Fld) (i k n : Nat) (x : List Nat) (c : Chip) : (eventBit f i k n x c).pwr = c.pwr := by simp [eventBit]
@[simp] theorem eventBit_bridge (f : Fld) (i k n : Nat) (x : List Nat) (c : Chip) : (eventBit f i k n x c).bridge = c.bridge := by simp [eventBit]
@[simp] theorem eventBit_backup (f : Fld) (i k n : Nat) (x : List Nat) (c : Chip) : (eventBit f i k n x c).backup = c.backup := by simp [eventBit]
@[simp] theorem eventBit_dlr (f : Fld) (i k n : Nat) (x : List Nat) (c : Chip) : (eventBit f i k n x c).dlr = c.dlr := by simp [eventBit]
@[simp] theorem eventBit_sns (f : Fld) (i k n : Nat) (x : List Nat) (c : Chip) : (eventBit f i k n x c).sns = c.sns := by simp [eventBit]
@[simp] theorem eventBit_mtr (f : Fld) (i k n : Nat) (x : List Nat) (c : Chip) : (eventBit f i k n x c).mtr = c.mtr := by simp [eventBit]
@[simp] theorem eventBit_bil (f : Fld) (i k n : Nat) (x : List Nat) (c : Chip) : (eventBit f i k n x c).bil = c.bil := by simp [eventBit]
@[simp] theorem eventBit_store (f : Fld) (i k n : Nat) (x : List Nat) (c : Chip) : (eventBit f i k n x c).store = c.store := by simp [eventBit]
@[simp] theorem eventBit_legal (f : Fld) (i k n : Nat) (x : List Nat) (c : Chip) : (eventBit f i k n x c).legal = c.legal := by simp [eventBit]
@[simp] theorem eventBit_hsl (f : Fld) (i k n : Nat) (x : List Nat) (c : Chip) : (eventBit f i k n x c).hsl = c.hsl := by simp [eventBit]
@[simp] theorem eventBit_prt (f : Fld) (i k n : Nat) (x : List Nat) (c : Chip) : (eventBit f i k n x c).prt = c.prt := by simp [eventBit]
@[simp] theorem eventBit_bay (f : Fld) (i k n : Nat) (x : List Nat) (c : Chip) : (eventBit f i k n x c).bay = c.bay := by simp [eventBit]
@[simp] theorem eventBit_canOff (f : Fld) (i k n : Nat) (x : List Nat) (c : Chip) : (eventBit f i k n x c).canOff = c.canOff := by simp [eventBit]
@[simp] theorem eventBit_lnk (f : Fld) (i k n : Nat) (x : List Nat) (c : Chip) : (eventBit f i k n x c).lnk = c.lnk := by simp [eventBit]
@[simp] theorem eventBit_lsw (f : Fld) (i k n : Nat) (x : List Nat) (c : Chip) : (eventBit f i k n x c).lsw = c.lsw := by simp [eventBit]
@[simp] theorem eventBit_saf (f : Fld) (i k n : Nat) (x : List Nat) (c : Chip) : (eventBit f i k n x c).saf = c.saf := by simp [eventBit]
@[simp] theorem eventBit_deck (f : Fld) (i k n : Nat) (x : List Nat) (c : Chip) : (eventBit f i k n x c).deck = c.deck := by simp [eventBit]
@[simp] theorem eventBit_upd (f : Fld) (i k n : Nat) (x : List Nat) (c : Chip) : (eventBit f i k n x c).upd = c.upd := by simp [eventBit]
@[simp] theorem eventBit_emmc (f : Fld) (i k n : Nat) (x : List Nat) (c : Chip) : (eventBit f i k n x c).emmc = c.emmc := by simp [eventBit]
@[simp] theorem eventBit_sec (f : Fld) (i k n : Nat) (x : List Nat) (c : Chip) : (eventBit f i k n x c).sec = c.sec := by simp [eventBit]
@[simp] theorem eventBit_nfc (f : Fld) (i k n : Nat) (x : List Nat) (c : Chip) : (eventBit f i k n x c).nfc = c.nfc := by simp [eventBit]
@[simp] theorem eventBit_tag (f : Fld) (i k n : Nat) (x : List Nat) (c : Chip) : (eventBit f i k n x c).tag = c.tag := by simp [eventBit]
@[simp] theorem eventBit_mem (f : Fld) (i k n : Nat) (x : List Nat) (c : Chip) : (eventBit f i k n x c).mem = c.mem := by simp [eventBit]
@[simp] theorem eventBit_dsp (f : Fld) (i k n : Nat) (x : List Nat) (c : Chip) : (eventBit f i k n x c).dsp = c.dsp := by simp [eventBit]
@[simp] theorem eventBit_glass (f : Fld) (i k n : Nat) (x : List Nat) (c : Chip) : (eventBit f i k n x c).glass = c.glass := by simp [eventBit]

@[simp] theorem eventF_fregs (f : Fld) (i n : Nat) (x : List Nat) (c : Chip) : (eventF f i n x c).fregs = c.fregs := by simp [eventF]
@[simp] theorem eventF_snap (f : Fld) (i n : Nat) (x : List Nat) (c : Chip) : (eventF f i n x c).snap = c.snap := by simp [eventF]
@[simp] theorem eventF_reply (f : Fld) (i n : Nat) (x : List Nat) (c : Chip) : (eventF f i n x c).reply = c.reply := by simp [eventF]
@[simp] theorem eventF_pwr (f : Fld) (i n : Nat) (x : List Nat) (c : Chip) : (eventF f i n x c).pwr = c.pwr := by simp [eventF]
@[simp] theorem eventF_bridge (f : Fld) (i n : Nat) (x : List Nat) (c : Chip) : (eventF f i n x c).bridge = c.bridge := by simp [eventF]
@[simp] theorem eventF_backup (f : Fld) (i n : Nat) (x : List Nat) (c : Chip) : (eventF f i n x c).backup = c.backup := by simp [eventF]
@[simp] theorem eventF_dlr (f : Fld) (i n : Nat) (x : List Nat) (c : Chip) : (eventF f i n x c).dlr = c.dlr := by simp [eventF]
@[simp] theorem eventF_sns (f : Fld) (i n : Nat) (x : List Nat) (c : Chip) : (eventF f i n x c).sns = c.sns := by simp [eventF]
@[simp] theorem eventF_mtr (f : Fld) (i n : Nat) (x : List Nat) (c : Chip) : (eventF f i n x c).mtr = c.mtr := by simp [eventF]
@[simp] theorem eventF_bil (f : Fld) (i n : Nat) (x : List Nat) (c : Chip) : (eventF f i n x c).bil = c.bil := by simp [eventF]
@[simp] theorem eventF_store (f : Fld) (i n : Nat) (x : List Nat) (c : Chip) : (eventF f i n x c).store = c.store := by simp [eventF]
@[simp] theorem eventF_legal (f : Fld) (i n : Nat) (x : List Nat) (c : Chip) : (eventF f i n x c).legal = c.legal := by simp [eventF]
@[simp] theorem eventF_hsl (f : Fld) (i n : Nat) (x : List Nat) (c : Chip) : (eventF f i n x c).hsl = c.hsl := by simp [eventF]
@[simp] theorem eventF_prt (f : Fld) (i n : Nat) (x : List Nat) (c : Chip) : (eventF f i n x c).prt = c.prt := by simp [eventF]
@[simp] theorem eventF_bay (f : Fld) (i n : Nat) (x : List Nat) (c : Chip) : (eventF f i n x c).bay = c.bay := by simp [eventF]
@[simp] theorem eventF_canOff (f : Fld) (i n : Nat) (x : List Nat) (c : Chip) : (eventF f i n x c).canOff = c.canOff := by simp [eventF]
@[simp] theorem eventF_lnk (f : Fld) (i n : Nat) (x : List Nat) (c : Chip) : (eventF f i n x c).lnk = c.lnk := by simp [eventF]
@[simp] theorem eventF_lsw (f : Fld) (i n : Nat) (x : List Nat) (c : Chip) : (eventF f i n x c).lsw = c.lsw := by simp [eventF]
@[simp] theorem eventF_saf (f : Fld) (i n : Nat) (x : List Nat) (c : Chip) : (eventF f i n x c).saf = c.saf := by simp [eventF]
@[simp] theorem eventF_deck (f : Fld) (i n : Nat) (x : List Nat) (c : Chip) : (eventF f i n x c).deck = c.deck := by simp [eventF]
@[simp] theorem eventF_upd (f : Fld) (i n : Nat) (x : List Nat) (c : Chip) : (eventF f i n x c).upd = c.upd := by simp [eventF]
@[simp] theorem eventF_emmc (f : Fld) (i n : Nat) (x : List Nat) (c : Chip) : (eventF f i n x c).emmc = c.emmc := by simp [eventF]
@[simp] theorem eventF_sec (f : Fld) (i n : Nat) (x : List Nat) (c : Chip) : (eventF f i n x c).sec = c.sec := by simp [eventF]
@[simp] theorem eventF_nfc (f : Fld) (i n : Nat) (x : List Nat) (c : Chip) : (eventF f i n x c).nfc = c.nfc := by simp [eventF]
@[simp] theorem eventF_tag (f : Fld) (i n : Nat) (x : List Nat) (c : Chip) : (eventF f i n x c).tag = c.tag := by simp [eventF]
@[simp] theorem eventF_mem (f : Fld) (i n : Nat) (x : List Nat) (c : Chip) : (eventF f i n x c).mem = c.mem := by simp [eventF]
@[simp] theorem eventF_dsp (f : Fld) (i n : Nat) (x : List Nat) (c : Chip) : (eventF f i n x c).dsp = c.dsp := by simp [eventF]
@[simp] theorem eventF_glass (f : Fld) (i n : Nat) (x : List Nat) (c : Chip) : (eventF f i n x c).glass = c.glass := by simp [eventF]

@[simp] theorem flagEvent_snap (f : Fld) (i : Nat) (g : Fld) (j n : Nat) (x : List Nat) (c : Chip) : (flagEvent f i g j n x c).snap = c.snap := by simp [flagEvent]
@[simp] theorem flagEvent_reply (f : Fld) (i : Nat) (g : Fld) (j n : Nat) (x : List Nat) (c : Chip) : (flagEvent f i g j n x c).reply = c.reply := by simp [flagEvent]
@[simp] theorem flagEvent_pwr (f : Fld) (i : Nat) (g : Fld) (j n : Nat) (x : List Nat) (c : Chip) : (flagEvent f i g j n x c).pwr = c.pwr := by simp [flagEvent]
@[simp] theorem flagEvent_bridge (f : Fld) (i : Nat) (g : Fld) (j n : Nat) (x : List Nat) (c : Chip) : (flagEvent f i g j n x c).bridge = c.bridge := by simp [flagEvent]
@[simp] theorem flagEvent_backup (f : Fld) (i : Nat) (g : Fld) (j n : Nat) (x : List Nat) (c : Chip) : (flagEvent f i g j n x c).backup = c.backup := by simp [flagEvent]
@[simp] theorem flagEvent_dlr (f : Fld) (i : Nat) (g : Fld) (j n : Nat) (x : List Nat) (c : Chip) : (flagEvent f i g j n x c).dlr = c.dlr := by simp [flagEvent]
@[simp] theorem flagEvent_sns (f : Fld) (i : Nat) (g : Fld) (j n : Nat) (x : List Nat) (c : Chip) : (flagEvent f i g j n x c).sns = c.sns := by simp [flagEvent]
@[simp] theorem flagEvent_mtr (f : Fld) (i : Nat) (g : Fld) (j n : Nat) (x : List Nat) (c : Chip) : (flagEvent f i g j n x c).mtr = c.mtr := by simp [flagEvent]
@[simp] theorem flagEvent_bil (f : Fld) (i : Nat) (g : Fld) (j n : Nat) (x : List Nat) (c : Chip) : (flagEvent f i g j n x c).bil = c.bil := by simp [flagEvent]
@[simp] theorem flagEvent_store (f : Fld) (i : Nat) (g : Fld) (j n : Nat) (x : List Nat) (c : Chip) : (flagEvent f i g j n x c).store = c.store := by simp [flagEvent]
@[simp] theorem flagEvent_legal (f : Fld) (i : Nat) (g : Fld) (j n : Nat) (x : List Nat) (c : Chip) : (flagEvent f i g j n x c).legal = c.legal := by simp [flagEvent]
@[simp] theorem flagEvent_hsl (f : Fld) (i : Nat) (g : Fld) (j n : Nat) (x : List Nat) (c : Chip) : (flagEvent f i g j n x c).hsl = c.hsl := by simp [flagEvent]
@[simp] theorem flagEvent_prt (f : Fld) (i : Nat) (g : Fld) (j n : Nat) (x : List Nat) (c : Chip) : (flagEvent f i g j n x c).prt = c.prt := by simp [flagEvent]
@[simp] theorem flagEvent_bay (f : Fld) (i : Nat) (g : Fld) (j n : Nat) (x : List Nat) (c : Chip) : (flagEvent f i g j n x c).bay = c.bay := by simp [flagEvent]
@[simp] theorem flagEvent_canOff (f : Fld) (i : Nat) (g : Fld) (j n : Nat) (x : List Nat) (c : Chip) : (flagEvent f i g j n x c).canOff = c.canOff := by simp [flagEvent]
@[simp] theorem flagEvent_lnk (f : Fld) (i : Nat) (g : Fld) (j n : Nat) (x : List Nat) (c : Chip) : (flagEvent f i g j n x c).lnk = c.lnk := by simp [flagEvent]
@[simp] theorem flagEvent_lsw (f : Fld) (i : Nat) (g : Fld) (j n : Nat) (x : List Nat) (c : Chip) : (flagEvent f i g j n x c).lsw = c.lsw := by simp [flagEvent]
@[simp] theorem flagEvent_saf (f : Fld) (i : Nat) (g : Fld) (j n : Nat) (x : List Nat) (c : Chip) : (flagEvent f i g j n x c).saf = c.saf := by simp [flagEvent]
@[simp] theorem flagEvent_deck (f : Fld) (i : Nat) (g : Fld) (j n : Nat) (x : List Nat) (c : Chip) : (flagEvent f i g j n x c).deck = c.deck := by simp [flagEvent]
@[simp] theorem flagEvent_upd (f : Fld) (i : Nat) (g : Fld) (j n : Nat) (x : List Nat) (c : Chip) : (flagEvent f i g j n x c).upd = c.upd := by simp [flagEvent]
@[simp] theorem flagEvent_emmc (f : Fld) (i : Nat) (g : Fld) (j n : Nat) (x : List Nat) (c : Chip) : (flagEvent f i g j n x c).emmc = c.emmc := by simp [flagEvent]
@[simp] theorem flagEvent_sec (f : Fld) (i : Nat) (g : Fld) (j n : Nat) (x : List Nat) (c : Chip) : (flagEvent f i g j n x c).sec = c.sec := by simp [flagEvent]
@[simp] theorem flagEvent_nfc (f : Fld) (i : Nat) (g : Fld) (j n : Nat) (x : List Nat) (c : Chip) : (flagEvent f i g j n x c).nfc = c.nfc := by simp [flagEvent]
@[simp] theorem flagEvent_tag (f : Fld) (i : Nat) (g : Fld) (j n : Nat) (x : List Nat) (c : Chip) : (flagEvent f i g j n x c).tag = c.tag := by simp [flagEvent]
@[simp] theorem flagEvent_mem (f : Fld) (i : Nat) (g : Fld) (j n : Nat) (x : List Nat) (c : Chip) : (flagEvent f i g j n x c).mem = c.mem := by simp [flagEvent]
@[simp] theorem flagEvent_dsp (f : Fld) (i : Nat) (g : Fld) (j n : Nat) (x : List Nat) (c : Chip) : (flagEvent f i g j n x c).dsp = c.dsp := by simp [flagEvent]
@[simp] theorem flagEvent_glass (f : Fld) (i : Nat) (g : Fld) (j n : Nat) (x : List Nat) (c : Chip) : (flagEvent f i g j n x c).glass = c.glass := by simp [flagEvent]

end Sys2Proof.Machine
end

