-- ==== Sys2Proof/Laws/Frame.lean ====
section
/-!
SUPPORT. A payload region of the chain link opens under the key that sealed it (R309, R310): its fields read back, its CRC-32C
passes, and its cipher text decrypts to the body.
-/

namespace Sys2Proof.Machine
open Sys2Proof

/-! ### Bytes -/

/-- Every number is a byte. -/
def IsBytes (p : List Nat) : Prop := ∀ x ∈ p, x < 256

theorem IsBytes.append {p q : List Nat} (h : IsBytes p) (g : IsBytes q) : IsBytes (p ++ q) := fun x hx =>
  (List.mem_append.mp hx).elim (h x) (g x)

theorem isBytes_zeros (n : Nat) : IsBytes (List.replicate n 0) := fun x hx => by
  rw [List.eq_of_mem_replicate hx]
  decide

theorem isBytes_le (n v : Nat) : IsBytes (Byte.le n v) := by
  induction n generalizing v with
  | zero => exact fun x hx => nomatch hx
  | succ n ih =>
    intro x hx
    rcases List.mem_cons.mp hx with rfl | hx
    · exact Nat.mod_lt _ (by decide)
    · exact ih _ x hx

theorem length_le (n v : Nat) : (Byte.le n v).length = n := by
  induction n generalizing v with
  | zero => rfl
  | succ n ih => exact congrArg (· + 1) (ih _)

/-- Bytes keep their values in a command's operand. -/
theorem nats_map {p : List Nat} (h : IsBytes p) : Byte.nats (p.map (BitVec.ofNat 8 ·)) = p := by
  induction p with
  | nil => rfl
  | cons x p ih =>
    have hx : x % 256 = x := Nat.mod_eq_of_lt (h x (by simp))
    simp only [Byte.nats, List.map_cons, BitVec.toNat_ofNat, Nat.reducePow, hx] at ih ⊢
    rw [ih fun y hy => h y (by simp [hy])]

theorem isBytes_xor {p q : List Nat} (h : IsBytes p) (g : IsBytes q) : IsBytes (xorBytes p q) := by
  intro x hx
  simp only [xorBytes, ← List.map_uncurry_zip_eq_zipWith, List.mem_map] at hx
  obtain ⟨⟨a, b⟩, hab, rfl⟩ := hx
  exact Nat.xor_lt_two_pow (n := 8) (h a (List.of_mem_zip hab).1) (g b (List.of_mem_zip hab).2)

theorem xor_xor {p s : List Nat} (h : p.length ≤ s.length) : xorBytes (xorBytes p s) s = p := by
  induction p generalizing s with
  | nil => rfl
  | cons x p ih =>
    cases s with
    | nil => simp at h
    | cons y s =>
      simp only [xorBytes, List.zipWith_cons_cons] at ih ⊢
      rw [ih (by simpa using h)]
      simp

/-! ### The cipher -/

/-- A key whose schedule has at least two round keys, each of 16 bytes. -/
def KeyOk (key : List Nat) : Prop :=
  2 ≤ (aesKeys key).length ∧ ∀ k ∈ aesKeys key, k.length = 16 ∧ IsBytes k

theorem aesRounds_block {ks : List (List Nat)} (h : ks ≠ []) (hk : ∀ k ∈ ks, k.length = 16 ∧ IsBytes k) (s : List Nat) :
    (aesRounds ks s).length = 16 ∧ IsBytes (aesRounds ks s) := by
  induction ks generalizing s with
  | nil => exact absurd rfl h
  | cons k ks ih =>
    cases ks with
    | cons k' ks =>
      rw [aesRounds]
      · exact ih (by simp) (fun x hx => hk x (by simp [hx])) _
      · simp
    | nil =>
      have hk := hk k (by simp)
      refine ⟨by simp [aesRounds, xorBytes, aesSubShift, hk.1], isBytes_xor ?_ hk.2⟩
      intro x hx
      simp only [aesSubShift, List.mem_map] at hx
      obtain ⟨_, _, rfl⟩ := hx
      exact Nat.mod_lt _ (by decide)

theorem aes_block {key : List Nat} (h : KeyOk key) (b : List Nat) : (aes key b).length = 16 ∧ IsBytes (aes key b) := by
  unfold aes
  split
  · next e =>
    have h := h.1
    rw [e] at h
    exact absurd h (by simp)
  · next k ks e =>
    have h := h
    rw [KeyOk, e] at h
    refine aesRounds_block (fun e => ?_) (fun x hx => h.2 x (by simp [hx])) _
    rw [e] at h
    exact absurd h.1 (by simp)

/-- The text from key stream block `i` on, taken in pieces of 16 bytes. -/
def textFrom (key nonce : List Nat) : Nat → Nat → List Nat → List Nat
  | 0, _, _ => []
  | n + 1, i, p => if p.isEmpty then [] else
    xorBytes (p.take 16) (ccmStream key nonce (i + 1)) ++ textFrom key nonce n (i + 1) (p.drop 16)

theorem textFrom_pieces (key nonce : List Nat) (n i : Nat) (p : List Nat) :
    ((List.range' i (pieces16 n p).length).zip (pieces16 n p)).flatMap
      (fun ib => xorBytes ib.2 (ccmStream key nonce (ib.1 + 1))) = textFrom key nonce n i p := by
  induction n generalizing i p with
  | zero => rfl
  | succ n ih =>
    unfold pieces16 textFrom
    split
    · rfl
    · rw [List.length_cons, List.range'_succ, List.zip_cons_cons, List.flatMap_cons, ih]

theorem ccmText_eq (key nonce p : List Nat) : ccmText key nonce p = textFrom key nonce (p.length / 16 + 1) 0 p := by
  rw [← textFrom_pieces, ccmText, List.range_eq_range']
  rfl

theorem textFrom_nil (key nonce : List Nat) (n i : Nat) : textFrom key nonce n i [] = [] := by
  cases n <;> rfl

theorem textFrom_block {key : List Nat} (h : KeyOk key) (nonce : List Nat) {n : Nat} (i : Nat) {p : List Nat}
    (hp : p.length ≤ 16 * n) (hb : IsBytes p) :
    (textFrom key nonce n i p).length = p.length ∧ IsBytes (textFrom key nonce n i p) := by
  induction n generalizing i p with
  | zero => rw [List.length_eq_zero_iff.mp (by omega : p.length = 0)]; exact ⟨rfl, fun x hx => nomatch hx⟩
  | succ n ih =>
    unfold textFrom
    split
    · next e => rw [List.isEmpty_iff.mp e]; exact ⟨rfl, fun x hx => nomatch hx⟩
    · have s := aes_block h (1 :: nonce ++ beBytes 2 (i + 1))
      have r := ih (i + 1) (p := p.drop 16) (by simp; omega) fun x hx => hb x (List.mem_of_mem_drop hx)
      refine ⟨?_, (isBytes_xor (fun x hx => hb x (List.mem_of_mem_take hx)) s.2).append r.2⟩
      rw [List.length_append, r.1, xorBytes, List.length_zipWith, ccmStream, s.1]
      simp
      omega

/-- The key stream twice gives the text back. -/
theorem textFrom_twice {key : List Nat} (h : KeyOk key) (nonce : List Nat) {n : Nat} (i : Nat) {p : List Nat}
    (hp : p.length ≤ 16 * n) (hb : IsBytes p) : textFrom key nonce n i (textFrom key nonce n i p) = p := by
  induction n generalizing i p with
  | zero => rw [List.length_eq_zero_iff.mp (by omega : p.length = 0)]; rfl
  | succ n ih =>
    by_cases e : p = []
    · rw [e]; rfl
    have hd : IsBytes (p.drop 16) := fun x hx => hb x (List.mem_of_mem_drop hx)
    have hl : (p.drop 16).length ≤ 16 * n := by simp; omega
    have s : (ccmStream key nonce (i + 1)).length = 16 := (aes_block h _).1
    have r := textFrom_block h nonce (i + 1) hl hd
    have w : (xorBytes (p.take 16) (ccmStream key nonce (i + 1))).length = min 16 p.length := by simp [xorBytes, s]
    have u : textFrom key nonce (n + 1) i p =
        xorBytes (p.take 16) (ccmStream key nonce (i + 1)) ++ textFrom key nonce n (i + 1) (p.drop 16) := by
      rw [textFrom, if_neg (by simp [e])]
    rw [u, textFrom, if_neg]
    · by_cases g : 16 ≤ p.length
      · rw [List.take_left' (by omega), List.drop_left' (by omega), xor_xor (by simp [s]), ih (i + 1) hl hd,
          List.take_append_drop]
      · rw [List.drop_eq_nil_of_le (by omega), textFrom_nil, List.append_nil, List.take_of_length_le (by omega),
          List.drop_eq_nil_of_le (by omega), textFrom_nil, List.append_nil, xor_xor (by simp [s]),
          List.take_of_length_le (by omega)]
    · rw [List.isEmpty_iff, ← List.length_eq_zero_iff, List.length_append, w]
      have := List.length_pos_iff.mpr e
      omega

/-- AES-CCM opens what it has sealed. -/
theorem ccmOpen_seal {key : List Nat} (h : KeyOk key) (nonce aad : List Nat) {p : List Nat} (hb : IsBytes p) :
    ccmOpen key nonce aad (ccmSeal key nonce aad p) = some p ∧
      (ccmSeal key nonce aad p).length = p.length + 8 ∧ IsBytes (ccmSeal key nonce aad p) := by
  have hp : p.length ≤ 16 * (p.length / 16 + 1) := by omega
  have t := textFrom_block h nonce 0 hp hb
  have m : ∀ l : List (List Nat), l ≠ [] →
      ((l.foldl (fun x b => aes key (xorBytes x b)) (List.replicate 16 0)).length = 16 ∧
        IsBytes (l.foldl (fun x b => aes key (xorBytes x b)) (List.replicate 16 0))) := by
    intro l hl
    rw [← List.dropLast_append_getLast hl, List.foldl_append]
    exact aes_block h _
  have hn : ∀ q : List Nat, q ≠ [] → blocks16 q ≠ [] := fun q hq => by
    unfold blocks16 pieces16
    rw [if_neg (by simpa using hq)]
    simp
  have mac := m (blocks16 (((0x19 + (if aad.isEmpty then 0 else 0x40)) :: nonce ++ beBytes 2 p.length) ++
    (if aad.isEmpty then [] else pad16 (beBytes 2 aad.length ++ aad)) ++ pad16 p)) (hn _ (by simp))
  have tag : (ccmTag key nonce aad p).length = 8 ∧ IsBytes (ccmTag key nonce aad p) := by
    unfold ccmTag
    refine ⟨?_, isBytes_xor (fun x hx => mac.2 x (List.mem_of_mem_take hx)) (aes_block h _).2⟩
    rw [xorBytes, List.length_zipWith, List.length_take, ccmStream, (aes_block h _).1]
    have e : (ccmMac key nonce aad p).length = 16 := mac.1
    omega
  have len : (ccmSeal key nonce aad p).length = p.length + 8 := by
    rw [ccmSeal, List.length_append, tag.1, ccmText_eq, t.1]
  refine ⟨?_, len, ?_⟩
  · have e : (ccmSeal key nonce aad p).length - 8 = (ccmText key nonce p).length := by rw [len, ccmText_eq, t.1]; omega
    unfold ccmOpen
    rw [e, ccmSeal, List.take_left' rfl, List.drop_left' rfl]
    have u : ccmText key nonce (ccmText key nonce p) = p := by
      rw [ccmText_eq key nonce (ccmText key nonce p), ccmText_eq key nonce p, t.1]
      exact textFrom_twice h nonce 0 hp hb
    simp only [u, if_true]
  · rw [ccmSeal, ccmText_eq]
    exact t.2.append tag.2

/-! ### The fields of a payload region -/

theorem u8_at (a b : List Nat) (j : Nat) : Byte.u8 (a ++ b) (a.length + j) = Byte.u8 b j := by
  unfold Byte.u8
  rw [List.getElem?_append_right (by omega), Nat.add_sub_cancel_left]

theorem u16_le (a b : List Nat) (v : Nat) : Byte.u16 (a ++ (Byte.le 2 v ++ b)) a.length = v % 2 ^ 16 := by
  have h0 := u8_at a (Byte.le 2 v ++ b) 0
  have h1 := u8_at a (Byte.le 2 v ++ b) 1
  simp only [Nat.add_zero] at h0
  rw [Byte.u16, h0, h1]
  simp [Byte.le, Byte.u8]
  omega

theorem u32_le (a b : List Nat) (v : Nat) : Byte.u32 (a ++ (Byte.le 4 v ++ b)) a.length = v % 2 ^ 32 := by
  have e : Byte.le 4 v = Byte.le 2 v ++ Byte.le 2 (v / 65536) := by simp [Byte.le, Nat.div_div_eq_div_mul]
  have h0 := u16_le a (Byte.le 2 (v / 65536) ++ b) v
  have h1 := u16_le (a ++ Byte.le 2 v) b (v / 65536)
  rw [List.length_append, length_le, List.append_assoc] at h1
  rw [e, List.append_assoc, Byte.u32, h0, h1]
  omega

theorem u64_le (a b : List Nat) (v : Nat) : Byte.u64 (a ++ (Byte.le 8 v ++ b)) a.length = v % 2 ^ 64 := by
  have e : Byte.le 8 v = Byte.le 4 v ++ Byte.le 4 (v / 4294967296) := by simp [Byte.le, Nat.div_div_eq_div_mul]
  have h0 := u32_le a (Byte.le 4 (v / 4294967296) ++ b) v
  have h1 := u32_le (a ++ Byte.le 4 v) b (v / 4294967296)
  rw [List.length_append, length_le, List.append_assoc] at h1
  rw [e, List.append_assoc, Byte.u64, h0, h1]
  omega

theorem crc32cByte_lt {r b : Nat} (hr : r < 2 ^ 32) (hb : b < 256) : crc32cByte r b < 2 ^ 32 := by
  have step : ∀ (l : List Nat) (r : Nat), r < 2 ^ 32 →
      l.foldl (fun (r : Nat) _ => if r.testBit 0 then (r / 2) ^^^ 0x82F63B78 else r / 2) r < 2 ^ 32 := by
    intro l
    induction l with
    | nil => exact fun r h => h
    | cons x l ih =>
      intro r h
      refine ih _ ?_
      dsimp only
      split
      · exact Nat.xor_lt_two_pow (by omega) (by decide)
      · omega
  exact step _ _ (Nat.xor_lt_two_pow hr (by omega))

theorem crc32c_lt {p : List Nat} (h : IsBytes p) : crc32c p < 2 ^ 32 := by
  have step : ∀ (p : List Nat) (r : Nat), IsBytes p → r < 2 ^ 32 → p.foldl crc32cByte r < 2 ^ 32 := by
    intro p
    induction p with
    | nil => exact fun r _ h => h
    | cons x p ih => exact fun r h hr => ih _ (fun y hy => h y (by simp [hy])) (crc32cByte_lt hr (h x (by simp)))
  exact Nat.xor_lt_two_pow (step p _ h (by decide)) (by decide)

/-- R309, R310: a received region that was made under the receiver's key reads as it was made: its fields, its CRC-32C, and its
cipher text with the tag. -/
theorem region_opens {key body : List Nat} (hk : KeyOk key) (hb : IsBytes body) (fc : BitVec 96) {ctr typ ident : Nat}
    (lclk : Fin 6400) (hc : ctr < 2 ^ 32) (ht : typ < 2 ^ 16) (hi : ident < 2 ^ 64) (hl : body.length < 2 ^ 16)
    (hs : 0x1C + body.length ≤ regionBytes (fcField 24 8 fc.toNat) (fcField 32 2 fc.toNat)) :
    let rx : ChainRx :=
      { fc := fc, payload := (chainRegion key fc.toNat ctr typ ident body).map (BitVec.ofNat 8 ·), lclk := lclk }
    rxCtr rx = ctr ∧ rxTyp rx = typ ∧ rxIdent rx = ident ∧ rxLenOk rx = true ∧ rxCrcOk rx = true ∧ rxOpen key rx = some body := by
  intro rx
  let head := Byte.le 4 ctr ++ Byte.le 2 body.length ++ Byte.le 2 typ ++ Byte.le 8 ident
  let text := ccmSeal key (chainNonce ident ctr (fcField 0 8 fc.toNat)) (chainAad fc.toNat head) body
  obtain ⟨ho, hsl, hsb⟩ := ccmOpen_seal hk (chainNonce ident ctr (fcField 0 8 fc.toNat)) (chainAad fc.toNat head) hb
  have hh : head.length = 16 := by simp [head, length_le]
  have hhb : IsBytes head := (((isBytes_le _ _).append (isBytes_le _ _)).append (isBytes_le _ _)).append (isBytes_le _ _)
  have hp : ∃ z, IsBytes z ∧ rxBytes rx = head ++ text ++ (Byte.le 4 (crc32c (head ++ text)) ++ z) := by
    refine ⟨_, isBytes_zeros (regionBytes (fcField 24 8 fc.toNat) (fcField 32 2 fc.toNat) -
      (head ++ text ++ Byte.le 4 (crc32c (head ++ text))).length), ?_⟩
    rw [← List.append_assoc]
    exact nats_map (((hhb.append hsb).append (isBytes_le _ _)).append (isBytes_zeros _))
  obtain ⟨z, -, hp⟩ := hp
  have hw : head ++ text ++ (Byte.le 4 (crc32c (head ++ text)) ++ z) = Byte.le 4 ctr ++ (Byte.le 2 body.length ++
      (Byte.le 2 typ ++ (Byte.le 8 ident ++ (text ++ (Byte.le 4 (crc32c (head ++ text)) ++ z))))) := by
    simp only [head, List.append_assoc]
  have e0 : rxCtr rx = ctr := by
    have := u32_le [] (Byte.le 2 body.length ++ (Byte.le 2 typ ++ (Byte.le 8 ident ++ (text ++
      (Byte.le 4 (crc32c (head ++ text)) ++ z))))) ctr
    rw [rxCtr, hp, hw]
    exact this.trans (Nat.mod_eq_of_lt hc)
  have e4 : rxLen rx = body.length := by
    have := u16_le (Byte.le 4 ctr) (Byte.le 2 typ ++ (Byte.le 8 ident ++ (text ++
      (Byte.le 4 (crc32c (head ++ text)) ++ z)))) body.length
    rw [rxLen, hp, hw]
    exact this.trans (Nat.mod_eq_of_lt hl)
  have e6 : rxTyp rx = typ := by
    have := u16_le (Byte.le 4 ctr ++ Byte.le 2 body.length) (Byte.le 8 ident ++ (text ++
      (Byte.le 4 (crc32c (head ++ text)) ++ z))) typ
    rw [List.append_assoc] at this
    rw [rxTyp, hp, hw]
    exact this.trans (Nat.mod_eq_of_lt ht)
  have e8 : rxIdent rx = ident := by
    have := u64_le (Byte.le 4 ctr ++ Byte.le 2 body.length ++ Byte.le 2 typ) (text ++
      (Byte.le 4 (crc32c (head ++ text)) ++ z)) ident
    rw [List.append_assoc, List.append_assoc] at this
    rw [rxIdent, hp, hw]
    exact this.trans (Nat.mod_eq_of_lt hi)
  have hsl : text.length = body.length + 8 := hsl
  refine ⟨e0, e6, e8, ?_, ?_, ?_⟩
  · rw [rxLenOk, e4]
    exact decide_eq_true hs
  · have hn : 0x18 + body.length = (head ++ text).length := by rw [List.length_append, hh, hsl]; omega
    rw [rxCrcOk, e4, hn, hp, u32_le, Byte.slice, List.drop_zero, List.take_left' rfl,
      Nat.mod_eq_of_lt (crc32c_lt (hhb.append hsb))]
    exact beq_self_eq_true _
  · have t : Byte.slice (rxBytes rx) 0 16 = head := by
      rw [hp, Byte.slice, List.drop_zero, List.append_assoc, List.take_left' hh]
    have u : Byte.slice (rxBytes rx) 16 (body.length + 8) = text := by
      rw [hp, Byte.slice, List.append_assoc, List.drop_left' hh, List.take_left' hsl]
    rw [rxOpen, e4, e0, e8, t, u]
    exact ho

end Sys2Proof.Machine
end

