-- ==== Sys2Proof/Machine/Pins.lean ====
section
/-!
DEFINITION. The output balls (R47, R48, R51): what each one drives in a state of the machine.
-/

namespace Sys2Proof.Machine
open Sys2Proof

/-- R42, R48: an output ball. `line` is a link's driver pair (16 the chain's), `col` COL0-COL255, `row` ROW0-ROW63, `epaper` the
bistable panel's lines, `crk` CRKE_A and CRKL_A, `rdtx` the reader's drivers, `ethTx` the transmit balls of port A or B. -/
inductive Ball where
  | cp (n : Fin 16) | pp (n : Fin 16)
  | line (k : Fin 17) | chainOut
  | out (k : Fin 48)
  | stoA (n : Fin 16) | stoB (n : Fin 16)
  | col | row | epaper | crk | rdtx
  | mck (g : Fin 6)
  | ethTx (p : Fin 2) | phyRstN (p : Fin 2)
  | hsMiso | hsIrqN
  | svTx | svDe
  | canTx (k : Fin 2)
  | ddrReset | bfCsN | lsCsN | lsWpN | emRstN | tdo
  deriving DecidableEq, Repr

/-- R48: what a ball does. `pulled` is an internal resistor to ground or PGND alone; `neg12` the pilot at -12 V; `off` and `on` a
load switch; `neutral` a panel line at 0 V or a source off; `active` a ball that its own block drives. -/
inductive Level where
  | undriven | pulled | highZ | low | high | neg12 | off | on | neutral | active
  deriving DecidableEq, Repr

/-- R47: the situations of R48, and a device that runs its deck. -/
inductive Situation where
  | unpowered | reset | bare | running
  deriving DecidableEq, Repr

/-- R47, R51: the situation of the power-die balls. -/
def powerSituation (c : Chip) : Situation :=
  if !c.powered then .unpowered
  else if c.pwr.phase = .held ∨ c.bridge.downPower then .reset
  else if c.pwr.phase = .bare then .bare
  else if c.hsl.trump.isNone then .reset
  else .running

/-- R47, R51: the situation of the logic-die balls: the bare-mode column while the power die is unpowered or the bridge is down. -/
def logicSituation (c : Chip) : Situation :=
  if c.pwr.phase = .held then (if c.powered then .reset else .unpowered)
  else if !c.bridgeUp then .bare
  else powerSituation c

def onOff (b : Bool) : Level := if b then .high else .low

/-- R48: a power-die ball. -/
def powerBall (b : Ball) (s : Situation) (c : Chip) : Level :=
  match b, s with
  | .cp _, .unpowered => .undriven
  | .cp _, .running => .active
  | .cp _, _ => .neg12
  | .pp _, .unpowered => .undriven
  | .pp _, .running => .active
  | .pp _, _ => .neutral
  | .line k, .running => if c.lnk.chain.line.isEmpty ∧ k.val = 16 then .highZ else if pathFailed k.val c then .highZ else .active
  | .line _, _ => .highZ
  | .chainOut, .unpowered => .pulled
  | .chainOut, .running => onOff (getF Reg.LNK_CSTAT_CHAIN_OUT 0 c == 1)
  | .chainOut, _ => .low
  | .out _, .unpowered => .off
  | .out k, _ => if (lsw k.val c).out then .on else .off
  | .stoA _, .unpowered => .pulled
  | .stoA n, .running => onOff (getF Reg.SAF_AXSTAT_STOA n.val c == 1)
  | .stoA _, _ => .low
  | .stoB _, .unpowered => .pulled
  | .stoB n, .running => onOff (getF Reg.SAF_AXSTAT_STOB n.val c == 1)
  | .stoB _, _ => .low
  | .col, .unpowered => .highZ
  | .col, .running => .active
  | .col, _ => .neutral
  | .row, .running => .active
  | .row, _ => .highZ
  | .epaper, .unpowered => .pulled
  | .epaper, .reset => .neutral
  | .epaper, _ => if c.dsp.upd.isSome then .active else .neutral
  | .crk, .unpowered => .undriven
  | .crk, .running => .active
  | .crk, _ => .low
  | .rdtx, .unpowered => .undriven
  | .rdtx, .running => .active
  | .rdtx, _ => .low
  | _, _ => .undriven

/-- R48, R51: a logic-die ball. -/
def logicBall (b : Ball) (s : Situation) (c : Chip) : Level :=
  match b, s with
  | .mck _, .unpowered => .pulled
  | .mck g, .running => if getF Reg.SNS_GRP_MCK_ON g.val c = 1 then .active else .low
  | .mck _, _ => .low
  | .ethTx _, .unpowered => .highZ
  | .ethTx _, .reset => .low
  | .ethTx _, _ => .active
  | .phyRstN _, .unpowered => .pulled
  | .phyRstN _, .reset => .low
  | .phyRstN _, _ => .high
  | .hsMiso, .bare => .active
  | .hsMiso, .running => .active
  | .hsMiso, _ => .highZ
  | .hsIrqN, .unpowered => .highZ
  | .hsIrqN, .reset => .highZ
  | .hsIrqN, _ => if hsIrqLow c then .low else .highZ
  | .svTx, .unpowered => .highZ
  | .svTx, .reset => .high
  | .svTx, _ => .active
  | .svDe, .unpowered => .pulled
  | .svDe, .reset => .low
  | .svDe, _ => .active
  | .canTx _, .unpowered => .highZ
  | .canTx _, .running => .active
  | .canTx _, _ => .high
  | .ddrReset, .unpowered => .highZ
  | .ddrReset, .reset => .low
  | .ddrReset, _ => .active
  | .bfCsN, .unpowered => .highZ
  | .bfCsN, .reset => .high
  | .bfCsN, _ => .active
  | .lsCsN, .unpowered => .highZ
  | .lsCsN, .running => .active
  | .lsCsN, _ => .high
  | .lsWpN, .unpowered => .pulled
  | .lsWpN, .running => .high
  | .lsWpN, .bare => onOff (c.bil.save.isSome && c.pwr.phase == .run)
  | .lsWpN, .reset => .low
  | .emRstN, .unpowered => .pulled
  | .emRstN, .reset => .low
  | .emRstN, _ => .active
  | .tdo, .bare => .active
  | .tdo, .running => .active
  | .tdo, _ => .highZ
  | _, _ => .undriven

/-- R42: the die that carries a ball. -/
def onPowerDie (b : Ball) : Bool :=
  match b with
  | .cp _ | .pp _ | .line _ | .chainOut | .out _ | .stoA _ | .stoB _ | .col | .row | .epaper | .crk | .rdtx => true
  | .mck _ | .ethTx _ | .phyRstN _ | .hsMiso | .hsIrqN | .svTx | .svDe | .canTx _ | .ddrReset | .bfCsN | .lsCsN | .lsWpN
  | .emRstN | .tdo => false

/-- R48: what a ball does in a state. -/
def ballLevel (b : Ball) (c : Chip) : Level :=
  if onPowerDie b then powerBall b (powerSituation c) c else logicBall b (logicSituation c) c

end Sys2Proof.Machine
end

