-- ==== Sys2Proof/WellFormed.lean ====
section
/-!
DEFINITION. Well-formed commands: what is brought in from outside is something the outside can bring. The meanings take every
command; these checks say which ones a run of the hardware can hold.
-/

namespace Sys2Proof

/-- R106: a supply cut interrupts a write within its bytes. -/
def cutOk (cut : Option Nat) (len : Nat) : Bool :=
  match cut with
  | none => true
  | some n => n ≤ len

/-- R245: at most 1,000 samples of -15 V to +15 V in a pilot period; R249: a window holds a sample; R266, R370: a CAN FD message has
at most 64 bytes; R379, R380: at most nine cards answer, with UIDs of 4, 7 or 10 bytes; R484: the scrubber reads whole words. -/
def Instr.wf (i : Instr) : Bool :=
  match i with
  | .bridgeFlitNak _ => true
  | .bridgeHeartbeat _ => true
  | .bridgeDownPower => true
  | .bridgeDownLogic => true
  | .tripFlit => true
  | .protectionSnapshot => true
  | .secondTick _ => true
  | .mclkCheckWindow _ => true
  | .bclkCheckWindow _ => true
  | .bmonCheckWindow _ => true
  | .tclkPresenceWindow _ _ => true
  | .tclkDriftWindow _ => true
  | .tclkReturn => true
  | .corePllLoss => true
  | .corePllLock => true
  | .metroPllLoss => true
  | .linkPllLoss => true
  | .linkPllRelock => true
  | .hostPllLoss => true
  | .fclkLoss => true
  | .meterTimeTick => true
  | .vddCoreBrownout => true
  | .vpd5Brownout => true
  | .vp12Brownout => true
  | .vbbBrownout _ => true
  | .vbbRestore _ => true
  | .vstoBrownout => true
  | .vcolBrownout => true
  | .vcolRestore => true
  | .backupPor => true
  | .vbatMeasure _ => true
  | .pwrReqRun _ => true
  | .pwrReqLean _ => true
  | .pwrReqStandby _ => true
  | .standbyReached => true
  | .standbyWake _ => true
  | .idleTimerExpiry => true
  | .loadDemand => true
  | .watchdogExpiry => true
  | .pfwarnRecognised => true
  | .finalRecordWritten _ => true
  | .finalRecordRefresh _ => true
  | .pfwarnRecovered => true
  | .startWaitEnd => true
  | .resetNRecognised => true
  | .resetNRelease _ => true
  | .startSequence _ => true
  | .svcbtnPressEnd => true
  | .svcbtnFailedClosed => true
  | .serviceBidWindowEnd => true
  | .tamperInputChange _ _ _ => true
  | .sealOpened => true
  | .sealClosed _ => true
  | .deckLoad _ _ bytes _ cut => cutOk cut bytes.length
  | .deckActivate _ => true
  | .deckCommit _ => true
  | .meTrickEdge _ => true
  | .meSlotOverrun _ => true
  | .leTrickEdge _ => true
  | .ceTrickEdge => true
  | .ceWindowEnd => true
  | .ceRequest _ => true
  | .ceRequestDone _ => true
  | .ceBudgetExceeded _ => true
  | .dlrCommit _ _ _ => true
  | .commitApplied _ => true
  | .arbSaturate _ => true
  | .protectionOutput _ => true
  | .lossWindowEnd _ => true
  | .mckFault _ => true
  | .streamRecovery _ => true
  | .settleEnd _ _ => true
  | .integPrerollEnd _ => true
  | .snsDlyWrite _ _ _ => true
  | .cycleTimeout _ => true
  | .freerunBoundary _ => true
  | .checkWindowEnd _ => true
  | .cptLatch _ => true
  | .cptCfgWrite _ _ _ => true
  | .tariffSwitch => true
  | .dstChange => true
  | .overrideStart => true
  | .overrideEnd => true
  | .demandIntervalEnd => true
  | .periodEnd => true
  | .boundaryActions => true
  | .timeBehindClear => true
  | .wallSet _ _ _ => true
  | .tariffSet _ _ _ => true
  | .billSnap _ _ => true
  | .periodicSave => true
  | .saveComplete _ => true
  | .saveRetry => true
  | .startReading _ => true
  | .stopReading _ => true
  | .legalDwellEnd => true
  | .pilotPeriodStart _ samples _ => samples.length ≤ 1000 && samples.all fun v => -15000 ≤ v && v ≤ 15000
  | .proxWindowEnd _ samples => !samples.isEmpty
  | .weldFault _ => true
  | .contactorGrant _ => true
  | .sessionMachineStep _ => true
  | .sessionHandMove _ => true
  | .tLockExpiry _ => true
  | .tAuthExpiry _ => true
  | .tCloseExpiry _ => true
  | .tStopExpiry _ => true
  | .pauseMaxExpiry _ => true
  | .faultHoldExpiry _ => true
  | .undefPilotTimeout _ => true
  | .auth _ _ => true
  | .stop _ _ => true
  | .pause _ _ => true
  | .resume _ _ => true
  | .faultClr _ _ => true
  | .weldClr _ _ => true
  | .testEnter _ _ => true
  | .testExit _ _ => true
  | .bayOfferWrite _ _ _ => true
  | .bayPwmCommit _ _ _ => true
  | .stackStatus _ msg => msg.length ≤ 64
  | .stackFault _ msg => msg.length ≤ 64
  | .stackCmdSend _ => true
  | .stackLost _ => true
  | .prechargeTimeout _ => true
  | .dcStopTimeout _ => true
  | .canBusOff _ => true
  | .canBusOffRecovery _ => true
  | .blindClear _ => true
  | .ocLimitUpdate _ => true
  | .ocGraceExpiry _ => true
  | .capRelease _ => true
  | .insPhaseEnd _ => true
  | .prtClr _ _ _ _ => true
  | .autoClear _ _ => true
  | .prtIanWrite _ _ _ => true
  | .lnkTest _ _ => true
  | .lnkTestDone _ => true
  | .slacRequest _ _ _ => true
  | .slacTimeout _ => true
  | .setupTimeout _ => true
  | .linklossTimeout _ => true
  | .vehicleFrame _ _ _ => true
  | .hlcMessage _ _ => true
  | .certRequestTimeout _ => true
  | .beaconStart => true
  | .beaconReceived _ => true
  | .chainSlotStart => true
  | .chainAck _ => true
  | .joinRequest _ _ => true
  | .budgetReport _ _ => true
  | .relayData _ => true
  | .relayOpen _ => true
  | .relayClose _ => true
  | .chainLeave _ => true
  | .listenTimeout => true
  | .electTimeout => true
  | .beaconLoss => true
  | .rosterExpiry _ => true
  | .budgetRound => true
  | .heldRelease _ => true
  | .joinRetry => true
  | .chainInChange _ => true
  | .chainWaitTimeout => true
  | .allocationApply => true
  | .relayConnect _ => true
  | .rejoin _ => true
  | .forget _ => true
  | .lsinChange _ _ => true
  | .lineModeOff _ _ _ _ => true
  | .lineModeOn _ _ _ _ => true
  | .lineModeBlink _ _ _ _ => true
  | .lineBlinkToggle _ => true
  | .limiterEngage _ => true
  | .inrushEnd _ _ => true
  | .lswClassWrite _ _ _ => true
  | .thermalTrip _ _ _ _ => true
  | .bankOverload _ => true
  | .bankShed _ _ => true
  | .openLoadOn _ => true
  | .lswTest _ _ => true
  | .offTestDone _ _ _ _ => true
  | .lswRetry _ _ _ => true
  | .retryBudgetRestore _ => true
  | .lswClr _ _ _ _ => true
  | .holdTimeout _ => true
  | .safetyInputChange _ _ _ => true
  | .discrepancyTimeout _ => true
  | .safSpdWrite _ _ _ _ => true
  | .brakeReleaseDelay _ => true
  | .speedCheck _ => true
  | .stoTestPulse _ _ => true
  | .stoReadbackFault _ _ _ => true
  | .channelDisagree _ => true
  | .axcmdSend _ => true
  | .axstat _ msg => msg.length ≤ 64
  | .driveLinkLost _ => true
  | .srstRelease _ => true
  | .srstStuck => true
  | .scMismatch => true
  | .scHeartbeatLoss => true
  | .scSelftestDone _ => true
  | .readerPoll cards _ _ => cards.length ≤ 9 && cards.all fun k => [4, 7, 10].contains k.uid.length
  | .nfcVerdict _ _ _ _ _ => true
  | .tHostExpiry _ _ => true
  | .tPendExpiry => true
  | .credDelta _ _ _ _ => true
  | .checkpointDone _ => true
  | .checkpointRetry => true
  | .credTableLoaded _ _ _ _ _ => true
  | .tagSelect _ => true
  | .tinfo => true
  | .chal _ => true
  | .muta _ => true
  | .tread _ _ => true
  | .twrite _ _ _ _ => true
  | .tagApduUnknown => true
  | .tagDeselect => true
  | .tagFieldLoss => true
  | .tagSessionTimeout => true
  | .tagWriteDone => true
  | .tagWiredRead _ _ => true
  | .tagWiredWrite _ _ => true
  | .tagWiredWaitTimeout => true
  | .emissiveFrameStart => true
  | .dspSwap _ => true
  | .dspIcolWrite _ _ => true
  | .crackCheck _ _ => true
  | .legalUpdateDone => true
  | .legalUpdateAdmit => true
  | .epthMeasure _ => true
  | .dspLcmdFull _ => true
  | .keyUpdate _ _ _ => true
  | .devicePub _ => true
  | .attest _ _ => true
  | .debugGrant _ _ _ => true
  | .debugEnd _ => true
  | .debugDurationEnd => true
  | .tapReset => true
  | .extest _ => true
  | .samplePreload _ _ => true
  | .idcode => true
  | .dbgNonce => true
  | .dbgGrant _ _ => true
  | .dbgOpen _ => true
  | .dbgEnd => true
  | .dbgStat => true
  | .kumIn _ _ _ => true
  | .keyRes => true
  | .devPub => true
  | .memAp _ => true
  | .bypass _ => true
  | .netConnect _ _ _ => true
  | .openSess _ _ => true
  | .close _ => true
  | .keepalive _ => true
  | .read _ _ _ => true
  | .write _ _ _ _ => true
  | .unknownRequest _ _ _ => true
  | .bulkOpen _ _ _ _ => true
  | .bulkData _ _ _ => true
  | .bulkClose _ _ _ => true
  | .bulkTimeout _ => true
  | .restart _ => true
  | .bid _ => true
  | .handover _ _ => true
  | .accept _ => true
  | .release _ => true
  | .evtRead _ _ _ => true
  | .evtSub _ _ => true
  | .certReply _ _ _ => true
  | .spiRead _ => true
  | .spiStatus => true
  | .sessionIdleTimeout _ => true
  | .auctionClose => true
  | .handoverExpiry => true
  | .declarerLapse => true
  | .hstCtlWrite _ _ => true
  | .scrubRead _ addr _ _ => addr % 8 == 0
  | .eccUeRestart _ => true
  | .eccRawWrite _ _ _ => true
  | .eccRawRead _ _ => true
  | .captureGo _ _ _ _ => true
  | .captureDone => true
  | .transferGo _ _ _ _ => true
  | .transferBurst _ => true
  | .transferDone _ => true
  | .cqPop _ => true
  | .apbaseWrite _ _ => true
  | .fwLoad _ _ _ _ => true
  | .activate _ => true
  | .activationPauseStart _ => true
  | .prepTimeout _ => true
  | .fwReady => true
  | .fwReadyTimeout => true
  | .fwConfirm => true
  | .registerWrite _ _ _ => true
  | .powerDiePowered => true
  | .vstoRestore => true
  | .hostPllRelock => true
  | .fclkReturn => true
  | .svcbtnPressStart => true
  | .srstPressStart => true
  | .tclkStopInHold => true
  | .tcpConnectionClose _ => true

end Sys2Proof
end

