-- ==== Sys2Proof/Tests/Slice0.lean ====
section
/-!
SUPPORT. The model's own tests: for each check of `Instr.wf` a command it refuses, and for each statement with premises a state
and operands that meet them, at boundary values where its clauses meet.
-/

namespace Sys2Proof.Tests
open Sys2Proof Sys2Proof.Machine Sys2Proof.Safety

-- One theorem at a time: their checks side by side ask for more memory than the check of the package allows.
set_option Elab.async false

theorem test_empty_queue_idles : step State.reset = .next State.reset := rfl

/-- The device in its reset state, and running with no card. -/
def resetC : Chip := State.reset.toChip
def run0 : Chip := { resetC with pwr := { resetC.pwr with phase := .run } }
def held0 : Chip := { resetC with pwr := { resetC.pwr with phase := .held } }

/-- Register fields of a chip set one after the other: a field, its instance and its value. -/
def fields (l : List (Fld × Nat × Nat)) (c : Chip) : Chip := l.foldl (fun c q => setF q.1 q.2.1 q.2.2 c) c

/-- The running device with a card. -/
def withCard (typ : Nat) (p : List Nat) (c : Chip) : Chip :=
  { c with deck := { c.deck with cards := { typ := typ, version := 1, flags := 0, payload := p } :: c.deck.cards } }

def st (c : Chip) : State := { toChip := c }

/-- Settled, as a check. -/
def settledB (c : Chip) : Bool :=
  ((List.range 16).all fun n => !(hslBay n c).gate || ((hslBay n c).grant && closingOk n c)) &&
    (List.range 48).all fun k =>
      (lsw k c).out == (lswWanted (lsw k c) c && c.powered && c.pwr.vbbOk.getLsbD (k / 8)) &&
        ((lsw k c).test == 0 || lswInput (lsw k c) c == (lsw k c).testIn)

theorem settledB_ok {c : Chip} (h : settledB c = true) : Settled c := by
  simp only [settledB, Bool.and_eq_true, List.all_eq_true, List.mem_range, Bool.or_eq_true, Bool.not_eq_true',
    beq_iff_eq] at h
  refine ⟨fun n hn hg => ?_, fun k hk => (h.2 k hk).1, fun k hk => (h.2 k hk).2⟩
  rcases h.1 n hn with h1 | h1
  · rw [h1] at hg
    cases hg
  · exact h1

theorem settled_resetC : Settled resetC := settledB_ok (by decide +kernel)

theorem settled_like {c : Chip} (h1 : c.hsl = resetC.hsl) (h2 : c.lsw = resetC.lsw) (h3 : c.pwr.vpd5 = true)
    (h4 : c.pwr.vp12 = true) (h5 : c.pwr.vbbOk = 63) (h6 : c.prt.ins = resetC.prt.ins) : Settled c :=
  settled_congr settled_resetC h1 h2 h3 h4 h5 h6

theorem settled_run0 : Settled run0 := settled_like rfl rfl rfl rfl rfl rfl

theorem settled_setF {c : Chip} (h : Settled c) (f : Fld) (i v : Nat) : Settled (setF f i v c) :=
  settled_congr h (by simp) (by simp) (by simp) (by simp) (by simp) (by simp)

theorem settled_fields {c : Chip} (h : Settled c) (l : List (Fld × Nat × Nat)) : Settled (fields l c) := by
  induction l generalizing c with
  | nil => exact h
  | cons q l ih => exact ih (settled_setF h q.1 q.2.1 q.2.2)

/-! ### The queue, reset, the bridge -/

theorem witness_StepRunsFrontCommand :
    ({ State.reset with pending := [.idcode, .tapReset] } : State).pending = .idcode :: [.tapReset] ∧
      State.reset.pending = [] := by decide

theorem witness_StepKeepsSettled : Settled State.reset.toChip ∧ step State.reset = .next State.reset :=
  ⟨settled_resetC, rfl⟩

theorem witness_FieldSetAndRead :
    Reg.PWR_REQ_REQ.home ≠ Reg.DEV_BRIDGE_DOWN_CNT.home ∧ fkey Reg.PRT_LAT_KINDS 15 ≠ fkey Reg.PRT_LAT_KINDS 16 ∧
      mapWf resetC.regs = true ∧ mapWf resetC.bregs = true ∧ mapWf resetC.fregs = true := by decide

/-- A running device whose bridge has spent `a` and `b` repeats on the flits in flight. -/
def bridge0 (a b : Nat) : Chip :=
  { run0 with bridge := { run0.bridge with toPower := { retry := a }, toLogic := { retry := b } } }

theorem witness_BridgeCountsRetriesAndLosses :
    (∀ a b, Settled (bridge0 a b)) ∧
    (∀ a, a ≤ 3 → (bridge0 a a).bridge.downPower = false ∧ (bridge0 a a).bridge.downLogic = false ∧
      (bridge0 a a).powered = true ∧ (bridge0 a a).logicUp = true) ∧
    (bridge0 2 2).bridge.toPower.retry < 3 ∧ (bridge0 2 2).bridge.toLogic.retry < 3 ∧
    3 ≤ (bridge0 3 3).bridge.toPower.retry ∧ 3 ≤ (bridge0 3 3).bridge.toLogic.retry :=
  ⟨fun _ _ => settled_like rfl rfl rfl rfl rfl rfl, fun _ _ => ⟨rfl, rfl, rfl, rfl⟩, by decide⟩

def trips0 (l : List TripReq) : Chip := { run0 with bridge := { run0.bridge with trips := l } }

theorem witness_TripFlitLatches :
    ((trips0 [.latch 16 1, .safety]).powered = true ∧ (trips0 [.latch 16 1, .safety]).bridge.downPower = false ∧
      (trips0 [.latch 16 1, .safety]).bridge.downLogic = false ∧
      (trips0 [.latch 16 1, .safety]).bridge.trips = .latch 16 1 :: [.safety] ∧
      (trips0 [.latch 16 1, .safety]).backup.mirror = (trips0 [.latch 16 1, .safety]).hsl.latch) ∧
    ((trips0 [.safety]).powered = true ∧ (trips0 [.safety]).bridge.trips = .safety :: []) ∧
    Settled run0 ∧ run0.bridge.trips = [] ∧ run0.logicUp = true ∧ run0.powered = true :=
  ⟨by decide, by decide, settled_run0, by decide⟩

/-! ### Clocks, supplies, power states and reset -/

theorem witness_ResetsRecordCausesAndRelease :
    (run0.bridge.downPower = false ∧ run0.powered = true) ∧ run0.pwr.pllLost = false ∧
    ((31039 < 31040 ∨ 32960 < 31039) ∧ run0.logicUp = true ∧ run0.pwr.mclkFault = false ∧
      1 ≤ ({ run0 with pwr := { run0.pwr with bclkFail := 1 } } : Chip).pwr.bclkFail ∧ run0.bridge.downLogic = false) ∧
    run0.pwr.bclkHold = false ∧
    (run0.pwr.hold = false ∧ run0.pwr.off = false ∧ run0.pwr.resetLow = false) ∧
    (held0.pwr.phase = .held ∧ held0.pwr.hold = false ∧ held0.pwr.off = false ∧ held0.pwr.vpd5 = true) ∧
    (({ held0 with pwr := { held0.pwr with pllLost := true } } : Chip).pwr.pllLost = true ∧ held0.pwr.resetLow = false ∧
      held0.pwr.bclkHold = false ∧ held0.pwr.pllLost = false) ∧
    (let c : Chip := { held0 with pwr := { held0.pwr with bclkHold := true, bmonPass := 15 } };
      c.pwr.phase = .held ∧ c.pwr.vpd5 = true ∧ c.pwr.vp12 = true ∧ c.pwr.bclkHold = true ∧ c.pwr.bmonPass = 15) ∧
    (let c : Chip := { held0 with pwr := { held0.pwr with vp12 := false } };
      c.pwr.phase = .held ∧ c.pwr.vpd5 = true ∧ c.pwr.vp12 = false) ∧
    (let c : Chip := { resetC with pwr := { resetC.pwr with phase := .startWait } };
      c.pwr.phase = .startWait ∧ Settled c) :=
  ⟨by decide, by decide, by decide, by decide, by decide, by decide, by decide, by decide, by decide,
    rfl, settled_like rfl rfl rfl rfl rfl rfl⟩

/-- The running device with the clock monitors' data `f` says. -/
def clocks0 (f : PwrState → PwrState) : Chip := { run0 with pwr := f run0.pwr }
theorem settled_clocks0 {f : PwrState → PwrState} (h : (f run0.pwr).vpd5 = true ∧ (f run0.pwr).vp12 = true ∧ (f run0.pwr).vbbOk = 63) :
    Settled (clocks0 f) := settled_like rfl rfl h.1 h.2.1 h.2.2 rfl

theorem witness_ClocksAndMeterTime :
    (Settled run0 ∧ run0.logicUp = true ∧ run0.pwr.mclkFault = false ∧ run0.pwr.mclkFail = 0 ∧ run0.pwr.driftFail = 0 ∧
      run0.pwr.linkPll = true ∧ run0.pwr.hostPll = true ∧ run0.pwr.fclk = true ∧ run0.bridge.downPower = false ∧
      run0.bridge.downLogic = false ∧ run0.powered = true ∧ run0.pwr.tclkFail = 0 ∧ run0.pwr.tclkGone = false) ∧
    (let c := clocks0 fun p => { p with mclkFail := 1, linkPll := false, driftFail := 1 };
      Settled c ∧ 1 ≤ c.pwr.mclkFail ∧ c.pwr.mclkFault = false ∧ c.pwr.linkPll = false ∧ c.pwr.driftFail ≠ 0 ∧ c.logicUp = true) ∧
    (let c := clocks0 fun p => { p with mclkFault := true, mclkGood := 99 };
      Settled c ∧ c.logicUp = true ∧ c.pwr.mclkFault = true ∧ c.pwr.mclkFail = 0) ∧
    (40918 < 40919 ∧ 41001 < 41002 ∧ 31040 ≤ 32960 ∧ 327646 < 327647 ∧ 327713 < 327714) ∧
    (run0.pwr.off = false ∧ run0.backup.tclkStop = false ∧ run0.backup.frac < 1000) ∧
    (let c := clocks0 fun p => { p with tclkGone := true, tclkBack := true };
      Settled c ∧ c.pwr.off = false ∧ c.backup.tclkStop = false ∧ c.pwr.tclkGone = true ∧ c.pwr.tclkBack = true) ∧
    (let c : Chip := { run0 with pwr := { run0.pwr with tclkFail := 1 }, backup := { run0.backup with wallValid := true } };
      c.logicUp = true ∧ c.powered = true ∧ c.pwr.tclkGone = false ∧ 1 ≤ c.pwr.tclkFail ∧ c.backup.wallValid = true) ∧
    (let c := clocks0 fun p => { p with hold := true }; Settled c ∧ c.pwr.hold = true) := by
  refine ⟨⟨settled_run0, ?_⟩, ⟨settled_clocks0 ?_, ?_⟩, ⟨settled_clocks0 ?_, ?_⟩, ?_, ?_, ⟨settled_clocks0 ?_, ?_⟩, ?_, settled_clocks0 ?_, ?_⟩
  all_goals decide

theorem witness_SuppliesFallAndReturn :
    (run0.pwr.vpd5 = true ∧ run0.pwr.vp12 = true ∧ run0.logicUp = true ∧ Settled run0 ∧ run0.saf.on = false) ∧
    (({ run0 with pwr := { run0.pwr with vbbOk := 0x1F } } : Chip).pwr.vbbOk.getLsbD (5 : Fin 6).val = false) ∧
    (let c : Chip := { run0 with pwr := { run0.pwr with hold := true } };
      Settled c ∧ c.pwr.hold = true) :=
  ⟨⟨rfl, rfl, rfl, settled_run0, rfl⟩, by decide, settled_like rfl rfl rfl rfl rfl rfl, rfl⟩

/-- A running device in power state `k`, its wake sources enabled. -/
def power0 (k : Nat) : Chip := fields [(Reg.PWR_STATE_STATE, 0, k), (Reg.PWR_WAKE_PILOT, 0, 1)] run0

theorem settled_power0 (k : Nat) : Settled (power0 k) := settled_fields settled_run0 _

theorem witness_PowerStateRequests :
    (∀ k, Settled (power0 k)) ∧ writerStatus .firmware (power0 1) = .ok ∧ writerStatus (.session 0) (power0 1) ≠ .ok ∧
    getF Reg.PWR_STATE_STATE 0 (power0 1) = 1 ∧ getF Reg.PWR_STATE_STATE 0 (power0 2) = 2 ∧ (power0 2).pwr.phase = .run ∧
    writerStatus .firmware (power0 2) = .ok ∧
    (let c := withCard 0x0003 (1 :: List.replicate 7 0) (power0 1);
      Settled c ∧ writerStatus .firmware c = .ok ∧ standbyForbidden c = false) ∧
    cardU8 0x0003 0 0 0 (power0 1) ≠ 1 ∧
    (let c : Chip := { power0 1 with pwr := { (power0 1).pwr with sbEntry := true } };
      Settled c ∧ writerStatus .firmware c = .ok ∧ c.pwr.sbEntry = true) ∧
    (inStandby (power0 3) = true ∧
      firstBit 8 (((1 : BitVec 8) &&& BitVec.ofNat 8 (regWord 0x10008 (power0 3))).toNat) = some 0 ∧
      (power0 3).dsp.pend = none ∧ writerStatus .firmware (power0 3) = .ok) ∧
    (let c : Chip := { power0 1 with pwr := { (power0 1).pwr with idleMs := 300000 } };
      Settled c ∧ c.pwr.phase = .run ∧ getF Reg.PWR_STATE_STATE 0 c = 1 ∧ 0 < c.idleS ∧ 1000 * c.idleS ≤ c.pwr.idleMs) := by
  refine ⟨settled_power0, ?_, ?_, ?_, ?_, ?_, ?_, ⟨settled_congr (settled_power0 1) rfl rfl rfl rfl rfl rfl, ?_⟩, ?_,
    ⟨settled_congr (settled_power0 1) rfl rfl rfl rfl rfl rfl, ?_⟩, ?_, settled_congr (settled_power0 1) rfl rfl rfl rfl rfl rfl, ?_⟩
  all_goals decide +kernel

/-- A running device with a press of SVCBTN_N in progress for `ms`. -/
def press0 (ms : Nat) : Chip :=
  { run0 with pwr := { run0.pwr with svcStart := some 0 }, backup := { run0.backup with ms := ms } }

theorem witness_PowerFailAndServiceButton :
    (run0.logicUp = true ∧ run0.pwr.hold = false ∧ run0.pwr.off = false ∧ run0.pwr.pfLow = false ∧ run0.pwr.phase = .run) ∧
    (let c := clocks0 fun p => { p with phase := .startDue };
      c.logicUp = true ∧ c.pwr.hold = false ∧ c.pwr.off = false ∧ c.pwr.pfLow = false ∧ c.pwr.phase = .startDue) ∧
    (let c := clocks0 fun p => { p with pfLow := true, vstoOk := true, vcolOk := true };
      c.logicUp = true ∧ c.pwr.hold = false ∧ c.pwr.off = false ∧ c.pwr.pfLow = true ∧ c.pwr.phase ≠ .startWait ∧ c.suppliesOk = true) ∧
    (let c := clocks0 fun p => { p with pfLow := true, vstoOk := false };
      Settled c ∧ c.logicUp = true ∧ c.pwr.pfLow = true ∧ c.suppliesOk = false) ∧
    (run0.pwr.svcStale = none ∧ run0.pwr.svcStart = none ∧ inStandby run0 = false ∧ run0.dsp.pend = none ∧ Settled run0) ∧
    (∀ ms, (press0 ms).logicUp = true ∧ (press0 ms).pwr.svcStart = some 0 ∧ (press0 ms).pwr.svcDone = false ∧
      (press0 ms).backup.ms = ms) ∧
    (19 - 0 < 20 ∧ 20 ≤ 20 - 0 ∧ 9999 - 0 ≤ 9999 ∧ 10000 ≤ 10000 - 0 ∧ 60000 - 0 ≤ 60000 ∧ 60000 < 60001 - 0 ∧ 0 + 60000 < 60001) ∧
    (let c := clocks0 fun p => { p with svcStale := some 0 }; c.pwr.svcStart = none ∧ c.pwr.svcStale = some 0 ∧ c.pwr.svcDone = false) ∧
    (let c := clocks0 fun p => { p with bidOpen := some 0 };
      Settled c ∧ c.logicUp = true ∧ c.pwr.bidOpen = some 0 ∧ 0 ≤ c.backup.ms) := by
  refine ⟨?_, ?_, ?_, ⟨settled_clocks0 ?_, ?_⟩, ⟨?_, ?_, ?_, ?_, settled_run0⟩, fun _ => ⟨rfl, rfl, rfl, rfl⟩, ?_, ?_, settled_clocks0 ?_, ?_⟩
  all_goals decide

/-! ### The deck and the start sequence -/

/-- A card: its header, payload and CRC. -/
def cardOf (typ : Nat) (payload : List Nat) (crc : Nat) : List Nat :=
  Byte.le 2 typ ++ [1, 0] ++ Byte.le 4 (payload.length + 12) ++ payload ++ Byte.le 4 crc

def headPayload : List Nat :=
  Byte.le 2 1 ++ Byte.le 2 0 ++ Byte.le 4 300 ++ Byte.le 4 0 ++ Byte.le 4 7 ++ List.replicate 20 0
def trumpPayload : List Nat :=
  List.replicate 32 0 ++ (List.replicate 16 [1, 0]).flatten ++ List.replicate 92 0 ++ [1, 0, 0, 0]
def signPayload : List Nat := [1] ++ List.replicate 67 0

/-- The smallest deck: DECK_HEAD, a trump card that enables no bay, and a SIGNATURE card of ALG 1, 300 bytes. -/
def deck0 : List Nat :=
  cardOf 1 headPayload 0xCAED6AF ++ cardOf 2 trumpPayload 0x59DFFFC6 ++ cardOf 0x7FFF signPayload 0x7681E97A

def heldCard (idx off typ : Nat) (p : List Nat) : Held :=
  { idx := idx, off := off, card := { typ := typ, version := 1, flags := 0, payload := p } }
def deckHeld : Deck := [heldCard 0 0 1 headPayload, heldCard 1 48 2 trumpPayload, heldCard 2 220 0x7FFF signPayload]

/-- A CRC-32C over a string in two parts. -/
theorem crc32c_two (a b p : List Nat) (k1 k2 : Nat) (h : p = a ++ b) (h1 : a.foldl crc32cByte 0xFFFFFFFF = k1)
    (h2 : b.foldl crc32cByte k1 = k2) : crc32c p = k2 ^^^ 0xFFFFFFFF := by
  subst h h1 h2
  simp only [crc32c, List.foldl_append]

/-- What the walk asks of the bytes of one card, but for its CRC. -/
def cardFits (total off idx typ flags len crc : Nat) (rest payload : List Nat) (seen : Deck) : Prop :=
  (off < total ∧ Byte.u16 (flashRead rest 8) 0 = typ ∧ Byte.u8 (flashRead rest 8) 2 = 1 ∧ Byte.u8 (flashRead rest 8) 3 = flags ∧
    Byte.u32 (flashRead rest 8) 4 = len) ∧
  (lengthBad typ len (total - off) = false ∧ ((flashRead rest len).drop 8).take (len - 12) = payload ∧
    Byte.u32 (flashRead rest len) (len - 4) = crc) ∧
  orderBad idx typ flags payload (off + len == total) seen = false ∧ payloadReason typ len payload = 0

/-- One card of a walk. -/
theorem walk_card {metro : Nat × Nat} {total fuel off idx typ flags len crc : Nat} {rest payload : List Nat} {seen : Deck}
    (h : cardFits total off idx typ flags len crc rest payload seen) (hc : crc32c ((flashRead rest len).take (len - 4)) = crc)
    (hk : typeCheck typ 1 flags payload metro = .ok false) :
    deckWalk metro total (fuel + 1) off idx rest seen = deckWalk metro total fuel (off + len) (idx + 1) (rest.drop len)
      ({ idx := idx, off := off, card := { typ := typ, version := 1, flags := flags, payload := payload } } :: seen) := by
  obtain ⟨⟨ho, ht, hv, hf, hl⟩, ⟨hb, hp, hc'⟩, hq, hr⟩ := h
  subst ht hl hp hc hf
  conv => lhs; unfold deckWalk
  simp [Nat.not_le.mpr ho, hb, hc', hv, hk, hq, hr]

/-- The device with deck key 0, a Declarer on session 5, running from slot 1. -/
def owner0 : Chip := fields [(Reg.UPD_DECK_STAT_RUN, 0, 1)] { run0 with
  sec := { run0.sec with root := true, entries := [(2, { keyId := 0x20, kind := 4, bind := 0, ctr := 1, mat := [] })] }
  hst := { run0.hst with decl := some 5, sess := run0.hst.sess.set 5 { state := 2, rank := 15 } } }

def rq5 : Request := { sess := 5, tag := 0 }

def seen0 (n : Nat) : Deck := (deckHeld.take n).reverse
theorem deck0_fits : cardFits 300 0 0 1 0 48 0xCAED6AF deck0 headPayload (seen0 0) ∧
    cardFits 300 48 1 2 0 172 0x59DFFFC6 (deck0.drop 48) trumpPayload (seen0 1) ∧
    cardFits 300 220 2 0x7FFF 0 80 0x7681E97A ((deck0.drop 48).drop 172) signPayload (seen0 2) := by
  unfold cardFits
  decide +kernel

theorem deck0_crc : crc32c ((flashRead deck0 48).take 44) = 0xCAED6AF ∧ crc32c ((flashRead (deck0.drop 48) 172).take 168) = 0x59DFFFC6 ∧
    crc32c ((flashRead ((deck0.drop 48).drop 172) 80).take 76) = 0x7681E97A :=
  ⟨by decide +kernel, crc32c_two ((deck0.drop 48).take 84) ((deck0.drop 132).take 84) _ 0xA7E37346 0xA6200039
    (by decide +kernel) (by decide +kernel) (by decide +kernel), by decide +kernel⟩

theorem deck0_walk (metro : Nat × Nat) : deckWalk metro 300 19 0 0 deck0 [] = .ok (deckHeld, 3) :=
  (walk_card (fuel := 18) deck0_fits.1 deck0_crc.1 rfl).trans
    ((walk_card (fuel := 17) deck0_fits.2.1 deck0_crc.2.1 rfl).trans
      ((walk_card (fuel := 16) deck0_fits.2.2 deck0_crc.2.2 rfl).trans rfl))

/-- `deck0` passes every check in a device with its key, no rollback floor and no sealed copy. -/
theorem deck0_ok {slot : Nat} {c : Chip} (hf : c.deck.flash[slot]?.getD [] = deck0) (hk : deckSigned deckHeld true c = true)
    (h0 : c.store.floor = 0) (hs : c.store.sealed = none) : deckCheck slot true c = .ok deckHeld := by
  have ht : deckTotal deck0 = 300 := by decide +kernel
  have hw := deck0_walk c.upd.metro
  unfold deckCheck
  simp only [hf, ht, show (300 : Nat) / 16 + 1 = 19 from rfl, hw, show deckHeld.filter (fun h => !h.skip) = deckHeld from rfl]
  have h1 : Byte.u32 ((Option.map (fun x => x.p) (deckHeld.one 1)).getD []) 8 = 0 := by decide +kernel
  have h2 : crossCheck 2 deckHeld = none := by decide +kernel
  have h3 : Byte.u64 ((Option.map (fun x => x.p) (deckHeld.one 1)).getD []) 16 = 0 := by decide +kernel
  have h4 : trumpBounds deckHeld = none := by decide +kernel
  simp [hk, h0, hs, sealedFault, h1, h2, h3, h4]

/-- The deck of `deck0` as bytes. -/
def deckBytes : List Byte := deck0.map (BitVec.ofNat 8 ·)
def deckFor (slot : Nat) (c : Chip) : Chip := deckWritten slot (Byte.nats deckBytes) (frameTake 5 c)
/-- Slot 0 holds a deck whose last check passed. -/
def loaded0 : Chip := setF Reg.UPD_DECK_STAT_A_OK 0 1 owner0

theorem serves_owner0 : Serves 5 owner0 := by
  unfold Serves
  decide +kernel
theorem serves_loaded0 : Serves 5 loaded0 := by
  unfold Serves
  decide +kernel

theorem witness_DecksLoadActivateAndCommit :
    (Owns 5 owner0 ∧ deckBytes.length = 300 ∧ getF Reg.UPD_DECK_STAT_RUN 0 owner0 ≠ 0) ∧
    deckCheck 0 true (deckFor 0 owner0) = .ok deckHeld ∧
    deckCheck 0 true (deckWritten 0 (Byte.nats (List.replicate 300 0)) (frameTake 5 owner0)) = .error { reason := 1, idx := 0, off := 0 } ∧
    (Owns 5 loaded0 ∧ activateSlot (frameTake 5 loaded0) = some 0 ∧ activateRefused (frameTake 5 loaded0) = .ok) ∧
    (activateRefused (frameTake 5 owner0) = .busy ∧ Settled owner0) := by
  refine ⟨⟨⟨serves_owner0, ?_⟩, ?_⟩, deck0_ok ?_ ?_ ?_ ?_, rfl, ⟨⟨serves_loaded0, ?_⟩, ?_⟩, ?_, settledB_ok ?_⟩
  all_goals decide +kernel

/-- A start at which everything is found in order. -/
def env0 : StartEnv :=
  { retentionOk := true, pufOk := true, dramOk := true, size4 := false, imgA := true, imgB := true, sigA := true, sigB := true
    trumpOk := true, inputs := 0, srstHigh := true, deckMs := 100 }
/-- The smallest firmware image. -/
def img0 : List Nat := Byte.le 2 0x4B46 ++ [1, 0] ++ Byte.le 4 4096 ++ List.replicate 4088 0
/-- The device in reset with a confirmed image in slot 0 and a deck in slot 0. -/
def ready0 : Chip := { resetC with
  upd := { resetC.upd with
    hdr := #v[some { seq := 1, pref := 0, states := #v[3, 0], tries := 0, bare := [] }, none], img := #v[img0, []] }
  deck := { resetC.deck with flash := #v[deck0, []] }
  sec := owner0.sec }

/-- The same device with an empty deck slot. -/
def blank0 : Chip := { ready0 with deck := resetC.deck }

theorem loader_setF {f : Fld} {i : Nat} (h : f.home ≠ Reg.UPD_STAT_NO_FW.home ∨ fkey Reg.UPD_STAT_NO_FW 0 ≠ fkey f i) (v : Nat)
    (c : Chip) : loaderRuns (setF f i v c) = loaderRuns c := by
  unfold loaderRuns
  rw [getF_setF_ne _ _ _ _ _ _ h]
theorem loader_record (x : SecState) (y : UpdState) (c : Chip) : loaderRuns { c with sec := x, upd := y } = loaderRuns c := rfl

theorem bootImage_loader (s : Nat) (c : Chip) : loaderRuns (bootImage s c) = loaderRuns c := by
  unfold bootImage
  generalize sha256 _ = m
  simp only [List.range, List.range.loop, List.foldl]
  rw [loader_record]
  repeat rw [loader_setF (by decide)]

/-- The image of the preferred slot 0, confirmed and found in order, is booted. -/
theorem fwSelect_first {a b : Bool} {c : Chip} (h1 : (bootHdr (hdrShow (failedBoot c))).pref = 0)
    (h2 : slotState 0 (hdrShow (failedBoot c)) = 3) (h3 : (imgCheck none 0 a (hdrShow (failedBoot c))).2 = true) :
    loaderRuns (fwSelect a b c) = loaderRuns (triesRise 0 (getF Reg.PWR_RSTCAUSE_CAUSE 0 (hdrShow (failedBoot c)))
      (imgCheck none 0 a (hdrShow (failedBoot c))).1) := by
  simp [fwSelect, h1, h2, h3, bootImage_loader]

theorem startPrep_loader (e : StartEnv) (c : Chip) : loaderRuns (startPrep e c) =
    loaderRuns (fwSelect e.imgA e.imgB (startMemory e.dramOk e.size4 (startKeys e.pufOk (startBackup e c)))) := by
  unfold startPrep
  rw [loader_setF (by decide)]

theorem ready0_boots : loaderRuns (startPrep env0 ready0) = false := by
  rw [startPrep_loader, fwSelect_first] <;> decide +kernel

theorem ready0_prep : getF Reg.UPD_DECK_STAT_PREF 0 (startPrep env0 ready0) = 0 ∧
    deckSigned deckHeld true (startPrep env0 ready0) = true ∧
    trumpRefused true (heldCard 1 48 2 trumpPayload).card (startPrep env0 ready0) = false := by decide +kernel

theorem deckAccept_loader (slot ms : Nat) (d : Deck) (h : Held) (c : Chip) :
    loaderRuns (deckAccept slot ms d h c) = loaderRuns c := by
  unfold deckAccept
  generalize deckDigest slot c = m
  simp only [List.range, List.range.loop, List.foldl]
  repeat rw [loader_setF (by decide)]
  rfl

theorem deckRecord_loader (slot : Nat) (hs : slot < 2) (c : Chip) : loaderRuns (deckRecord slot none c) = loaderRuns c := by
  obtain rfl | rfl : slot = 0 ∨ slot = 1 := by omega
  all_goals
    unfold deckRecord
    dsimp only
    repeat rw [loader_setF (by decide)]

/-- A deck that is accepted and whose trump card the HSL takes is chosen, and the choice starts no recovery loader. -/
theorem chooses_of {e : StartEnv} {c : Chip} {d : Deck} {h : Held} (hp : getF Reg.UPD_DECK_STAT_PREF 0 c = 0)
    (hs : e.sigA = true) (ht : e.trumpOk = true) (hd : deckCheck 0 true c = .ok d) (h2 : d.one 2 = some h)
    (hr : trumpRefused true h.card c = false) :
    (deckChoose e c).2 = true ∧ loaderRuns (deckChoose e c).1 = loaderRuns c := by
  simp [deckChoose, slotTry, hp, hs, ht, hd, h2, hr, deckAccept_loader, deckRecord_loader]

theorem ready0_chooses : (deckChoose env0 (startPrep env0 ready0)).2 = true ∧
    loaderRuns (deckChoose env0 (startPrep env0 ready0)).1 = false := by
  refine ready0_boots ▸ chooses_of (h := heldCard 1 48 2 trumpPayload) ready0_prep.1 rfl rfl
    (deck0_ok ?_ ready0_prep.2.1 ?_ ?_) ?_ ready0_prep.2.2
  all_goals decide +kernel

theorem witness_StartSequenceChooses :
    (resetC.pwr.phase = .startDue ∧ resetC.powered = true ∧ resetC.pwr.pfLow = false ∧
      loaderRuns (deckChoose env0 (startPrep env0 resetC)).1 = true) ∧
    (let c : Chip := { resetC with pwr := { resetC.pwr with pfLow := true } };
      c.pwr.phase = .startDue ∧ c.powered = true ∧ c.pwr.pfLow = true) ∧
    (ready0.pwr.phase = .startDue ∧ ready0.powered = true ∧ ready0.pwr.pfLow = false ∧ env0.dramOk = true ∧
      (deckChoose env0 (startPrep env0 ready0)).2 = true ∧ loaderRuns (deckChoose env0 (startPrep env0 ready0)).1 = false) ∧
    (blank0.pwr.phase = .startDue ∧ blank0.powered = true ∧ blank0.pwr.pfLow = false ∧
      (deckChoose env0 (startPrep env0 blank0)).2 = false) ∧ ({ env0 with dramOk := false } : StartEnv).dramOk = false := by
  refine ⟨?_, ?_, ⟨?_, ?_, ?_, ?_, ready0_chooses⟩, ?_, rfl⟩
  all_goals decide +kernel

/-! ### The Dealer -/

/-- Link hands 2 (class 1), 5 (class 2) and 20 (class 1, older) have work pending. -/
def linked0 : Chip :=
  let a := run0.dlr.links.set 2 { work := [{ cls := 1, event := 9 }] }
  let b := a.set 5 { work := [{ cls := 2, event := 1 }] }
  { run0 with dlr := { run0.dlr with links := b.set 20 { work := [{ cls := 1, event := 3 }] } } }
/-- Link hand 15 is served at edge 12, its frame that ended at cycle `n`. -/
def linked1 (n : Nat) : Chip :=
  let x : LinkHand := { serving := some { cls := 1, event := n, payload := [7] }, engine := some 0 }
  { run0 with dlr := { run0.dlr with edges := 12, links := run0.dlr.links.set 15 x } }
def linksUp (c : Chip) : Bool := c.pwr.phase == .run && c.pwr.linkPll && !c.upd.pause && getF Reg.PWR_STATE_STATE 0 c != 3

theorem witness_LinkTrickDealsByClassAndAge :
    (linked0.pwr.phase = .run ∧ linked0.pwr.linkPll = true ∧ linked0.upd.pause = false ∧
      getF Reg.PWR_STATE_STATE 0 linked0 ≠ 3 ∧ linksUp (linked1 0) = true ∧ linksUp (linked1 6400) = true) ∧
    (Settled linked0 ∧ ∀ n, Settled (linked1 n)) ∧
    (∀ h : Fin 32, (linked0.dlr.links[h.val]).serving = none) ∧ (linked0.dlr.links[20]).work ≠ [] ∧
    (∀ k : Fin 32, k ≠ 20 → (linked0.dlr.links[k]).work ≠ [] →
      (linked0.dlr.links[20]).cls < (linked0.dlr.links[k]).cls ∨ ((linked0.dlr.links[20]).cls = (linked0.dlr.links[k]).cls ∧
        ((linked0.dlr.links[20]).oldest.getD 0 < (linked0.dlr.links[k]).oldest.getD 0 ∨
          ((linked0.dlr.links[20]).oldest.getD 0 = (linked0.dlr.links[k]).oldest.getD 0 ∧ 20 < k)))) ∧
    ((∀ n, ((linked1 n).dlr.links[15]).serving = some { cls := 1, event := n, payload := [7] }) ∧
      (0xFFFF8000 : BitVec 32).getLsbD 15 = true ∧ 76800 < 6400 * ((linked1 0).dlr.edges + 1) - 0 ∧
      ¬76800 < 6400 * ((linked1 6400).dlr.edges + 1) - 6400) := by
  refine ⟨?_, ⟨settled_like ?_ ?_ ?_ ?_ ?_ ?_, fun n => settled_like ?_ ?_ ?_ ?_ ?_ ?_⟩, ?_, ?_, ?_, fun _ => ?_, ?_⟩
  all_goals first | rfl | decide +kernel

/-- The running device with crypto requests and waiting classes. -/
def crypto0 (r : List CeReq) (q : List (Nat × Nat)) : Chip := { run0 with dlr := { run0.dlr with reqs := r, queue := q } }
/-- Every crypto hand is held. -/
def fullHands : List CeReq := (List.range 16).map fun k => { hand := 144 + k, cls := 2, no := k }
/-- The session-start set of bay 3 has used its tricks. -/
def spent0 (r : List CeReq) (above : Bool) : Chip :=
  let c := crypto0 r []
  { c with dlr := { c.dlr with budget := c.dlr.budget.set 3 640, above := c.dlr.above.set 3 above } }
/-- Two class-1 requests, the second issued first. -/
def signing0 : List CeReq := [{ hand := 99, cls := 1, no := 2 }, { hand := 96, cls := 1, no := 1 }, { hand := 144, cls := 2, no := 0 }]

theorem settled_crypto0 (r : List CeReq) (q : List (Nat × Nat)) : Settled (crypto0 r q) := settled_like rfl rfl rfl rfl rfl rfl

theorem witness_CryptoRequestsAndTricks :
    (∀ r q, Settled (crypto0 r q) ∧ (crypto0 r q).pwr.phase = .run ∧ (crypto0 r q).bil.ksr = []) ∧
    ((∀ r ∈ (crypto0 [] []).dlr.reqs, r.hand ≠ 96 + 3 * (15 : Fin 16).val + (2 : Fin 3).val) ∧ (∀ b : Fin 16, (crypto0 [] []).dlr.budget[b] < 640) ∧
      (∃ r ∈ (crypto0 signing0 []).dlr.reqs, r.hand = 96 + 3 * (0 : Fin 16).val) ∧
      freeCryptoHand (crypto0 [] []) = some 144 ∧ freeCryptoHand (crypto0 fullHands []) = none ∧
      (crypto0 fullHands (List.replicate 63 (2, 0))).dlr.queue.length < 64 ∧
      64 ≤ (crypto0 fullHands (List.replicate 64 (2, 0))).dlr.queue.length) ∧
    ((spent0 [] false).pwr.phase = .run ∧ 640 ≤ (spent0 [] false).dlr.budget[3] ∧ freeCryptoHand (spent0 [] false) = some 144) ∧
    (({ hand := 96, cls := 1, no := 1 } : CeReq) ∈ (crypto0 signing0 []).dlr.reqs ∧
      getF Reg.PWR_STATE_STATE 0 (crypto0 signing0 []) ≠ 3 ∧
      (∀ q ∈ (crypto0 signing0 []).dlr.reqs, q.cls = 1 → q ≠ { hand := 96, cls := 1, no := 1 } → 1 < q.no) ∧
      (∀ b : Fin 16, (crypto0 signing0 []).dlr.budget[b] < 640) ∧ (((crypto0 signing0 []).dlr.windows[0]).current).given[0] < 4) ∧
    ((∃ r ∈ (crypto0 fullHands [(4, 7)]).dlr.reqs, r.hand = 159) ∧ 144 ≤ 159 ∧ (crypto0 fullHands [(4, 7)]).dlr.queue = (4, 7) :: [] ∧
      (∃ r ∈ (crypto0 signing0 []).dlr.reqs, r.hand = 96) ∧ 96 < 144) ∧
    (let r : CeReq := { hand := 105, cls := 3, no := 4 }; let c := spent0 [r] false;
      640 ≤ c.dlr.budget[3] ∧ c.dlr.above[3] = false ∧ ceSetWork 3 c = some r) := by
  refine ⟨fun r q => ⟨settled_crypto0 r q, rfl, rfl⟩, ?_, ?_, ?_, ?_, ?_⟩
  all_goals decide +kernel

/-- Element 7 is configured, with a staged pulse number. -/
def staged0 : Chip :=
  let c := fields [(Reg.MTR_CFG_KIND, 7, 1), (Reg.DLR_PEND_PENDING, 0, 128)] run0
  { c with dlr := { c.dlr with staged := [(7, [(fkey Reg.MTR_CPT_CFG_N 7, 4000)])] } }
/-- Requests of master 4 wait at its arbiter, with a saturation age of 200. -/
def arb0 (now n : Nat) : Chip :=
  let c := setF Reg.DLR_ARB_SAT 0 200 run0
  { c with dlr := { c.dlr with arb := { now := now, waiting := List.replicate n { master := 4, ticket := 0 } } } }
def arbRipe (c : Chip) (r : ArbReq) : Bool :=
  !r.saturated && decide (getF Reg.DLR_ARB_SAT 0 c ≤ (c.dlr.arb.now / 4 + 65536 - r.ticket % 65536) % 65536)

theorem witness_CommitsTakeEffectWhole :
    Settled run0 ∧ Settled staged0 ∧ (∀ now n, Settled (arb0 now n) ∧ (arb0 now n).logicUp = true) ∧
    ((∃ r ∈ (arb0 800 1).dlr.arb.waiting ++ (arb0 800 1).dlr.arb.forwarded, arbRipe (arb0 800 1) r = true) ∧
      (∀ r ∈ (arb0 799 4).dlr.arb.waiting ++ (arb0 799 4).dlr.arb.forwarded, arbRipe (arb0 799 4) r = false) ∧
      masterClass (4 : Fin 24).val = 0 ∧
      4 ≤ (((arb0 799 4).dlr.arb.waiting ++ (arb0 799 4).dlr.arb.forwarded).filter fun r => r.master == 4).length) ∧
    (writerStatus .firmware run0 = .ok ∧ writerStatus .firmware staged0 = .ok ∧ groupConfigured 7 staged0 = true ∧
      pendingGroup 7 staged0 = true ∧ groupConfigured 7 (setF Reg.MTR_CFG_KIND 7 1 run0) = true ∧
      pendingGroup 7 (setF Reg.MTR_CFG_KIND 7 1 run0) = false ∧ groupConfigured 7 run0 = false) ∧
    (staged0.dlr.staged.find? (fun e => e.1 == 7) = some (7, [(fkey Reg.MTR_CPT_CFG_N 7, 4000)]) ∧
      4000 ≠ getF Reg.MTR_CPT_CFG_N 7 staged0 ∧ 4000 = getF Reg.MTR_CPT_CFG_N 7 (setF Reg.MTR_CPT_CFG_N 7 4000 staged0) ∧
      pendingGroup 7 (setF Reg.MTR_CPT_CFG_N 7 4000 staged0) = true) := by
  refine ⟨settled_run0, settledB_ok ?_, fun _ _ => ⟨settled_congr settled_run0 ?_ ?_ ?_ ?_ ?_ ?_, ?_⟩, ?_, ?_, ?_⟩
  all_goals first | rfl | decide +kernel

/-! ### Sensing and metrology -/

/-- Stream 9 is configured in group 0, in state `x`. -/
def stream0 (x : StreamState) : Chip :=
  let c := fields [(Reg.SNS_CFG_ROLE, 9, 1), (Reg.SNS_GRP_MCK_ON, 0, 1)] run0
  { c with sns := { c.sns with streams := c.sns.streams.set 9 x } }

theorem settled_stream0 (x : StreamState) : Settled (stream0 x) :=
  settled_congr (settled_fields settled_run0 _) rfl rfl rfl rfl rfl rfl

theorem witness_StreamsAreLostAndRecover :
    (∀ x, Settled (stream0 x)) ∧
    ((stream0 {}).pwr.phase = .run ∧ (stream0 {}).pwr.mclkFault = false ∧ streamOn 9 (stream0 {}) = true ∧
      streamOn 10 (stream0 {}) = false ∧ getF Reg.SNS_GRP_MCK_ON (0 : Fin 6).val (stream0 {}) ≠ 0) ∧
    (∀ n : Fin 2, let x := (stream0 { winOnes := 8, winBits := 256, bad := n.val }).sns.streams[9];
      256 ≤ x.winBits ∧ 8 ≤ x.winOnes ∧ x.winOnes + 8 ≤ x.winBits ∧ x.lost = false) ∧
    (∀ n : Fin 2, let c := stream0 { winOnes := 7, winBits := 256, bad := n.val }; let x := c.sns.streams[9];
      streamOn 9 c = true ∧ 256 ≤ x.winBits ∧ x.winOnes < 8 ∧ x.lost = false ∧ x.recovery = false ∧ x.bad = n.val) ∧
    (let x := (stream0 { winOnes := 249, winBits := 256 }).sns.streams[9]; x.winBits < x.winOnes + 8) ∧
    (let c := stream0 { lost := true, good := 512 }; (c.sns.streams[9]).lost = true ∧ 512 ≤ (c.sns.streams[9]).good ∧
      c.sns.prtN = 40 * c.sns.metN) := by
  refine ⟨settled_stream0, ?_, ?_, ?_, ?_, ?_⟩
  all_goals decide +kernel

/-- The running device with the seal open. -/
def opened0 (c : Chip) : Chip :=
  { c with backup := { c.backup with inputs := c.backup.inputs.set 0 { level := true } } }

theorem witness_SettlingAndDelayWrites :
    (((stream0 { met := { settle := true } }).sns.streams[9]).met.left = 0 ∧
      ((stream0 { met := { settle := true } }).sns.streams[9]).prt.left = 0 ∧
      ((stream0 { met := { settle := true } }).sns.streams[9]).prt.settle = false) ∧
    (∀ n : Fin 2, let x := (stream0 { met := { integ := { pre := some (1023 + n.val, 10) } }, prt := { integ := { pre := some (40959 + n.val, 4) } } }).sns.streams[9];
      x.met.integ.pre = some (1023 + n.val, 10) ∧ x.prt.integ.pre = some (40959 + n.val, 4)) ∧
    (writerStatus .firmware (opened0 run0) = .ok ∧ sealed (opened0 run0) = false ∧
      pendingGroup (getF Reg.SNS_CFG_HOME_GROUP 9 (opened0 run0)) (opened0 run0) = false ∧
      cardU16 0x0010 9 0x10 0 (opened0 run0) - cardU16 0x0010 9 0x12 0 (opened0 run0) ≤ 0 ∧
      0 ≤ cardU16 0x0010 9 0x10 0 (opened0 run0) + cardU16 0x0010 9 0x12 0 (opened0 run0)) ∧
    (let c := fields [(Reg.MTR_CFG_KIND, 7, 1), (Reg.MTR_CFG_ISTREAM, 7, 9)] run0;
      writerStatus .firmware c = .ok ∧ sealed c = true ∧ streamBilled 9 c = true ∧ c.bil.due = []) := by decide +kernel

/-! ### Billing -/

/-- The running device on 2026-01-01 at noon UTC, its clock valid, and `f` of its ledger unit. -/
def clock0 (f : LedgerState → LedgerState) : Chip :=
  { run0 with backup := { run0.backup with wallValid := true, wallOff := 820497600000 }, bil := f run0.bil }
/-- A cycle of billing element 7 is in progress, its samples taken up to now. -/
def cycle0 : Chip :=
  let c := setF Reg.MTR_CFG_KIND 7 1 (clock0 id)
  { c with mtr := c.mtr.set 7 { running := true, upTo := some 0 } }
def due0 (n : Nat) : Due := { mt := 5, wall := 820497600005, wallOk := true, tariff := 1, demand := true, periods := n }
/-- Two boundaries wait whose cycles are past, with `n` periods to close. -/
def duly0 (n : Nat) : Chip :=
  { clock0 (fun b => { b with due := [due0 n, due0 0] }) with store := { run0.store with period := 1 } }

theorem witness_BoundariesMarkAndRunWhatIsDue :
    (cycle0.pwr.phase = .run ∧ cycle0.bil.due = [] ∧ intervalIdx cycle0 ≠ cycle0.bil.ivlIdx ∧
      ∃ e, e < 64 ∧ elemBilling e cycle0 = true ∧ elemPast (nowFine cycle0) cycle0 e = false) ∧
    (∀ n : Fin 2, (duly0 n.val).pwr.phase = .run ∧ (duly0 n.val).bil.due = due0 n.val :: [due0 0] ∧ dueReady (duly0 n.val) = true ∧
      (due0 n.val).demand = true ∧ (duly0 n.val).bil.deferred = [] ∧ (due0 n.val).periods = n.val ∧
      (duly0 n.val).store.period < 0xFFFFFFFF ∧ 1 ≤ (duly0 n.val).store.period) ∧
    (Settled cycle0 ∧ cycle0.pwr.phase = .run ∧ dueReady cycle0 = false ∧ cycle0.pwr.timerWake = false) := by
  refine ⟨⟨?_, ?_, ?_, 7, ?_⟩, ?_, settledB_ok ?_, ?_⟩
  all_goals decide +kernel

/-- The clock is valid and the legal store is as given. -/
def stored0 (f : LegalStore → LegalStore) : Chip := { clock0 id with store := f run0.store }
def over0 (t a b : Nat) : Override := { tariff := t, start := a, stop := b }
/-- The clock stands behind the current period. -/
def behind0 : Chip := { clock0 (fun b => { b with behind := true }) with store := { run0.store with perIdx := some 0, perStart := 1 } }

/-- The owner's device with the billing command key in entry 6. -/
def biller0 : Chip := { owner0 with
  backup := (clock0 id).backup
  sec := { owner0.sec with entries := owner0.sec.entries ++ [(6, { keyId := 0x24, kind := 4, bind := 0, ctr := 1, mat := [] })] }
  store := { owner0.store with ring := [{ number := 1, flags := 0, startWall := 0, endWall := 1, endMt := 1, sets := Vector.replicate 17 {} }] } }
/-- The body of a signed command: command, counter and arguments. -/
def signedBody (cmd ctr : Nat) (args : List Nat) : List Byte :=
  (Byte.le 2 cmd ++ [0, 0] ++ Byte.le 4 ctr ++ Byte.le 8 0 ++ args ++ List.replicate (88 - args.length) 0).map (BitVec.ofNat 8 ·)
def wallBody : List Byte := signedBody 1 1 (Byte.le 8 820497600000)
def tariffBody (t : Nat) : List Byte := signedBody 2 1 [t]
theorem serves_biller0 : Serves 5 biller0 := by
  unfold Serves
  decide +kernel
/-- The same with START and END of wall time. -/
def overBody (t a b : Nat) : List Byte := signedBody 2 1 ([t] ++ List.replicate 7 0 ++ Byte.le 8 a ++ Byte.le 8 b)
def wallArgs (b : List Byte) : Bool := (List.range 16).all fun k => Byte.u8 (Byte.nats b) (0x18 + k) == 0

/-- TARIFF_SET with `b` passes every check of the owner's device. -/
def tariffOk0 (b : List Byte) : Prop :=
  signedCheck 5 2 (Byte.nats b) true (tariffArgs (Byte.nats b) (frameTake 5 biller0)) (frameTake 5 biller0) = .ok

theorem witness_OverridesAndSignedCommands :
    (let c := stored0 fun t => { t with pending := some (over0 3 820497600000 0) };
      c.backup.wallValid = true ∧ c.pwr.phase = .run ∧ c.store.pending = some (over0 3 820497600000 0) ∧
        (820497600000 : Int) ≤ c.wall) ∧
    (let c := stored0 fun t => { t with override := some (over0 3 0 820497600000) };
      c.backup.wallValid = true ∧ c.pwr.phase = .run ∧ c.store.override = some (over0 3 0 820497600000) ∧ 820497600000 ≠ 0 ∧
        (820497600000 : Int) ≤ c.wall) ∧
    (Settled behind0 ∧ behind0.backup.wallValid = true ∧ behind0.bil.behind = true ∧ beforePeriod behind0 = false) ∧
    (Owns 5 biller0 ∧ Settled biller0 ∧
      signedCheck 5 1 (Byte.nats wallBody) true (wallArgs wallBody) (frameTake 5 biller0) = .ok ∧
      signedCheck 5 1 (Byte.nats wallBody) false (wallArgs wallBody) (frameTake 5 biller0) = .sig ∧
      tariffOk0 (tariffBody 0xFF) ∧ tariffOk0 (tariffBody 8) ∧ tariffOk0 (overBody 8 820498500000 0) ∧
      Byte.u8 (Byte.nats (tariffBody 0xFF)) 0x10 = 0xFF ∧ Byte.u8 (Byte.nats (tariffBody 8)) 0x10 = 8 ∧
      Byte.u64 (Byte.nats (tariffBody 8)) 0x18 = 0 ∧ Byte.u64 (Byte.nats (overBody 8 820498500000 0)) 0x18 ≠ 0 ∧
      biller0.store.ring[0]?.isSome = true) := by
  refine ⟨?_, ?_, ⟨settledB_ok ?_, ?_⟩, ⟨serves_biller0, ?_⟩, settledB_ok ?_, ?_, ?_, ?_⟩
  all_goals first | decide +kernel | (unfold tariffOk0; decide +kernel)

/-- The running device whose legal store is reconciled, at `ms`. -/
def saver0 (ms : Nat) (f : LedgerState → LedgerState) : Chip :=
  { run0 with bil := f { run0.bil with ready := true }, backup := { run0.backup with ms := ms } }
def saveRun0 : SaveRun :=
  { slot := 1, banks := Vector.replicate 2 {}
    copy := { seq := 2, mt := 0, sets := Vector.replicate 17 {}, ivl := Vector.replicate 17 (0, 0), ivlIdx := 0, tariff := 1, period := 1 } }
/-- A power-fail warning is in force. -/
def warned0 : Chip := setF Reg.PWR_PFW_ACTIVE 0 1 run0
/-- A session of bay 15 waits for its start reading; two of bay 0 have ended. -/
def reading0 : Chip :=
  saver0 0 fun b => { b with
    read := b.read.set 15 { startAt := some 0, number := 9 }
    done := b.done.set 0 [{ openAt := some 0, number := 7 }, { openAt := some 0, number := 8 }] }
/-- The legal run has shown item `k` of a LEGAL_SEQ card with two items, the first a plain one or an identity, for its 3 s. -/
def showing0 (code k : Nat) : Chip :=
  { withCard 0x0023 [2, 0, 0, 0, 0, 0, 0, 0, code, 0, 3, 0, 1, 0, 3, 0] run0 with
    legal := { running := true, item := k, shownAt := 1000 }, backup := { run0.backup with ms := 4000 } }

theorem witness_SavesRecordsAndReadings :
    (∀ ms : Fin 2, let c := saver0 (59999 + ms.val) fun b => { b with saveRetry := true };
      c.pwr.phase = .run ∧ c.powered = true ∧ c.bil.ready = true ∧ c.bil.save = none ∧ c.bil.due = [] ∧
        getF Reg.PWR_PFW_ACTIVE 0 c ≠ 1 ∧ c.bil.saveRetry = true ∧
        decide (c.bil.perSaveAt + 60000 ≤ c.backup.ms) = (ms == 1)) ∧ Settled (saver0 59999 id) ∧
    ((saver0 0 fun b => { b with save := some saveRun0 }).bil.save = some saveRun0 ∧ saveRun0.slot < 2) ∧
    (getF Reg.PWR_PFW_ACTIVE 0 warned0 ≠ 0 ∧ warned0.pwr.phase = .run ∧ Settled warned0) ∧
    ((reading0.bil.read[15]).startAt = some 0 ∧ bayPast 15 0 reading0 = true ∧
      reading0.bil.done[0] = { openAt := some 0, number := 7 } :: [{ openAt := some 0, number := 8 }] ∧ stopReady 0 reading0 = true ∧
      (let c : Chip := { reading0 with legal := { running := true } }; c.legal.running = true ∧ c.legal.queue.length < 16 ∧
        c.bil = reading0.bil)) ∧
    (let c := showing0 9 0; dwelling c = true ∧ cardU8 0x0023 0 (8 + 4 * c.legal.item) 0 c = 9 ∧ c.legal.half = false ∧
      c.legal.shownAt + 1000 * itemDwell c ≤ c.backup.ms) ∧ Settled (showing0 9 0) ∧
    (let c := showing0 1 0; dwelling c = true ∧ cardU8 0x0023 0 (8 + 4 * c.legal.item) 0 c ≠ 9 ∧
      c.legal.item + 1 < legalCount c ∧ itemSkipped (c.legal.item + 1) c = false ∧
      c.legal.shownAt + 1000 * itemDwell c ≤ c.backup.ms) ∧ Settled (showing0 1 0) := by
  refine ⟨?_, settledB_ok ?_, ⟨?_, ?_⟩, ⟨?_, ?_, settledB_ok ?_⟩, ⟨?_, ?_, ?_, ?_, ?_, ?_, ?_⟩, ?_, settledB_ok ?_, ?_, settledB_ok ?_⟩
  all_goals first | rfl | decide +kernel

/-- Billing element 7 runs, with a state of its own. -/
def elem0 (f : ElemState → ElemState) : Chip :=
  let c := fields [(Reg.MTR_CFG_KIND, 7, 1), (Reg.MTR_LIM_CREEP, 7, 10), (Reg.MTR_CHKCFG_CHK_TOL, 7, 50)] run0
  { c with mtr := c.mtr.set 7 (f { running := true }) }
/-- Element 7 is configured by an MTR card with a capture count. -/
def counted0 : Chip := withCard 0x0011 ([7] ++ List.replicate 0x15 0 ++ Byte.le 2 5) (elem0 id)

/-- A sample waits in the slot of element 7, whose cycle has passed its limit by the sample's interval. -/
def timeout0 (f : Bool) : Chip := elem0 fun x => { x with age := 200000000000, pending := some {}, freerun := f }
/-- The protection outputs of metrology output 1 have been delivered. -/
def edge0 (f : ElemState → ElemState) : Chip := { elem0 f with sns := { run0.sns with prtN := 40 } }

theorem witness_CyclesPublishAndAreChecked :
    (let c := edge0 fun x => { x with pub := [{ vrms := 230000, freq := 50000 }] };
      c.pwr.phase = .run ∧ c.pwr.mclkFault = false ∧ c.sns.prtN = 40 * (c.sns.metN + 1) ∧
        (c.mtr[7]).pub = { vrms := 230000, freq := 50000 } :: [] ∧ (c.mtr[8]).pub = [] ∧ (∀ k : Fin 64, (c.mtr[k]).pending = none) ∧
        maxOrder c ≤ c.sns.metN + 1 ∧ elemConfigured 7 c = true) ∧
    (∀ f : Bool, let c := timeout0 f;
      elemKind 7 c = 1 ∧ (c.mtr[7]).pending.isSome = true ∧ boundaryOf 7 (slotSample 7 c) c = .forced 0 ∧ checkersOf 7 c = [] ∧
        (c.mtr[7]).freerun = f) ∧ (∀ f, Settled (timeout0 f)) ∧
    (let c := elem0 fun x => { x with winDone := some { inv := true } };
      Settled c ∧ (c.mtr[7]).winDone = some { inv := true }) ∧
    (let w : CheckWin := { eb := 12500 * powerDen, ec := 12600 * powerDen, wb := 1, wc := 1 }; let c := elem0 fun x => { x with winDone := some w };
      (c.mtr[7]).winDone = some w ∧ w.inv = false ∧ w.eb ≠ 0 ∧
        125 * 10 * getF Reg.MTR_LIM_CREEP 7 c * w.wb * powerDen ≤ w.eb.natAbs ∧
        getF Reg.MTR_CHKCFG_CHK_TOL 7 c * w.eb.natAbs < 10000 * (w.ec - w.eb).natAbs) ∧
    (let v : Vector Nat 8 := Vector.replicate 8 5; let c := elem0 fun x => { x with cptDue := some v }; Settled c ∧ (c.mtr[7]).cptDue = some v) ∧
    (writerStatus .firmware counted0 = .ok ∧ Settled counted0 ∧ pendingGroup 7 counted0 = false ∧
      cardU16 0x0011 7 0x16 0 counted0 ≠ 0 ∧ elemKind 7 staged0 ≠ 0 ∧ pendingGroup 7 staged0 = true ∧ Settled staged0) := by
  have h : ∀ f, Settled (elem0 f) := fun f => settled_congr (settled_fields settled_run0 _) rfl rfl rfl rfl rfl rfl
  refine ⟨?_, ?_, fun f => h _, ⟨h _, ?_⟩, ?_, ⟨h _, ?_⟩, ?_, settledB_ok ?_, ?_, ?_, ?_, ?_, settledB_ok ?_⟩
  all_goals decide +kernel

/-! ### Ill-formed commands are refused -/

theorem test_wf_cut_past_the_end : Instr.wf (.deckLoad { sess := 0, tag := 0 } 0 [1, 2] true (some 3)) = false := by decide
theorem test_wf_too_many_pilot_samples : Instr.wf (.pilotPeriodStart 0 (List.replicate 1001 0) false) = false := by decide +kernel
theorem test_wf_pilot_sample_too_high : Instr.wf (.pilotPeriodStart 0 [15001] false) = false := by decide
theorem test_wf_pilot_sample_too_low : Instr.wf (.pilotPeriodStart 0 [-15001] false) = false := by decide
theorem test_wf_empty_prox_window : Instr.wf (.proxWindowEnd 0 []) = false := by decide
theorem test_wf_long_stack_status : Instr.wf (.stackStatus 0 (List.replicate 65 0)) = false := by decide
theorem test_wf_long_stack_fault : Instr.wf (.stackFault 0 (List.replicate 65 0)) = false := by decide
theorem test_wf_long_axstat : Instr.wf (.axstat 0 (List.replicate 65 0)) = false := by decide
theorem test_wf_scrub_off_a_word : Instr.wf (.scrubRead true 4 0 none) = false := by decide
theorem test_wf_ten_cards :
    Instr.wf (.readerPoll (List.replicate 10 { uid := [1, 2, 3, 4], token := none, broken := false }) false 0) = false := by decide
theorem test_wf_uid_of_five : Instr.wf (.readerPoll [{ uid := [1, 2, 3, 4, 5], token := none, broken := false }] false 0) = false := by
  decide

/-! ### Bays -/

/-- The payload of a trump card that enables every bay, with steps of 100 in duty and a gate permission for every channel. -/
def trumpOn : List Nat :=
  List.replicate 32 0 ++ (List.replicate 16 [100, 0]).flatten ++ [255, 255] ++ List.replicate 26 0 ++ List.replicate 8 255 ++
    List.replicate 60 0
/-- The running device holds `trumpOn`, its bays configured by fields. -/
def bays0 (l : List (Fld × Nat × Nat)) (c : Chip) : Chip := fields l { c with hsl := { c.hsl with trump := some trumpOn } }
def hb (n : Nat) (f : HslBay → HslBay) (c : Chip) : Chip := hslBayPut n (f (hslBay n c)) c
def bb (n : Nat) (f : BayState → BayState) (c : Chip) : Chip := bayPut n (f (bayGet n c)) c
def atMs (ms : Nat) (c : Chip) : Chip := { c with backup := { c.backup with ms := ms } }
/-- A pilot period at 9 V high and -12 V low of 30 % duty. -/
def pwmSamples : List Int := List.replicate 300 9000 ++ List.replicate 700 (-12000)
def piloted0 : Chip := hb 15 (fun b => { b with cmdMode := 2, cmdDuty := 600, mode := 2, duty := 400, raw := 2, rawN := 2 }) (bays0 [] run0)
def socket0 : Chip := hb 0 (fun b => { b with proxRaw := 3, proxN := 2 }) (bays0 [(Reg.BAY_CFG_PP_MODE, 0, 1)] run0)

theorem witness_PilotAndProximity :
    (piloted0.upd.pause = false ∧ piloted0.bridgeUp = true ∧ piloted0.powered = true ∧ held piloted0 = true ∧ bayEnabled 15 piloted0 = true ∧ (hslBay 15 piloted0).cmdMode ≠ 0 ∧
      piloted0.dlr.staged.find? (fun e => e.1 == 96 + 15) = none ∧ (hslBay 15 piloted0).cmdMode = 2 ∧
      (hslBay 15 piloted0).mode = 2 ∧ (hslBay 15 piloted0).duty ≠ 100 ∧ piloted0.pwr.phase = .run ∧ 2 ≤ (hslBay 15 piloted0).rawN) ∧
    rawClass 2 400 2 pwmSamples ≠ 2 ∧ rawClass 2 400 2 pwmSamples ≠ 0 ∧ rawClass 2 600 2 pwmSamples = 2 ∧
    held run0 = false ∧ run0.powered = true ∧
    (socket0.powered = true ∧ baySocket 0 socket0 = true ∧ proxClass [470, 900] = (hslBay 0 socket0).proxRaw ∧
      2 ≤ (hslBay 0 socket0).proxN) := by decide +kernel

/-- Bay 15 meets every closing condition with a grant on its way, or has no safety permission. -/
def granting0 (safe : Bool) : Chip :=
  let c := bb 15 (fun b => { b with grantReq := true }) (hb 15 (fun b => { b with rec_ := 3, weldOk := true }) (bays0 [] run0))
  { c with hsl := { c.hsl with safe := c.hsl.safe.set 15 safe } }
def welded0 : Chip := atMs 100 (hb 15 (fun b => { b with offAt := some 0, wsen := some true, tOpen := 100 }) run0)
/-- The bay's grant is on its way while a TRIP flit of its own waits, or its trump card permits no gate. -/
def tripping0 : Chip := { granting0 true with bridge := { run0.bridge with trips := [.latch 15 1] } }
def barred0 : Chip := { granting0 true with hsl := { (granting0 true).hsl with trump := some (List.replicate 160 0) } }
/-- A grant request stands and can reach the power die. -/
def asks0 (c : Chip) : Bool := c.powered && (bayGet 15 c).grantReq && c.bridgeUp && !c.upd.pause

theorem witness_GrantsCloseTheGate :
    (asks0 tripping0 = true ∧ tripping0.bridge.trips = [.latch 15 1] ∧ (1 : BitVec 6) ≠ 0) ∧
    (asks0 barred0 = true ∧ barred0.bridge.trips = [] ∧ gatePermit (getF Reg.BAY_CFG_COIL_CH 15 barred0) barred0 = false ∧
      (hslBay 15 barred0).gate = false) ∧
    (∀ safe, asks0 (granting0 safe) = true ∧ (granting0 safe).bridge.trips = [] ∧
      gatePermit (getF Reg.BAY_CFG_COIL_CH 15 (granting0 safe)) (granting0 safe) = true ∧ closingOk 15 (granting0 safe) = safe) ∧
    (welded0.powered = true ∧ (hslBay 15 welded0).offAt = some 0 ∧ (hslBay 15 welded0).gate = false ∧
      (hslBay 15 welded0).wsen = some true ∧ (hslBay 15 welded0).weldDecl = false ∧ 0 + (hslBay 15 welded0).tOpen ≤ welded0.backup.ms) := by
  decide +kernel

/-- Bay `n` is configured and in state `x`, with its last snapshot free of faults. -/
def bay0 (n x : Nat) (l : List (Fld × Nat × Nat)) : Chip :=
  bays0 ([(Reg.BAY_CFG_TYPE, n, 1), (Reg.BAY_STATE_STATE, n, x), (Reg.BAY_FB_PROT_OK, n, 1), (Reg.BAY_FB_SAFE_OK, n, 1),
    (Reg.BAY_FB_WELD_OK, n, 1)] ++ l) run0
/-- The legal store is reconciled and a protection snapshot has been published. -/
def leaving0 : Chip :=
  let c := bay0 15 0 [(Reg.PRT_SEQ_SEQ, 0, 1)]
  { c with bil := { c.bil with ready := true } }
def idle0 : Chip := bay0 15 1 [(Reg.BAY_PSTAT_REC, 15, 2)]

theorem witness_SessionMachineMoves :
    (let c := bay0 15 5 [(Reg.BAY_FB_PROT_OK, 15, 0)];
      bayRuns 15 c = true ∧ (bayGet 15 c).cmd = none ∧ (bayGet 15 c).cardCmd = none ∧ bayState 15 (bayInputs 15 c) = 5 ∧
        faultReason 15 (bayInputs 15 c) = some 2) ∧
    (bayRuns 15 leaving0 = true ∧ bayState 15 leaving0 = 0 ∧ mayLeaveF 15 leaving0 = true ∧ (bayGet 15 leaving0).cmd = none ∧
      (bayGet 15 leaving0).cardCmd = none) ∧
    (bayRuns 15 idle0 = true ∧ bayState 15 idle0 = 1 ∧ faultReason 15 (bayInputs 15 idle0) = none ∧ recClass 15 idle0 = 2 ∧
      plugOk 15 idle0 = true ∧ idle0.bil.lsFail = false ∧ actPending idle0 = false ∧ (bayGet 15 idle0).hand = none ∧ (bayGet 15 idle0).move = none ∧
      (bayGet 15 idle0).cmd = none ∧ (bayGet 15 idle0).cardCmd = none) ∧
    (bayGet 15 (bb 15 (fun b => { b with move := some 1 }) run0)).move = some 1 ∧
    (let c := bb 15 (fun b => { b with move := some 2 }) run0; (bayGet 15 c).move = some 2 ∧ (bayGet 15 c).closing = false ∧ mayMoveOut 15 c = true) := by
  decide +kernel

/-- Bay 15 in state `x` with each of its timers at its end. -/
def timed0 (x : Nat) (l : List (Fld × Nat × Nat)) : Chip :=
  atMs 60000 (bay0 15 x ([(Reg.BAY_TIM0_T_LOCK, 15, 60000), (Reg.BAY_TIM1_T_AUTH, 15, 60), (Reg.BAY_TIM0_T_CLOSE, 15, 2000),
    (Reg.BAY_TIM1_T_STOP, 15, 6000), (Reg.BAY_TIM2_PAUSE_MAX, 15, 1)] ++ l))

theorem witness_BayTimersExpire :
    (timeUp 15 2 (getF Reg.BAY_TIM0_T_LOCK 15 (timed0 2 [])) (timed0 2 []) = true ∧ (bayGet 15 (timed0 2 [])).locked = false ∧
      getF Reg.BAY_CFG_LOCK_FB 15 (timed0 2 []) ≠ 15) ∧
    (getF Reg.BAY_TIM1_T_AUTH 15 (timed0 2 []) ≠ 0 ∧
      timeUp 15 2 (1000 * getF Reg.BAY_TIM1_T_AUTH 15 (timed0 2 [])) (timed0 2 []) = true) ∧
    timeUp 15 4 (getF Reg.BAY_TIM0_T_CLOSE 15 (timed0 4 [])) (timed0 4 []) = true ∧
    (let c := timed0 7 [(Reg.BAY_PSTAT_REC, 15, 4)];
      timeUp 15 7 (getF Reg.BAY_TIM1_T_STOP 15 c) c = true ∧ recClass 15 c = 4) ∧
    (getF Reg.BAY_TIM2_PAUSE_MAX 15 (timed0 6 []) ≠ 0 ∧
      timeUp 15 6 (60000 * getF Reg.BAY_TIM2_PAUSE_MAX 15 (timed0 6 [])) (timed0 6 []) = true) ∧
    (bayRuns 15 (timed0 9 []) = true ∧ bayState 15 (timed0 9 []) = 9 ∧ mayLeaveFault 15 (timed0 9 []) = true) ∧
    (let c := bb 15 (fun b => { b with undefSince := some 59900 }) (timed0 1 [(Reg.BAY_PSTAT_REC, 15, 7)]);
      bayRuns 15 c = true ∧ (bayGet 15 c).undefSince = some 59900 ∧ 59900 + 100 ≤ c.backup.ms ∧ recClass 15 c = 7 ∧
        bayState 15 c = 1) := by decide +kernel

def offered0 (t : Nat) : Chip := bay0 15 2 [(Reg.BAY_CFG_TYPE, 15, t), (Reg.BAY_LIM_IMAX, 15, 320)]

theorem witness_BayCommandsAndWrites :
    Settled (offered0 1) ∧ Settled (bb 15 (fun b => { b with cmd := some 1 }) (offered0 1)) ∧
    (writerStatus .firmware (offered0 1) = .ok ∧ cmdAccepted 15 1 (offered0 1) = true ∧ (bayGet 15 (offered0 1)).cmd = none ∧
      cmdAccepted 15 2 (offered0 1) = false ∧ (bayGet 15 (bb 15 (fun b => { b with cmd := some 1 }) (offered0 1))).cmd.isSome = true) ∧
    BayCommand .firmware 15 (.auth .firmware 15) 1 ∧
    (isDcBay 15 (offered0 1) = false ∧ 60 ≤ 320 ∧ 320 ≤ getF Reg.BAY_LIM_IMAX 15 (offered0 1) ∧
      59 < 60 ∧ getF Reg.BAY_LIM_IMAX 15 (offered0 1) < 321) ∧
    (mayPilot .firmware 15 (offered0 1) = true ∧ bayConfigured 15 (offered0 1) = true ∧ pendingGroup (96 + 15) (offered0 1) = false) ∧
    (let c : Chip := { offered0 1 with hst := { run0.hst with decl := some 0 } };
      Settled c ∧ writerStatus (.session 0) c = .ok ∧ mayPilot (.session 0) 15 c = false) := by
  refine ⟨settledB_ok ?_, settledB_ok ?_, ?_, Or.inl ⟨rfl, rfl⟩, ?_, ?_, settledB_ok ?_, ?_⟩
  all_goals decide +kernel

/-- DC bay 15, on node 5 of port 1, in state `x`. -/
def dcBay0 (x : Nat) (f : DcState → DcState) : Chip :=
  bb 15 (fun b => { b with dc := f b.dc })
    (atMs 5000 (bay0 15 x [(Reg.BAY_CFG_TYPE, 15, 3), (Reg.BAY_DC_CFG_NODE, 15, 5), (Reg.BAY_DC_CFG_PORT, 15, 1)]))
/-- A message of a stack under identifier `ident`: its first byte, its counter and its CRC. -/
def stackMsg (ident first cnt : Nat) : List Byte :=
  let m := [first, cnt] ++ List.replicate 12 0
  (m ++ Byte.le 2 (canCrc ident m)).map (BitVec.ofNat 8 ·)

theorem witness_DcStacksOnCan :
    (let c := dcBay0 3 fun d => { d with okRun := 2, statCnt := some 253 };
      canUp 15 c = true ∧ canCheck (0x180 + stackNode 15 c) (bayGet 15 c).dc.statCnt (Byte.nats (stackMsg 0x185 2 0)) = .accepted 0 2 ∧
        2 ≤ (bayGet 15 c).dc.okRun ∧ Byte.u8 (Byte.nats (stackMsg 0x185 2 0)) 0 ≠ 5) ∧
    (let c := dcBay0 3 id;
      canUp 15 c = true ∧ canCheck (0x80 + stackNode 15 c) (bayGet 15 c).dc.faultCnt (Byte.nats (stackMsg 0x85 9 255)) = .accepted 255 0 ∧
        c.upd.pause = false) ∧
    (let c := setF Reg.BAY_DC_STAT_ONLINE 15 1 (dcBay0 3 fun d => { d with statAt := 4940 });
      canUp 15 c = true ∧ getF Reg.BAY_DC_STAT_ONLINE 15 c = 1 ∧ (bayGet 15 c).dc.statAt + 60 ≤ c.backup.ms) ∧
    (∀ k : Fin 2, let c := dcBay0 3 fun d => { d with stage := 1 + 2 * k.val, since := 5000 };
      bayRuns 15 c = true ∧ bayState 15 c = 3 ∧ (bayGet 15 c).dc.stage = 1 + 2 * k.val ∧
        (bayGet 15 c).dc.since + cardU16 0x0031 15 0xC 0 c ≤ c.backup.ms) ∧
    (let c := setF Reg.BAY_FB_GRANT 15 1 (dcBay0 7 fun d => { d with stopAt := some 3000 });
      bayRuns 15 c = true ∧ (bayGet 15 c).dc.stopAt = some 3000 ∧ isDcBay 15 c = true ∧ getF Reg.BAY_FB_GRANT 15 c = 1 ∧
        3000 + 2000 ≤ c.backup.ms) ∧
    ((dcBay0 1 id).pwr.phase = .run ∧ isDcBay 15 (dcBay0 1 id) = true ∧ getF Reg.BAY_DC_CFG_PORT 15 (dcBay0 1 id) = 1) ∧
    Settled (dcBay0 1 id) := by
  refine ⟨?_, ?_, ?_, ?_, ?_, ?_, settledB_ok ?_⟩
  all_goals decide +kernel

/-! ### Protection -/

def ip (n : Nat) (f : ProtInst → ProtInst) (c : Chip) : Chip := protPut n (f (protGet n c)) c
/-- A device whose protection instance 16 follows 200, and is passed `v`. -/
def limited0 (v : Nat) : Chip := atMs 5000 (ip 16 (fun p => { p with follow := 200, lim := 300, olds := [(300, 1)], first := false, passed := some v }) run0)
/-- The deck has a protection card for instance `n`, which holds every latch. -/
def latched0 (n : Nat) : Chip := putLatch n 63 (withCard 0x0040 (Byte.le 2 n ++ List.replicate 30 0) run0)
/-- A measurement state of bay 15 is at its end, the pole voltage's means at `v`. -/
def dcIns0 (inj : Bool) (v : Int) : Chip :=
  insPut 15 { inj := inj, n := insPhase, sumP := 7, sumN := 8, pp0 := v, sumPP := v } (dcBay0 3 id)

theorem witness_LimitsFollowAndBlindClears :
    (∀ v, ((limited0 v).prt.inst[16]).passed = some v ∧ ((limited0 v).prt.inst[16]).first = false ∧
      ((limited0 v).prt.inst[16]).follow = 200) ∧
    (200 < 201 ∧ 199 < 200) ∧ (∀ o ∈ ((atMs 5001 (limited0 1)).prt.inst[16]).olds, o.2 + 5000 ≤ (atMs 5001 (limited0 1)).backup.ms) ∧
    (let c := atMs 60000 (ip 15 (fun p => { p with cap := some 160, below := some 0 }) run0);
      (protGet 15 c).cap = some 160 ∧ (protGet 15 c).below = some 0 ∧ 0 + 60000 ≤ c.backup.ms) ∧
    (let c := ip 16 (fun p => { p with validN := 38400 }) (latched0 16);
      c.pwr.phase = .run ∧ protConfigured 16 c = true ∧ 38400 ≤ (c.prt.inst[16]).validN ∧ c.pwr.mclkFault = false ∧
        c.bridgeUp = true ∧ c.bridge.trips = [] ∧ latchOf 16 c &&& 0x30#6 ≠ 0) ∧
    (∀ inj : Bool, ∀ k : Fin 2, let c := dcIns0 inj (50000 * 2 ^ 61 * 160000 - k.val);
      c.pwr.phase = .run ∧ isDcBay 15 c = true ∧ (insGet 15 c).inj = inj ∧ insPhase ≤ (insGet 15 c).n ∧
        decide (((insGet 15 c).pp0.natAbs : Int) < 50000 * 2 ^ 61 * 160000) = (k == 1)) := by
  refine ⟨fun v => ⟨rfl, rfl, rfl⟩, ?_, ?_, ?_, ?_, ?_⟩
  all_goals decide +kernel

/-- Overcurrent is latched in instance 16, 60 s ago, its deck allows two clears and `n` have taken place. -/
def auto0 (n : Nat) : Chip :=
  let c := putLatch 16 4 (setF Reg.PRT_CFG_AUTO 16 2 (atMs 60000 run0))
  { c with backup := { c.backup with
    autos := c.backup.autos.set 16 (List.replicate n 0), latchAt := c.backup.latchAt.set 16 #v[none, none, some 0, none] } }
/-- Stream 9 measures the residual current of bay 15 against a threshold of 30 to 60. -/
def residual0 : Chip := fields [(Reg.SNS_CFG_ROLE, 9, 3), (Reg.SNS_CFG_BAY, 9, 15), (Reg.SNS_CFG_HOME_GROUP, 9, 15),
  (Reg.BAY_CFG_TYPE, 15, 1), (Reg.MTR_CFG_KIND, 15, 1), (Reg.PRT_CFG_IAN_LO, 15, 30), (Reg.PRT_CFG_IAN_DECK, 15, 60)] run0

/-- The last protection snapshot showed the latches of instance 16. -/
def shown0 : Chip := setF Reg.PRT_LAT_KINDS 16 63 (latched0 16)

theorem witness_LatchesClear :
    (shown0.upd.pause = false ∧ writerStatus .firmware shown0 = .ok ∧ prtClrCheck 16 15 shown0 = .state ∧
      prtClrCheck 16 4 shown0 = .ok ∧ shown0.bridge.trips = [] ∧ shown0.bridgeUp = true ∧ prtClrCheck 16 16 shown0 = .range ∧
      prtClrCheck 17 4 shown0 = .range) ∧ Settled shown0 ∧
    (∀ n : Fin 3, (auto0 n.val).pwr.phase = .run ∧ (auto0 n.val).upd.pause = false ∧ getF Reg.PRT_CFG_AUTO 16 (auto0 n.val) ≠ 0 ∧
      (latchOf 16 (auto0 n.val)).getLsbD 2 = true ∧ ((auto0 n.val).backup.latchAt[16])[2] = some 0 ∧
      0 + 60000 ≤ (auto0 n.val).backup.ms ∧ ((auto0 n.val).backup.autoSt[16])[2] = 0 ∧ (auto0 n.val).bridgeUp = true ∧
      (auto0 n.val).bridge.trips = [] ∧ autoCond 16 2 (auto0 n.val) = true ∧
      (decide ((autosLive 16 (auto0 n.val)).length < getF Reg.PRT_CFG_AUTO 16 (auto0 n.val)) = decide (n.val < 2))) ∧
    (writerStatus .firmware residual0 = .ok ∧ bayStream 3 15 residual0 = some 9 ∧
      pendingGroup (getF Reg.SNS_CFG_HOME_GROUP 9 residual0) residual0 = false ∧
      getF Reg.PRT_CFG_IAN_LO 15 residual0 = 30 ∧ 60 ≤ getF Reg.PRT_CFG_IAN_DECK 15 residual0) ∧ Settled residual0 := by
  refine ⟨?_, settledB_ok ?_, ?_, ?_, settledB_ok ?_⟩
  all_goals decide +kernel

def meas0 : SwitchMeas := { ma := Vector.replicate 48 100, tj := Vector.replicate 48 850, caseT := Vector.replicate 6 500 }

theorem witness_SnapshotsArePublished :
    ((latched0 16).pwr.phase = .run ∧ protConfigured 16 (latched0 16) = true) ∧
    (let c : Chip := { latched0 16 with pwr := { run0.pwr with phase := .bare } };
      c.pwr.phase = .bare ∧ mapWf c.regs = true ∧ mapWf c.bregs = true) ∧
    (let c : Chip := { run0 with lsw := { run0.lsw with granted := true } };
      c.pwr.phase = .run ∧ c.lsw.granted = true ∧ c.bridgeUp = true ∧ c.bil.saveRetry = false) := by decide +kernel

/-! ### Vehicle links -/

def vb (n : Nat) (f : VLinkState → VLinkState) (c : Chip) : Chip := vlinkPut n (f (vlink n c)) c
/-- Bay 15 in state `x` with high-level communication, its link in state `v`. -/
def linkBay0 (x v : Nat) (l : List (Fld × Nat × Nat)) : Chip :=
  atMs 40000 (bay0 15 x ([(Reg.BAY_CFG_HLC, 15, 1), (Reg.LNK_VSTAT_STATE, 15, v)] ++ l))
def testing0 : Chip := linkBay0 2 1 [(Reg.LNK_TEST_RUNNING, 0, 1), (Reg.BAY_CFG_TYPE, 3, 1)]
def slac0 : Chip := linkBay0 2 1 [(Reg.BAY_PSTAT_MODE, 15, 2), (Reg.BAY_PSTAT_DUTY, 15, 100),
  (Reg.BAY_STATE_STATE, 0, 2), (Reg.LNK_VSTAT_STATE, 0, 2), (Reg.BAY_PSTAT_MODE, 0, 2), (Reg.BAY_PSTAT_DUTY, 0, 100)]
def slacLevels : Vector (Option Nat) 16 := (Vector.replicate 16 none).set 0 (some 10) |>.set 15 (some 20)

theorem witness_VehicleLinksMatchAndFail :
    Settled run0 ∧ Settled (linkBay0 2 2 []) ∧
    (writerStatus .firmware run0 = .ok ∧ getF Reg.LNK_TEST_RUNNING 0 run0 = 0 ∧
      (∀ n : Fin 16, vState n.val run0 < 2 ∨ 4 < vState n.val run0) ∧ writerStatus .firmware (linkBay0 2 2 []) = .ok ∧
      getF Reg.LNK_TEST_RUNNING 0 (linkBay0 2 2 []) = 0 ∧ vState 15 (linkBay0 2 2 []) = 2) ∧
    (getF Reg.LNK_TEST_RUNNING 0 testing0 = 1 ∧ getF Reg.BAY_CFG_TYPE 15 testing0 ≠ 0 ∧ getF Reg.BAY_CFG_TYPE 3 testing0 ≠ 0 ∧
      vState 3 testing0 = 0 ∧ hlcLive 15 testing0 = true ∧ hlcLive 3 testing0 = false) ∧
    (vlinksRun slac0 = true ∧ slacWinner 7 9 slacLevels slac0 = some 15 ∧ (slacLevels[0]?.getD none).isSome = true ∧
      slacQualifies 7 9 0 slac0 = true ∧ slacQualifies 7 9 3 slac0 = false ∧ slacLevels[3]?.getD none = none) ∧
    (∀ k : Fin 2, let c := linkBay0 2 1 [(Reg.LNK_VSTAT_TRY, 15, k.val + 1)]; bayRuns 15 c = true ∧ hlcLive 15 c = true ∧ vState 15 c = 1 ∧
      (vlink 15 c).slacAt + tSlac c ≤ c.backup.ms ∧ (decide (getF Reg.LNK_VSTAT_TRY 15 c < slacTry c) = decide (k.val = 0))) ∧
    (let c := vb 15 (fun v => { v with matchAt := 20000, frameAt := 35000 }) (linkBay0 2 3 []);
      bayRuns 15 c = true ∧ vState 15 c = 3 ∧ (vlink 15 c).matchAt + tSetup c ≤ c.backup.ms ∧
        (vlink 15 c).frameAt + tLinkloss c ≤ c.backup.ms) := by
  refine ⟨settled_run0, settledB_ok ?_, ?_, ?_, ?_, ?_, ?_⟩
  all_goals decide +kernel

/-- Bay 15's link has answered run 9 of vehicle 7: `got` soundings of it and, where `sent`, its report. -/
def slacRun0 (got : Nat) (sent : Bool) : SlacRun :=
  { src := 7, id := 9, sounds := 10, got := got, report := if sent then some (List.replicate 58 20) else none }
def matching0 (got : Nat) (sent : Bool) : Chip := vb 15 (fun v => { v with run := some (slacRun0 got sent) }) (linkBay0 2 2 [])
/-- The link of bay 15, matched with the vehicle 7, in state `v`. -/
def peered0 (v : Nat) : Chip := linkBay0 2 v [(Reg.LNK_VPEER_LO_MAC_LO, 15, 7)]
def hlcUp0 (c : Chip) : Bool := bayRuns 15 c && vlinksRun c && hlcLive 15 c

theorem witness_VehicleMessagesAreTaken :
    (let c := peered0 4; linksRun c = true ∧ getF Reg.BAY_CFG_TYPE 15 c ≠ 0 ∧ pathFailed 15 c = false ∧
      getF Reg.PWR_STATE_STATE 0 c ≠ 3 ∧ matchedPeer 15 7 c = true) ∧ Settled (peered0 4) ∧
    (let c := linkBay0 1 0 [(Reg.PWR_STATE_STATE, 0, 3), (Reg.PWR_WAKE_PILOT, 0, 1)];
      linksRun c = true ∧ getF Reg.BAY_CFG_TYPE 15 c ≠ 0 ∧ pathFailed 15 c = false ∧ getF Reg.PWR_STATE_STATE 0 c = 3 ∧
        (regWord 0x10008 c).testBit 0 = true) ∧
    (∀ sent : Bool, let c := matching0 10 sent; hlcUp0 c = true ∧ vState 15 c = 2 ∧ (vlink 15 c).run = some (slacRun0 10 sent) ∧
      0 < (slacRun0 10 sent).got ∧ (slacRun0 10 sent).report.isSome = sent) ∧
    (hlcUp0 (peered0 3) = true ∧ vState 15 (peered0 3) = 3 ∧ protoChoose 15 [1, 2, 3] true (peered0 3) = some 3 ∧
      protoChoose 15 [1, 2, 3] false (peered0 3) = some 2 ∧ protoChoose 15 [0, 1] false (peered0 3) = none) ∧
    (hlcUp0 (peered0 4) = true ∧ vState 15 (peered0 4) = 4) ∧ Settled run0 := by
  refine ⟨?_, settledB_ok ?_, ?_, ?_, ?_, ?_, settled_run0⟩
  all_goals decide +kernel

/-! ### The chain -/

/-- A post in role `r` with the chain key, its address 7. -/
def chain0 (r ms : Nat) (f : ChainState → ChainState) : Chip :=
  let c := atMs ms (fields [(Reg.LNK_CSTAT_ROLE, 0, r), (Reg.LNK_CSTAT_ADDR, 0, 7), (Reg.LNK_CBUDGET_BUDGET, 0, 600),
    (Reg.LNK_CCFG_SLOT_SYM, 0, 50)] run0)
  chainPut (f { key := some (List.replicate 16 0) }) c
/-- A frame of the chain in `n` symbols under the chain key, its CTR 1. -/
def frame0 (n kind src dst flow typ ident : Nat) (body : List Nat) : ChainRx :=
  let fc := BitVec.ofNat 96 (fcMake 0 kind src dst n 3 12 0 flow 0)
  { fc := fc, payload := (chainRegion (List.replicate 16 0) fc.toNat 1 typ ident body).map (BitVec.ofNat 8 ·) }

theorem key_zeros : KeyOk (List.replicate 16 0) := by
  unfold KeyOk IsBytes
  decide +kernel

/-- A frame under the chain key that is for this post, from a sender not heard before, is delivered with its body. -/
theorem heard_frame {n kind src dst flow typ ident : Nat} {body : List Nat} {c : Chip} (hb : IsBytes body)
    (hw : typ < 2 ^ 16 ∧ ident < 2 ^ 64 ∧ body.length < 2 ^ 16 ∧ 0x1C + body.length ≤
      regionBytes (fcField 24 8 (frame0 n kind src dst flow typ ident body).fc.toNat)
        (fcField 32 2 (frame0 n kind src dst flow typ ident body).fc.toNat))
    (hc : chainRuns c = true ∧ role c ≠ 0 ∧ fcSeen (frame0 n kind src dst flow typ ident body).fc.toNat c = true ∧
      fcForMe (frame0 n kind src dst flow typ ident body).fc.toNat c = true ∧ c.lnk.chain.key = some (List.replicate 16 0) ∧
      c.lnk.chain.peers = []) :
    Heard typ (frame0 n kind src dst flow typ ident body) c ∧ rxBody (frame0 n kind src dst flow typ ident body) c = body ∧
      rxIdent (frame0 n kind src dst flow typ ident body) = ident := by
  obtain ⟨ht, hi, hl, hs⟩ := hw
  obtain ⟨h1, h2, h3, h4, h5, h6⟩ := hc
  obtain ⟨-, r2, r3, r4, r5, r6⟩ := region_opens key_zeros hb (frame0 n kind src dst flow typ ident body).fc 0 (by decide : 1 < 2 ^ 32)
    ht hi hl hs
  change rxTyp (frame0 n kind src dst flow typ ident body) = typ at r2
  change rxIdent (frame0 n kind src dst flow typ ident body) = ident at r3
  change rxLenOk (frame0 n kind src dst flow typ ident body) = true at r4
  change rxCrcOk (frame0 n kind src dst flow typ ident body) = true at r5
  change rxOpen _ (frame0 n kind src dst flow typ ident body) = some body at r6
  have tag : rxTagOk (frame0 n kind src dst flow typ ident body) c = true := by
    unfold rxTagOk
    rw [h5]
    simp only [r6, Option.isSome]
  refine ⟨?_, ?_, r3⟩
  rotate_left
  · unfold rxBody
    rw [h5]
    simp only [r6, Option.getD]
  simp [Heard, chainCheck, h1, h2, h3, r2, r4, r5, tag, h4, h6]

/-- A short data frame. -/
def rx0 (kind src dst flow typ ident : Nat) : ChainRx := frame0 3 kind src dst flow typ ident []
theorem no_bytes : IsBytes [] := fun _ hx => nomatch hx
def post0 (a : Nat) : RosterEntry := { addr := a, ident := 1000 + a, floor := 60, feedA := 320, alloc := 100, held := 120, low := some (1, 0) }
def join0 (b : Nat) : JoinInfo := { addr := 0, prio := 0, floor := b, feedA := 320, budget := 600, noPos := false }
def two0 (ms : Nat) : Chip := chain0 5 ms fun x => { x with roster := [post0 7, post0 9] }

theorem witness_CoordinatorRunsTheChain :
    (role (two0 6000) = 5 ∧ chainRuns (two0 6000) = true ∧ (two0 6000).backup.ms % 40 = 0 ∧ (two0 6000).backup.ms % 100 = 0 ∧
      (two0 6000).lnk.chain.key.isSome = true ∧
      (two0 6000).lnk.chain.roster.find? (fun e => e.addr == ownAddr (two0 6000)) = some (post0 7)) ∧
    (Heard 2 (rx0 2 0 63 0 2 55) (two0 6000) ∧ fcField 8 4 (rx0 2 0 63 0 2 55).fc.toNat = 2 ∧
      rxIdent (rx0 2 0 63 0 2 55) = 55 ∧ (two0 6000).lnk.chain.answer = none ∧
      (joinDecide 55 (join0 480) (two0 6000)).1 ≠ 0 ∧ (joinDecide 55 (join0 481) (two0 6000)).1 = 0) ∧
    Heard 3 (rx0 1 9 7 1 3 1009) (two0 6000) ∧ Heard 7 (rx0 1 9 7 1 7 1009) (two0 6000) ∧ (9 : Fin 64).val ≠ ownAddr (two0 6000) := by
  refine ⟨?_, ⟨(heard_frame no_bytes ?_ ?_).1, ?_, (heard_frame (c := two0 6000) no_bytes ?_ ?_).2.2, ?_⟩, (heard_frame no_bytes ?_ ?_).1,
    (heard_frame no_bytes ?_ ?_).1, ?_⟩
  all_goals decide +kernel

/-- The body of a beacon of priority 128 whose roster holds posts 7 and 9 (R313). -/
def beaconBytes0 : List Nat :=
  List.replicate 12 0 ++ [88, 2, 50, 0, 0, 128, 2, 16] ++ List.replicate 48 0 ++ List.replicate 12 255 ++ [100, 0, 255, 255, 100, 0] ++
    List.replicate 106 255 ++ [7, 0] ++ Byte.le 8 1007 ++ [9, 0] ++ Byte.le 8 1009 ++ List.replicate 20 0
theorem test_beacon_body : beaconBody (setF Reg.LNK_CCFG_PRIORITY 0 128 (two0 0)) = beaconBytes0 := by decide +kernel
def beacon0 : ChainRx := frame0 24 0 9 63 0 1 1009 beaconBytes0
/-- A post that follows the coordinator of `beacon0`. -/
def follower0 (r : Nat) : Chip :=
  setF Reg.LNK_CCFG_PRIORITY 0 100 (chain0 r 100 fun x => { x with coordId := deviceId (two0 0) })
/-- A post whose trump card holds it to at least 6.0 A, with an allocation of 5.9 A on its way. -/
def low0 : Chip :=
  { chain0 4 0 (fun x => { x with pending := some 59 }) with
    hsl := { run0.hsl with trump := some (List.replicate 0x9A 0 ++ [60, 0]) } }

theorem witness_PostsElectJoinAndFallBack :
    (let c := chain0 1 400 id; chainRuns c = true ∧ role c = 1 ∧ c.lnk.chain.since + 400 ≤ c.backup.ms) ∧
    (let c := setF Reg.LNK_CCFG_PRIORITY 0 255 (chain0 2 0 id); chainRuns c = true ∧ c.lnk.chain.key.isSome = true ∧ role c = 2 ∧
      (255 - getF Reg.LNK_CCFG_PRIORITY 0 c) * 16 + deviceId c % 16 ≤ 4 * (c.backup.ms - c.lnk.chain.since)) ∧
    (∀ r : Fin 3, let c := chain0 ([3, 4, 6][r.val]?.getD 0) 200 id;
      chainRuns c = true ∧ (role c = 3 ∨ role c = 4 ∨ role c = 6) ∧ c.lnk.chain.lastBeacon + 200 ≤ c.backup.ms) ∧
    (∀ b, let c := chain0 3 10000 fun x => { x with joinAt := some (if b then 0 else 9680), refused := b };
      chainRuns c = true ∧ c.lnk.chain.key.isSome = true ∧ role c = 3 ∧ c.lnk.chain.joinAt = some (if b then 0 else 9680) ∧
        (if c.lnk.chain.refused = true then (if b then 0 else 9680) + 10000 else (if b then 0 else 9680) + 320) ≤ c.backup.ms) ∧
    (let c := chain0 6 30000 id; chainRuns c = true ∧ role c = 6 ∧ c.lnk.chain.since + 30000 ≤ c.backup.ms) ∧
    (∀ r, r = 1 ∨ r = 2 ∨ r = 4 ∨ r = 5 → Heard 1 beacon0 (follower0 r) ∧ rxBody beacon0 (follower0 r) = beaconBytes0 ∧
      fcField 8 4 beacon0.fc.toNat = 0 ∧ beaconBytes0.length = 232 ∧ role (follower0 r) = r ∧
      sameParams beaconBytes0 (follower0 r) = true ∧ (follower0 r).lnk.chain.coordId = Byte.u64 beaconBytes0 0 ∧
      ownAddr (follower0 r) ≠ 0 ∧ Byte.u16 beaconBytes0 (0x44 + 2 * (ownAddr (follower0 r) - 1)) ≠ 0xFFFF ∧
      (follower0 r).lnk.chain.leaveSent = false ∧ ranksAbove (Byte.u8 beaconBytes0 0x11) (Byte.u64 beaconBytes0 0)
        (getF Reg.LNK_CCFG_PRIORITY 0 (follower0 r)) (deviceId (follower0 r)) = true) ∧
    (chainRuns low0 = true ∧ low0.lnk.chain.pending = some 59 ∧ low0.bridgeUp = true ∧ low0.upd.pause = false ∧
      low0.bridge.trips = [] ∧ 59 < shareFloor low0 ∧ low0.lnk.chain.clamped ≠ some 59) := by
  refine ⟨?_, ?_, ?_, ?_, ?_, ?_, ?_⟩
  · decide +kernel
  · decide +kernel
  · decide +kernel
  · decide +kernel
  · decide +kernel
  · have hb : IsBytes beaconBytes0 := by
      unfold IsBytes
      decide +kernel
    rintro r (rfl | rfl | rfl | rfl)
    all_goals
      refine ⟨(heard_frame hb ?_ ?_).1, (heard_frame hb ?_ ?_).2.1, ?_⟩
      all_goals decide +kernel
  · decide +kernel

/-- A post in role `r` in its own slot. -/
def slot0 (r : Nat) (f : ChainState → ChainState) : Chip := chain0 r 100 fun x => f { x with slots := [7] }
def wait0 (n : Nat) : TxWait := { flow := 1, seq := 0, reps := n, frame := { fc := 1, ctr := 2, typ := 3, body := [] } }
def mySlot0 (c : Chip) : Bool :=
  chainRuns c && c.lnk.chain.slots.contains (chainAddr c) && chainAddr c != 0 && !c.lnk.chain.leaveSent && c.lnk.chain.key.isSome
/-- An acknowledgement of flow 1, sequence 0 to post 7. -/
def ack0 : BitVec 96 := BitVec.ofNat 96 (fcMake 0 3 9 7 0 0 0 0 1 0)
/-- A relayed connection with post 9 stands on flow 2. -/
def flows0 (x : Option FlowState) : Chip := chain0 4 100 fun c => { c with flows := c.flows.set 2 x }
/-- The host ports are full. -/
def full0 : Chip := { chain0 4 100 id with hst := { run0.hst with sess := Vector.replicate 6 { state := 2 } } }
/-- A member that may relay, its Ethernet port 0 up, with post 9 in the roster. -/
def relaying0 : Chip :=
  let c := fields [(Reg.LNK_CCFG_RELAY_EN, 0, 1), (Reg.LNK_CROSTER_PRESENT, 8, 1)] (chain0 4 100 id)
  withCard 0x00A0 (1 :: List.replicate 15 0) { c with hst := { c.hst with decl := some 0 } }
/-- The gate of bay 0 is on and every closing condition holds. -/
def gated0 : Chip :=
  let c := hb 0 (fun b => { b with gate := true, grant := true, rec_ := 3, weldOk := true }) (bays0 [] run0)
  { c with hsl := { c.hsl with safe := Vector.replicate 16 true } }

theorem witness_SlotsAcksAndRelay :
    (∀ r : Fin 2, let c := slot0 (4 + r.val) fun x => { x with leave := some 7 };
      mySlot0 c = true ∧ role c = 4 + r.val ∧ c.lnk.chain.leave.isSome = true ∧ c.lnk.chain.wait = []) ∧
    (∀ r : Fin 2, let c := slot0 (4 + r.val) fun x => { x with wait := [wait0 2, wait0 0] };
      mySlot0 c = true ∧ role c = 4 + r.val ∧ c.lnk.chain.leave = none ∧ c.lnk.chain.wait = wait0 2 :: [wait0 0] ∧
        (∀ w ∈ c.lnk.chain.wait, w.reps < 3)) ∧
    (let c := slot0 4 fun x => { x with wait := [wait0 3] };
      mySlot0 c = true ∧ role c = 4 ∧ c.lnk.chain.leave = none ∧ c.lnk.chain.wait = [wait0 3] ∧ 3 ≤ (wait0 3).reps) ∧
    (let c := slot0 4 id; mySlot0 c = true ∧ c.lnk.chain.leave = none ∧ role c = 4 ∧ c.lnk.chain.wait = [] ∧
      c.lnk.chain.lastRep + 100 ≤ c.backup.ms) ∧
    (∀ b : Bool, let c := slot0 4 fun x => { x with leaveSent := b, wait := [wait0 0] };
      Settled c ∧ chainRuns c = true ∧ fcSeen ack0.toNat c = true ∧ fcField 8 4 ack0.toNat = 3 ∧ fcField 18 6 ack0.toNat = chainAddr c ∧
        c.lnk.chain.leaveSent = b ∧ (∀ w ∈ c.lnk.chain.wait, w.frame.typ = 7 → w.flow = fcField 42 4 ack0.toNat ∧ w.seq = fcField 46 8 ack0.toNat)) ∧
    (∀ typ, 4 ≤ typ → typ ≤ 6 → Heard typ (rx0 1 9 7 2 typ 1009) (flows0 none) ∧ Heard typ (rx0 1 9 7 2 typ 1009) full0 ∧
      Heard typ (rx0 1 9 7 2 typ 1009) (flows0 (some { peer := 9 }))) ∧
    (∀ typ, fcField 18 6 (rx0 1 9 7 2 typ 1009).fc.toNat = ownAddr (flows0 none) ∧ fcField 42 4 (rx0 1 9 7 2 typ 1009).fc.toNat = 2 ∧
      fcField 12 6 (rx0 1 9 7 2 typ 1009).fc.toNat = 9) ∧ inStandby (flows0 none) = false ∧ inStandby full0 = false ∧
    ((flows0 none).lnk.chain.flows[2]?.getD none = none ∧ full0.lnk.chain.flows[2]?.getD none = none ∧
      (flows0 (some { peer := 9 })).lnk.chain.flows[2]?.getD none = some { peer := 9 } ∧ relayRoom (flows0 none) = true ∧ relayRoom full0 = false) ∧
    (let x : FlowState := { relay := true, peer := 9 }; let c := flows0 (some x);
      Settled c ∧ c.lnk.chain.flows[(2 : Fin 16)] = some x ∧ x.relay = true ∧ x.closing = false ∧ c.upd.pause = false) ∧
    (Settled relaying0 ∧ chainRuns relaying0 = true ∧ getF Reg.LNK_CCFG_RELAY_EN 0 relaying0 = 1 ∧ netUp relaying0 = true ∧
      role relaying0 = 4 ∧ (Byte.nats [0x4B, 0x52, 0, 9]).take 3 = [0x4B, 0x52, 0x00] ∧ inRoster 9 relaying0 = true ∧
      9 ≠ ownAddr relaying0 ∧ freeFlow relaying0 = some 2) ∧
    (writerStatus (.session 0) relaying0 = .ok ∧ anyGate relaying0 = false ∧ ownAddr relaying0 ≠ 0 ∧ relaying0.lnk.chain.leave = none) ∧
    (Settled gated0 ∧ writerStatus .firmware gated0 = .ok ∧ anyGate gated0 = true) := by
  have h : ∀ r ms f, Settled (chain0 r ms f) := fun r ms f => settled_congr (settled_fields settled_run0 _) rfl rfl rfl rfl rfl rfl
  have w : ∀ typ, 0x1C + ([] : List Nat).length ≤ regionBytes (fcField 24 8 (frame0 3 1 9 7 2 typ 1009 []).fc.toNat)
      (fcField 32 2 (frame0 3 1 9 7 2 typ 1009 []).fc.toNat) := fun _ =>
    (by decide +kernel : 0x1C + ([] : List Nat).length ≤ regionBytes (fcField 24 8 (frame0 3 1 9 7 2 4 1009 []).fc.toNat)
      (fcField 32 2 (frame0 3 1 9 7 2 4 1009 []).fc.toNat))
  have e : ∀ typ, (rx0 1 9 7 2 typ 1009).fc = (rx0 1 9 7 2 4 1009).fc := fun _ => rfl
  have g : ∀ (typ : Nat) (c : Chip), 4 ≤ typ → typ ≤ 6 → (chainRuns c = true ∧ role c ≠ 0 ∧
      fcSeen (frame0 3 1 9 7 2 4 1009 []).fc.toNat c = true ∧ fcForMe (frame0 3 1 9 7 2 4 1009 []).fc.toNat c = true ∧
      c.lnk.chain.key = some (List.replicate 16 0) ∧ c.lnk.chain.peers = []) → Heard typ (rx0 1 9 7 2 typ 1009) c :=
    fun typ c _ _ hc => (heard_frame (typ := typ) no_bytes ⟨by omega, by decide, by decide, w typ⟩ hc).1
  refine ⟨?_, ?_, ?_, ?_, fun b => ⟨h _ _ _, ?_⟩, fun t a b => ⟨g t _ a b ?_, g t _ a b ?_, g t _ a b ?_⟩, fun t => ?_, ?_, ?_, ?_,
    ⟨h _ _ _, ?_⟩, ⟨settledB_ok ?_, ?_⟩, ?_, settledB_ok ?_, ?_⟩
  all_goals first | decide +kernel | (revert b; decide +kernel) | (simp only [e]; decide +kernel)

/-! ### Load switches -/

/-- An LSW card: KIND, SRC_IDX, FUNC, INRUSH and OFFTEST; DT_MAX 30, OL_MA 5, RETRY 3, RETRY_DS 1. -/
def lswCard (kind src func inrush off : Nat) : List Nat := [0, 0, 0, 0, kind, src, 0, func, 3, 1, inrush, 30, 5, 3, 1, 0, off]
/-- Channel 47 with a card; its host line 47 at a level. -/
def chan0 (on : Bool) (f : LswChan → LswChan) : Chip :=
  let c : Chip := { run0 with lsw := { run0.lsw with granted := true, level := run0.lsw.level.set 47 on } }
  lswPut 47 (f { cfg := some (lswCard 2 47 0 10 1), out := on, retry := 3, cmd := 3, cls := 3 }) c
/-- Line 47 blinks at its level `on`, 100 ms since its last change. -/
def blinking0 (on : Bool) : Chip :=
  fields [(Reg.LSW_LINE_MODE, 47, 2), (Reg.LSW_LINE_ON_T, 47, 10), (Reg.LSW_LINE_OFF_T, 47, 10)] (atMs 100 (chan0 on id))
def crossing0 (c : Chip) : Bool := c.bridgeUp && c.bridge.trips.isEmpty

theorem witness_ChannelsFollowInputsAndLines :
    (∃ t, exec .idcode State.reset = .next t) ∧
    (let c := chan0 false fun x => { x with cfg := some (lswCard 0 0 0 10 1) }; let d := { c with lsw := { c.lsw with lsin := 1 } };
      (lsw 47 d).out = false ∧ lswWanted (lsw 47 d) d = true ∧ d.powered = true ∧ d.pwr.vbbOk.getLsbD (47 / 8) = true) ∧
    (∀ on : Bool, let c := blinking0 on; writerStatus .firmware c = .ok ∧ crossing0 c = true ∧ c.lsw.granted = true ∧
      getF Reg.LSW_LINE_MODE (47 : Fin 48).val c = 2 ∧ c.lsw.level[(47 : Fin 48)] = on ∧
      c.lsw.lineAt[(47 : Fin 48)] + 10 * (if c.lsw.level[(47 : Fin 48)] = true then getF Reg.LSW_LINE_ON_T 47 c
        else getF Reg.LSW_LINE_OFF_T 47 c) ≤ c.backup.ms) ∧
    (16 ≤ 16 ∧ 47 < 48 ∧ (10 ≤ 10 ∧ 10 ≤ 1000 ∧ 1000 ≤ 1000) ∧ 9 < 10 ∧ 1000 < 1001) ∧ Settled (blinking0 false) ∧
    (writerStatus (.session 5) owner0 = .ok ∧ lockLine 16 owner0 = false ∧ crossing0 owner0 = true) := by
  refine ⟨?_, ?_, ?_, ?_, settledB_ok ?_, ?_⟩
  · exact ⟨_, rfl⟩
  all_goals decide +kernel

/-- Channel 47 is on, its times 100 ms and more in the past. -/
def conducting0 (f : LswChan → LswChan) : Chip := atMs 1000 (chan0 true f)
/-- Bank 5 sheds, the last time `ms` ago. -/
def shedding0 (ms : Nat) : Chip := setF Reg.LSW_BANK_OVL 5 1 (atMs ms (chan0 true id))

theorem witness_ChannelTripsAndBankSheds :
    (∀ w, let c := conducting0 fun x => { x with window := w }; c.lsw.granted = true ∧ c.powered = true ∧ (lsw 47 c).out = true ∧
      (lsw 47 c).hold = none ∧ (lsw 47 c).window = w ∧ (lsw 47 c).onAt + (lsw 47 c).u8 0xA ≤ c.backup.ms ∧ (lsw 47 c).u8 0xC ≠ 0 ∧
      (lsw 47 c).winEnd + 100 ≤ c.backup.ms) ∧
    Settled (conducting0 fun x => { x with window := true }) ∧ Settled (conducting0 id) ∧
    ((1750 : Int) ≤ 1750 ∧ 10 * ((lsw 47 (conducting0 id)).u8 0xB : Int) < 801 - 500) ∧
    ((conducting0 id).lsw.granted = true ∧ getF Reg.LSW_BANK_OVL (5 : Fin 6).val (conducting0 id) = 0 ∧
      ∀ j, j < 8 → (lsw (8 * (5 : Fin 6).val + j) (conducting0 id)).out = false ∨
        ((lsw (8 * (5 : Fin 6).val + j) (conducting0 id)).window = false ∧
          (lsw (8 * (5 : Fin 6).val + j) (conducting0 id)).winEnd + 1000 ≤ (conducting0 id).backup.ms)) ∧
    (∀ ms : Fin 2, let c := shedding0 (19 + ms.val); getF Reg.LSW_BANK_OVL (5 : Fin 6).val c = 1 ∧ shedPick 5 c = some 47 ∧
      decide (c.lsw.shedAt[(5 : Fin 6)] + 20 ≤ c.backup.ms) = (ms == 1)) ∧ 8000 < 8001 ∧
    Settled (shedding0 19) ∧ Settled (shedding0 20) := by
  refine ⟨?_, settledB_ok ?_, settledB_ok ?_, ?_, ?_, ?_, ?_, settledB_ok ?_, settledB_ok ?_⟩
  all_goals decide +kernel

/-- The owner's device with channel 47. -/
def ownChan0 : Chip := { chan0 false id with hst := owner0.hst }

/-- Channel 47 waits for its retry, its times 100 ms in the past, with or without the off-state test. -/
def waiting0 (off : Nat) : Chip := atMs 100 (chan0 false fun x => { x with wait := true, cfg := some (lswCard 2 47 0 10 off) })
/-- Channel 47 may be tested. -/
def testable0 (x : LswChan) : Bool := x.cfg.isSome && x.offTest && !x.out && !x.latch && x.test == 0

theorem witness_ChannelTestsRetriesAndClears :
    (writerStatus .firmware (chan0 false id) = .ok ∧ (chan0 false id).lsw.granted = true ∧ crossing0 (chan0 false id) = true) ∧
    (writerStatus (.session 5) ownChan0 = .ok ∧ ownChan0.lsw.granted = true ∧ crossing0 ownChan0 = true ∧
      getF Reg.LSW_CTL_DECKCLASS 47 ownChan0 < (1 : BitVec 3).toNat ∧ (0 : BitVec 3).toNat ≤ getF Reg.LSW_CTL_DECKCLASS 47 ownChan0) ∧
    Settled ownChan0 ∧
    (getF Reg.LSW_TEST_RUNNING 0 ownChan0 = 0 ∧ testable0 (lsw 47 ownChan0) = true ∧ lswInput (lsw 47 ownChan0) ownChan0 = false ∧
      testable0 (lsw 47 (waiting0 1)) = true ∧ (lsw 47 (waiting0 1)).wait = true ∧ getF Reg.LSW_TEST_RUNNING 0 (waiting0 1) = 0) ∧
    (getF Reg.LSW_TEST_RUNNING 0 (setF Reg.LSW_TEST_RUNNING 0 1 ownChan0) = 1 ∧ Settled (setF Reg.LSW_TEST_RUNNING 0 1 ownChan0)) ∧
    (let c := atMs 2 (chan0 false fun x => { x with test := 2 }); (lsw 47 c).test ≠ 0 ∧ (lsw 47 c).testAt + 2 ≤ c.backup.ms) ∧
    (∀ off : Fin 2, let c := waiting0 off.val;
      (lsw 47 c).wait = true ∧ (lsw 47 c).test = 0 ∧ (lsw 47 c).tripAt + (lsw 47 c).waitMs ≤ c.backup.ms ∧
        lswCool { lsw 47 c with tj := 649, caseT := 500 } = true ∧ (lsw 47 c).offTest = (off == 1)) ∧
    Settled (waiting0 0) ∧ Settled (waiting0 1) ∧
    (let c := atMs 10000 (chan0 true id); (lsw 47 c).out = true ∧ (lsw 47 c).onAt + 10000 ≤ c.backup.ms) ∧
    (let c := chan0 false fun x => { x with latch := true }; (lsw 47 c).cfg.isSome = true ∧ lswCool (lsw 47 c) = true ∧ (lsw 47 c).func ≠ 1) ∧
    (let c := chan0 false fun x => { x with cfg := some (lswCard 2 47 1 10 1) };
      (lsw 47 c).cfg.isSome = true ∧ lswCool (lsw 47 c) = true ∧ lswInput (lsw 47 c) c = false) ∧
    (let c := atMs 1950 (chan0 false fun x => { x with hold := some true, out := true });
      (lsw 47 c).hold = some true ∧ (lsw 47 c).holdAt + 1950 ≤ c.backup.ms) := by
  refine ⟨?_, ?_, settledB_ok ?_, ?_, ⟨?_, settledB_ok ?_⟩, ?_, ?_, settledB_ok ?_, settledB_ok ?_, ?_, ?_, ?_, ?_⟩
  all_goals decide +kernel

/-! ### Safety functions -/

/-- The safety functions run, every input and axis configured. -/
def saf0 (ms : Nat) (l : List (Fld × Nat × Nat)) (f : SafState → SafState) : Chip :=
  let c := atMs ms (fields ((List.range 18).map (fun k => (Reg.SAF_INCFG_IN_EN, k, 1)) ++
    (List.range 16).map (fun n => (Reg.SAF_AXCFG_AX_EN, n, 1)) ++ l) run0)
  { c with saf := f { c.saf with on := true } }
def ax (n : Nat) (f : Axis → Axis) (c : Chip) : Chip := axisPut n (f (axis n c)) c
def restarting0 (ms t0 : Nat) : Chip :=
  saf0 ms [] fun x => { x with press := some t0, inp := x.inp.set 17 { pend := true } }

theorem witness_SafetyInputsDemandAndRestart :
    (let c := saf0 0 [] id; c.powered = true ∧ inputOn 17 c = true ∧ inputOn 15 c = true ∧ (safIn 17 c).dem = false ∧
      ¬(true = true ∧ (false != (getF Reg.SAF_INCFG_POL 17 c == 1)) = true) ∧ manualRestart 17 c = true ∧ axisOn 15 c = true ∧
      getF Reg.SAF_INCFG_STOP_CAT 17 c ≠ 1 ∧ manualRestart 15 c = false ∧ (safIn 15 c).pend = false ∧ discFault 15 c = false ∧
      (true != (getF Reg.SAF_INCFG_POL 15 c == 1)) = true) ∧
    (let c := saf0 101 [(Reg.SAF_INCFG_T_DISC, 17, 100)] fun x => { x with inp := x.inp.set 17 { disAt := some 0 } };
      inputOn 17 c = true ∧ discFault 17 c = false ∧ (safIn 17 c).disAt = some 0 ∧ 0 + getF Reg.SAF_INCFG_T_DISC 17 c + 1 ≤ c.backup.ms) ∧
    Settled run0 ∧ (run0.powered = true ∧ run0.logicUp = true ∧ run0.saf.press = none ∧ run0.saf.stale = false) ∧
    (∀ ms, (restarting0 ms 0).saf.press = some 0 ∧ (restarting0 ms 0).saf.stuck = false ∧ (restarting0 ms 0).saf.on = true ∧
      (restarting0 ms 0).backup.ms = ms) ∧
    (∀ ms : Fin 4, Settled (restarting0 ([199, 200, 5000, 5001][ms.val]?.getD 0) 0)) ∧
    (archDual (restarting0 5000 0) = false ∧ 200 ≤ 200 - 0 ∧ 5000 - 0 ≤ 5000 ∧ 199 < 0 + 200 ∧ 0 + 5001 ≤ 5001) ∧
    (let c := restarting0 200 0; inputOn 17 c = true ∧ (safIn 17 c).dem = false ∧ restOf 17 c = true ∧ discFault 17 c = false) ∧
    ({ restarting0 5001 0 with saf := { (restarting0 5001 0).saf with stuck := true } } : Chip).saf.stuck = true := by
  have h : ∀ ms : Fin 4, settledB (restarting0 ([199, 200, 5000, 5001][ms.val]?.getD 0) 0) = true := by decide +kernel
  refine ⟨?_, ?_, settled_run0, ?_, fun ms => ⟨rfl, rfl, rfl, rfl⟩, fun ms => settledB_ok (h ms), ?_, ?_, rfl⟩
  all_goals decide +kernel

/-- Axis 15 with a speed limit of 500, a drive on node 3 of port 1, at 2,000 ms. -/
def axis0 (f : Axis → Axis) : Chip :=
  ax 15 f (saf0 2000 [(Reg.SAF_AXLIM_SPEED_MAX, 15, 500), (Reg.SAF_AXCFG_DRV_PORT, 15, 1), (Reg.SAF_AXCFG_DRV_NODE, 15, 3)] id)
def moving0 : Chip := axis0 fun x => { x with rel := some 1950, mode := 1, cmd := 100, hist := [3, 4] }

theorem witness_AxesAreCommanded :
    (∀ m, let c := if m then moving0 else axis0 id; writerStatus .firmware c = .ok ∧ c.upd.pause = false ∧ permission 15 c = true ∧
      axisState 15 c = (if m then 2 else 1) ∧ (axis 15 c).lost = false ∧ (hslBay 15 c).gate = false ∧
      1 ≤ getF Reg.SAF_AXLIM_SPEED_MAX 15 c ∧ (axis 15 c).rel.isSome = m ∧ (axis 15 c).stopAt = none ∧ crossing0 c = true) ∧
    (1 ≤ (1 : BitVec 10).toNat ∧ (1000 : BitVec 10).toNat ≤ 1000) ∧
    (writerStatus (.session 5) { axis0 id with hst := owner0.hst } = .ok ∧
      inService (opened0 (setF Reg.SEC_LC_FUSES 0 3 (axis0 id))) = true) ∧
    ((axis 15 moving0).rel = some 1950 ∧ axisState 15 moving0 = 2 ∧ moving0.hsl.brake[15]?.getD false = false ∧ 1950 + 50 ≤ moving0.backup.ms) ∧
    (∀ k : Fin 2, let c := axis0 fun x => { x with txAt := 1990 + k.val };
      driveUp 15 c = true ∧ decide ((axis 15 c).txAt + 10 ≤ c.backup.ms) = (k == 0)) ∧ Settled (axis0 fun x => { x with txAt := 1991 }) ∧
    (let c := axis0 fun x => { x with okRun := 2, cnt := some 254 };
      driveUp 15 c = true ∧ canCheck (0x280 + getF Reg.SAF_AXCFG_DRV_NODE 15 c) (axis 15 c).cnt (Byte.nats (stackMsg 0x283 1 1)) = .accepted 1 2 ∧
        2 ≤ (axis 15 c).okRun) ∧
    (axisOn 15 moving0 = true ∧ getF Reg.SAF_AXCFG_DRV_PORT 15 moving0 ≠ 3 ∧ (axis 15 moving0).lost = false ∧
      (axis 15 moving0).rxAt + 60 ≤ moving0.backup.ms) := by
  refine ⟨?_, ?_, ?_, ?_, ?_, settledB_ok ?_, ?_, ?_⟩
  all_goals decide +kernel

def dual0 : Chip := setF Reg.SAF_ARCH_ARCH 0 1 moving0
def core0 (ms : Nat) : Chip := saf0 ms [] fun x => { x with scAt := some 0 }
def tick0 (d : Int) : Vector EncTick 16 := Vector.replicate 16 { delta := d, both := false }

theorem witness_SpeedCheckAndSafetyFaults :
    (moving0.powered = true ∧ moving0.saf.on = true ∧ axisOn 15 moving0 = true ∧ 2000 < (tick0 2001)[15].delta.natAbs ∧
      ¬2000 < (tick0 2000)[15].delta.natAbs) ∧
    (Settled moving0 ∧ axisOn 15 moving0 = true ∧ (axis 15 moving0).rel.isSome = true ∧ (false ≠ (axis 15 moving0).rel.isSome) ∧
      (axis 15 moving0).pulseA + 1000 ≤ moving0.backup.ms ∧ (axis 15 moving0).pulseA + 500 ≤ moving0.backup.ms ∧
      (axis 15 moving0).pulseB < (axis 15 moving0).pulseA + 500) ∧
    (archDual dual0 = true ∧ axisOn 15 dual0 = true) ∧
    (Settled run0 ∧ run0.logicUp = true ∧ run0.saf.scTest = false) ∧
    ((core0 3599999).powered = true ∧ (core0 3599999).saf.on = true ∧ (core0 3599999).saf.scTest = false ∧
      (core0 3599999).saf.scAt = some 0 ∧ (core0 3599999).backup.ms < 0 + 3600000) ∧
    (let c : Chip := { run0 with saf := { run0.saf with scTest := true } }; Settled c ∧ c.saf.scTest = true) := by
  refine ⟨?_, ⟨settledB_ok ?_, ?_⟩, ?_, ⟨settled_run0, ?_⟩, ?_, settledB_ok ?_, rfl⟩
  all_goals decide +kernel

/-! ### Reader, credentials and tag -/

/-- The reader runs and takes UIDs; the last presentation is number 7. -/
def reader0 (f : NfcState → NfcState) : Chip :=
  let c := atMs 4000 (bays0 [(Reg.NFC_CFG_READER_EN, 0, 1), (Reg.NFC_CFG_KINDS, 0, 3), (Reg.NFC_PRES_PRES_NO, 0, 7),
    (Reg.NFC_CFG2_T_HOST, 0, 4000), (Reg.BAY_CFG_TYPE, 15, 1), (Reg.BAY_STATE_STATE, 15, 2)] run0)
  { c with nfc := f c.nfc }
def readerCard0 (b : Bool) : ReaderCard := { uid := [1, 2, 3, 4], token := none, broken := b }
/-- An entry of the credential table: ID_HASH 5, its flags blocked or not. -/
def cred0 (blocked : Bool) : Nat := 5 + 2 ^ 120 * (if blocked then 3 else 1)
/-- The CRED card decides by the Declarer with the table as fallback. -/
def fallback0 (t : CredTable) : Chip :=
  withCard 0x0081 ([1, 1] ++ List.replicate 38 0) (setF Reg.NFC_CFG_AUTH_MODE 0 1 (setF Reg.NFC_STAT_TABLE_READY 0 1
    (reader0 fun x => { x with hash := 5, wait := some .verdict, table := t })))

/-- A credential pends; its time is T_PEND = 4 s. -/
def pending0 : Chip := setF Reg.NFC_CFG_T_PEND 0 4 (reader0 fun x => { x with pend := some { hash := 5, admits := 1 } })

theorem witness_ReaderPresentsAndDecides :
    pollDue (reader0 id) = true ∧
    (let l := List.replicate 7 (readerCard0 true) ++ [readerCard0 false]; readerOn (reader0 id) = true ∧ (polled l (reader0 id)).length ≤ 8 ∧
      polledCreds l (reader0 id) = [(1, [1, 2, 3, 4])] ∧ (reader0 id).nfc.seen.contains (1, [1, 2, 3, 4]) = false ∧
      8 < (polled (readerCard0 true :: l) (reader0 id)).length) ∧
    (let c := reader0 fun x => { x with wait := some .verdict }; writerStatus .firmware c = .ok ∧ 7 ≠ 0 ∧
      7 = getF Reg.NFC_PRES_PRES_NO 0 c ∧ c.nfc.wait = some .verdict ∧ eligible 0xFFFF 15 c = true ∧ c.pwr.phase = .run ∧
      c.nfc.at_ + getF Reg.NFC_CFG2_T_HOST 0 c ≤ c.backup.ms ∧ authMode c ≠ 1) ∧
    Settled (reader0 fun x => { x with wait := some .verdict }) ∧ (reader0 id).nfc.wait ≠ some .verdict ∧
    (authMode (fallback0 {}) = 1 ∧ getF Reg.NFC_STAT_TABLE_READY 0 (fallback0 {}) = 1 ∧ (fallback0 {}).nfc.wait = some .verdict ∧
      (fallback0 {}).nfc.at_ + getF Reg.NFC_CFG2_T_HOST 0 (fallback0 {}) ≤ (fallback0 {}).backup.ms ∧
      credLookup (fallback0 {}).nfc.hash (fallback0 {}).nfc.table = none) ∧
    (let c := fallback0 { stash := [cred0 true] };
      credLookup c.nfc.hash c.nfc.table = some (cred0 true) ∧ (credFlags (cred0 true)).testBit 1 = true) ∧
    Settled pending0 ∧ (let p : PendCred := { hash := 5, admits := 1 };
      pending0.nfc.pend = some p ∧ pending0.pwr.phase = .run ∧ p.since + 1000 * getF Reg.NFC_CFG_T_PEND 0 pending0 ≤ pending0.backup.ms) := by
  refine ⟨?_, ?_, ?_, settledB_ok ?_, ?_, ?_, ?_, settledB_ok ?_, ?_⟩
  all_goals decide +kernel

/-- A delta from generation 0 to `g` that inserts one entry. -/
def deltaMsg (g : Nat) : List Byte :=
  (Byte.le 2 0x4344 ++ [1, 0] ++ Byte.le 4 0 ++ Byte.le 4 0 ++ Byte.le 4 g ++ Byte.le 4 1 ++ List.replicate 12 0 ++
    [1, 0, 0, 0] ++ Byte.le 16 (cred0 false) ++ List.replicate 64 0).map (BitVec.ofNat 8 ·)
/-- The owner's device with the credential key and its table ready. -/
def lists0 : Chip := setF Reg.NFC_STAT_TABLE_READY 0 1 { owner0 with
  sec := { owner0.sec with entries := owner0.sec.entries ++ [(7, { keyId := 0x28, kind := 4, bind := 0, ctr := 1, mat := [] })] } }
theorem serves_lists0 : Serves 5 lists0 := ⟨by decide +kernel, by decide +kernel, by decide +kernel, by decide +kernel⟩

theorem witness_CredentialsAreKept :
    (Owns 5 lists0 ∧ lists0.sec.full = false ∧ getF Reg.NFC_STAT_TABLE_READY 0 lists0 = 1 ∧
      deltaFault (Byte.nats (deltaMsg 1)) (deltaOf (Byte.nats (deltaMsg 1))) true true lists0 = none ∧
      deltaFault (Byte.nats (deltaMsg 0)) (deltaOf (Byte.nats (deltaMsg 0))) true true lists0 = some (4, .rollback)) ∧
    (let i : CredImage := { gen := 3, slots := [], stash := [] }; let c : Chip := { run0 with nfc := { run0.nfc with ckpt := some i } };
      c.nfc.ckpt = some i ∧ imgNewerA c.emmc.cred = false ∧ imgNewerA { c.emmc.cred with imgA := some i } = true) ∧
    (let c : Chip := atMs 60000 { run0 with nfc := { run0.nfc with retry := true } }; c.nfc.retry = true ∧ c.nfc.failAt + 60000 ≤ c.backup.ms) ∧
    (run0.pwr.phase = .run ∧ getF Reg.NFC_STAT_TABLE_READY 0 run0 = 0) :=
  ⟨⟨⟨serves_lists0, by decide +kernel⟩, by decide +kernel, by decide +kernel, by decide +kernel, by decide +kernel⟩, by decide +kernel, by decide +kernel,
    by decide +kernel⟩

/-- The tag with a state of its own. -/
def tag0 (f : TagState → TagState) : Chip := { run0 with tag := f { run0.tag with aid := [0xA0, 1], open_ := true } }
def zeros16 : List Nat := List.replicate 16 0
def proof0 : List Byte := (cmac (tagKey (tag0 id)) ([2] ++ tagUid (tag0 id) ++ zeros16 ++ zeros16)).map (BitVec.ofNat 8 ·)
/-- A page of zeros, sealed as the first command of a session. -/
def sealedPage (page : Nat) : List Byte :=
  (ccmSeal zeros16 (tagNonceOf 0 0 zeros16) [0xC2, 0x38, 0, page] (List.replicate 64 0)).map (BitVec.ofNat 8 ·)
/-- The wired side may use the tag; the field has opened page 255. -/
def wired0 : Chip := setF Reg.NFC_CFG_TAG_EN 0 1 (tag0 fun x => { x with opened := [255] })

theorem witness_TagAnswersItsField :
    (Byte.nats [0xA0, 1] = (tag0 id).tag.aid ∧ (tag0 id).tag.aid ≠ [] ∧ (tag0 id).tag.open_ = true ∧ (tag0 id).tag.locked = false ∧
      (tag0 fun x => { x with locked := true }).tag.locked = true) ∧
    (let c := tag0 fun x => { x with chal := some (zeros16, zeros16) }; c.tag.chal = some (zeros16, zeros16) ∧ proof0.length = 16 ∧
      Byte.nats proof0 = cmac (tagKey c) ([2] ++ tagUid c ++ zeros16 ++ zeros16) ∧
      Byte.nats (List.replicate 16 0) ≠ cmac (tagKey c) ([2] ++ tagUid c ++ zeros16 ++ zeros16)) ∧
    (let c := tag0 fun x => { x with key := some (zeros16, zeros16) }; c.tag.key = some (zeros16, zeros16) ∧ c.tag.write = none ∧
      fieldReads 0 = true ∧ fieldReads 16 = true ∧ fieldReads 255 = true ∧ fieldWrites 16 = true ∧ (sealedPage 16).length = 72 ∧
      ccmOpen zeros16 (tagNonceOf 0 c.tag.ctr zeros16) [0xC2, 0x38, 0, 16] (Byte.nats (sealedPage 16)) = some (List.replicate 64 0)) ∧
    Settled run0 ∧
    (let c := atMs 200 (tag0 fun x => { x with wired := some (16, []) }); c.tag.open_ = true ∧ c.tag.wired = some (16, []) ∧
      c.tag.wiredAt + 200 ≤ c.backup.ms) ∧
    (let w : TagWrite := { wired := true, page := 1, data := [1] }; let c := tag0 fun x => { x with write := some w };
      c.tag.write = some w ∧ w.page ≠ 0 ∧ w.wired = true) ∧
    (writerStatus .firmware wired0 = .ok ∧ getF Reg.NFC_CFG_TAG_EN 0 wired0 = 1 ∧ getF Reg.NFC_TAGSTAT_BUSY 0 wired0 = 0 ∧
      wired0.tag.write = none ∧ wired0.tag.opened.contains 255 = true ∧ wired0.tag.opened.contains 16 = false) :=
  ⟨by decide +kernel, by decide +kernel, by decide +kernel, settled_run0, by decide +kernel, by decide +kernel, by decide +kernel⟩

/-! ### Panels -/

/-- Both panels have a card; the trump card bounds the column current at 300 of the card's 400. -/
def panel0 (f : DisplayState → DisplayState) : Chip :=
  let c := withCard 0x0091 ([1, 0, 0, 0] ++ Byte.le 2 2 ++ List.replicate 26 0)
    (withCard 0x0090 ([1, 0, 0, 0] ++ Byte.le 2 400 ++ List.replicate 26 0) run0)
  { c with hsl := { c.hsl with trump := some (List.replicate 0x98 0 ++ Byte.le 2 300 ++ List.replicate 10 0) }
           pwr := { c.pwr with vcolOk := true }, dsp := f c.dsp, hst := { c.hst with decl := some 2 } }
def upd0 : LegalUpdate := { target := 5, start := 0, frames := 8, rv := some 2 }
def req0 : LegalReq := { code := 1, arg := none }

/-- An update of 8 frames runs since the millisecond 0. -/
def updating0 (ms : Nat) : Chip := atMs ms (panel0 fun d => { d with upd := some upd0 })

theorem witness_PanelsSwapUpdateAndCrack :
    (framesRun (panel0 id) = true ∧ (panel0 id).pwr.vcolOk = true ∧ framesRun run0 = false) ∧ Settled run0 ∧
    Settled (panel0 id) ∧ Settled (setF Reg.DSP_ESTAT_SWAP_PEND 0 1 (panel0 id)) ∧
    (writerStatus (.session 2) (panel0 id) = .ok ∧ writerStatus .firmware (panel0 id) = .ok ∧
      getF Reg.DSP_ESTAT_SWAP_PEND 0 (panel0 id) ≠ 1 ∧
      writerStatus (.session 2) (setF Reg.DSP_ESTAT_SWAP_PEND 0 1 (panel0 id)) = .ok ∧
      getF Reg.DSP_ESTAT_SWAP_PEND 0 (setF Reg.DSP_ESTAT_SWAP_PEND 0 1 (panel0 id)) = 1 ∧
      cardU16 0x0090 0 4 511 (panel0 id) < (401 : BitVec 9).toNat ∧ (400 : BitVec 9).toNat ≤ cardU16 0x0090 0 4 511 (panel0 id) ∧
      (panel0 id).bridgeUp = true ∧ (panel0 id).bridge.trips = [] ∧ (300 : BitVec 9).toNat ≤ trumpU16 0x98 (panel0 id) ∧ trumpU16 0x98 (panel0 id) < (301 : BitVec 9).toNat) ∧
    (let c := panel0 fun d => { d with failL := 1, failE := 1, passL := 9 };
      c.pwr.phase = .run ∧ (cardPayload 0x0091 0 c).isSome = true ∧ (cardPayload 0x0090 0 c).isSome = true ∧ 1 ≤ c.dsp.failL ∧
        1 ≤ c.dsp.failE ∧ getF Reg.DSP_LSTAT_CRACK_L 0 c = 0 ∧ getF Reg.DSP_ESTAT_CRACK_E 0 c = 0 ∧ 9 ≤ c.dsp.passL ∧ c.bil.due = []) ∧
    (∀ ms, let c := updating0 ms; c.dsp.upd = some upd0 ∧ c.dsp.pend = none ∧ c.legal.press = false ∧ c.backup.ms = ms) ∧
    Settled (updating0 319) ∧ (319 < upd0.start + 20 * (upd0.frames + 8) ∧ upd0.start + 20 * (upd0.frames + 8) ≤ 320) ∧
    (let c := panel0 fun d => { d with defer := some req0, starts := [0] };
      c.dsp.defer = some req0 ∧ c.dsp.upd = none ∧ legalHeld c = false ∧ getF Reg.PWR_PFW_ACTIVE 0 c = 0 ∧ legalAdmits c = true) ∧
    ((-451 : Int) < -450 ∧ (900 : Int) < 901 ∧ (-450 : Int) ≤ 900) := by
  refine ⟨?_, settled_run0, settledB_ok ?_, settledB_ok ?_, ?_, ?_, fun ms => ⟨rfl, rfl, rfl, rfl⟩, settledB_ok ?_, ?_, ?_, ?_⟩
  all_goals decide +kernel

theorem witness_SealAndTamperInputsRecord :
    (let c : Chip := { run0 with backup := { run0.backup with inputs := Vector.replicate 5 { level := true } } };
      let d : Chip := { run0 with backup := { run0.backup with tamperCfg := (15, 15), inputs := Vector.replicate 5 { level := false } } };
      inputsSampled d = true ∧ d.bil.due.any (fun x => x.mt == d.backup.ms) = false ∧
      ({ d with bil := { d.bil with due := [{ mt := d.backup.ms }] } } : Chip).bil.due.any
        (fun x => x.mt == d.backup.ms) = true ∧ (d.backup.inputs[0]).level = false ∧ d.bil.ready = false ∧
      ({ d with bil := { d.bil with ready := true } } : Chip).bil.ready = true ∧
      inputsSampled c = true ∧ (c.backup.inputs[0]).level = true ∧ inService c = false ∧ c.pwr.phase = .run ∧
      ({ c with pwr := { c.pwr with phase := .bare } } : Chip).pwr.phase = .bare ∧
      ({ c with pwr := { c.pwr with phase := .held } } : Chip).pwr.phase = .held ∧
      (∀ k : Fin 5, (d.backup.inputs[k]).level ≠ true ∧ (c.backup.inputs[k]).level ≠ false) ∧
      (∀ k : Fin 5, k.val ≠ 0 → d.backup.tamperCfg.1.testBit (k.val - 1) = true ∧ d.backup.tamperCfg.2.testBit (k.val - 1) = true ∧
        ([1, 2, 14, 15][k.val - 1]?).isSome = true) ∧
      (({ d with backup := { d.backup with tamperCfg := (15, 0) } } : Chip).backup.tamperCfg.2.testBit 3 = false)) := by decide +kernel

/-! ### Keys, attestation, debug, TAP -/

def keyOf (id kind : Nat) : KeyBlob := { keyId := id, kind := kind, bind := 0, ctr := 1, mat := List.replicate 32 7 }
/-- The owner's device in production: device keys, the update key 0x10, the grant key 0x11, and the attestation key in entry 16. -/
def keyed0 : Chip :=
  let c := withCard 0x00C0 ([1, 0, 0, 0] ++ Byte.le 2 0x30 ++ Byte.le 2 16) (setF Reg.SEC_LC_FUSES 0 1 owner0)
  { c with sec := { c.sec with devKey := true, entries := [(0, keyOf 0x10 5), (1, keyOf 0x11 4), (16, keyOf 0x30 3)] } }
theorem serves_keyed0 : Serves 5 keyed0 := ⟨by decide +kernel, by decide +kernel, by decide +kernel, by decide +kernel⟩

/-- Key-update message number 1: OP, KEY_ID, KIND, ENTRY and key material. -/
def kum0 (op id kind entry : Nat) (mat : List Nat) : List Byte :=
  (Byte.le 2 0x4B55 ++ [1, op] ++ Byte.le 4 1 ++ List.replicate 8 0 ++ Byte.le 2 id ++ [kind, 0] ++ Byte.le 2 entry ++
    Byte.le 2 mat.length ++ List.replicate 64 0 ++ mat ++ List.replicate 112 0).map (BitVec.ofNat 8 ·)
def kumEnv0 : KumEnv := { sigOk := true, plain := none, fuseOk := true, blobOk := true, recordOk := true }

theorem witness_KeyUpdatesAndAttestation :
    Owns 5 keyed0 ∧ Settled keyed0 ∧
    (let c := keyLoad 0x10 (frameTake 5 keyed0); let m := kum0 1 0x28 4 7 (List.replicate 64 9);
      kumReason none (Byte.nats []) kumEnv0 c ≠ 0 ∧ kumReason none (Byte.nats m) kumEnv0 c = 0 ∧ kumEnv0.fuseOk = true ∧
        kumEnv0.blobOk = true ∧ Byte.u8 (Byte.nats m) 3 = 1) ∧
    (devKeyOk keyed0 = true ∧ devKeyOk owner0 = false ∧ Owns 5 owner0 ∧ Settled owner0) ∧
    ((List.replicate 32 (0 : Byte)).length = 32 ∧ keysAvail keyed0 = true ∧ keyFind 0x30 keyed0 = some (keyOf 0x30 3)) ∧
    (let c := keyLoad 0x10 keyed0; let m := kum0 2 0x28 0 7 []; kcUp keyed0 = true ∧ tapUp keyed0 = true ∧
      kumReason (some 199) (Byte.nats m) kumEnv0 c ≠ 0 ∧ kumReason (some (200 : BitVec 16).toNat) (Byte.nats m) kumEnv0 c = 0 ∧
      Byte.u8 (Byte.nats m) 3 = 2) :=
  ⟨⟨serves_keyed0, by decide +kernel⟩, settledB_ok (by decide +kernel), by decide +kernel,
    ⟨by decide +kernel, by decide +kernel, ⟨serves_owner0, by decide +kernel⟩, settledB_ok (by decide +kernel)⟩,
    by decide +kernel, by decide +kernel⟩

/-- A grant of a debug level for 60 minutes, under the nonce `n`. -/
def grant0 (level n : Nat) : List Byte :=
  ([0x44, 0x4B, level, 0, 0, 0, 0, 0] ++ List.replicate 8 0 ++ Byte.le 16 n ++ [60, 0] ++ List.replicate 70 0).map (BitVec.ofNat 8 ·)

theorem num_le (k v : Nat) : Byte.num (Byte.nats ((Byte.le k v).map (BitVec.ofNat 8 ·))) = v % 256 ^ k := by
  induction k generalizing v with
  | zero => simp [Byte.le, Byte.nats, Byte.num, Nat.mod_one]
  | succ k ih =>
    rw [Nat.pow_succ', Nat.mod_mul, ← ih]
    simp [Byte.le, Byte.nats, Byte.num]

theorem grant0_magic (level n : Nat) : Byte.u16 (Byte.nats (grant0 level n)) 0 = 0x4B44 := by
  have h0 : Byte.u8 (Byte.nats (grant0 level n)) 0 = 0x44 := rfl
  have h1 : Byte.u8 (Byte.nats (grant0 level n)) 1 = 0x4B := rfl
  simp only [Byte.u16, h0, h1]

theorem grant0_nonce (level n : Nat) : Byte.num (Byte.slice (Byte.nats (grant0 level n)) 0x10 16) = n % 256 ^ 16 :=
  (show _ = Byte.num (Byte.nats ((Byte.le 16 n).map (BitVec.ofNat 8 ·))) from rfl).trans (num_le 16 n)

/-- The grant with the nonce of the device passes every check. -/
theorem grant0_ok {level : Nat} {c : Chip} (hl : level = 1 ∨ level = 2) (h1 : lifecycle c = 1) (h2 : keyHeld 0x11 c = true)
    (h3 : deviceId c = 0) (h4 : getF Reg.SEC_KEYCTR_CTR 0 c = 0) (h5 : debugBlocked 1 c = none) (h6 : debugBlocked 2 c = none) :
    grantResult (Byte.nats (grant0 level (debugNonceNow c))) true c = none := by
  have hb : debugNonceNow c < 2 ^ 128 := (Config.debugNonce c.sec.drawn).isLt
  unfold grantResult
  generalize debugNonceNow c = n at hb ⊢
  have hn : Byte.num (Byte.slice (Byte.nats (grant0 level n)) 0x10 16) = n := by
    rw [grant0_nonce]
    exact Nat.mod_eq_of_lt (Nat.lt_of_lt_of_eq hb (by decide))
  have e3 : Byte.u8 (Byte.nats (grant0 level n)) 3 = 0 := rfl
  have e4 : Byte.u32 (Byte.nats (grant0 level n)) 4 = 0 := rfl
  have e8 : Byte.u64 (Byte.nats (grant0 level n)) 8 = 0 := rfl
  have e20 : Byte.u16 (Byte.nats (grant0 level n)) 0x20 = 60 := rfl
  have e22 : Byte.num (Byte.slice (Byte.nats (grant0 level n)) 0x22 6) = 0 := rfl
  have e2 : Byte.u8 (Byte.nats (grant0 level n)) 2 = level := by
    rcases hl with rfl | rfl <;> rfl
  simp only [hn, grant0_magic, e2, e3, e4, e8, e20, e22, h1, h2, h3, h4]
  rcases hl with rfl | rfl <;> simp [h5, h6]

theorem witness_DebugLevelsAreGranted :
    Owns 5 keyed0 ∧
    (let c := keyLoad 0x11 (frameTake 5 keyed0);
      (∀ n, (grant0 1 n).length = 104 ∧ (grant0 2 n).length = 104 ∧ (grant0 0 n).length = 104) ∧
      grantResult (Byte.nats (grant0 0 0)) true c = some 2 ∧
      grantResult (Byte.nats (grant0 1 (debugNonceNow c))) true c = none ∧
      grantResult (Byte.nats (grant0 2 (debugNonceNow c))) true c = none ∧ Byte.u8 (Byte.nats (grant0 2 (debugNonceNow c))) 2 = 2) ∧
    (let c := setF Reg.SEC_DBG_LEVEL 0 2 (atMs 5 keyed0); debugLevel c ≠ 0 ∧ kcUp c = true ∧ tapUp c = true ∧
      Serves 5 c ∧ c.hst.decl = some 5 ∧
      (let d : Chip := { c with sec := { c.sec with until_ := some 5 } }; d.sec.until_ = some 5 ∧ 5 ≤ d.backup.ms ∧ debugLevel d ≠ 0)) ∧
    (kcUp keyed0 = true ∧ tapUp keyed0 = true ∧ grantResult (Byte.nats (grant0 0 0)) true (keyLoad 0x11 keyed0) = some 2 ∧
      grantResult (Byte.nats (grant0 1 (debugNonceNow (keyLoad 0x11 keyed0)))) true (keyLoad 0x11 keyed0) = none) ∧
    (kcUp run0 = true ∧ tapUp run0 = true ∧ lifecycle run0 = 0 ∧ debugBlocked 1 run0 = none ∧ debugBlocked 2 run0 = none ∧
      lifecycle (setF Reg.SEC_LC_FUSES 0 4 run0) = 4 ∧ debugBlocked 2 (setF Reg.SEC_LC_FUSES 0 4 run0) = none ∧
      lifecycle keyed0 ≠ 0 ∧ lifecycle keyed0 ≠ 4) := by
  refine ⟨⟨serves_keyed0, by decide +kernel⟩, ⟨fun n => ⟨rfl, rfl, rfl⟩, by decide +kernel, ?_, ?_, rfl⟩,
    ⟨by decide +kernel, by decide +kernel, by decide +kernel, ?_, by decide +kernel, by decide +kernel⟩,
    ⟨by decide +kernel, by decide +kernel, by decide +kernel, ?_⟩, by decide +kernel⟩
  · exact grant0_ok (Or.inl rfl) (by decide +kernel) (by decide +kernel) (by decide +kernel) (by decide +kernel)
      (by decide +kernel) (by decide +kernel)
  · exact grant0_ok (Or.inr rfl) (by decide +kernel) (by decide +kernel) (by decide +kernel) (by decide +kernel)
      (by decide +kernel) (by decide +kernel)
  · exact ⟨by decide +kernel, by decide +kernel, by decide +kernel, by decide +kernel⟩
  · exact grant0_ok (Or.inl rfl) (by decide +kernel) (by decide +kernel) (by decide +kernel) (by decide +kernel)
      (by decide +kernel) (by decide +kernel)

theorem witness_TapInstructionsShiftOut :
    (∀ level, Settled (setF Reg.SEC_DBG_LEVEL 0 level run0)) ∧
    (tapUp run0 = true ∧ kcUp run0 = true ∧ debugLevel run0 = 0) ∧
    (∀ level : Fin 3, let c := setF Reg.SEC_DBG_LEVEL 0 level.val run0;
      tapUp c = true ∧ kcUp c = true ∧ debugLevel c = level.val) ∧
    (addrOk 0x190020 = true ∧ inAperture 0x190020 = false ∧ inBuffer 0x190020 = false) ∧
    (hostOf false 0x17FFFFF = some 0x201FFFFF ∧ hostOf true 0x54000000 = some 0x40000000) :=
  ⟨fun _ => settled_setF settled_run0 _ _ _, by decide +kernel, by decide +kernel, by decide +kernel, by decide⟩

/-! ### Sessions, frames, the register window, bulk transfers, the Auction -/

/-- The host ports of a HOST card run: both Ethernet ports, SPI, the service port; client 0 has rank 9. Session 0 is the
Declarer, on port 0; sessions 1, 4 and 5 are open, 4 with `tx` to be read. -/
def host0 (tx : List (List Nat)) : Chip :=
  let c := withCard 0x00A0 ([3, 1, 0, 0, 0, 0, 5, 15, 0, 1, 120, 0] ++ List.replicate 26 0 ++ [9, 0, 0, 0])
    (withCard 0x00C0 ([1, 0, 0, 0] ++ Byte.le 2 0x40 ++ Byte.le 2 16) (atMs 200000 run0))
  let o := fun (k x : Nat) (r : Nat) => ({ state := 2, xport := x, rank := r } : Session)
  { c with hst := { c.hst with decl := some 0, sess := (((c.hst.sess.set 0 (o 0 0 9)).set 1 (o 1 1 4)).set 4 { o 4 3 5 with tx := tx }).set 5 (o 5 4 15) }
           sec := { c.sec with root := true, entries := [(16, keyOf 0x40 6)] } }
/-- Session 0 of `host0` with its bulk transfer, its bid, and so on. -/
def hostSess (f : Session → Session) : Chip := sessPut 0 (f (sess 0 (host0 []))) (host0 [])
def head0 (k : Fin 6) (n len : Nat) : FrameHead :=
  { sess := k, magic := 0x4B48, version := 1, session := BitVec.ofNat 8 n, tag := 0, seq := 1, len := BitVec.ofNat 32 len, got := len, authOk := true }
def rq0 : Request := { sess := 0, tag := 0 }

theorem settled_host0 (tx : List (List Nat)) : Settled (host0 tx) := settled_like rfl rfl rfl rfl rfl rfl
theorem frameOk_host0 (k : Fin 6) (hk : k = 0 ∨ k = 1 ∨ k = 5) (len : Nat) (hl : len = 0 ∨ len = 8) :
    FrameOk (head0 k k.val len) (host0 []) := by
  rcases hk with rfl | rfl | rfl <;> rcases hl with rfl | rfl <;>
    exact ⟨⟨by decide +kernel, by decide +kernel, by decide +kernel, by decide +kernel⟩, by decide +kernel,
      ⟨by decide +kernel, by decide +kernel, by decide +kernel⟩, by decide +kernel, fun _ => by decide +kernel⟩

theorem witness_SessionsOpenAnswerAndClose :
    (portUp 0 (host0 []) = true ∧ portUp 1 (host0 []) = true ∧ freeNet (host0 []) = some 2 ∧
      tlsPasses true none (host0 []) = false ∧ tlsPasses true (some 0) (host0 []) = true ∧ (host0 []).pwr.phase = .run) ∧
    (let h := head0 5 0xFF 0; (host0 []).upd.pause = false ∧ inStandby (host0 []) = false ∧ h.sess.val = 5 ∧
      secured 5 (host0 []) = false ∧ h.session.toNat = 0xFF ∧ h.seq.toNat = 1 ∧ h.magic.toNat = 0x4B48 ∧ h.len.toNat ≤ 1048576 ∧
      h.got = h.len.toNat ∧ h.authOk = true ∧ h.version.toNat = 1 ∧
      Byte.nats (List.replicate 16 (0 : Byte)) = List.replicate 16 0) ∧
    (FrameOk (head0 1 1 0) (host0 []) ∧ (head0 1 1 0).len = 0) ∧ Settled (host0 []) ∧ knownType (0x04 : BitVec 8).toNat = false ∧
    (∀ k, k = 0 ∨ k = 1 ∨ k = 5 → (sess k (host0 [])).state ≠ 0 ∧
      (sess k (host0 [])).last + 1000 * idleLimit (host0 []) ≤ (host0 []).backup.ms) ∧
    (spiUp (host0 []) = true ∧ (sess 4 (host0 [])).tx = [] ∧ (sess 4 (host0 [[1], [2]])).tx = [1] :: [[2]] ∧
      spiUp (host0 [[1], [2]]) = true ∧ inStandby (host0 [[1], [2]]) = false) ∧ Settled (host0 [[1], [2]]) ∧
    (writerStatus (.session 0) (host0 []) = .ok ∧ (sess 0 (host0 [])).xport < 2 ∧ (sess 1 (host0 [])).xport < 2 ∧
      ((1 : BitVec 32).toNat % 4).testBit (sess 0 (host0 [])).xport = true ∧
      ((2 : BitVec 32).toNat % 4).testBit (sess 1 (host0 [])).xport = true) :=
  ⟨by decide +kernel, by decide +kernel, ⟨frameOk_host0 1 (by decide) 0 (by decide), by decide⟩, settled_host0 _, by decide,
    by rintro k (rfl | rfl | rfl) <;> decide +kernel, by decide +kernel, settled_host0 _, by decide +kernel⟩

theorem witness_WindowReadsAndWrites :
    Settled (host0 []) ∧ FrameOk (head0 1 1 8) (host0 []) ∧ FrameOk (head0 0 0 8) (host0 []) ∧ (head0 1 1 8).len.toNat = 8 ∧
    ((host0 []).hst.decl ≠ some (head0 1 1 8).sess.val ∧ (host0 []).hst.decl = some (head0 0 0 8).sess.val) ∧
    ((256 : BitVec 32).toNat ≤ 256 ∧ 256 < (257 : BitVec 32).toNat ∧
      (∀ a ∈ spanOf (0x190020 : BitVec 32).toNat 1, addrOk a = true ∧ inAperture a = false ∧ inBuffer a = false) ∧
      (∃ a ∈ spanOf (0x190021 : BitVec 32).toNat 256, addrOk a = false) ∧
      addrOk (0x190020 : BitVec 32).toNat = true ∧ inAperture (0x190020 : BitVec 32).toNat = false ∧
      inBuffer (0x190020 : BitVec 32).toNat = false ∧ addrOk (0x190021 : BitVec 32).toNat = false ∧
      ([0, 0] : List (BitVec 32)).length ≠ (1 : BitVec 32).toNat) ∧
    (Writer.session 3 = .session 3 ∧ ({ run0 with pwr := { run0.pwr with phase := .bare } } : Chip).pwr.phase = .bare) ∧
    Settled { run0 with pwr := { run0.pwr with phase := .bare } } ∧
    ((host0 []).pwr.phase ≠ .bare ∧ mayWrite (.session 0) 0x00000 = false ∧ writerStatus (.session 0) (host0 []) = .ok) :=
  ⟨settled_host0 _, frameOk_host0 1 (by decide) 8 (by decide), frameOk_host0 0 (by decide) 8 (by decide), by decide,
    by decide +kernel, by decide +kernel, by decide, settled_like rfl rfl rfl rfl rfl rfl, by decide +kernel⟩

/-- A transfer of `n` bytes to slot 1, its session 0 the Declarer. -/
def bulk0 (n : Nat) : Bulk := { code := 0x10, total := n, arg := 1, last := 100000 }
def bulks0 (n : Nat) : Chip := hostSess fun x => { x with bulk := some (bulk0 n) }
/-- SHA-256 of the empty string, FIPS 180-4. -/
def emptyDigest : List Byte :=
  [0xe3, 0xb0, 0xc4, 0x42, 0x98, 0xfc, 0x1c, 0x14, 0x9a, 0xfb, 0xf4, 0xc8, 0x99, 0x6f, 0xb9, 0x24,
   0x27, 0xae, 0x41, 0xe4, 0x64, 0x9b, 0x93, 0x4c, 0xa4, 0x95, 0x99, 0x1b, 0x78, 0x52, 0xb8, 0x55]
theorem sha256_empty : sha256 [] = Byte.nats emptyDigest := by decide +kernel
def evt0 : EventRec := { seq := 5, boot := 1, block := 0, reg := 0, bit := 0, inst := 0, info := [], mt := 0, wall := 0 }

theorem witness_BulkRestartAndEvents :
    Serves 0 (host0 []) ∧ (host0 []).hst.decl = some 0 ∧ Settled (host0 []) ∧
    (bulkAdmit 0 0x10 (300 : BitVec 32).toNat (1 : BitVec 32).toNat (frameTake 0 (host0 [])) = .ok ∧ Status.range ≠ .ok ∧
      bulkAdmit 0 0x10 (4194304 : BitVec 32).toNat (2 : BitVec 32).toNat (frameTake 0 (host0 [])) = .range ∧
      bulkAdmit 0 0x10 (299 : BitVec 32).toNat (1 : BitVec 32).toNat (frameTake 0 (host0 [])) = .lenRange ∧
      restartRefused (frameTake 0 (host0 [])) = .ok) ∧
    (let c := setF Reg.PWR_PFW_ACTIVE 0 1 (host0 []); Serves 0 c ∧ c.hst.decl = some 0 ∧ Settled c ∧
      restartRefused (frameTake 0 c) = .busy) ∧
    (({ host0 [] with lnk := { run0.lnk with certs := [(5, 0)] } } : Chip).lnk.certs.any (fun r => r.1 == (5 : BitVec 32).toNat) = true ∧
      (host0 []).lnk.certs.any (fun r => r.1 == (5 : BitVec 32).toNat) = false) ∧
    (∀ n : Fin 2, Serves 0 (bulks0 n.val) ∧ (sess 0 (bulks0 n.val)).bulk = some (bulk0 n.val)) ∧
    ((0 : BitVec 32).toNat = (bulk0 1).got ∧ (bulk0 1).got + [(7 : Byte)].length ≤ (bulk0 1).total ∧ (1 : BitVec 32).toNat ≠ (bulk0 1).got ∧
      (bulk0 1).total < (bulk0 1).got + [(7 : Byte), 8].length ∧ (bulk0 0).total ≤ (bulk0 0).got ∧ emptyDigest.length = 32 ∧
      (List.replicate 32 (0 : Byte)).length = 32) ∧
    sha256 (bulk0 0).data.reverse.flatten = Byte.nats emptyDigest ∧
    sha256 (bulk0 0).data.reverse.flatten ≠ Byte.nats (List.replicate 32 0) ∧
    (1048576 < (1048577 : BitVec 32).toNat ∧ (1048576 : BitVec 32).toNat ≤ 1048576) ∧
    (let c : Chip := { host0 [] with hst := { (host0 []).hst with ring := [evt0] } }; Serves 0 c ∧ c.hst.ring.getLast? = some evt0 ∧
      (1 : BitVec 32) ≠ 0) ∧
    rq0.sess.val ≠ 5 ∧ (bulk0 1).last + 30000 ≤ (bulks0 1).backup.ms := by
  refine ⟨?_, by decide +kernel, settled_host0 _, by decide +kernel, ⟨?_, by decide +kernel, settled_setF (settled_host0 _) _ _ _, by decide +kernel⟩,
    by decide +kernel, ?_, by decide, sha256_empty, ?_, by decide, ⟨?_, by decide +kernel⟩, by decide, by decide +kernel⟩
  · exact ⟨by decide +kernel, by decide +kernel, by decide +kernel, by decide +kernel⟩
  · exact ⟨by decide +kernel, by decide +kernel, by decide +kernel, by decide +kernel⟩
  · intro n
    unfold Serves
    revert n
    decide +kernel
  · rw [show (bulk0 0).data.reverse.flatten = [] from rfl, sha256_empty]
    decide
  · exact ⟨by decide +kernel, by decide +kernel, by decide +kernel, by decide +kernel⟩

theorem witness_AuctionAndHandover :
    Serves 0 (host0 []) ∧ Settled (host0 []) ∧ (host0 []).hst.decl = some 0 ∧ (host0 []).hst.decl.isSome = true ∧
    (let c : Chip := { host0 [] with hst := { (host0 []).hst with decl := none } }; Serves 0 c ∧ c.hst.decl = none ∧
      (sess 0 c).bid = none ∧ (sess 0 c).rank ≠ 0 ∧ rq0.sess.val ≠ 5 ∧
      (let d : Chip := { c with pwr := { c.pwr with bidOpen := some 200001 } }; Serves 5 d ∧ (sess 5 d).bid = none ∧ (sess 5 d).rank ≠ 0 ∧
        serviceBids d = true)) ∧
    (let c : Chip := { host0 [] with hst := { (host0 []).hst with target := some (1, 198001) } };
      Serves 1 c ∧ Serves 0 c ∧ c.hst.target = some (1, 198001) ∧ c.backup.ms < 198001 + 2000 ∧ (1 : Nat) ≠ 0) ∧
    (let c : Chip := { host0 [] with hst := { (host0 []).hst with target := some (1, 198000) } };
      Serves 1 c ∧ Settled c ∧ c.hst.target = some (1, 198000) ∧ 198000 + 2000 ≤ c.backup.ms) ∧
    ((sess 1 (host0 [])).state = 2 ∧ (sess 1 (host0 [])).rank ≠ 0 ∧ 1 ≤ 5 ∧ 5 < 6) ∧
    (let c : Chip := { hostSess (fun x => { x with bid := some 0 }) with hst := { (hostSess fun x => { x with bid := some 0 }).hst with auct := some 199000, decl := none } };
      c.hst.auct = some 199000 ∧ 199000 + 1000 ≤ c.backup.ms ∧ auctionWinner c = some 0) ∧
    (inStandby (host0 []) = false ∧ (sess 0 (host0 [])).last + 10000 ≤ (host0 []).backup.ms) := by
  refine ⟨?_, settled_host0 _, rfl, rfl, ⟨?_, by decide +kernel, by decide +kernel, by decide +kernel, by decide,
    ⟨?_, by decide +kernel, by decide +kernel, by decide +kernel⟩⟩, ⟨?_, ?_, by decide +kernel, by decide +kernel, by decide⟩,
    ⟨?_, settled_like rfl rfl rfl rfl rfl rfl, by decide +kernel, by decide +kernel⟩, by decide +kernel, by decide +kernel, by decide +kernel⟩
  all_goals exact ⟨by decide +kernel, by decide +kernel, by decide +kernel, by decide +kernel⟩

/-! ### Memory, transfers, firmware, VBAT, the band -/

def word0 : Chip := fields [(Reg.MEM_ECCT_ADDR_ADDR, 0, 0x201FFFF8), (Reg.MEM_CAPSEL_STREAM, 0, 9), (Reg.SNS_CFG_ROLE, 9, 1)] run0
def capture0 (r : CaptureRun) : Chip := { word0 with mem := { word0.mem with cap := some r } }

theorem witness_MemoryIsScrubbedAndTested :
    (kcUp run0 = true ∧ 0x17FFFF8 % 8 = 0 ∧ 0x17FFFF8 < 0x1800000 ∧ hostOf false 0x17FFFF8 = some 0x201FFFF8 ∧ 63 < 64 ∧
      wordGet (0x201FFFF8 / 8) run0 < 2 ^ 64 ∧ getF Reg.MEM_ECCT_EN 0 run0 = 0) ∧
    (let c : Chip := { run0 with mem := { run0.mem with ueDue := true } }; kcUp c = true ∧ c.mem.ueDue = true) ∧
    (ueRestarts false 0x15FFFF8 = true ∧ ueRestarts true 0x2FFFFFF8 = true) ∧
    (writerStatus .firmware word0 = .ok ∧ eccAddr (getF Reg.MEM_ECCT_ADDR_ADDR 0 word0) = true ∧ goBarred word0 = false ∧
      word0.mem.cap = none) ∧ Settled word0 ∧
    (let r : CaptureRun := { prot := false, chans := [9], total := 1, k := 1 }; writerStatus .firmware (capture0 r) = .ok ∧
      goBarred (capture0 r) = false ∧ (capture0 r).mem.cap.isSome = true ∧ (capture0 r).mem.cap = some r ∧ r.total ≤ r.k ∧ Settled (capture0 r)) ∧
    (0 < (1 : BitVec 5).toNat ∧ (16 : BitVec 5).toNat ≤ 16 ∧ 0 < (1 : BitVec 15).toNat ∧ (16384 : BitVec 15).toNat ≤ 16384 ∧
      (∀ s ∈ capStreams (1 : BitVec 5).toNat word0, s ≤ 95 ∧ streamOn s word0 = true)) := by
  refine ⟨by decide +kernel, by decide +kernel, by decide +kernel, by decide +kernel, settled_fields settled_run0 _,
    ⟨by decide +kernel, by decide +kernel, by decide +kernel, rfl, by decide, ?_⟩, by decide +kernel⟩
  exact settled_congr (settled_fields settled_run0 _) rfl rfl rfl rfl rfl rfl

/-- Channel 1 is set to move 16 words inside SRAM, from `a`. -/
def move0 (a : Nat) : Chip := fields [(Reg.MEM_TE_SADDR_ADDR, 1, a), (Reg.MEM_TE_DADDR_ADDR, 1, 0x20101000),
  (Reg.MEM_TE_SSHAPE_LINE_W, 1, 16), (Reg.MEM_TE_SSHAPE_LINES, 1, 1), (Reg.MEM_TE_DSHAPE_LINE_W, 1, 16), (Reg.MEM_TE_DSHAPE_LINES, 1, 1)] run0
def side0 (a : Nat) : TransferSide := { addr := a, lineW := 16, stride := 16, lines := 1 }
def run16 (req moved : Nat) (fail : Option Status) : TransferRun :=
  { src := side0 0x20000000, dst := side0 0x20101000, req := req, tag := 7, moved := moved, fail := fail }
def transfer0 (x : TransferRun) : Chip := tePut 1 x (move0 0x20000000)
theorem settled_move0 (a : Nat) : Settled (move0 a) := settled_fields settled_run0 _

theorem witness_TransfersMoveAndComplete :
    (writerStatus .firmware (move0 2) = .ok ∧ Status.addr ≠ .ok ∧ teCheck 1 0 (move0 2) = .addr ∧ teCheck 1 3 (move0 0x20000000) = .range ∧
      teCheck 1 0 (move0 0x20000000) = .ok ∧ (teSource 1 (move0 0x20000000)).total ≠ 0) ∧ (∀ a, Settled (move0 a)) ∧
    (let x := run16 0 0 none; teGet 1 (transfer0 x) = some x ∧ x.fail = none ∧ x.moved < x.src.total ∧ inStandby (transfer0 x) = false ∧
      requestPresent x.req (transfer0 x) = true) ∧
    (let x := run16 1 15 none; teGet 1 (transfer0 x) = some x ∧ x.fail = none ∧ x.moved < x.src.total ∧ inStandby (transfer0 x) = false ∧
      requestPresent x.req (transfer0 x) = false) ∧ Settled (transfer0 (run16 1 15 none)) ∧
    (let x := run16 0 3 (some .crc); teGet 1 (transfer0 x) = some x ∧ x.fail = some .crc) ∧
    (let x := run16 0 16 none; teGet 1 (transfer0 x) = some x ∧ x.fail = none ∧ x.src.total ≤ x.moved ∧ x.moved ≠ 0 ∧
      backBuffer (x.dst.at (x.moved - 1)) = false) ∧
    (Settled run0 ∧ writerStatus .firmware run0 = .ok ∧ apbaseOk ((0x403F : BitVec 32).toNat % 2 ^ 17) = true ∧
      apbaseOk ((0x4040 : BitVec 32).toNat % 2 ^ 17) = false) := by
  refine ⟨by decide +kernel, settled_move0, by decide +kernel, by decide +kernel, ?_, by decide +kernel, by decide +kernel,
    settled_run0, by decide +kernel⟩
  exact settledB_ok (by decide +kernel)

/-- The owner's device runs slot `r`; both slots hold an image, in the states `a` and `b`. -/
def slots0 (a b r : Nat) (f : UpdState → UpdState) : Chip :=
  let c := setF Reg.UPD_FW_RUN_SLOT 0 r (atMs 700000 owner0)
  { c with upd := f { c.upd with hdr := #v[some { seq := 1, pref := r, states := #v[a, b], tries := 0, bare := [] }, none], img := #v[img0, img0] } }

theorem witness_FirmwareLoadsAndActivates :
    (Owns 5 (slots0 3 0 0 id) ∧ loaderRuns (slots0 3 0 0 id) = false ∧
      fwAdmit 5 0 (List.replicate 4096 (0 : Byte)).length (slots0 3 0 0 id) = .ok) ∧
    (∀ b : Fin 5, let c := slots0 3 b.val 0 id;
      slotState (1 - runSlot c) c = b.val ∧ keysAvail c = true ∧ c.bil.lsFail = false ∧ getF Reg.UPD_STAT_PENDING 0 c = 0 ∧
      (∀ k < 6, (sess k c).bulk = none) ∧ getF Reg.PWR_PFW_ACTIVE 0 c = 0) ∧ Settled (slots0 3 0 0 id) ∧
    (let c := setF Reg.UPD_STAT_PENDING 0 1 (slots0 3 1 0 id); getF Reg.UPD_STAT_PENDING 0 c = 1 ∧ c.pwr.phase = .run ∧
      imgReason (some true) (1 - runSlot c) true c = 0 ∧ imgReason (some true) (1 - runSlot c) false c = 2 ∧ imgReason (some false) (1 - runSlot c) true c = 5 ∧
      c.upd.pendAt + 10000 ≤ c.backup.ms) ∧
    (let c := setF Reg.UPD_STAT_PENDING 0 1 (slots0 3 1 0 fun u => { u with pendAt := 690001 }); getF Reg.UPD_STAT_PENDING 0 c = 1 ∧
      c.pwr.phase = .run ∧ c.backup.ms < c.upd.pendAt + 10000) ∧ Settled (setF Reg.UPD_STAT_PENDING 0 1 (slots0 3 1 0 fun u => { u with pendAt := 690001 })) ∧
    (∀ r : Fin 2, let c := slots0 2 2 r.val fun u => { u with pause := true, readyAt := some 5, from_ := 0 };
      c.upd.pause = true ∧ c.upd.readyAt.isSome = true ∧ runSlot c < 2 ∧ c.bil.due = [] ∧ c.upd.bootAt + 2600 ≤ c.backup.ms ∧ (decide (runSlot c = c.upd.from_) = decide (r = 0))) ∧
    (let c := slots0 3 2 1 fun u => { u with bootAt := 100000 };
      c.pwr.phase = .run ∧ c.upd.pause = false ∧ slotState (runSlot c) c = 2 ∧ c.upd.bootAt + 600000 ≤ c.backup.ms) := by
  refine ⟨⟨⟨⟨by decide +kernel, by decide +kernel, by decide +kernel, by decide +kernel⟩, by decide +kernel⟩, by decide +kernel, ?_⟩,
    ?_, settledB_ok ?_, ?_, ?_, settledB_ok ?_, ?_, ?_⟩
  · rw [List.length_replicate]
    decide +kernel
  all_goals decide +kernel

theorem witness_VbatIsMeasured :
    Settled run0 ∧ (2600 < 4096 ∧ 2599 < 2600 ∧ run0.logicUp = true ∧ run0.powered = true) ∧
    (let c : Chip := { resetC with pwr := { resetC.pwr with vpd5 := false }, lsw := resetC.lsw }; c.powered = false ∧ Settled c) :=
  ⟨settled_run0, by decide, by decide, settledB_ok (by decide +kernel)⟩

theorem witness_BandIsLatchedPerUpdate :
    (let c := panel0 fun d => { d with defer := some req0, starts := [0], band := 7 };
      c.dsp.defer = some req0 ∧ c.dsp.upd = none ∧ legalHeld c = false ∧ getF Reg.PWR_PFW_ACTIVE 0 c = 0 ∧ legalAdmits c = true) ∧
    (panel0 fun d => { d with upd := some upd0 }).dsp.upd = some upd0 := by decide +kernel

end Sys2Proof.Tests
end

section
/-!
The register fields and the reset state (chapter 00): what reset leaves in the maps, the bays and the channels, and the
coil safety of R29 as a consequence of a settled power die.
-/

namespace Sys2Proof.Machine
open Sys2Proof Sys2Proof.Safety

/-! ### Coils follow gates -/

/-- R336: the input of a coil's channel is the gate line of its bay. -/
theorem lswInput_of_coil {x : LswChan} (c : Chip) (hkind : x.kind = 1) (hsrc : x.src < 16) :
    lswInput x c = (hslBay x.src c).gate := by
  simp [lswInput, hkind, hsrc]

/-- R336: a channel that is not frozen is wanted on only while its input is on. -/
theorem lswInput_of_wanted {x : LswChan} {c : Chip} (hhold : x.hold = none) (hw : lswWanted x c = true) :
    lswInput x c = true := by
  simp only [lswWanted, hhold, Bool.and_eq_true] at hw
  obtain ⟨⟨⟨⟨-, hin⟩, -⟩, -⟩, -⟩ := hw
  exact hin

/-- A channel that is on in a device whose outputs follow is wanted on. -/
theorem lswWanted_of_out {k : Nat} {c : Chip} (h : OutputsFollow c) (hk : k < 48) (ho : (lsw k c).out = true) :
    lswWanted (lsw k c) c = true := by
  rw [h k hk, Bool.and_eq_true, Bool.and_eq_true] at ho
  obtain ⟨⟨hw, -⟩, -⟩ := ho
  exact hw

/-- R1, R29: in a settled device a coil's channel is on only through its bay's gate, and the gate only while the closing
conditions hold. -/
theorem coilsSafe_of_settled {c : Chip} (h : Settled c) : CoilsSafe c := by
  obtain ⟨hgates, houts, -⟩ := h
  intro k n hk hn hkind hsrc hhold hout
  subst hsrc
  have hin : lswInput (lsw k c) c = true := lswInput_of_wanted hhold (lswWanted_of_out houts hk hout)
  have hgate : (hslBay (lsw k c).src c).gate = true := lswInput_of_coil c hkind hn ▸ hin
  exact (hgates _ hn hgate).2

/-! ### The reset state -/

@[simp] theorem hslBay_reset (n : Nat) : hslBay n State.reset.toChip = {} := by
  change (Vector.replicate 16 ({} : HslBay))[n]?.getD {} = {}
  rw [Vector.getElem?_replicate]
  split <;> rfl

@[simp] theorem lsw_reset (k : Nat) : lsw k State.reset.toChip = {} := by
  change (Vector.replicate 48 ({} : LswChan))[k]?.getD {} = {}
  rw [Vector.getElem?_replicate]
  split <;> rfl

/-- No gate is on, no channel has a card or is on, and no test runs. -/
theorem settled_reset : Settled State.reset.toChip := by
  refine ⟨fun n _ hgate => ?_, fun k _ => ?_, fun k _ => Or.inl ?_⟩
  · rw [hslBay_reset] at hgate
    cases hgate
  · rw [lsw_reset]
    rfl
  · rw [lsw_reset]

/-- R13: at reset every field reads its reset value, since its map holds no difference from it. -/
@[simp] theorem getF_reset (f : Fld) (i : Nat) : getF f i State.reset.toChip = f.rst := by
  have hmap : (State.reset.toChip).mapOf f.home = [] := by cases f.home <;> rfl
  rw [getF, hmap, mapGet, Nat.zero_xor]

/-- R13, R33: the published copies of the second snapshot group read the reset values as well. -/
@[simp] theorem readF_reset (f : Fld) (i : Nat) : readF f i State.reset.toChip = f.rst := by
  unfold readF
  split
  · exact Nat.zero_xor f.rst
  · exact getF_reset f i

/-! ### The obligations of chapter 00 -/

/-- Settles O4: reset leaves no gate, channel or test on and empty register maps, whose fields read their reset values. The fuse
fields' values (SILREV, SLOTS_LEFT, PART) are those of the model's log entry 7. -/
theorem resetStateIsSettledAndRead : Obligations.ResetStateIsSettledAndRead := by
  obtain ⟨hregs, hbregs, hfregs⟩ := mapWf_reset
  refine ⟨⟨settled_reset, coilsSafe_of_settled settled_reset, hregs, hbregs, hfregs, rfl⟩,
    fun f i => ⟨getF_reset f i, readF_reset f i⟩, ?_⟩
  simp only [getF_reset]
  exact ⟨rfl, rfl, rfl, rfl, rfl, rfl, rfl⟩

/-- Settles O5, from the laws of the sparse maps: read after write, other keys kept, canonical form kept. -/
theorem fieldSetAndRead : Obligations.FieldSetAndRead := fun f i v c =>
  ⟨getF_setF_same f i v c, fun g j h => getF_setF_ne f g i j v c h,
    fun hregs hbregs hfregs => mapsWf_setF f i v c ⟨hregs, hbregs, hfregs⟩⟩

end Sys2Proof.Machine
end

section
/-!
What every command leaves (chapters 00 and 01): a next state with the queue's rest, and a settled power die.
-/

namespace Sys2Proof.Machine
open Sys2Proof Sys2Proof.Safety

/-! ### Every command and every step -/

/-- A command runs its effect, the queue stays, and the power die settles. -/
theorem run_next (f : Chip → Chip) (s : State) :
    s.run f = .next { toChip := settle (f s.toChip), pending := s.pending } := rfl

/-- Settles O2: every command is the step of an effect, and settling any device gives a settled one. -/
theorem everyCommandCompletesSettled : Obligations.EveryCommandCompletesSettled := by
  intro i s
  obtain ⟨f, hf⟩ := exec_run i s
  have hnext := hf.trans (run_next f s)
  exact ⟨_, hnext, rfl, exec_settled hnext⟩

/-- A step idles or runs the command at the front of the queue. -/
theorem step_cases {s t : State} (h : step s = .next t) :
    s = t ∨ ∃ i rest, s.pending = i :: rest ∧ exec i { s with pending := rest } = .next t := by
  unfold step at h
  split at h
  · injection h with hst
    exact .inl hst
  · next i rest hp => exact .inr ⟨i, rest, hp, h⟩

/-- Settles O3: an idle step keeps the settled state, a command's step ends settled; a settled device's coils are safe. -/
theorem stepKeepsSettled : Obligations.StepKeepsSettled := by
  intro s t hs hstep
  have ht : Settled t.toChip := by
    rcases step_cases hstep with rfl | ⟨i, rest, -, hexec⟩
    · exact hs
    · exact exec_settled hexec
  exact ⟨ht, coilsSafe_of_settled ht⟩

end Sys2Proof.Machine
end

section
/-!
The die bridge (chapter 01, R18-R21): retries and losses, and what a loss declared by either die leaves.
-/

namespace Sys2Proof.Machine
open Sys2Proof Sys2Proof.Safety

/-! ### Fields by their home -/

/-- R13: a field reads alike where the registers of its home agree. -/
theorem getF_of_bregs {f : Fld} (hf : f.home = .backup) {c d : Chip} (h : d.bregs = c.bregs) (i : Nat) :
    getF f i d = getF f i c := by
  simp only [getF, hf, Chip.mapOf, h]

theorem getF_of_regs {f : Fld} (hf : f.home = .vol) {c d : Chip} (h : d.regs = c.regs) (i : Nat) :
    getF f i d = getF f i c := by
  simp only [getF, hf, Chip.mapOf, h]

@[simp] theorem release_bregs (c : Chip) : (release c).bregs = c.bregs :=
  release_eq (·.bregs) c (fun _ => rfl) fun _ => setF_bregs (by decide) _ _ _

/-- A counter that saturates within its width reads its old count and what is added, up to its bound. -/
theorem getF_addSat_same {f : Fld} (i : Nat) {m : Nat} (n : Nat) (c : Chip) (hm : m < 2 ^ f.width) :
    getF f i (addSat f i m n c) = min (getF f i c + n) m := by
  rw [addSat, getF_setF_same, Nat.mod_eq_of_lt (lt_of_le_of_lt (Nat.min_le_right _ _) hm)]

/-! ### Negative acknowledgements -/

/-- R17-R20: both dies are up and neither has declared the bridge down. -/
structure BridgeLive (c : Chip) : Prop where
  downPower : c.bridge.downPower = false
  downLogic : c.bridge.downLogic = false
  powered : c.powered = true
  logicUp : c.logicUp = true

/-- R21: a flit's retry is counted. -/
def retryCounted (c : Chip) : Chip :=
  setF Reg.DEV_BRIDGE_RETRY_CNT 0 (min (getF Reg.DEV_BRIDGE_RETRY_CNT 0 c + 1) 255) c

theorem bridgeNak_toPower {c : Chip} (h : BridgeLive c) : bridgeNak .toPower c =
    if c.bridge.toPower.retry < 3 then { retryCounted c with
      bridge := { c.bridge with toPower := { c.bridge.toPower with retry := c.bridge.toPower.retry + 1 } } }
    else bridgeDownPower c := by
  simp [bridgeNak, h.downPower, h.downLogic, h.powered, h.logicUp, addSat, retryCounted]

theorem bridgeNak_toLogic {c : Chip} (h : BridgeLive c) : bridgeNak .toLogic c =
    if c.bridge.toLogic.retry < 3 then { retryCounted c with
      bridge := { c.bridge with toLogic := { c.bridge.toLogic with retry := c.bridge.toLogic.retry + 1 } } }
    else bridgeDownLogic c := by
  simp [bridgeNak, h.downPower, h.downLogic, h.powered, h.logicUp, addSat, retryCounted]

/-- Counting a retry and writing the bridge's own data leave the power die settled. -/
theorem settled_retryCounted {c : Chip} (h : Settled c) (b : BridgeState) : Settled { retryCounted c with bridge := b } :=
  settled_congr h (by simp [retryCounted]) (by simp [retryCounted]) (by simp [retryCounted]) (by simp [retryCounted])
    (by simp [retryCounted]) (by simp [retryCounted])

/-! ### The loss declared by the logic die -/

/-- R125: after the discard no group is pending. -/
theorem getF_discardCommits_pending {k : Nat} (hk : k < 4) (c : Chip) :
    getF Reg.DLR_PEND_PENDING k (discardCommits c) = 0 := by
  have hfold : ∀ (l : List Nat) (c : Chip), k ∈ l →
      getF Reg.DLR_PEND_PENDING k (l.foldl (fun c k => setF Reg.DLR_PEND_PENDING k 0 c) c) = 0 := by
    intro l
    induction l using List.reverseRecOn with
    | nil => intro c h; cases h
    | append_singleton l j ih =>
      intro c h
      rw [List.foldl_append, List.foldl_cons, List.foldl_nil]
      by_cases hj : k = j
      · subst hj
        rw [getF_setF_same]; rfl
      · rw [getF_setF_ne]
        · exact ih c (by simpa [hj] using h)
        · right
          simp only [fkey, Reg.DLR_PEND_PENDING]
          omega
  exact hfold _ c (List.mem_range.mpr hk)

theorem pendingGroup_discardCommits {g : Nat} (hg : g < 112) (c : Chip) : pendingGroup g (discardCommits c) = false := by
  rw [pendingGroup, getF_discardCommits_pending (by omega), Nat.zero_testBit]

/-- Discarding the commits reaches no field but the pending bits. -/
theorem getF_discardCommits_ne {f : Fld} {i : Nat} (h : ∀ k, k < 4 → fkey f i ≠ fkey Reg.DLR_PEND_PENDING k) (c : Chip) :
    getF f i (discardCommits c) = getF f i c := by
  have hfold : ∀ (l : List Nat) (c : Chip), (∀ k ∈ l, fkey f i ≠ fkey Reg.DLR_PEND_PENDING k) →
      getF f i (l.foldl (fun c k => setF Reg.DLR_PEND_PENDING k 0 c) c) = getF f i c := by
    intro l
    induction l with
    | nil => intro c _; rfl
    | cons j l ih =>
      intro c hl
      rw [List.foldl_cons, ih _ fun k hk => hl k (List.mem_cons_of_mem j hk),
        getF_setF_ne _ _ _ _ _ _ (.inr (hl j List.mem_cons_self))]
  exact hfold _ c fun k hk => h k (List.mem_range.mp hk)

theorem discardCommits_dlr (c : Chip) : (discardCommits c).dlr = { c.dlr with staged := [] } := by
  have hfold := foldl_keeps (·.dlr) (fun c k => setF Reg.DLR_PEND_PENDING k 0 c) (fun c k => setF_dlr _ _ _ c) (List.range 4) c
  simp only [discardCommits]
  rw [hfold]

theorem discardCommits_lsw (c : Chip) : (discardCommits c).lsw = c.lsw :=
  foldl_keeps (·.lsw) _ (fun c _ => setF_lsw _ _ _ c) _ c

/-- R20: what stands before the commits are discarded: the loss is counted, UP is 0, no flit waits and no update runs. -/
def logicLossNoted (c : Chip) : Chip :=
  let d := setF Reg.DEV_BRIDGE_UP 0 0 (addSat Reg.DEV_BRIDGE_DOWN_CNT 0 255 1 c)
  { d with bridge := { c.bridge with downLogic := true, trips := [] }, dsp := { c.dsp with upd := none } }

theorem bridgeDownLogic_of_live {c : Chip} (h : BridgeLive c) :
    bridgeDownLogic c = discardCommits (logicLossNoted c) := by
  simp [bridgeDownLogic, h.downPower, h.downLogic, h.logicUp, logicLossNoted]

theorem settled_bridgeDownLogic {c : Chip} (h : Settled c) (hlive : BridgeLive c) : Settled (bridgeDownLogic c) := by
  rw [bridgeDownLogic_of_live hlive]
  exact settled_congr h (by simp [discardCommits_hsl, logicLossNoted]) (by simp [discardCommits_lsw, logicLossNoted])
    (by simp [logicLossNoted]) (by simp [logicLossNoted]) (by simp [logicLossNoted]) (by simp [logicLossNoted])

theorem getF_bridgeUp_bridgeDownLogic {c : Chip} (h : BridgeLive c) :
    getF Reg.DEV_BRIDGE_UP 0 (bridgeDownLogic c) = 0 := by
  rw [bridgeDownLogic_of_live h, getF_discardCommits_ne (by decide)]
  have hregs : (logicLossNoted c).regs = (setF Reg.DEV_BRIDGE_UP 0 0 (addSat Reg.DEV_BRIDGE_DOWN_CNT 0 255 1 c)).regs := rfl
  rw [getF_of_regs rfl hregs, getF_setF_same]
  rfl

theorem getF_downCnt_bridgeDownLogic {c : Chip} (h : BridgeLive c) :
    getF Reg.DEV_BRIDGE_DOWN_CNT 0 (bridgeDownLogic c) = min (getF Reg.DEV_BRIDGE_DOWN_CNT 0 c + 1) 255 := by
  have hcount : (bridgeDownLogic c).bregs = (addSat Reg.DEV_BRIDGE_DOWN_CNT 0 255 1 c).bregs := by
    rw [bridgeDownLogic_of_live h, discardCommits_bregs]
    exact setF_bregs (by decide) _ _ _
  rw [getF_of_bregs rfl hcount, getF_addSat_same _ _ _ (by decide)]

/-! ### The loss declared by the power die, and the logic die's reset -/

/-- A reset of the logic die through the HSL keeps the backup domain's registers, DOWN_CNT among them (R13, R21). -/
theorem bregs_restart (cause : Nat) (c : Chip) : (restart cause c).bregs = c.bregs := by simp [restart]

theorem bridgeDownPower_of_live {c : Chip} (h : BridgeLive c) : bridgeDownPower c =
    let d := restart 3 (addSat Reg.DEV_BRIDGE_DOWN_CNT 0 255 1 c)
    { d with bridge := { d.bridge with downPower := true } } := by
  simp [bridgeDownPower, h.downPower, h.downLogic, h.powered, restart]

theorem getF_downCnt_bridgeDownPower {c : Chip} (h : BridgeLive c) :
    getF Reg.DEV_BRIDGE_DOWN_CNT 0 (bridgeDownPower c) = min (getF Reg.DEV_BRIDGE_DOWN_CNT 0 c + 1) 255 := by
  have hcount : (bridgeDownPower c).bregs = (addSat Reg.DEV_BRIDGE_DOWN_CNT 0 255 1 c).bregs := by
    rw [bridgeDownPower_of_live h]
    dsimp only
    rw [bregs_restart]
  rw [getF_of_bregs rfl hcount, getF_addSat_same _ _ _ (by decide)]

/-- The step of a loss that the logic die declares. -/
theorem exec_bridgeDownLogic {s : State} (hs : Settled s.toChip) (h : BridgeLive s.toChip) :
    ∃ t, exec .bridgeDownLogic s = .next t ∧ getF Reg.DEV_BRIDGE_UP 0 t.toChip = 0 ∧
      getF Reg.DEV_BRIDGE_DOWN_CNT 0 t.toChip = min (getF Reg.DEV_BRIDGE_DOWN_CNT 0 s.toChip + 1) 255 ∧
      t.bridge = { s.bridge with downLogic := true, trips := [] } ∧ t.dlr = { s.dlr with staged := [] } ∧
      (∀ g, g < 112 → pendingGroup g t.toChip = false) ∧ t.dsp = { s.dsp with upd := none } ∧ t.hsl = s.hsl ∧
      t.lsw = s.lsw ∧ t.backup = s.backup ∧ t.bil = s.bil ∧ t.store = s.store := by
  refine ⟨_, run_settled (settled_bridgeDownLogic hs h), getF_bridgeUp_bridgeDownLogic h, getF_downCnt_bridgeDownLogic h, ?_⟩
  rw [bridgeDownLogic_of_live h]
  refine ⟨?_, ?_, fun g hg => pendingGroup_discardCommits hg _, ?_, ?_, ?_, ?_, ?_, ?_⟩
  all_goals simp [discardCommits_dlr, discardCommits_hsl, discardCommits_lsw, logicLossNoted]

/-- Settles O6: a retry counts and a fourth failure declares the loss; each die's loss counts once in the backup domain, which
the logic die's reset keeps. -/
theorem bridgeCountsRetriesAndLosses : Obligations.BridgeCountsRetriesAndLosses := by
  intro s hs hpower hlogic hpowered hup
  have hlive : BridgeLive s.toChip := ⟨hpower, hlogic, hpowered, hup⟩
  refine ⟨fun hretry => ?_, fun hretry => ?_, fun hretry => ?_, fun hretry => ?_, exec_bridgeDownLogic hs hlive,
    ⟨_, run_next bridgeDownPower s, ?_, ?_⟩, ⟨_, run_next vddCoreBrownout s, ?_⟩⟩
  · have hstep := (bridgeNak_toPower hlive).trans (if_pos hretry)
    exact (run_settled (hstep ▸ settled_retryCounted hs _)).trans (by rw [hstep]; rfl)
  · have hstep := (bridgeNak_toLogic hlive).trans (if_pos hretry)
    exact (run_settled (hstep ▸ settled_retryCounted hs _)).trans (by rw [hstep]; rfl)
  · have hstep := (bridgeNak_toPower hlive).trans (if_neg (Nat.not_lt.mpr hretry))
    exact (run_next _ s).trans (by rw [hstep]; rfl)
  · have hstep := (bridgeNak_toLogic hlive).trans (if_neg (Nat.not_lt.mpr hretry))
    exact (run_next _ s).trans (by rw [hstep]; rfl)
  · dsimp only
    rw [settle_bridge, bridgeDownPower_of_live hlive]
  · dsimp only
    rw [getF_of_bregs rfl (settle_bregs _), getF_downCnt_bridgeDownPower hlive]
  · have hreset : (vddCoreBrownout s.toChip).bregs = s.bregs := bregs_restart 6 s.toChip
    dsimp only
    rw [getF_of_bregs rfl (settle_bregs _), getF_of_bregs rfl hreset]

end Sys2Proof.Machine
end

section
/-!
Resets of the logic die and its release (chapters 01 and 03, R19, R48-R77, R525).
-/

namespace Sys2Proof.Machine
open Sys2Proof Sys2Proof.Safety

/-! ### Settling a die without gates -/

/-- Where no gate is on, settling withdraws nothing: the ledgers stay. -/
theorem settle_bil_of_gates_off {c : Chip} (h : ∀ n, n < 16 → (hslBay n c).gate = false) : (settle c).bil = c.bil := by
  have hrecheck : recheckAll c = c := recheckFold_eq _ c fun n hn => by
    rw [gateOk, h n (List.mem_range.mp hn)]; rfl
  rw [settle, hrecheck, lswAll_bil]

/-! ### What a reset leaves, through settling and release -/

/-- A release reaches no register but START_WAIT. -/
theorem getF_release {f : Fld} {i : Nat} (h : fkey f i ≠ fkey Reg.PWR_PFW_START_WAIT 0) (c : Chip) :
    getF f i (release c) = getF f i c := by
  rcases release_cases c with e | e | e <;> rw [e]
  · rfl
  · rw [getF_setF_ne _ _ _ _ _ _ (.inr h)]
    rfl

@[simp] theorem release_snap (c : Chip) : (release c).snap = c.snap :=
  release_eq (·.snap) c (fun _ => rfl) fun _ => setF_snap _ _ _ _

theorem logicDieReset_settle {cause : Nat} {c d : Chip} (h : LogicDieReset cause c d) :
    LogicDieReset cause c (settle d) where
  gates n hn := ⟨gate_settle_off hn (h.gates n hn).1, grant_settle_off (h.gates n hn).2⟩
  brakes := by simpa using h.brakes
  trump := ⟨by rw [settle_hsl_trump, h.trump.1], by rw [getF_settle (by decide), h.trump.2]⟩
  latches := by rw [settle_hsl_latch, h.latches]
  meter := by simpa using h.meter
  kept := by simpa using h.kept
  fresh := by
    rw [settle_bil_of_gates_off fun n hn => (h.gates n hn).1]
    simpa using h.fresh
  down := by simpa using h.down
  first := by simpa using h.first

theorem logicDieReset_release {cause : Nat} {c d : Chip} (h : LogicDieReset cause c d) (hheld : d.pwr.phase = .held) :
    LogicDieReset cause c (release d) where
  gates n hn := by
    rw [hslBay_congr (c := d) (by rw [release_hsl])]
    exact h.gates n hn
  brakes := by simpa using h.brakes
  trump := ⟨by rw [release_hsl, h.trump.1], by rw [getF_release (by decide), h.trump.2]⟩
  latches := by rw [release_hsl, h.latches]
  meter := by simpa using h.meter
  kept := by simpa using h.kept
  fresh := by simpa using h.fresh
  down := release_phase d hheld
  first := by simpa using h.first

/-- A register written before the reset, outside the fuses, does not matter to what the reset leaves. -/
theorem logicDieReset_of_setF {cause : Nat} {f : Fld} {i v : Nat} {c d : Chip} (h : LogicDieReset cause (setF f i v c) d)
    (hf : f.home ≠ .fuse) : LogicDieReset cause c d where
  gates := h.gates
  brakes := h.brakes
  trump := h.trump
  latches := by rw [h.latches, setF_hsl]
  meter := by simpa using h.meter
  kept := by simpa [setF_fregs hf] using h.kept
  fresh := h.fresh
  down := h.down
  first := by simpa using h.first

/-- R13, R48, R53, R77: the HSL's reset state and the logic die's reset together. -/
theorem logicDieReset_logicReset (cause : Nat) (c : Chip) :
    LogicDieReset cause c (logicReset cause (hslReset c)) where
  gates n hn := by
    rw [hslBay_congr (c := hslReset c) (by rw [logicReset_hsl])]
    exact hslReset_gate hn c
  brakes n _ := by rw [logicReset_hsl]; exact hslReset_brake c n
  trump := ⟨by simp, by simp [getF, Chip.mapOf, Reg.DEV_TRUMP_STATE_HELD, mapGet]⟩
  latches := by simp
  meter := by simp
  kept := by
    refine ⟨by simp, ?_⟩
    obtain ⟨m, t, e⟩ := tagLogicReset_frame (hslReset c)
    simp [logicReset, e]
  fresh := ⟨rfl, rfl, by simp, by simp⟩
  down := .inl (logicReset_phase _ _)
  first := by rw [logicReset_cause, hslReset_pwr]

theorem logicDieReset_restart (cause : Nat) (c : Chip) : LogicDieReset cause c (restart cause c) :=
  logicDieReset_release (logicDieReset_logicReset cause c) (logicReset_phase _ _)

/-- What a reset leaves does not depend on what else holds the die, nor on which die declared the bridge down. -/
theorem logicDieReset_withPwr {cause : Nat} {c d : Chip} (h : LogicDieReset cause c d) (p : PwrState) (b : BridgeState)
    (hphase : p.phase = d.pwr.phase) (hfirst : p.firstCause = d.pwr.firstCause) :
    LogicDieReset cause c { d with pwr := p, bridge := b } where
  gates := h.gates
  brakes := h.brakes
  trump := h.trump
  latches := h.latches
  meter := h.meter
  kept := h.kept
  fresh := h.fresh
  down := by dsimp only; rw [hphase]; exact h.down
  first := by dsimp only; rw [hfirst]; exact h.first

/-! ### The resets by row -/

theorem bridgeDownPower_resets {c : Chip} (hdown : c.bridge.downPower = false) (hpowered : c.powered = true) :
    LogicDieReset 3 c (bridgeDownPower c) := by
  have hcounted : LogicDieReset 3 c (restart 3 (if c.bridge.downLogic then c else addSat Reg.DEV_BRIDGE_DOWN_CNT 0 255 1 c)) := by
    split
    · exact logicDieReset_restart 3 c
    · exact logicDieReset_of_setF (logicDieReset_restart 3 _) (by decide)
  simp only [bridgeDownPower, hdown, hpowered, Bool.not_true, Bool.or_self, Bool.false_eq_true, if_false]
  rw [restart] at hcounted
  generalize release (logicReset 3 (hslReset _)) = d at hcounted ⊢
  exact logicDieReset_withPwr hcounted _ _ rfl rfl

/-- R59, R76: the HSL's reset and the logic die's, with a change `g` of the power state that holds the die. -/
def resetHeld (cause : Nat) (g : PwrState → PwrState) (c : Chip) : Chip :=
  let d := logicReset cause (hslReset c)
  { d with pwr := g d.pwr }

theorem resetHeld_resets {cause : Nat} {g : PwrState → PwrState} (hphase : ∀ p, (g p).phase = p.phase)
    (hfirst : ∀ p, (g p).firstCause = p.firstCause) (c : Chip) :
    LogicDieReset cause c (resetHeld cause g c) :=
  logicDieReset_withPwr (logicDieReset_logicReset cause c) _ _ (hphase _) (hfirst _)

theorem corePllLoss_of_locked {c : Chip} (h : c.pwr.pllLost = false) :
    corePllLoss c = resetHeld 4 (fun p => { p with pllLost := true }) c := by
  simp only [corePllLoss, h, Bool.false_eq_true, if_false, resetHeld]

theorem bclkFault_eq (c : Chip) : bclkFault c =
    resetHeld 5 (fun p => { p with bclkHold := true, bmonPass := 0, bclkFlag := true, bclkFail := 0 }) c := by
  simp only [bclkFault, resetHeld]

theorem resetNRecognised_eq {c : Chip} (hhold : c.pwr.hold = false) (hoff : c.pwr.off = false)
    (hlow : c.pwr.resetLow = false) : resetNRecognised c = resetHeld 2 (fun p => { p with resetLow := true }) c := by
  simp only [resetNRecognised, hhold, hoff, hlow, Bool.or_self, Bool.false_eq_true, if_false, resetHeld]

/-- R58: the second failed window of BCLK in a row is the fault. -/
theorem bclkWindow_eq_bclkFault {count : Nat} {c : Chip} (hcount : count < 31040 ∨ 32960 < count) (hfail : 1 ≤ c.pwr.bclkFail)
    (hlive : (!c.logicUp || c.pwr.mclkFault || c.bridge.downPower || c.bridge.downLogic || !c.powered) = false) :
    bclkWindow count c = bclkFault (setF Reg.PWR_CLKCNT_BCLK 0 (min count 65535) c) := by
  have hout : ¬(31040 ≤ count ∧ count ≤ 32960) := by omega
  simp only [bclkWindow, hlive, Bool.false_eq_true, if_false, hout, setF_pwr, hfail, if_true]

/-- R58: one failed BMON window is a BCLK stop. -/
theorem bmonWindow_eq_bclkFault {count : Nat} {c : Chip} (hcount : count < 1843 ∨ 2253 < count) (hpowered : c.powered = true)
    (hhold : c.pwr.bclkHold = false) : bmonWindow count c = bclkFault c := by
  have hout : ¬(1843 ≤ count ∧ count ≤ 2253) := by omega
  simp only [bmonWindow, hpowered, Bool.not_true, Bool.false_eq_true, if_false, hout, hhold]

theorem watchdogExpiry_eq {c : Chip} (h : c.logicUp = true) : watchdogExpiry c = restart 7 c := by
  simp only [watchdogExpiry, h, if_true, restart]

theorem exec_logicDieReset {cause : Nat} {s : State} {f : Chip → Chip} (h : LogicDieReset cause s.toChip (f s.toChip)) :
    ∃ t, s.run f = .next t ∧ LogicDieReset cause s.toChip t.toChip := by
  refine ⟨_, run_next f s, ?_⟩
  dsimp only
  exact logicDieReset_settle h

/-- The step of a row that resets the logic die and holds it, with what `g` says of the power state; the row may have written a
register before (`hc`). -/
theorem exec_resetHeld {cause : Nat} {g : PwrState → PwrState} {s : State} {c : Chip} {f : Chip → Chip} {q : PwrState → Prop}
    (hrow : f s.toChip = resetHeld cause g c) (hc : ∀ d, LogicDieReset cause c d → LogicDieReset cause s.toChip d)
    (hphase : ∀ p, (g p).phase = p.phase) (hfirst : ∀ p, (g p).firstCause = p.firstCause) (hq : ∀ p, q (g p)) :
    ∃ t, s.run f = .next t ∧ LogicDieReset cause s.toChip t.toChip ∧ t.pwr.phase = .held ∧ q t.pwr := by
  refine ⟨_, run_next f s, ?_⟩
  dsimp only
  rw [hrow, settle_pwr]
  exact ⟨logicDieReset_settle (hc _ (resetHeld_resets hphase hfirst c)), (hphase _).trans (logicReset_phase _ _), hq _⟩

/-! ### The release -/

/-- Nothing but the reset itself holds the logic die (R76, R525). -/
structure Free (p : PwrState) : Prop where
  held : p.phase = .held
  hold : p.hold = false
  off : p.off = false
  vpd5 : p.vpd5 = true
  resetLow : p.resetLow = false
  bclkHold : p.bclkHold = false
  pllLost : p.pllLost = false

theorem release_of_free {d : Chip} (h : Free d.pwr) :
    release d = if d.pwr.pfLow then startHold d else { d with pwr := { d.pwr with phase := .startDue } } := by
  simp [release, h.held, h.hold, h.off, h.vpd5, h.resetLow, h.bclkHold, h.pllLost]

/-- R75, R76: a die that nothing holds is released. -/
theorem released_release {c d : Chip} (h : Free d.pwr) (hpf : d.pwr.pfLow = c.pwr.pfLow) : Released c (release d) := by
  rw [release_of_free h]
  constructor
  · intro hc
    simp [hpf, hc]
  · intro hc
    simp only [hpf, hc, if_true, startHold, setF_pwr]
    exact ⟨trivial, getF_setF_same _ _ _ _⟩

theorem released_settle {c d : Chip} (h : Released c d) : Released c (settle d) := by
  refine ⟨fun hc => by rw [settle_pwr, h.1 hc], fun hc => ?_⟩
  rw [settle_pwr, getF_settle (by decide)]
  exact h.2 hc

theorem released_setF {f : Fld} {i v : Nat} {c d : Chip} (h : Released c d)
    (hne : fkey Reg.PWR_PFW_START_WAIT 0 ≠ fkey f i) : Released c (setF f i v d) := by
  refine ⟨fun hc => by rw [setF_pwr, h.1 hc], fun hc => ?_⟩
  rw [setF_pwr, getF_setF_ne _ _ _ _ _ _ (.inr hne)]
  exact h.2 hc

/-- R525: the sixteenth window that passes releases the die. -/
theorem bmonWindow_releases {count : Nat} {c : Chip} (hlo : 1843 ≤ count) (hhi : count ≤ 2253) (hpowered : c.powered = true)
    (hhold : c.pwr.bclkHold = true) (hpass : c.pwr.bmonPass = 15) :
    bmonWindow count c = release { c with pwr := { c.pwr with bclkHold := false, bmonPass := 0 } } := by
  simp [bmonWindow, hpowered, hlo, hhi, hhold, hpass]

theorem powerDiePowered_of_held {c : Chip} (hlost : c.pwr.vp12 = false) (hheld : c.pwr.phase = .held) : powerDiePowered c =
    release (restoreLatches { c with pwr := { c.pwr with vpd5 := true, vp12 := true, hold := false, off := false } }) := by
  simp [powerDiePowered, Chip.powered, Chip.logicUp, restoreLatches, hlost, hheld]

/-- The step of a row that releases the die after a change of the power state alone. -/
theorem exec_releases {s : State} {f : Chip → Chip} {p : PwrState} (hrow : f s.toChip = release { s.toChip with pwr := p })
    (hfree : Free p) (hpf : p.pfLow = s.pwr.pfLow) :
    ∃ t, s.run f = .next t ∧ Released s.toChip t.toChip ∧ t.pwr.pllLost = false ∧ t.pwr.bclkHold = false ∧
      t.backup = s.backup ∧ t.store = s.store := by
  refine ⟨_, run_next f s, ?_, ?_⟩
  · dsimp only
    rw [hrow]
    exact released_settle (released_release hfree hpf)
  · simp [hrow, hfree.pllLost, hfree.bclkHold]

/-- R75: the wait for PFWARN_N ends. -/
theorem startWaitEnd_eq {c : Chip} (h : c.pwr.phase = .startWait) : startWaitEnd c =
    setF Reg.PWR_PFW_START_WAIT 0 0 (setF Reg.PWR_PFW_ACTIVE 0 0
      { c with pwr := { c.pwr with phase := .startDue, pfLow := false } }) := by
  rw [startWaitEnd, if_pos h]

theorem settled_startWaitEnd {c : Chip} (hs : Settled c) (h : c.pwr.phase = .startWait) : Settled (startWaitEnd c) := by
  rw [startWaitEnd_eq h]
  exact settled_congr hs (by simp) (by simp) (by simp) (by simp) (by simp) (by simp)

theorem exec_resetNRelease {s : State} (svcLow : Bool) (h : Free { s.pwr with resetLow := false }) :
    ∃ t, exec (.resetNRelease svcLow) s = .next t ∧ Released s.toChip t.toChip ∧ t.pwr.resetLow = false ∧
      getF Reg.PWR_SVC_HELD 0 t.toChip = svcLow.toNat ∧ t.backup = s.backup ∧ t.store = s.store := by
  refine ⟨_, run_next (resetNRelease svcLow) s, ?_, by simp [resetNRelease], ?_, by simp [resetNRelease],
    by simp [resetNRelease]⟩
  · dsimp only
    exact released_settle (released_setF (released_release
      ⟨h.held, h.hold, h.off, h.vpd5, rfl, h.bclkHold, h.pllLost⟩ rfl) (by decide))
  · dsimp only
    rw [getF_settle (by decide), resetNRelease, getF_setF_same]
    cases svcLow <;> rfl

theorem exec_powerDiePowered {s : State} (hlost : s.pwr.vp12 = false)
    (h : Free { s.pwr with vpd5 := true, vp12 := true, hold := false, off := false }) :
    ∃ t, exec .powerDiePowered s = .next t ∧ Released s.toChip t.toChip ∧ t.powered = true ∧
      t.hsl.latch = s.backup.mirror ∧ t.backup = s.backup := by
  have hrow := powerDiePowered_of_held hlost h.held
  refine ⟨_, run_next powerDiePowered s, ?_, ?_, ?_, ?_⟩
  · dsimp only
    rw [hrow]
    exact released_settle (released_release h rfl)
  all_goals simp [hrow, Chip.powered, restoreLatches]

/-- R59, R525: a BCLK fault, found in a state that differs in a register at most. -/
theorem exec_bclkFault {s : State} {c : Chip} {f : Chip → Chip} (hrow : f s.toChip = bclkFault c)
    (hc : ∀ d, LogicDieReset 5 c d → LogicDieReset 5 s.toChip d) :
    ∃ t, s.run f = .next t ∧ LogicDieReset 5 s.toChip t.toChip ∧ t.pwr.phase = .held ∧ t.pwr.bclkHold = true :=
  exec_resetHeld (q := fun p => p.bclkHold = true) (hrow.trans (bclkFault_eq c)) hc (fun _ => rfl) (fun _ => rfl) fun _ => rfl

/-- Settles O8: every reset is the HSL's reset and the logic die's with the row's cause, and every release leaves a die that nothing
else holds in its start sequence. -/
theorem resetsRecordCausesAndRelease : Obligations.ResetsRecordCausesAndRelease := by
  refine ⟨fun s => ⟨fun hdown hpowered => ?_, fun hpll => ?_, fun count hcount hfail hup hmclk hdp hdl hpowered => ?_,
      fun count hcount hpowered hhold => ?_, ?_, fun hup => ?_, fun hhold hoff hlow => ?_⟩,
    fun s hheld hhold hoff hvpd5 => ⟨fun hlow hbclk hpll => ?_, fun svcLow hbclk hpll => ?_,
      fun count hlo hhi hvp12 hlow hpll hbclk hpass => ?_, fun hlost hlow hpll hbclk => ?_, fun u hwait hsettled => ?_⟩⟩
  · exact exec_logicDieReset (bridgeDownPower_resets hdown hpowered)
  · exact exec_resetHeld (q := fun p => p.pllLost = true) (corePllLoss_of_locked hpll) (fun _ hd => hd)
      (fun _ => rfl) (fun _ => rfl) fun _ => rfl
  · exact exec_bclkFault (bclkWindow_eq_bclkFault hcount hfail (by simp [hup, hmclk, hdp, hdl, hpowered]))
      fun _ hd => logicDieReset_of_setF hd (by decide)
  · exact exec_bclkFault (bmonWindow_eq_bclkFault hcount hpowered hhold) fun _ hd => hd
  · exact exec_logicDieReset (f := vddCoreBrownout) (logicDieReset_restart 6 _)
  · exact exec_logicDieReset (watchdogExpiry_eq hup ▸ logicDieReset_restart 7 _)
  · exact exec_resetHeld (q := fun p => p.resetLow = true) (resetNRecognised_eq hhold hoff hlow) (fun _ hd => hd)
      (fun _ => rfl) (fun _ => rfl) fun _ => rfl
  · obtain ⟨t, hstep, hrel, hlock, -, hkept⟩ := exec_releases (f := corePllLock) (if_pos hpll)
      ⟨hheld, hhold, hoff, hvpd5, hlow, hbclk, rfl⟩ rfl
    exact ⟨t, hstep, hrel, hlock, hkept⟩
  · exact exec_resetNRelease svcLow ⟨hheld, hhold, hoff, hvpd5, rfl, hbclk, hpll⟩
  · obtain ⟨t, hstep, hrel, -, hclock, hkept⟩ := exec_releases (f := bmonWindow count)
      (bmonWindow_releases hlo hhi (by simp [Chip.powered, hvpd5, hvp12]) hbclk hpass)
      ⟨hheld, hhold, hoff, hvpd5, hlow, rfl, hpll⟩ rfl
    exact ⟨t, hstep, hrel, hclock, hkept⟩
  · exact exec_powerDiePowered hlost ⟨hheld, rfl, rfl, rfl, hlow, hbclk, hpll⟩
  · exact (run_settled (settled_startWaitEnd hsettled hwait)).trans (by rw [startWaitEnd_eq hwait])

end Sys2Proof.Machine
end

section
/-!
TRIP flits at the HSL (chapters 01, 10 and 13, R18, R30, R273, R274, R371).
-/

namespace Sys2Proof.Machine
open Sys2Proof Sys2Proof.Safety

/-! ### What a trip leaves as it was -/

/-- The ledgers without the readings of the sessions, which note an opening (R230). -/
def ledgerRest (b : LedgerState) : LedgerState := { b with done := ({} : LedgerState).done, read := ({} : LedgerState).read }

/-- What latching and the withdrawal of permissions leave as it was. -/
def tripView (c : Chip) : BridgeState × Nat × Option (List Nat) × LegalStore × LedgerState :=
  (c.bridge, c.backup.ms, c.hsl.trump, c.store, ledgerRest c.bil)

theorem ledger_of_ledgerRest {a b : LedgerState} (h : ledgerRest a = ledgerRest b) :
    { a with done := b.done, read := b.read } = b :=
  congrArg (fun r => { r with done := b.done, read := b.read }) h

theorem ledgerRest_openingSeen (n : Nat) (c : Chip) : ledgerRest (openingSeen n c).bil = ledgerRest c.bil := by
  simp only [openingSeen]
  split
  · rfl
  · split <;> rfl

theorem ledgerRest_gateOff (n : Nat) (c : Chip) : ledgerRest (gateOff n c).bil = ledgerRest c.bil := by
  simp only [gateOff]
  split
  · split
    · rw [ledgerRest_openingSeen, lswAll_bil]; rfl
    · rw [lswAll_bil]; rfl
  · rfl

theorem tripView_gateOff (n : Nat) (c : Chip) : tripView (gateOff n c) = tripView c := by
  have hledger := ledgerRest_gateOff n c
  obtain ⟨m, v, b, w, e⟩ := gateOff_frame n c
  rw [e] at hledger ⊢
  simp only [tripView, hledger]
  rfl

theorem tripView_recheckAll (c : Chip) : tripView (recheckAll c) = tripView c :=
  foldl_keeps tripView _ (fun c n => by
    rcases recheck_cases n c with e | e <;> rw [e.2]
    exact tripView_gateOff n c) _ c

theorem tripView_lswAll (c : Chip) : tripView (lswAll c) = tripView c := by
  simp only [tripView, lswAll_bridge, lswAll_backup, lswAll_hsl_trump, lswAll_store, lswAll_bil]

theorem tripView_settle (c : Chip) : tripView (settle c) = tripView c := by
  rw [settle, tripView_lswAll, tripView_recheckAll]

theorem recheckAll_latch (c : Chip) : (recheckAll c).hsl.latch = c.hsl.latch := by
  obtain ⟨m, v, b, w, e⟩ := recheckFold_frame (List.range 16) c
  rw [recheckAll, e]; rfl

theorem recheckAll_backup (c : Chip) : (recheckAll c).backup = c.backup := by
  obtain ⟨m, v, b, w, e⟩ := recheckFold_frame (List.range 16) c
  rw [recheckAll, e]; rfl

/-! ### One kind is latched -/

theorem latchOf_congr {c d : Chip} (h : d.hsl.latch = c.hsl.latch) (n : Nat) : latchOf n d = latchOf n c := by
  simp only [latchOf, h]

theorem latchOf_putLatch_same {n : Nat} (hn : n < 17) (v : BitVec 6) (c : Chip) : latchOf n (putLatch n v c) = v := by
  simp [latchOf, putLatch, hn]

theorem latchOf_putLatch_ne {m n : Nat} (h : m ≠ n) (v : BitVec 6) (c : Chip) : latchOf m (putLatch n v c) = latchOf m c := by
  simp only [latchOf, putLatch]
  rw [Vector.getElem?_setIfInBounds_ne (Ne.symm h)]

/-- What latching one kind leaves: nothing where it is latched, else the latch with its mirror, and what R274 notes of it. -/
theorem latchOne_cases (n k : Nat) (c : Chip) :
    ((latchOf n c).getLsbD k = true ∧ latchOne n k c = c) ∨
    ((latchOne n k c).hsl = (putLatch n (latchOf n c ||| kindBit k) c).hsl ∧
      (latchOne n k c).backup.mirror = (putLatch n (latchOf n c ||| kindBit k) c).backup.mirror ∧
      tripView (latchOne n k c) = tripView c) := by
  have hlife : ∀ d : Chip, (latchLife n k d).hsl = d.hsl ∧ (latchLife n k d).backup = d.backup ∧
      (latchLife n k d).bridge = d.bridge ∧ (latchLife n k d).store = d.store ∧ (latchLife n k d).bil = d.bil := by
    intro d
    unfold latchLife
    split <;> simp
  unfold latchOne
  split
  · exact .inl ⟨‹_›, rfl⟩
  · right
    dsimp only
    split
    · exact ⟨rfl, rfl, rfl⟩
    · simp [tripView, hlife, autoNote, putLatch]

theorem tripView_latchOne (n k : Nat) (c : Chip) : tripView (latchOne n k c) = tripView c := by
  rcases latchOne_cases n k c with ⟨-, e⟩ | ⟨-, -, h⟩
  · rw [e]
  · exact h

theorem latchOf_latchOne_ne {m n : Nat} (h : m ≠ n) (k : Nat) (c : Chip) : latchOf m (latchOne n k c) = latchOf m c := by
  rcases latchOne_cases n k c with ⟨-, e⟩ | ⟨e, -⟩
  · rw [e]
  · rw [latchOf_congr (congrArg HslState.latch e), latchOf_putLatch_ne h]

theorem or_kindBit_of_set {v : BitVec 6} {k : Nat} (h : v.getLsbD k = true) : v ||| kindBit k = v := by
  apply BitVec.eq_of_getLsbD_eq
  intro i hi
  rw [BitVec.getLsbD_or, kindBit, BitVec.getLsbD_ofNat, Nat.testBit_two_pow]
  by_cases hk : k = i
  · subst hk; simp [h]
  · simp [hk]

theorem latchOf_latchOne_same {n : Nat} (hn : n < 17) (k : Nat) (c : Chip) :
    latchOf n (latchOne n k c) = latchOf n c ||| kindBit k := by
  rcases latchOne_cases n k c with ⟨h, e⟩ | ⟨e, -⟩
  · rw [e, or_kindBit_of_set h]
  · rw [latchOf_congr (congrArg HslState.latch e), latchOf_putLatch_same hn]

/-- R273: the mirror in the backup domain follows. -/
theorem mirror_latchOne (n k : Nat) {c : Chip} (h : c.backup.mirror = c.hsl.latch) :
    (latchOne n k c).backup.mirror = (latchOne n k c).hsl.latch := by
  rcases latchOne_cases n k c with ⟨-, e⟩ | ⟨e, e', -⟩
  · rw [e, h]
  · rw [e', e, putLatch]
    simp only [h]

/-! ### The kinds of a flit -/

/-- The kinds of `l` that the flit names are latched. -/
def latchKinds (n : Nat) (kinds : BitVec 6) (l : List Nat) (c : Chip) : Chip :=
  l.foldl (fun c k => if kinds.getLsbD k then latchOne n k c else c) c

theorem latchTrip_eq (n : Nat) (kinds : BitVec 6) (c : Chip) :
    latchTrip n kinds c = recheckAll (latchKinds n kinds (List.range 6) c) := rfl

theorem tripView_latchTrip (n : Nat) (kinds : BitVec 6) (c : Chip) : tripView (latchTrip n kinds c) = tripView c := by
  rw [latchTrip_eq, tripView_recheckAll]
  exact foldl_keeps tripView _ (fun c k => by
    split
    · exact tripView_latchOne n k c
    · rfl) _ c

theorem latchOf_latchTrip_ne {m n : Nat} (h : m ≠ n) (kinds : BitVec 6) (c : Chip) :
    latchOf m (latchTrip n kinds c) = latchOf m c := by
  rw [latchTrip_eq, latchOf_congr (recheckAll_latch _)]
  exact foldl_keeps (latchOf m) _ (fun c k => by
    split
    · exact latchOf_latchOne_ne h k c
    · rfl) _ c

theorem mirror_latchTrip (n : Nat) (kinds : BitVec 6) {c : Chip} (h : c.backup.mirror = c.hsl.latch) :
    (latchTrip n kinds c).backup.mirror = (latchTrip n kinds c).hsl.latch := by
  have hkinds : ∀ (l : List Nat) (c : Chip), c.backup.mirror = c.hsl.latch →
      (latchKinds n kinds l c).backup.mirror = (latchKinds n kinds l c).hsl.latch := by
    intro l
    induction l with
    | nil => exact fun c h => h
    | cons k l ih =>
      intro c h
      refine ih _ ?_
      dsimp only
      split
      · exact mirror_latchOne n k h
      · exact h
  rw [latchTrip_eq, recheckAll_backup, recheckAll_latch]
  exact hkinds _ c h

theorem latchOf_latchKinds {n : Nat} (hn : n < 17) (kinds : BitVec 6) (l : List Nat) (c : Chip) (i : Nat) (hi : i < 6) :
    (latchOf n (latchKinds n kinds l c)).getLsbD i = ((latchOf n c).getLsbD i || (kinds.getLsbD i && l.contains i)) := by
  induction l generalizing c with
  | nil => simp [latchKinds]
  | cons k l ih =>
    have hrec : latchKinds n kinds (k :: l) c = latchKinds n kinds l (if kinds.getLsbD k then latchOne n k c else c) := rfl
    rw [hrec, ih]
    split
    · next hk =>
      rw [latchOf_latchOne_same hn, BitVec.getLsbD_or, kindBit, BitVec.getLsbD_ofNat, Nat.testBit_two_pow]
      by_cases h : k = i
      · subst h; simp [hk, hi]
      · simp [h, Ne.symm h]
    · next hk =>
      by_cases h : k = i
      · subst h; simp [hk]
      · simp [Ne.symm h]

/-- R30: after the flit the unit holds its latches and those the flit names. -/
theorem latchOf_latchTrip_same {n : Nat} (hn : n < 17) (kinds : BitVec 6) (c : Chip) :
    latchOf n (latchTrip n kinds c) = latchOf n c ||| kinds := by
  rw [latchTrip_eq, latchOf_congr (recheckAll_latch _)]
  apply BitVec.eq_of_getLsbD_eq
  intro i hi
  rw [latchOf_latchKinds hn _ _ _ _ hi, BitVec.getLsbD_or]
  simp [hi]

/-- R273: with a latch on the bay or the feeder no closing condition holds. -/
theorem closingOk_of_latched {m n : Nat} {c : Chip} (hmn : m = n ∨ n = 16) (h : latchOf n c ≠ 0) : closingOk m c = false := by
  have hprot : protOk m c = false := by
    rw [protOk, Bool.and_eq_false_iff, beq_eq_false_iff_ne, beq_eq_false_iff_ne]
    rcases hmn with rfl | rfl
    · exact .inl h
    · exact .inr h
  simp [closingOk, hprot]

/-! ### A fault of the safety core -/

/-- What the faults of the axes and their display leave as it was. -/
def scView (c : Chip) : Bool × Bool × Option Nat × BridgeState × Vector (BitVec 6) 17 :=
  (c.saf.scFault, c.saf.scTest, c.saf.scAt, c.bridge, c.hsl.latch)

theorem scView_setF (f : Fld) (i v : Nat) (c : Chip) : scView (setF f i v c) = scView c := by simp [scView]

theorem scView_lswAll (c : Chip) : scView (lswAll c) = scView c := by simp [scView]

theorem scView_settle (c : Chip) : scView (settle c) = scView c := by simp [scView]

theorem scView_recheckAll (c : Chip) : scView (recheckAll c) = scView c := by
  obtain ⟨m, v, b, w, e⟩ := recheckFold_frame (List.range 16) c
  rw [recheckAll, e]; rfl

theorem scView_axcmdSend (n : Nat) (c : Chip) : scView (axcmdSend n c) = scView c := by
  unfold axcmdSend
  split <;> rfl

theorem scView_stoApply (n : Nat) (c : Chip) : scView (stoApply n c) = scView c := by
  rw [stoApply, scView_axcmdSend, brakeSet, scView_lswAll]
  exact scView_setF _ _ _ _

theorem scView_axisFault (n k : Nat) (c : Chip) : scView (axisFault n k c) = scView c := by
  unfold axisFault
  split
  · rfl
  · dsimp only
    rw [scView_stoApply]
    split
    · rfl
    · simp [scView, addSat, flagF, flagBit, setBitF]

theorem scView_allFault (k : Nat) (c : Chip) : scView (allFault k c) = scView c :=
  foldl_keeps scView _ (fun c n => scView_axisFault n k c) _ c

theorem scView_safShow (c : Chip) : scView (safShow c) = scView c := by
  unfold safShow
  dsimp only
  rw [scView_recheckAll, scView_setF, scView_setF, scView_setF]
  rw [foldl_keeps scView _ fun c n => by simp [scView, setBitF]]
  exact foldl_keeps scView _ (fun c n => by split <;> simp [scView, setBitF]) _ c

theorem scView_scFault (c : Chip) : scView (scFault c) = (true, true, some c.backup.ms, c.bridge, c.hsl.latch) := by
  rw [scFault, scView_safShow, scView_allFault]
  rfl

/-! ### The rows -/

/-- R18: the oldest TRIP flit has left the queue and is delivered. -/
def tripTaken (rest : List TripReq) (c : Chip) : Chip :=
  { c with bridge := { c.bridge with trips := rest, toPower := { c.bridge.toPower with retry := 0 } } }

theorem tripFlit_cons {c : Chip} {t : TripReq} {rest : List TripReq} (hpowered : c.powered = true)
    (hdp : c.bridge.downPower = false) (hdl : c.bridge.downLogic = false) (htrips : c.bridge.trips = t :: rest) :
    tripFlit c = tripTake t (tripTaken rest c) := by
  simp [tripFlit, hpowered, hdp, hdl, htrips, tripTaken]

/-- R30, R273, R274: the step of a flit that names kinds of a unit. -/
theorem exec_tripFlit_latch {s : State} {n : Nat} {kinds : BitVec 6} {rest : List TripReq} (hn : n < 17)
    (hrow : tripFlit s.toChip = tripTake (.latch n kinds) (tripTaken rest s.toChip)) :
    ∃ t, exec .tripFlit s = .next t ∧ latchOf n t.toChip = latchOf n s.toChip ||| kinds ∧
      (∀ m, m ≠ n → latchOf m t.toChip = latchOf m s.toChip) ∧
      (s.backup.mirror = s.hsl.latch → t.backup.mirror = t.hsl.latch) ∧
      (kinds ≠ 0 → ∀ m, m < 16 → m = n ∨ n = 16 → (hslBay m t.toChip).gate = false) ∧
      tripView t.toChip = tripView (tripTaken rest s.toChip) := by
  have hsame : latchOf n (latchTrip n kinds (tripTaken rest s.toChip)) = latchOf n s.toChip ||| kinds :=
    latchOf_latchTrip_same hn kinds _
  refine ⟨_, run_next tripFlit s, ?_⟩
  dsimp only
  rw [hrow, tripTake]
  refine ⟨?_, fun m hm => ?_, fun hmirror => ?_, fun hkinds m hm hmn => ?_, ?_⟩
  · rw [latchOf_congr (settle_hsl_latch _), hsame]
  · rw [latchOf_congr (settle_hsl_latch _), latchOf_latchTrip_ne hm]
    rfl
  · rw [settle_backup, settle_hsl_latch]
    exact mirror_latchTrip n kinds hmirror
  · have hlatched : latchOf n (latchTrip n kinds (tripTaken rest s.toChip)) ≠ 0 := by
      rw [hsame]
      exact fun h => hkinds (BitVec.or_eq_zero_iff.mp h).2
    rw [gate_settle hm, closingOk_of_latched hmn hlatched, Bool.and_false, Bool.false_and]
  · rw [tripView_settle, tripView_latchTrip]

/-- R371: the step of a flit of the safety controllers. -/
theorem exec_tripFlit_safety {s : State} {rest : List TripReq}
    (hrow : tripFlit s.toChip = tripTake .safety (tripTaken rest s.toChip)) :
    ∃ t, exec .tripFlit s = .next t ∧
      scView t.toChip = (true, true, some s.backup.ms, (tripTaken rest s.toChip).bridge, s.hsl.latch) := by
  refine ⟨_, run_next tripFlit s, ?_⟩
  dsimp only
  rw [scView_settle, hrow, tripTake, scView_scFault]
  rfl

/-- R18: the step of an idle flit, in a settled device. -/
theorem exec_bridgeHeartbeat {s : State} {dir : Dir} {b : BridgeState} (hs : Settled s.toChip)
    (hrow : bridgeHeartbeat dir s.toChip = { s.toChip with bridge := b }) :
    exec (.bridgeHeartbeat dir) s = .next { s with bridge := b } := by
  refine (run_settled (f := bridgeHeartbeat dir) ?_).trans (by rw [hrow])
  rw [hrow]
  exact settled_congr hs rfl rfl rfl rfl rfl rfl

/-- Settles O7: a TRIP flit latches kind by kind and keeps the rest of the device; a flit of the safety controllers is a fault of
SC; a heartbeat writes its direction alone. -/
theorem tripFlitLatches : Obligations.TripFlitLatches := by
  refine ⟨fun s n kinds rest hn hpowered hdp hdl htrips => ?_, fun s rest hpowered hdp hdl htrips => ?_,
    fun s hs hdp hdl hpowered hup => ⟨fun htrips => exec_bridgeHeartbeat hs ?_, exec_bridgeHeartbeat hs ?_⟩⟩
  · obtain ⟨t, hstep, hsame, hother, hmirror, hgates, hview⟩ :=
      exec_tripFlit_latch hn (tripFlit_cons hpowered hdp hdl htrips)
    simp only [tripView, Prod.mk.injEq] at hview
    obtain ⟨hbridge, hms, htrump, hstore, hledger⟩ := hview
    exact ⟨t, hstep, hsame, hother, hmirror, hbridge, hgates, hms, htrump, hstore, ledger_of_ledgerRest hledger⟩
  · obtain ⟨t, hstep, hview⟩ := exec_tripFlit_safety (tripFlit_cons hpowered hdp hdl htrips)
    simp only [scView, Prod.mk.injEq] at hview
    obtain ⟨hfault, htest, hat, hbridge, hlatch⟩ := hview
    exact ⟨t, hstep, hfault, htest, hat, congrArg BridgeState.trips hbridge, hlatch⟩
  · simp [bridgeHeartbeat, hdp, hdl, hpowered, hup, htrips]
  · simp [bridgeHeartbeat, hdp, hdl, hpowered, hup]

end Sys2Proof.Machine
end

section
/-!
Register fields under many writes (R13, R33): views that the writes leave, folds over units, keys that differ.
-/

namespace Sys2Proof.Machine
open Sys2Proof Sys2Proof.Safety

/-! ### Writes leave everything but registers -/

/-- The device without its register fields. -/
def noRegs (c : Chip) : Chip := { c with regs := [], bregs := [], fregs := [] }

@[simp] theorem noRegs_setF (f : Fld) (i v : Nat) (c : Chip) : noRegs (setF f i v c) = noRegs c := by
  unfold setF
  cases f.home <;> rfl

/-! ### Folds over units -/

/-- In a fold that visits `n` once, a view that the other visits leave is what the visit of `n` makes of it, from a state with the
view of the first. -/
theorem foldl_at {β : Type} (v : Chip → β) (f : Chip → Nat → Chip) (n : Nat) (hne : ∀ c m, m ≠ n → v (f c m) = v c)
    (l : List Nat) (hl : l.Nodup) (hn : n ∈ l) (c : Chip) : ∃ d, v d = v c ∧ v (l.foldl f c) = v (f d n) := by
  obtain ⟨l₁, l₂, rfl⟩ := List.append_of_mem hn
  obtain ⟨-, hl₂, hdis⟩ := List.nodup_append.mp hl
  have hkeep : ∀ (l : List Nat) (c : Chip), n ∉ l → v (l.foldl f c) = v c := by
    intro l
    induction l with
    | nil => exact fun c _ => rfl
    | cons m l ih =>
      intro c h
      rw [List.foldl_cons, ih _ fun h' => h (List.mem_cons_of_mem m h')]
      exact hne c m fun e => h (e ▸ List.mem_cons_self)
  refine ⟨l₁.foldl f c, hkeep l₁ c fun h => hdis n h n List.mem_cons_self rfl, ?_⟩
  rw [List.foldl_append, List.foldl_cons, hkeep l₂ _ (List.nodup_cons.mp hl₂).1]

/-! ### Keys that differ -/

theorem getF_setF_of_key {f g : Fld} {i j : Nat} (h : fkey g j ≠ fkey f i) (v : Nat) (c : Chip) :
    getF g j (setF f i v c) = getF g j c := getF_setF_ne f g i j v c (.inr h)

/-- A key below the load-switch block is none of those that settling shows. -/
theorem shownKey_of_lt {key : Nat} (h : key < 0x160014 * 32) : shownKey key = false := by
  have hw : key / 32 < 0x160014 := by omega
  simp only [shownKey, Bool.or_eq_false_iff, Bool.and_eq_false_iff, decide_eq_false_iff_not, beq_eq_false_iff_ne]
  omega

theorem settle_snapSeq (c : Chip) : (settle c).snapSeq = c.snapSeq := by
  obtain ⟨m, v, b, w, e⟩ := settle_frame c; rw [e]; rfl

end Sys2Proof.Machine
end

section
/-!
The protection snapshot (chapters 01 and 10, R33, R295).
-/

namespace Sys2Proof.Machine
open Sys2Proof Sys2Proof.Safety

/-! ### Writes to the fields of one unit

A unit is one of the 17 numbered protection instances: the 16 bays and the feeder (R272). -/

/-- The fields of unit `n` take values. -/
def setFs (n : Nat) (l : List (Fld × Nat)) (c : Chip) : Chip := l.foldl (fun c fv => setF fv.1 n fv.2 c) c

theorem noRegs_setFs (n : Nat) (l : List (Fld × Nat)) (c : Chip) : noRegs (setFs n l c) = noRegs c := by
  induction l generalizing c with
  | nil => rfl
  | cons fv l ih => rw [setFs, List.foldl_cons]; exact (ih _).trans (noRegs_setF _ _ _ _)

theorem getF_setFs_ne {g : Fld} {j n : Nat} {l : List (Fld × Nat)} (h : ∀ fv ∈ l, fkey g j ≠ fkey fv.1 n) (c : Chip) :
    getF g j (setFs n l c) = getF g j c := by
  induction l generalizing c with
  | nil => rfl
  | cons fv l ih =>
    rw [setFs, List.foldl_cons]
    exact (ih (fun e he => h e (List.mem_cons_of_mem fv he)) _).trans (getF_setF_of_key (h fv List.mem_cons_self) _ _)

/-- Fields with one distance of units and different bits never share a key. -/
def Apart (f g : Fld) : Prop := f.stride = g.stride ∧ f.base * 32 + f.lsb ≠ g.base * 32 + g.lsb

theorem Apart.fkey_ne {f g : Fld} (h : Apart f g) (n : Nat) : fkey f n ≠ fkey g n := by
  obtain ⟨hs, hk⟩ := h
  simp only [fkey, hs]
  omega

theorem getF_setFs_mem {g : Fld} {v n : Nat} {l : List (Fld × Nat)} (h : (l.map (·.1)).Pairwise Apart) (hm : (g, v) ∈ l)
    (c : Chip) : getF g n (setFs n l c) = v % 2 ^ g.width := by
  induction l generalizing c with
  | nil => cases hm
  | cons fv l ih =>
    obtain ⟨hhead, htail⟩ := List.pairwise_cons.mp h
    rw [setFs, List.foldl_cons]
    rcases List.mem_cons.mp hm with rfl | hm
    · have hrest := getF_setFs_ne (g := g) (j := n) (n := n) (l := l)
        (fun e he => (hhead e.1 (List.mem_map_of_mem he)).fkey_ne n) (setF g n v c)
      exact hrest.trans (getF_setF_same g n v c)
    · exact ih htail hm _

/-! ### What is published of one unit -/

/-- R32: the quiet times and the insulation's state as latched into the snapshot. -/
def quietLatched (n : Nat) (c : Chip) : Chip :=
  protPut n { protGet n c with quietAc := residualQuiet n 0 c, quietDc := residualQuiet n 1 c } c

def insLatched (n : Nat) (c : Chip) : Chip :=
  if n < 16 then insPut n { insGet n c with shown := (insGet n c).low } c else c

/-- The fields that every unit publishes, and those that only a bay has. -/
def instWrites (n ipk : Nat) (c : Chip) : List (Fld × Nat) :=
  [(Reg.PRT_OC_LIM, min (protGet n c).lim 65535), (Reg.PRT_OC_IPK, ipk)]

def bayWrites (n below : Nat) (c : Chip) : List (Fld × Nat) :=
  [(Reg.PRT_RED_BELOW_S, below), (Reg.PRT_RED_CAP, (protGet n c).cap.getD 0xFFFF),
    (Reg.PRT_INS_CHECK, (insGet n c).check.toNat), (Reg.PRT_INS_INJ, (insGet n c).inj.toNat),
    (Reg.PRT_INS_STATE, (insGet n c).state), (Reg.PRT_INS_RISO, (insGet n c).riso)]

def latWrites (n : Nat) (c : Chip) : List (Fld × Nat) :=
  [(Reg.PRT_LAT_AUTO_CNT, min (autosLive n c).length 255), (Reg.PRT_LAT_KINDS, (latchOf n c).toNat)]

/-- R295: the writes of one unit, with its measured values. -/
def snapWrites (n ac dc ipk below : Nat) (c : Chip) : List (Fld × Nat) :=
  if n < 16 then
    [(Reg.PRT_RES_DC, dc), (Reg.PRT_RES_AC, ac)] ++ instWrites n ipk c ++ bayWrites n below c ++ latWrites n c
  else instWrites n ipk c ++ latWrites n c

theorem protPut_setF (n : Nat) (x : ProtInst) (f : Fld) (i v : Nat) (c : Chip) :
    protPut n x (setF f i v c) = setF f i v (protPut n x c) := by
  unfold setF protPut
  cases f.home <;> rfl

theorem insPut_setF (n : Nat) (x : InsState) (f : Fld) (i v : Nat) (c : Chip) :
    insPut n x (setF f i v c) = setF f i v (insPut n x c) := by
  unfold setF insPut
  cases f.home <;> rfl

@[simp] theorem protGet_setF (n : Nat) (f : Fld) (i v : Nat) (c : Chip) : protGet n (setF f i v c) = protGet n c := by
  simp [protGet]
@[simp] theorem insGet_setF (n : Nat) (f : Fld) (i v : Nat) (c : Chip) : insGet n (setF f i v c) = insGet n c := by
  simp [insGet]
@[simp] theorem latchOf_setF (n : Nat) (f : Fld) (i v : Nat) (c : Chip) : latchOf n (setF f i v c) = latchOf n c := by
  simp [latchOf]
@[simp] theorem autosLive_setF (n : Nat) (f : Fld) (i v : Nat) (c : Chip) : autosLive n (setF f i v c) = autosLive n c := by
  simp [autosLive]
@[simp] theorem residualQuiet_setF (n k : Nat) (f : Fld) (i v : Nat) (c : Chip) :
    residualQuiet n k (setF f i v c) = residualQuiet n k c := by
  simp [residualQuiet]
@[simp] theorem protGet_insPut (n m : Nat) (x : InsState) (c : Chip) : protGet n (insPut m x c) = protGet n c := rfl
@[simp] theorem latchOf_insPut (n m : Nat) (x : InsState) (c : Chip) : latchOf n (insPut m x c) = latchOf n c := rfl
@[simp] theorem autosLive_insPut (n m : Nat) (x : InsState) (c : Chip) : autosLive n (insPut m x c) = autosLive n c := rfl
@[simp] theorem residualQuiet_insPut (n k m : Nat) (x : InsState) (c : Chip) :
    residualQuiet n k (insPut m x c) = residualQuiet n k c := rfl
@[simp] theorem latchOf_protPut (n m : Nat) (x : ProtInst) (c : Chip) : latchOf n (protPut m x c) = latchOf n c := rfl
@[simp] theorem autosLive_protPut (n m : Nat) (x : ProtInst) (c : Chip) : autosLive n (protPut m x c) = autosLive n c := rfl

/-- Publishing a unit is its writes, after what is latched for the next clear. -/
theorem publishInst_eq (n : Nat) (c : Chip) : ∃ ac dc ipk below,
    publishInst n c = setFs n (snapWrites n ac dc ipk below c) (quietLatched n (insLatched n c)) := by
  by_cases hn : n < 16
  · simp only [publishInst, hn, if_true, protGet_setF, insGet_setF, latchOf_setF, autosLive_setF, residualQuiet_setF,
      insPut_setF, protPut_setF, protGet_insPut, latchOf_insPut, autosLive_insPut, residualQuiet_insPut, latchOf_protPut,
      autosLive_protPut, setF_backup]
    simp only [snapWrites, hn, if_true, instWrites, bayWrites, latWrites, setFs, List.cons_append, List.nil_append,
      List.foldl_cons, List.foldl_nil, quietLatched, insLatched, protGet_insPut, residualQuiet_insPut]
    exact ⟨_, _, _, _, rfl⟩
  · simp only [publishInst, hn, if_false, protGet_setF, latchOf_setF, autosLive_setF, residualQuiet_setF, protPut_setF,
      latchOf_protPut, autosLive_protPut]
    simp only [snapWrites, hn, if_false, instWrites, latWrites, setFs, List.cons_append, List.nil_append, List.foldl_cons,
      List.foldl_nil, quietLatched, insLatched]
    exact ⟨0, 0, _, 0, rfl⟩

/-! ### Reading what one unit publishes -/

theorem apart_snapWrites (n ac dc ipk below : Nat) (c : Chip) :
    ((snapWrites n ac dc ipk below c).map (·.1)).Pairwise Apart := by
  unfold snapWrites
  split
  · show List.Pairwise Apart [Reg.PRT_RES_DC, Reg.PRT_RES_AC, Reg.PRT_OC_LIM, Reg.PRT_OC_IPK, Reg.PRT_RED_BELOW_S,
      Reg.PRT_RED_CAP, Reg.PRT_INS_CHECK, Reg.PRT_INS_INJ, Reg.PRT_INS_STATE, Reg.PRT_INS_RISO, Reg.PRT_LAT_AUTO_CNT,
      Reg.PRT_LAT_KINDS]
    unfold Apart
    decide
  · show List.Pairwise Apart [Reg.PRT_OC_LIM, Reg.PRT_OC_IPK, Reg.PRT_LAT_AUTO_CNT, Reg.PRT_LAT_KINDS]
    unfold Apart
    decide

/-- The registers of unit `n` lie in the 32 bytes from 0x121000 + 32 `n` on. -/
def instBlock (n : Nat) : Nat := 0x121000 / 32 + n

theorem block_snapWrites {n ac dc ipk below : Nat} {c : Chip} {fv : Fld × Nat} (h : fv ∈ snapWrites n ac dc ipk below c) :
    fkey fv.1 n / 1024 = instBlock n := by
  have hall : ∀ f ∈ [Reg.PRT_RES_DC, Reg.PRT_RES_AC, Reg.PRT_OC_LIM, Reg.PRT_OC_IPK, Reg.PRT_RED_BELOW_S, Reg.PRT_RED_CAP,
      Reg.PRT_INS_CHECK, Reg.PRT_INS_INJ, Reg.PRT_INS_STATE, Reg.PRT_INS_RISO, Reg.PRT_LAT_AUTO_CNT, Reg.PRT_LAT_KINDS],
      f.stride = 32 ∧ f.base / 32 = 0x121000 / 32 ∧ f.lsb < 32 := by decide
  have hmem : fv.1 ∈ (snapWrites n ac dc ipk below c).map (·.1) := List.mem_map_of_mem h
  obtain ⟨hs, hb, hl⟩ := hall fv.1 (by
    revert hmem
    unfold snapWrites
    split <;> simp only [instWrites, bayWrites, latWrites, List.map_append, List.map_cons, List.map_nil, List.mem_append,
      List.mem_cons, List.not_mem_nil] <;> tauto)
  simp only [fkey, hs, instBlock]
  omega

theorem getF_publishInst_ne {g : Fld} {j n : Nat} (h : fkey g j / 1024 ≠ instBlock n) (c : Chip) :
    getF g j (publishInst n c) = getF g j c := by
  obtain ⟨ac, dc, ipk, below, e⟩ := publishInst_eq n c
  rw [e, getF_setFs_ne fun fv hfv hk => h (by rw [hk, block_snapWrites hfv])]
  unfold insLatched
  split <;> rfl

theorem getF_publishInst_mem {n : Nat} {g : Fld} {v : Nat} {c : Chip}
    (h : ∀ ac dc ipk below, (g, v) ∈ snapWrites n ac dc ipk below c) :
    getF g n (publishInst n c) = v % 2 ^ g.width := by
  obtain ⟨ac, dc, ipk, below, e⟩ := publishInst_eq n c
  rw [e, getF_setFs_mem (apart_snapWrites _ _ _ _ _ _) (h ac dc ipk below)]

theorem inst_mem_snapWrites {n : Nat} {c : Chip} {fv : Fld × Nat} {ac dc ipk below : Nat}
    (h : fv ∈ instWrites n ipk c ∨ fv ∈ latWrites n c) : fv ∈ snapWrites n ac dc ipk below c := by
  unfold snapWrites
  split <;> simp only [List.mem_append] <;> tauto

theorem bay_mem_snapWrites {n : Nat} {c : Chip} {fv : Fld × Nat} {ac dc ipk below : Nat} (hn : n < 16)
    (h : fv ∈ bayWrites n below c) : fv ∈ snapWrites n ac dc ipk below c := by
  rw [snapWrites, if_pos hn]
  simp only [List.mem_append]
  tauto

/-- What the snapshot of a unit shows of a device `c`. -/
structure InstShown (n : Nat) (c d : Chip) : Prop where
  kinds : getF Reg.PRT_LAT_KINDS n d = (latchOf n c).toNat
  autos : getF Reg.PRT_LAT_AUTO_CNT n d = min (autosLive n c).length 255
  lim : getF Reg.PRT_OC_LIM n d = min (protGet n c).lim 65535
  quiet : (protGet n d).quietAc = residualQuiet n 0 c ∧ (protGet n d).quietDc = residualQuiet n 1 c
  bay : n < 16 → getF Reg.PRT_RED_CAP n d = (protGet n c).cap.getD 0xFFFF % 2 ^ 16 ∧
    getF Reg.PRT_INS_INJ n d = (insGet n c).inj.toNat ∧ (insGet n d).shown = (insGet n c).low

theorem protGet_protPut_same {n : Nat} (h : n < 17) (x : ProtInst) (c : Chip) : protGet n (protPut n x c) = x := by
  simp [protGet, protPut, h]

theorem protGet_protPut_ne {m n : Nat} (h : m ≠ n) (x : ProtInst) (c : Chip) : protGet m (protPut n x c) = protGet m c := by
  simp only [protGet, protPut]
  rw [Vector.getElem?_setIfInBounds_ne (Ne.symm h)]

theorem insGet_insPut_same {n : Nat} (h : n < 16) (x : InsState) (c : Chip) : insGet n (insPut n x c) = x := by
  simp [insGet, insPut, h]

theorem insGet_insPut_ne {m n : Nat} (h : m ≠ n) (x : InsState) (c : Chip) : insGet m (insPut n x c) = insGet m c := by
  simp only [insGet, insPut]
  rw [Vector.getElem?_setIfInBounds_ne (Ne.symm h)]

theorem noRegs_publishInst (n : Nat) (c : Chip) : noRegs (publishInst n c) = noRegs (quietLatched n (insLatched n c)) := by
  obtain ⟨ac, dc, ipk, below, e⟩ := publishInst_eq n c
  rw [e, noRegs_setFs]

theorem publishInst_prt (n : Nat) (c : Chip) : (publishInst n c).prt = (quietLatched n (insLatched n c)).prt := by
  change (noRegs (publishInst n c)).prt = _
  rw [noRegs_publishInst]
  rfl

theorem protGet_congr {c d : Chip} (h : d.prt = c.prt) (n : Nat) : protGet n d = protGet n c := by simp only [protGet, h]
theorem insGet_congr {c d : Chip} (h : d.prt = c.prt) (n : Nat) : insGet n d = insGet n c := by simp only [insGet, h]

theorem protGet_insLatched (m n : Nat) (c : Chip) : protGet m (insLatched n c) = protGet m c := by
  unfold insLatched
  split <;> rfl

theorem insGet_publishInst_same {n : Nat} (hn : n < 16) (c : Chip) : (insGet n (publishInst n c)).shown = (insGet n c).low := by
  have hins : insGet n (quietLatched n (insLatched n c)) = insGet n (insLatched n c) := rfl
  rw [insGet_congr (publishInst_prt n c), hins, insLatched, if_pos hn, insGet_insPut_same hn]

theorem instShown_publishInst {n : Nat} (hn : n < 17) (c : Chip) : InstShown n c (publishInst n c) where
  kinds := by
    rw [getF_publishInst_mem fun _ _ _ _ => inst_mem_snapWrites (.inr (.tail _ (.head _)))]
    exact Nat.mod_eq_of_lt (latchOf n c).isLt
  autos := by
    rw [getF_publishInst_mem fun _ _ _ _ => inst_mem_snapWrites (.inr (.head _))]
    exact Nat.mod_eq_of_lt (lt_of_le_of_lt (Nat.min_le_right _ _) (by decide))
  lim := by
    rw [getF_publishInst_mem fun _ _ _ _ => inst_mem_snapWrites (.inl (.head _))]
    exact Nat.mod_eq_of_lt (lt_of_le_of_lt (Nat.min_le_right _ _) (by decide))
  quiet := by
    rw [protGet_congr (publishInst_prt n c), quietLatched, protGet_protPut_same hn]
    simp only [residualQuiet, protGet_insLatched, and_self]
  bay h := by
    refine ⟨getF_publishInst_mem fun _ _ _ _ => bay_mem_snapWrites h (.tail _ (.head _)), ?_, insGet_publishInst_same h c⟩
    rw [getF_publishInst_mem fun _ _ _ _ => bay_mem_snapWrites h (.tail _ (.tail _ (.tail _ (.head _))))]
    exact Nat.mod_eq_of_lt (Bool.toNat_lt _)

/-! ### The snapshot of every unit -/

/-- R295: one visit of the snapshot's pass over the units. -/
def publishConfigured (c : Chip) (n : Nat) : Chip := if protConfigured n c then publishInst n c else c

/-- R33: the latches that the snapshot's LATCHED shows. -/
def latchedBits (c : Chip) : Nat := (List.range 17).foldl (fun m n => if latchOf n c != 0 then m + 2 ^ n else m) 0

theorem protectionSnapshot_of_run {c : Chip} (h : c.pwr.phase = .run) : protectionSnapshot c =
    let d := (List.range 17).foldl publishConfigured c
    let e := setF Reg.PRT_LATCH_LATCHED 0 (latchedBits d) d
    setF Reg.PRT_SEQ_SEQ 0 ((getF Reg.PRT_SEQ_SEQ 0 e + 1) % 2 ^ 32) e := by
  rw [protectionSnapshot, if_neg (by simp [h])]
  rfl

/-- What the snapshot of one unit reads of the device. -/
def instIn (n : Nat) (c : Chip) : ProtInst × InsState × HslState × BackupState × DeckState :=
  (protGet n c, insGet n c, c.hsl, c.backup, c.deck)

theorem publishConfigured_keeps {β : Type} (g : Chip → β) (h : ∀ n c, g (publishInst n c) = g c) (c : Chip) (n : Nat) :
    g (publishConfigured c n) = g c := by
  unfold publishConfigured
  split
  · exact h n c
  · rfl

/-- The parts that publishing a unit keeps. -/
def instKept (c : Chip) : HslState × BackupState × DeckState × LegalStore :=
  (c.hsl, c.backup, c.deck, c.store)

theorem instKept_publishInst (n : Nat) (c : Chip) : instKept (publishInst n c) = instKept c := by
  change instKept (noRegs (publishInst n c)) = _
  rw [noRegs_publishInst]
  change instKept (insLatched n c) = instKept c
  unfold insLatched
  split <;> rfl

theorem instIn_publishInst_ne {m n : Nat} (h : m ≠ n) (c : Chip) : instIn n (publishInst m c) = instIn n c := by
  have hkept := instKept_publishInst m c
  simp only [instKept, Prod.mk.injEq] at hkept
  obtain ⟨hhsl, hbackup, hdeck, -⟩ := hkept
  have hprot : protGet n (publishInst m c) = protGet n c := by
    rw [protGet_congr (publishInst_prt m c), quietLatched, protGet_protPut_ne h.symm, protGet_insLatched]
  have hins : insGet n (publishInst m c) = insGet n c := by
    rw [insGet_congr (publishInst_prt m c)]
    change insGet n (insLatched m c) = _
    unfold insLatched
    split
    · exact insGet_insPut_ne h.symm _ _
    · rfl
  simp only [instIn, hprot, hins, hhsl, hbackup, hdeck]

theorem protConfigured_congr {c d : Chip} (h : d.deck = c.deck) (n : Nat) : protConfigured n d = protConfigured n c := by
  simp only [protConfigured, cardPayload, h]

/-- A view of unit `n` after the pass: what its own visit makes of it. -/
theorem publishAll_at {β : Type} (g : Chip → β) {n : Nat} (hn : n < 17) (hg : ∀ m c, m ≠ n → g (publishInst m c) = g c)
    (c : Chip) : ∃ d, instIn n d = instIn n c ∧ g d = g c ∧
      g ((List.range 17).foldl publishConfigured c) = g (publishConfigured d n) := by
  obtain ⟨d, hd, hfold⟩ := foldl_at (fun c => (instIn n c, g c)) publishConfigured n (fun c m hm => by
      unfold publishConfigured
      split
      · rw [instIn_publishInst_ne hm, hg m c hm]
      · rfl) (List.range 17) List.nodup_range (List.mem_range.mpr hn) c
  simp only [Prod.mk.injEq] at hd hfold
  exact ⟨d, hd.1, hd.2, hfold.2⟩

/-- What the snapshot shows of one unit, with its protection data. -/
def instShow (n : Nat) (c : Chip) : ProtInst × InsState × Nat × Nat × Nat × Nat × Nat :=
  (protGet n c, insGet n c, getF Reg.PRT_LAT_KINDS n c, getF Reg.PRT_LAT_AUTO_CNT n c, getF Reg.PRT_OC_LIM n c,
    getF Reg.PRT_RED_CAP n c, getF Reg.PRT_INS_INJ n c)

theorem fkey_block {g : Fld} (h : g.stride = 32 ∧ g.base / 32 = 0x121000 / 32 ∧ g.lsb < 32) (n : Nat) :
    fkey g n / 1024 = instBlock n := by
  obtain ⟨hs, hb, hl⟩ := h
  simp only [fkey, hs, instBlock]
  omega

/-- What is shown of a unit stays where its protection data and the registers of its block stay. -/
theorem instShow_congr {n : Nat} {c d : Chip} (hprot : protGet n d = protGet n c) (hins : insGet n d = insGet n c)
    (hget : ∀ g : Fld, fkey g n / 1024 = instBlock n → getF g n d = getF g n c) : instShow n d = instShow n c := by
  rw [instShow, instShow, hprot, hins, hget _ (fkey_block (by decide) n), hget _ (fkey_block (by decide) n),
    hget _ (fkey_block (by decide) n), hget _ (fkey_block (by decide) n), hget _ (fkey_block (by decide) n)]

theorem instShow_publishInst_ne {m n : Nat} (h : m ≠ n) (c : Chip) : instShow n (publishInst m c) = instShow n c := by
  have hin := instIn_publishInst_ne h c
  simp only [instIn, Prod.mk.injEq] at hin
  refine instShow_congr hin.1 hin.2.1 fun g hg => getF_publishInst_ne ?_ c
  simp only [hg, instBlock]
  omega

/-- What follows from what is read of a unit and from what is shown of it. -/
theorem instShown_congr {n : Nat} {c c' d d' : Chip} (hin : instIn n c' = instIn n c) (hshow : instShow n d' = instShow n d)
    (h : InstShown n c d) : InstShown n c' d' := by
  simp only [instIn, Prod.mk.injEq] at hin
  simp only [instShow, Prod.mk.injEq] at hshow
  obtain ⟨hp, hi, hhsl, hbackup, -⟩ := hin
  obtain ⟨gp, gi, gkinds, gautos, glim, gcap, ginj⟩ := hshow
  constructor
  · simpa only [gkinds, latchOf, hhsl] using h.kinds
  · simpa only [gautos, autosLive, hbackup] using h.autos
  · simpa only [glim, hp] using h.lim
  · simpa only [gp, residualQuiet, hp] using h.quiet
  · simpa only [gcap, ginj, gi, hp, hi] using h.bay

/-- The pass shows every configured unit and leaves the protection data of the others. -/
theorem publishAll_shows {n : Nat} (hn : n < 17) (c : Chip) :
    (protConfigured n c = true → InstShown n c ((List.range 17).foldl publishConfigured c)) ∧
    (protConfigured n c = false → instShow n ((List.range 17).foldl publishConfigured c) = instShow n c) := by
  obtain ⟨d, hin, hd, hfold⟩ := publishAll_at (instShow n) hn (fun m c hm => instShow_publishInst_ne hm c) c
  have hdeck : d.deck = c.deck := congrArg (·.2.2.2.2) hin
  have hvisit : publishConfigured d n = if protConfigured n c then publishInst n d else d := by
    rw [publishConfigured, protConfigured_congr hdeck]
  refine ⟨fun h => ?_, fun h => ?_⟩
  · rw [hvisit, if_pos h] at hfold
    exact instShown_congr hin.symm hfold (instShown_publishInst hn d)
  · rw [hfold, hvisit, if_neg (by simp [h]), hd]

/-! ### The latches and the sequence number -/

/-- Bits summed one by one read as they were set. -/
theorem testBit_sumBits (p : Nat → Bool) (k : Nat) :
    let v := (List.range k).foldl (fun m n => if p n then m + 2 ^ n else m) 0
    v < 2 ^ k ∧ ∀ n, n < k → v.testBit n = p n := by
  induction k with
  | zero => exact ⟨Nat.one_pos, fun n h => absurd h (Nat.not_lt_zero n)⟩
  | succ k ih =>
    obtain ⟨hlt, hbits⟩ := ih
    simp only [List.range_succ, List.foldl_append, List.foldl_cons, List.foldl_nil]
    generalize (List.range k).foldl (fun m n => if p n then m + 2 ^ n else m) 0 = v at hlt hbits ⊢
    cases hp : p k
    · refine ⟨by simp only [Bool.false_eq_true, if_false]; omega, fun n hn => ?_⟩
      rcases Nat.lt_succ_iff_lt_or_eq.mp hn with h | rfl
      · exact hbits n h
      · rw [hp]; exact Nat.testBit_lt_two_pow hlt
    · refine ⟨by simp only [if_true]; omega, fun n hn => ?_⟩
      rw [if_pos rfl, Nat.add_comm]
      rcases Nat.lt_succ_iff_lt_or_eq.mp hn with h | rfl
      · rw [Nat.testBit_two_pow_add_gt h, hbits n h]
      · rw [Nat.testBit_two_pow_add_eq, Nat.testBit_lt_two_pow hlt, hp]; rfl

theorem testBit_latchedBits {n : Nat} (hn : n < 17) (c : Chip) :
    (latchedBits c % 2 ^ 17).testBit n = true ↔ latchOf n c ≠ 0 := by
  obtain ⟨hlt, hbits⟩ := testBit_sumBits (fun n => latchOf n c != 0) 17
  rw [latchedBits, Nat.mod_eq_of_lt hlt, hbits n hn, bne_iff_ne]

/-- What the pass over the units keeps, outside the units' own registers. -/
theorem publishAll_kept (c : Chip) : instKept ((List.range 17).foldl publishConfigured c) = instKept c :=
  foldl_keeps instKept _ (publishConfigured_keeps instKept instKept_publishInst) _ c

theorem getF_publishAll {f : Fld} {i : Nat} (h : fkey f i / 1024 < instBlock 0) (c : Chip) :
    getF f i ((List.range 17).foldl publishConfigured c) = getF f i c :=
  foldl_keeps (getF f i) _ (publishConfigured_keeps _ fun n c => getF_publishInst_ne (by
    simp only [instBlock] at h ⊢
    omega) c) _ c

/-- What follows the pass, settling included, leaves what is shown of a unit. -/
theorem instShow_setF {f : Fld} {i : Nat} (h : fkey f i / 1024 < instBlock 0) (n v : Nat) (c : Chip) :
    instShow n (setF f i v c) = instShow n c := by
  refine instShow_congr (protGet_setF n f i v c) (insGet_setF n f i v c) fun g hg => getF_setF_of_key (fun e => ?_) v c
  simp only [← e, hg, instBlock] at h
  omega

theorem instShow_settle {n : Nat} (hn : n < 17) (c : Chip) : instShow n (settle c) = instShow n c := by
  refine instShow_congr (protGet_congr (settle_prt c) n) (insGet_congr (settle_prt c) n)
    fun g hg => getF_settle (shownKey_of_lt ?_) c
  simp only [instBlock] at hg
  omega

/-- R33, R295: the step of the protection snapshot in a running device. -/
theorem exec_protectionSnapshot {s : State} (h : s.pwr.phase = .run) : ∃ t, exec .protectionSnapshot s = .next t ∧
    getF Reg.PRT_SEQ_SEQ 0 t.toChip = (getF Reg.PRT_SEQ_SEQ 0 s.toChip + 1) % 2 ^ 32 ∧
    getF Reg.PRT_LATCH_LATCHED 0 t.toChip = latchedBits s.toChip % 2 ^ 17 ∧
    (∀ n, n < 17 → instShow n t.toChip = instShow n ((List.range 17).foldl publishConfigured s.toChip)) ∧
    t.hsl.latch = s.hsl.latch ∧ t.backup = s.backup ∧ t.store = s.store := by
  have hkept := publishAll_kept s.toChip
  have hseq := getF_publishAll (f := Reg.PRT_SEQ_SEQ) (i := 0) (by decide) s.toChip
  refine ⟨_, run_next protectionSnapshot s, ?_⟩
  dsimp only
  rw [protectionSnapshot_of_run h]
  generalize (List.range 17).foldl publishConfigured s.toChip = d at hkept hseq ⊢
  simp only [instKept, Prod.mk.injEq] at hkept
  obtain ⟨hhsl, hbackup, -, hstore⟩ := hkept
  have hbits : latchedBits d = latchedBits s.toChip := by
    simp only [latchedBits, latchOf_congr (congrArg HslState.latch hhsl)]
  dsimp only
  refine ⟨?_, ?_, fun n hn => ?_, ?_, ?_, ?_⟩
  · rw [getF_settle (by decide), getF_setF_same, getF_setF_of_key (by decide), hseq]
    exact Nat.mod_eq_of_lt (Nat.mod_lt _ (by decide))
  · rw [getF_settle (by decide), getF_setF_of_key (by decide), getF_setF_same, hbits]
    rfl
  · rw [instShow_settle hn, instShow_setF (by decide), instShow_setF (by decide)]
  · rw [settle_hsl_latch, setF_hsl, setF_hsl, hhsl]
  · rw [settle_backup, setF_backup, setF_backup, hbackup]
  · rw [settle_store, setF_store, setF_store, hstore]

end Sys2Proof.Machine
end

section
/-!
The second snapshot group (chapter 01, R33): what its published copy reads.
-/

namespace Sys2Proof.Machine
open Sys2Proof Sys2Proof.Safety

/-! ### Copying a map -/

/-- The entries of `l` are put into the map `m`. -/
def mapCopy (l m : List (Nat × Nat)) : List (Nat × Nat) := l.foldl (fun m e => mapPut m e.1 e.2) m

theorem mapGet_mapCopy_ne {l : List (Nat × Nat)} {key : Nat} (h : ∀ e ∈ l, e.1 ≠ key) (m : List (Nat × Nat)) :
    mapGet (mapCopy l m) key = mapGet m key := by
  induction l generalizing m with
  | nil => rfl
  | cons e l ih =>
    rw [mapCopy, List.foldl_cons]
    exact (ih (fun x hx => h x (List.mem_cons_of_mem e hx)) _).trans (mapGet_put_ne _ _ _ _ (h e List.mem_cons_self).symm)

theorem le_of_mem_mapWfFrom {lo : Nat} {l : List (Nat × Nat)} (h : mapWfFrom lo l = true) {e : Nat × Nat} (he : e ∈ l) :
    lo ≤ e.1 := by
  induction l generalizing lo with
  | nil => cases he
  | cons x l ih =>
    simp only [mapWfFrom, Bool.and_eq_true, decide_eq_true_eq] at h
    obtain ⟨⟨hle, -⟩, htail⟩ := h
    rcases List.mem_cons.mp he with rfl | he
    · exact hle
    · exact le_trans hle (le_trans (Nat.le_succ _) (ih htail he))

/-- A copied key reads as in the map it is copied from, where the target had no entry. -/
theorem mapGet_mapCopy_filter {p : Nat → Bool} {key lo : Nat} (hp : p key = true) {l : List (Nat × Nat)}
    (h : mapWfFrom lo l = true) (m : List (Nat × Nat)) (hm : mapGet m key = 0) :
    mapGet (mapCopy (l.filter fun e => p e.1) m) key = mapGet l key := by
  induction l generalizing lo m with
  | nil => exact hm
  | cons e l ih =>
    obtain ⟨a, v⟩ := e
    simp only [mapWfFrom, Bool.and_eq_true, decide_eq_true_eq] at h
    obtain ⟨-, htail⟩ := h
    by_cases hk : key = a
    · subst hk
      rw [List.filter_cons_of_pos (p := fun e : Nat × Nat => p e.1) hp, mapCopy, List.foldl_cons, mapGet, if_pos rfl]
      have hrest := mapGet_mapCopy_ne (l := l.filter fun e => p e.1) (key := key) (fun e he => by
        have := le_of_mem_mapWfFrom htail (List.mem_of_mem_filter he)
        omega) (mapPut m key v)
      exact hrest.trans (mapGet_put_same m key v)
    · rw [mapGet, if_neg hk]
      by_cases ha : p a = true
      · rw [List.filter_cons_of_pos (p := fun e : Nat × Nat => p e.1) ha]
        exact ih htail _ ((mapGet_put_ne m a v key hk).trans hm)
      · rw [List.filter_cons_of_neg (p := fun e : Nat × Nat => p e.1) ha]
        exact ih htail m hm

/-! ### The keys of the group -/

/-- The address of a field's last element. -/
def Fld.top (f : Fld) : Nat := f.base + f.stride * (f.cnt - 1)

/-- Two fields whose elements share no key: other bits, other address ranges, or interleaved at one distance. -/
def separate (f g : Fld) : Bool :=
  f.lsb != g.lsb || decide (f.top < g.base) || decide (g.top < f.base) ||
    (f.stride == g.stride && f.base % f.stride != g.base % g.stride)

/-- R33: the fields of the second snapshot group lie in logic or in the backup domain, and those of one never meet those of the
other. -/
theorem snap_fields_separate : ((regTable.filter (·.snap)).all fun f =>
    f.home != .fuse && decide (f.lsb < 32) && decide (0 < f.cnt) &&
    ((regTable.filter (·.snap)).all fun g => f.home == g.home || separate f g)) = true := by
  decide +kernel

theorem snap_field {f : Fld} (hf : f ∈ regTable) (hsnap : f.snap = true) : f.home ≠ .fuse ∧ f.lsb < 32 ∧ 0 < f.cnt := by
  have h := List.all_eq_true.mp snap_fields_separate f (List.mem_filter.mpr ⟨hf, hsnap⟩)
  simp only [Bool.and_eq_true, bne_iff_ne, decide_eq_true_eq] at h
  obtain ⟨⟨⟨hhome, hlsb⟩, hcnt⟩, -⟩ := h
  exact ⟨hhome, hlsb, hcnt⟩

theorem snap_separate {f g : Fld} (hf : f ∈ regTable) (hfs : f.snap = true) (hg : g ∈ regTable) (hgs : g.snap = true)
    (h : f.home ≠ g.home) : separate f g = true := by
  have hall := List.all_eq_true.mp snap_fields_separate f (List.mem_filter.mpr ⟨hf, hfs⟩)
  rw [Bool.and_eq_true] at hall
  have hpair := List.all_eq_true.mp hall.2 g (List.mem_filter.mpr ⟨hg, hgs⟩)
  simpa [h] using hpair

theorem fkey_div {f : Fld} (h : f.lsb < 32) (i : Nat) : fkey f i / 32 = f.base + f.stride * i := by
  simp only [fkey]
  omega

theorem fkey_mod {f : Fld} (h : f.lsb < 32) (i : Nat) : fkey f i % 32 = f.lsb := by
  simp only [fkey]
  omega

/-- An element of a field is found at its address. -/
theorem instAt_isSome {f : Fld} {i : Nat} (hi : i < f.cnt) : (f.instAt (f.base + f.stride * i)).isSome = true := by
  unfold Fld.instAt
  rw [if_neg (by omega)]
  split
  · next h => simp [h]
  · next h =>
    have hpos : 0 < f.stride := Nat.pos_of_ne_zero h
    simp [Nat.mul_div_cancel_left i hpos, hi]

/-- What is found at an address is an element of the field. -/
theorem addr_of_instAt {f : Fld} {a : Nat} (h : (f.instAt a).isSome = true) (hcnt : 0 < f.cnt) :
    ∃ i, i < f.cnt ∧ a = f.base + f.stride * i := by
  unfold Fld.instAt at h
  split at h
  · cases h
  · split at h
    · split at h
      · exact ⟨0, hcnt, by omega⟩
      · cases h
    · dsimp only at h
      split at h
      · next hs hc =>
        refine ⟨(a - f.base) / f.stride, hc.2, ?_⟩
        have := Nat.div_add_mod (a - f.base) f.stride
        omega
      · cases h

theorem addr_le_top {f : Fld} {i : Nat} (h : i < f.cnt) : f.base + f.stride * i ≤ f.top :=
  Nat.add_le_add_left (Nat.mul_le_mul_left _ (by omega)) _

theorem fkey_ne_of_separate {f g : Fld} {i j : Nat} (h : separate f g = true) (hf : f.lsb < 32) (hg : g.lsb < 32)
    (hi : i < f.cnt) (hj : j < g.cnt) : fkey f i ≠ fkey g j := by
  intro e
  have haddr : f.base + f.stride * i = g.base + g.stride * j := by rw [← fkey_div hf, ← fkey_div hg, e]
  have hlsb : f.lsb = g.lsb := by rw [← fkey_mod hf i, ← fkey_mod hg j, e]
  have hftop := addr_le_top hi
  have hgtop := addr_le_top hj
  simp only [separate, hlsb, bne_self_eq_false, Bool.false_or, Bool.or_eq_true, Bool.and_eq_true, decide_eq_true_eq,
    beq_iff_eq, bne_iff_ne] at h
  rcases h with (h | h) | ⟨hs, hmod⟩
  · omega
  · omega
  · have hf' := Nat.add_mul_mod_self_left f.base f.stride i
    have hg' := Nat.add_mul_mod_self_left g.base g.stride j
    rw [haddr, hs, hg'] at hf'
    exact hmod (by rw [hs, hf'])

/-- An element of a field of the group has a key of its home, and no key of the other. -/
theorem snapKey_self {f : Fld} {i : Nat} (hf : f ∈ regTable) (hsnap : f.snap = true) (hi : i < f.cnt) :
    snapKey f.home (fkey f i) = true := by
  obtain ⟨-, hlsb, -⟩ := snap_field hf hsnap
  rw [snapKey, List.any_eq_true]
  refine ⟨f, hf, ?_⟩
  rw [fkey_div hlsb, fkey_mod hlsb, instAt_isSome hi, hsnap]
  simp

theorem snapKey_other {f : Fld} {i : Nat} {h : Home} (hf : f ∈ regTable) (hsnap : f.snap = true) (hi : i < f.cnt)
    (hne : f.home ≠ h) : snapKey h (fkey f i) = false := by
  rw [snapKey, List.any_eq_false]
  intro g hg hgk
  simp only [Bool.and_eq_true, beq_iff_eq] at hgk
  obtain ⟨⟨⟨hgs, hgh⟩, hmod⟩, hinst⟩ := hgk
  obtain ⟨-, hlsb, -⟩ := snap_field hf hsnap
  obtain ⟨-, hglsb, hgcnt⟩ := snap_field hg hgs
  obtain ⟨j, hj, haddr⟩ := addr_of_instAt hinst hgcnt
  refine fkey_ne_of_separate (snap_separate hf hsnap hg hgs (by rw [hgh]; exact hne)) hlsb hglsb hi hj ?_
  simp only [fkey] at hmod haddr ⊢
  omega

/-! ### The published copy -/

theorem publishSecond_snap (c : Chip) : (publishSecond c).snap =
    mapCopy (c.bregs.filter fun e => snapKey .backup e.1) (mapCopy (c.regs.filter fun e => snapKey .vol e.1) []) := rfl

theorem mapGet_mapCopy_unkept {h : Home} {key : Nat} (hkey : snapKey h key = false) (l m : List (Nat × Nat)) :
    mapGet (mapCopy (l.filter fun e => snapKey h e.1) m) key = mapGet m key :=
  mapGet_mapCopy_ne (fun e he hek => by
    have := (List.mem_filter.mp he).2
    rw [hek, hkey] at this
    cases this) m

/-- R33: the published copy of a field of the group is the field's entry. -/
theorem mapGet_publishSecond {f : Fld} {i : Nat} {c : Chip} (hregs : mapWf c.regs = true) (hbregs : mapWf c.bregs = true)
    (hf : f ∈ regTable) (hsnap : f.snap = true) (hi : i < f.cnt) :
    mapGet (publishSecond c).snap (fkey f i) = mapGet (c.mapOf f.home) (fkey f i) := by
  have hself := snapKey_self hf hsnap hi
  have hother := fun h => snapKey_other (h := h) hf hsnap hi
  rw [publishSecond_snap]
  cases hhome : f.home with
  | vol =>
    rw [hhome] at hself hother
    rw [mapGet_mapCopy_unkept (hother .backup (by decide)), mapGet_mapCopy_filter hself hregs [] rfl]
    rfl
  | backup =>
    rw [hhome] at hself hother
    rw [mapGet_mapCopy_filter hself hbregs _ (mapGet_mapCopy_unkept (hother .vol (by decide)) _ _)]
    rfl
  | fuse => exact absurd hhome (snap_field hf hsnap).1

/-- R33: after the publication a read of a field of the group returns what the field holds. -/
theorem readF_publishSecond {f : Fld} {i : Nat} {c : Chip} (hregs : mapWf c.regs = true) (hbregs : mapWf c.bregs = true)
    (hf : f ∈ regTable) (hsnap : f.snap = true) (hi : i < f.cnt) : readF f i (publishSecond c) = getF f i c := by
  rw [readF, if_pos hsnap, getF, mapGet_publishSecond hregs hbregs hf hsnap hi]

/-- Settling leaves what is published. -/
theorem readF_settle {f : Fld} (hsnap : f.snap = true) (i : Nat) (c : Chip) : readF f i (settle c) = readF f i c := by
  rw [readF, readF, if_pos hsnap, if_pos hsnap, settle_snap]

/-- R33: the step of the second tick in bare mode. -/
theorem exec_secondTick_bare {s : State} (m : SwitchMeas) (h : s.pwr.phase = .bare) (hregs : mapWf s.regs = true)
    (hbregs : mapWf s.bregs = true) : ∃ t, exec (.secondTick m) s = .next t ∧
      (∀ f ∈ regTable, f.snap = true → ∀ i, i < f.cnt → readF f i t.toChip = getF f i s.toChip) ∧
      t.snapSeq = (s.snapSeq + 1) % 2 ^ 32 ∧ t.backup = s.backup ∧ t.store = s.store ∧ t.pwr = s.pwr := by
  have hrow : secondTick m s.toChip = publishSecond s.toChip := by
    unfold secondTick
    rw [h]
  refine ⟨_, run_next (secondTick m) s, ?_⟩
  dsimp only
  rw [hrow]
  refine ⟨fun f hf hsnap i hi => ?_, ?_, ?_, ?_, ?_⟩
  · rw [readF_settle hsnap, readF_publishSecond hregs hbregs hf hsnap hi]
  · rw [settle_snapSeq]; rfl
  · rw [settle_backup]; rfl
  · rw [settle_store]; rfl
  · rw [settle_pwr]; rfl

end Sys2Proof.Machine
end

section
/-!
The second tick of a running device (chapters 01, 08 and 12, R33, R197, R350).
-/

namespace Sys2Proof.Machine
open Sys2Proof Sys2Proof.Safety

/-! ### The billing groups -/

theorem foldl_keeps_mem {β : Type} (g : Chip → β) (f : Chip → Nat → Chip) (l : List Nat)
    (h : ∀ n ∈ l, ∀ c, g (f c n) = g c) (c : Chip) : g (l.foldl f c) = g c := by
  induction l generalizing c with
  | nil => rfl
  | cons k l ih =>
    rw [List.foldl_cons, ih fun n hn => h n (List.mem_cons_of_mem k hn)]
    exact h k List.mem_cons_self c

theorem noRegs_publishSet (s : Nat) (c : Chip) : noRegs (publishSet s c) = noRegs c := by
  unfold publishSet
  split
  · rfl
  · dsimp only
    rw [noRegs_setF, foldl_keeps noRegs _ fun c m => by simp, foldl_keeps noRegs _ fun c d => by simp,
      foldl_keeps noRegs _ fun c r => by simp]

theorem noRegs_publishTamper (k : Nat) (c : Chip) : noRegs (publishTamper k c) = noRegs c := by
  simp [publishTamper]

theorem noRegs_publishGlobals (c : Chip) :
    noRegs (publishGlobals c) = noRegs { c with bil := { c.bil with seq := (c.bil.seq + 1) % 2 ^ 32 } } := by
  unfold publishGlobals
  dsimp only
  rw [foldl_keeps noRegs _ fun c k => noRegs_publishTamper k c]
  split <;> simp only [noRegs_setF, runFields, setPair]

theorem noRegs_publishBilling (c : Chip) :
    noRegs (publishBilling c) = noRegs { c with bil := { c.bil with seq := (c.bil.seq + 1) % 2 ^ 32 } } := by
  have hsets := foldl_keeps noRegs _ (fun c s => noRegs_publishSet s c) (List.range 17) c
  rw [publishBilling, noRegs_publishGlobals]
  exact congrArg (fun d => { d with bil := { d.bil with seq := (d.bil.seq + 1) % 2 ^ 32 } }) hsets

theorem getF_publishTamper {g : Fld} {j k : Nat} (h : ∀ w, fkey g j ≠ fkey (Reg.tcWord w) k) (c : Chip) :
    getF g j (publishTamper k c) = getF g j c := by
  simp only [publishTamper, getF_setF_of_key (h _)]

/-- R197: the number of the period and the active tariff as published. -/
theorem getF_period_publishGlobals (c : Chip) : getF Reg.BIL_PERIOD_NUMBER 0 (publishGlobals c) = c.store.period % 2 ^ 32 := by
  unfold publishGlobals
  dsimp only
  rw [foldl_keeps (getF Reg.BIL_PERIOD_NUMBER 0) _ fun c k => getF_publishTamper (fun w => by
    simp only [fkey, Reg.BIL_PERIOD_NUMBER, Reg.tcWord]; omega) c]
  simp (disch := decide) only [setPair, getF_setF_of_key, getF_setF_same]
  split <;> simp [runFields, Reg.BIL_PERIOD_NUMBER]

theorem getF_tariff_publishGlobals (c : Chip) : getF Reg.BIL_TARIFF_ACTIVE 0 (publishGlobals c) = c.bil.tariff % 16 := by
  unfold publishGlobals
  dsimp only
  rw [foldl_keeps (getF Reg.BIL_TARIFF_ACTIVE 0) _ fun c k => getF_publishTamper (fun w => by
    simp only [fkey, Reg.BIL_TARIFF_ACTIVE, Reg.tcWord]; omega) c]
  simp (disch := decide) only [setPair, getF_setF_of_key]
  split <;> simp (disch := decide) only [getF_setF_of_key, getF_setF_same]
  all_goals simp [runFields, Reg.BIL_TARIFF_ACTIVE]

/-! ### The measurements of the load switches -/

/-- The key of a channel's measured current: above the billing block, and at a bit where no register set has a field. -/
theorem fkey_current (k : Nat) : 0x160000 * 32 ≤ fkey Reg.LSW_MEAS_I_MA k ∧ fkey Reg.LSW_MEAS_I_MA k % 32 = 16 := by
  simp only [fkey, Reg.LSW_MEAS_I_MA]
  omega

theorem getF_current_publishSet (k s : Nat) (c : Chip) :
    getF Reg.LSW_MEAS_I_MA k (publishSet s c) = getF Reg.LSW_MEAS_I_MA k c := by
  have hlsb : ∀ (f : Fld) (i v : Nat) (c : Chip), f.lsb = 0 →
      getF Reg.LSW_MEAS_I_MA k (setF f i v c) = getF Reg.LSW_MEAS_I_MA k c := fun f i v c hf =>
    getF_setF_of_key (fun e => by
      have hkey := (fkey_current k).2
      rw [e] at hkey
      simp only [fkey, hf] at hkey
      omega) v c
  unfold publishSet
  split
  · rfl
  · dsimp only
    rw [hlsb _ _ _ _ rfl]
    refine (foldl_keeps (getF _ k) _ (fun c m => ?_) _ _).trans
      ((foldl_keeps (getF _ k) _ (fun c d => ?_) _ _).trans (foldl_keeps (getF _ k) _ (fun c r => ?_) _ c))
    · rw [hlsb _ _ _ _ rfl, hlsb _ _ _ _ rfl, hlsb _ _ _ _ rfl, hlsb _ _ _ _ rfl]
    · rw [hlsb _ _ _ _ rfl, hlsb _ _ _ _ rfl]
    · rw [hlsb _ _ _ _ rfl, hlsb _ _ _ _ rfl]

theorem getF_current_publishGlobals (k : Nat) (c : Chip) :
    getF Reg.LSW_MEAS_I_MA k (publishGlobals c) = getF Reg.LSW_MEAS_I_MA k c := by
  have hlow : ∀ (f : Fld) (v : Nat) (c : Chip), fkey f 0 < 0x160000 * 32 →
      getF Reg.LSW_MEAS_I_MA k (setF f 0 v c) = getF Reg.LSW_MEAS_I_MA k c := fun f v c hf =>
    getF_setF_of_key (fun e => by
      have hkey := (fkey_current k).1
      omega) v c
  unfold publishGlobals
  dsimp only
  rw [foldl_keeps (getF Reg.LSW_MEAS_I_MA k) _ fun c i => getF_publishTamper (fun w => by
    simp only [fkey, Reg.LSW_MEAS_I_MA, Reg.tcWord]; omega) c]
  simp (disch := decide) only [setPair, hlow]
  split <;> simp (disch := decide) only [runFields, hlow]
  all_goals rfl

theorem getF_current_publishBilling (k : Nat) (c : Chip) :
    getF Reg.LSW_MEAS_I_MA k (publishBilling c) = getF Reg.LSW_MEAS_I_MA k c := by
  rw [publishBilling, getF_current_publishGlobals]
  exact foldl_keeps (getF Reg.LSW_MEAS_I_MA k) _ (fun c s => getF_current_publishSet k s c) _ c

/-- R350: the registers of one measured channel, and of one bank. -/
def chanMeasured (m : SwitchMeas) (c : Chip) (k : Nat) : Chip :=
  setF Reg.LSW_MEAS_I_MA k (min (m.ma[k]?.getD 0) 65535)
    (setF Reg.LSW_MEAS_TJ k (min (divNear (m.tj[k]?.getD 0) 10 + 40).toNat 255)
      (setF Reg.LSW_MEAS_DT k (min (divNear (m.tj[k]?.getD 0 - m.caseT[k / 8]?.getD 0) 10).toNat 255) c))

def bankMeasured (m : SwitchMeas) (c : Chip) (b : Nat) : Chip :=
  setF Reg.LSW_BANK_I_MA b (min ((List.range 8).foldl (fun a j => a + m.ma[8 * b + j]?.getD 0) 0) 65535) c

/-- R350: while the bridge carries them, the measurements reach the registers. -/
theorem lswMeasure_of_up {m : SwitchMeas} {c : Chip} (hgranted : c.lsw.granted = true) (hup : c.bridgeUp = true) :
    lswMeasure m c = (List.range 6).foldl (bankMeasured m) ((List.range 48).foldl (chanMeasured m) (lswTemps m c)) := by
  have hpowered : c.powered = true := by
    simp only [Chip.bridgeUp, Bool.and_eq_true] at hup
    obtain ⟨⟨⟨⟨hvpd5, hvp12⟩, -⟩, -⟩, -⟩ := hup
    simp [Chip.powered, hvpd5, hvp12]
  simp only [lswMeasure, hgranted, hpowered, hup, Bool.not_true, Bool.or_self, Bool.false_eq_true, if_false]
  rfl

theorem noRegs_lswMeasure {m : SwitchMeas} {c : Chip} (hgranted : c.lsw.granted = true) (hup : c.bridgeUp = true) :
    noRegs (lswMeasure m c) = noRegs (lswTemps m c) := by
  rw [lswMeasure_of_up hgranted hup, foldl_keeps noRegs _ fun c b => by simp only [bankMeasured, noRegs_setF],
    foldl_keeps noRegs _ fun c k => by simp only [chanMeasured, noRegs_setF]]

theorem getF_current_chanMeasured_ne {j k : Nat} (h : j ≠ k) (m : SwitchMeas) (c : Chip) :
    getF Reg.LSW_MEAS_I_MA k (chanMeasured m c j) = getF Reg.LSW_MEAS_I_MA k c := by
  have hother : ∀ (f : Fld) (v : Nat) (c : Chip), f.base = 0x161010 ∧ f.stride = 32 ∧ f.lsb < 32 →
      getF Reg.LSW_MEAS_I_MA k (setF f j v c) = getF Reg.LSW_MEAS_I_MA k c := fun f v c ⟨hb, hs, hl⟩ =>
    getF_setF_of_key (by simp only [fkey, Reg.LSW_MEAS_I_MA, hb, hs]; omega) v c
  rw [chanMeasured, hother _ _ _ (by decide), hother _ _ _ (by decide), hother _ _ _ (by decide)]

theorem getF_current_bankMeasured {b : Nat} (hb : b < 6) (k : Nat) (m : SwitchMeas) (c : Chip) :
    getF Reg.LSW_MEAS_I_MA k (bankMeasured m c b) = getF Reg.LSW_MEAS_I_MA k c :=
  getF_setF_of_key (by simp only [fkey, Reg.LSW_MEAS_I_MA, Reg.LSW_BANK_I_MA]; omega) _ c

theorem getF_current_lswMeasure {m : SwitchMeas} {c : Chip} (hgranted : c.lsw.granted = true) (hup : c.bridgeUp = true)
    (k : Fin 48) : getF Reg.LSW_MEAS_I_MA k.val (lswMeasure m c) = min m.ma[k] 65535 := by
  obtain ⟨d, -, hd⟩ := foldl_at (getF Reg.LSW_MEAS_I_MA k.val) (chanMeasured m) k.val
    (fun c j hj => getF_current_chanMeasured_ne hj m c) (List.range 48) List.nodup_range (List.mem_range.mpr k.isLt)
    (lswTemps m c)
  rw [lswMeasure_of_up hgranted hup,
    foldl_keeps_mem _ _ _ fun b hb c => getF_current_bankMeasured (List.mem_range.mp hb) k.val m c, hd, chanMeasured,
    getF_setF_same, Vector.getElem?_eq_getElem k.isLt]
  exact Nat.mod_eq_of_lt (lt_of_le_of_lt (Nat.min_le_right _ _) (by decide))

/-! ### The temperatures of the channels -/

/-- The junction temperature of channel `j`. -/
def tjOf (j : Nat) (c : Chip) : Int := (lsw j c).tj

theorem tjOf_lswPut {k : Nat} {x : LswChan} {c : Chip} (hx : x.tj = (lsw k c).tj) (j : Nat) :
    tjOf j (lswPut k x c) = tjOf j c := by
  by_cases h : j = k
  · subst h
    by_cases hj : j < 48
    · rw [tjOf, lsw_lswPut_same hj, hx, tjOf]
    · simp [tjOf, lsw, hj]
  · rw [tjOf, lsw_lswPut_ne h, tjOf]

theorem tjOf_lswShow (j k : Nat) (c : Chip) : tjOf j (lswShow k c) = tjOf j c := by
  rw [tjOf, lsw_lswShow, tjOf]

/-- A channel's state changes and is shown; its temperature stays. -/
theorem tjOf_lswShow_lswPut {k : Nat} {x : LswChan} {c : Chip} (hx : x.tj = (lsw k c).tj) (j : Nat) :
    tjOf j (lswShow k (lswPut k x c)) = tjOf j c := by
  rw [tjOf_lswShow, tjOf_lswPut hx]

theorem tjOf_testAbort (j k : Nat) (c : Chip) : tjOf j (testAbort k c) = tjOf j c := by
  unfold testAbort
  dsimp only
  split
  · rfl
  · split
    · rw [tjOf_lswShow_lswPut]
      rfl
    · rw [tjOf_lswPut]
      rfl

theorem tjOf_lswDrive (j k : Nat) (c : Chip) : tjOf j (lswDrive k c) = tjOf j c := by
  unfold lswDrive
  dsimp only
  split
  · rw [tjOf_lswShow_lswPut]
    rfl
  · split
    · rw [tjOf_lswShow_lswPut]
      rfl
    · rfl

theorem tjOf_lswAll (j : Nat) (c : Chip) : tjOf j (lswAll c) = tjOf j c :=
  foldl_keeps (tjOf j) _ (fun c k => by rw [lswEval, tjOf_lswDrive, tjOf_testAbort]) _ c

theorem tjOf_gateOff (j n : Nat) (c : Chip) : tjOf j (gateOff n c) = tjOf j c := by
  have hopen : ∀ d : Chip, tjOf j (openingSeen n d) = tjOf j d := fun d => by
    obtain ⟨w, e⟩ := openingSeen_frame n d
    rw [e]
    rfl
  unfold gateOff
  dsimp only
  split
  · split
    · rw [hopen, tjOf_lswAll]; rfl
    · rw [tjOf_lswAll]; rfl
  · rfl

theorem tjOf_settle (j : Nat) (c : Chip) : tjOf j (settle c) = tjOf j c := by
  have hrecheck : tjOf j (recheckAll c) = tjOf j c := foldl_keeps (tjOf j) _ (fun c n => by
    rcases recheck_cases n c with e | e <;> rw [e.2]
    exact tjOf_gateOff j n c) _ c
  rw [settle, tjOf_lswAll, hrecheck]

/-- R339: the power die's measurement of one channel. -/
def chanTemp (m : SwitchMeas) (c : Chip) (k : Nat) : Chip :=
  lswPut k { lsw k c with tj := m.tj[k]?.getD 0, caseT := m.caseT[k / 8]?.getD 0 } c

theorem lswTemps_eq (m : SwitchMeas) (c : Chip) : lswTemps m c = lswAll ((List.range 48).foldl (chanTemp m) c) := rfl

/-- R339: a channel holds the temperature that was measured. -/
theorem tjOf_lswTemps (m : SwitchMeas) (k : Fin 48) (c : Chip) : tjOf k.val (lswTemps m c) = m.tj[k] := by
  obtain ⟨d, -, hd⟩ := foldl_at (tjOf k.val) (chanTemp m) k.val
    (fun c j hj => by rw [tjOf, chanTemp, lsw_lswPut_ne (Ne.symm hj), tjOf])
    (List.range 48) List.nodup_range (List.mem_range.mpr k.isLt) c
  rw [lswTemps_eq, tjOf_lswAll, hd, tjOf, chanTemp, lsw_lswPut_same k.isLt, Vector.getElem?_eq_getElem k.isLt]
  rfl

/-- What the measurements leave as it was. -/
def measureView (c : Chip) : BackupState × LegalStore × LedgerState × Nat :=
  (c.backup, c.store, c.bil, c.snapSeq)

theorem lswAll_snapSeq (c : Chip) : (lswAll c).snapSeq = c.snapSeq := by
  obtain ⟨r, v, e⟩ := lswAll_frame c
  rw [e]

theorem measureView_chanTemp (m : SwitchMeas) (c : Chip) (k : Nat) : measureView (chanTemp m c k) = measureView c := by
  simp only [measureView, chanTemp, lswPut]

theorem measureView_lswTemps (m : SwitchMeas) (c : Chip) : measureView (lswTemps m c) = measureView c := by
  rw [lswTemps_eq, ← foldl_keeps measureView _ (measureView_chanTemp m) (List.range 48) c]
  simp only [measureView, lswAll_backup, lswAll_store, lswAll_bil, lswAll_snapSeq]

/-! ### The tick -/

/-- R33, R219: with no save to repeat, the tick of a running device measures and publishes. -/
theorem secondTick_of_run {m : SwitchMeas} {c : Chip} (h : c.pwr.phase = .run)
    (hretry : (publishBilling (lswMeasure m c)).bil.saveRetry = false) :
    secondTick m c = publishSecond (publishBilling (lswMeasure m c)) := by
  unfold secondTick
  rw [h]
  simp only [saveAgain, hretry, Bool.false_eq_true, if_false]

/-- The parts of the device that a publication of the billing groups touches or that the tick reads. -/
def tickView (c : Chip) : LedgerState × BackupState × LegalStore × LswState × Nat :=
  (c.bil, c.backup, c.store, c.lsw, c.snapSeq)

theorem tickView_of_noRegs {c d : Chip} (h : noRegs d = noRegs c) : tickView d = tickView c := by
  change tickView (noRegs d) = tickView (noRegs c)
  rw [h]

/-- The ledgers stay under a publication, the group's sequence number apart. -/
theorem tickView_publishBilling (c : Chip) :
    tickView (publishBilling c) = ({ c.bil with seq := (c.bil.seq + 1) % 2 ^ 32 }, c.backup, c.store, c.lsw, c.snapSeq) :=
  tickView_of_noRegs (noRegs_publishBilling c)

/-- R197: what a publication shows of the period and of the tariff. -/
theorem getF_publishBilling_globals (c : Chip) :
    getF Reg.BIL_PERIOD_NUMBER 0 (publishBilling c) = c.store.period % 2 ^ 32 ∧
    getF Reg.BIL_TARIFF_ACTIVE 0 (publishBilling c) = c.bil.tariff % 16 := by
  have hsets := tickView_of_noRegs (foldl_keeps noRegs _ (fun c s => noRegs_publishSet s c) (List.range 17) c)
  rw [publishBilling, getF_period_publishGlobals, getF_tariff_publishGlobals]
  generalize (List.range 17).foldl (fun c s => publishSet s c) c = d at hsets ⊢
  simp only [tickView, Prod.mk.injEq] at hsets
  obtain ⟨hbil, -, hstore, -, -⟩ := hsets
  rw [hstore, hbil]
  exact ⟨rfl, rfl⟩

/-- A channel's measured current is not among what settling shows of the channels. -/
theorem shownKey_current (k : Nat) : shownKey (fkey Reg.LSW_MEAS_I_MA k) = false := by
  have hword : fkey Reg.LSW_MEAS_I_MA k / 32 = 0x161010 + 32 * k := by
    simp only [fkey, Reg.LSW_MEAS_I_MA]
    omega
  simp only [shownKey, hword, Bool.or_eq_false_iff, Bool.and_eq_false_iff, decide_eq_false_iff_not, beq_eq_false_iff_ne]
  omega

/-- What the tick of a running device measures and publishes, before settling. -/
structure TickShown (m : SwitchMeas) (c d : Chip) : Prop where
  seq : d.snapSeq = (c.snapSeq + 1) % 2 ^ 32
  current : ∀ k : Fin 48, getF Reg.LSW_MEAS_I_MA k.val d = min m.ma[k] 65535
  tj : ∀ k : Fin 48, tjOf k.val d = m.tj[k]
  period : getF Reg.BIL_PERIOD_NUMBER 0 d = c.store.period % 2 ^ 32
  tariff : getF Reg.BIL_TARIFF_ACTIVE 0 d = c.bil.tariff % 16
  sets : d.bil.sets = c.bil.sets
  backup : d.backup = c.backup
  store : d.store = c.store

theorem getF_publishSecond {f : Fld} (hf : f.home = .vol) (i : Nat) (c : Chip) : getF f i (publishSecond c) = getF f i c :=
  getF_of_regs hf rfl i

theorem snapSeq_publishSecond (c : Chip) : (publishSecond c).snapSeq = (c.snapSeq + 1) % 2 ^ 32 := rfl

theorem tjOf_congr {c d : Chip} (h : d.lsw = c.lsw) (j : Nat) : tjOf j d = tjOf j c := by
  simp only [tjOf, lsw, h]

/-- R33, R197, R350: the measurements and the publication of the second group. -/
theorem tickShown_secondTick {m : SwitchMeas} {c : Chip} (h : c.pwr.phase = .run) (hgranted : c.lsw.granted = true)
    (hup : c.bridgeUp = true) (hretry : c.bil.saveRetry = false) : TickShown m c (secondTick m c) := by
  have hmeas := measureView_lswTemps m c
  have hview := tickView_of_noRegs (noRegs_lswMeasure (m := m) hgranted hup)
  simp only [measureView, Prod.mk.injEq] at hmeas
  simp only [tickView, Prod.mk.injEq] at hview
  obtain ⟨hbackup, hstore, hbil, hseq⟩ := hmeas
  obtain ⟨gbil, gbackup, gstore, glsw, gseq⟩ := hview
  have hcurrent := getF_current_lswMeasure (m := m) hgranted hup
  have htj : ∀ k : Fin 48, tjOf k.val (lswMeasure m c) = m.tj[k] := fun k => by
    rw [tjOf_congr glsw, tjOf_lswTemps]
  have hpub := tickView_publishBilling (lswMeasure m c)
  have hglobals := getF_publishBilling_globals (lswMeasure m c)
  have hcur := fun k => getF_current_publishBilling k (lswMeasure m c)
  have hrow := secondTick_of_run (m := m) h
  generalize publishBilling (lswMeasure m c) = d at hpub hglobals hcur hrow
  simp only [tickView, Prod.mk.injEq] at hpub
  obtain ⟨dbil, dbackup, dstore, dlsw, dseq⟩ := hpub
  obtain ⟨hperiod, htariff⟩ := hglobals
  rw [hrow (by rw [dbil, gbil, hbil]; exact hretry)]
  exact {
    seq := by rw [snapSeq_publishSecond, dseq, gseq, hseq]
    current := fun k => by rw [getF_publishSecond rfl, hcur, hcurrent]
    tj := fun k => by rw [tjOf_congr (show (publishSecond d).lsw = d.lsw from rfl), tjOf_congr dlsw, htj]
    period := by rw [getF_publishSecond rfl, hperiod, gstore, hstore]
    tariff := by rw [getF_publishSecond rfl, htariff, gbil, hbil]
    sets := by rw [publishSecond, dbil, gbil, hbil]
    backup := by rw [publishSecond, dbackup, gbackup, hbackup]
    store := by rw [publishSecond, dstore, gstore, hstore] }

theorem sets_of_ledgerRest {a b : LedgerState} (h : ledgerRest a = ledgerRest b) : a.sets = b.sets := by
  have hsets := congrArg LedgerState.sets h
  exact hsets

/-- R33, R197, R350: the step of the second tick in a running device. -/
theorem exec_secondTick_run {s : State} (m : SwitchMeas) (h : s.pwr.phase = .run) (hgranted : s.lsw.granted = true)
    (hup : s.bridgeUp = true) (hretry : s.bil.saveRetry = false) :
    ∃ t, exec (.secondTick m) s = .next t ∧ TickShown m s.toChip t.toChip := by
  have hshown := tickShown_secondTick (m := m) h hgranted hup hretry
  refine ⟨_, run_next (secondTick m) s, ?_⟩
  dsimp only
  generalize secondTick m s.toChip = d at hshown ⊢
  have hview := tripView_settle d
  simp only [tripView, Prod.mk.injEq] at hview
  obtain ⟨-, -, -, -, hledger⟩ := hview
  have hsets := sets_of_ledgerRest hledger
  exact {
    seq := by rw [settle_snapSeq, hshown.seq]
    current := fun k => by rw [getF_settle (shownKey_current k), hshown.current]
    tj := fun k => by rw [tjOf_settle, hshown.tj]
    period := by rw [getF_settle (by decide), hshown.period]
    tariff := by rw [getF_settle (by decide), hshown.tariff]
    sets := by rw [hsets, hshown.sets]
    backup := by rw [settle_backup, hshown.backup]
    store := by rw [settle_store, hshown.store] }

/-! ### The obligation -/

/-- Settles O32: the pass over the instances shows each configured one as it is and leaves the others, the second group's copy
holds each field's entry, and a running device measures and publishes before the copy is taken. -/
theorem snapshotsArePublished : Obligations.SnapshotsArePublished := by
  refine ⟨fun s hrun => ?_, fun s m => exec_secondTick_bare m, fun s m hrun hgranted hup hretry => ?_⟩
  · obtain ⟨t, hstep, hseq, hlatched, hshow, hlatch, hbackup, hstore⟩ := exec_protectionSnapshot hrun
    refine ⟨t, hstep, hseq, fun n hn => ?_, fun n hn hcfg => ?_, fun n hn hcfg => ?_, hlatch, hbackup, hstore⟩
    · rw [hlatched, testBit_latchedBits hn]
    · have hshown := instShown_congr rfl (hshow n hn) ((publishAll_shows hn s.toChip).1 hcfg)
      exact ⟨hshown.kinds, hshown.autos, hshown.lim, hshown.quiet.1, hshown.quiet.2, hshown.bay⟩
    · exact congrArg Prod.fst ((hshow n hn).trans ((publishAll_shows hn s.toChip).2 hcfg))
  · obtain ⟨t, hstep, hshown⟩ := exec_secondTick_run m hrun hgranted hup hretry
    exact ⟨t, hstep, hshown.seq, hshown.current, hshown.tj, hshown.period, hshown.tariff, hshown.sets, hshown.backup,
      hshown.store⟩

end Sys2Proof.Machine
end

section
/-!
The load-switch channels through a settling (chapter 12, R331, R336): what it leaves of a channel, and which changes of a channel
keep a settled device settled.
-/

namespace Sys2Proof.Machine
open Sys2Proof Sys2Proof.Safety

/-! ### What evaluating leaves of a channel -/

/-- What following its input leaves of a channel: its card, latch, retries and freezing; a test or a wait can only end. -/
structure ChanKept (x y : LswChan) : Prop where
  cfg : y.cfg = x.cfg
  latch : y.latch = x.latch
  retry : y.retry = x.retry
  hold : y.hold = x.hold
  test : x.test = 0 → y.test = 0
  wait : x.wait = false → y.wait = false

theorem ChanKept.refl (x : LswChan) : ChanKept x x := ⟨rfl, rfl, rfl, rfl, id, id⟩

theorem ChanKept.trans {x y z : LswChan} (h : ChanKept x y) (g : ChanKept y z) : ChanKept x z where
  cfg := g.cfg.trans h.cfg
  latch := g.latch.trans h.latch
  retry := g.retry.trans h.retry
  hold := g.hold.trans h.hold
  test := g.test ∘ h.test
  wait := g.wait ∘ h.wait

theorem lsw_congr {c d : Chip} (h : d.lsw = c.lsw) (j : Nat) : lsw j d = lsw j c := by
  simp only [lsw, h]

theorem chanKept_lswPut {k : Nat} {x : LswChan} {c : Chip} (h : ChanKept (lsw k c) x) (j : Nat) :
    ChanKept (lsw j c) (lsw j (lswPut k x c)) := by
  by_cases hjk : j = k
  · subst hjk
    by_cases hj : j < 48
    · rw [lsw_lswPut_same hj]; exact h
    · have hnone : lsw j (lswPut j x c) = lsw j c := by simp [lsw, hj]
      rw [hnone]; exact .refl _
  · rw [lsw_lswPut_ne hjk]; exact .refl _

theorem chanKept_testAbort (j k : Nat) (c : Chip) : ChanKept (lsw j c) (lsw j (testAbort k c)) := by
  unfold testAbort
  dsimp only
  split
  · exact .refl _
  · split
    · rw [lsw_lswShow]
      refine chanKept_lswPut ?_ j
      exact ⟨rfl, rfl, rfl, rfl, fun _ => rfl, fun h => by simp [h]⟩
    · refine chanKept_lswPut ?_ j
      exact ⟨rfl, rfl, rfl, rfl, id, id⟩

theorem chanKept_lswDrive (j k : Nat) (c : Chip) : ChanKept (lsw j c) (lsw j (lswDrive k c)) := by
  unfold lswDrive
  dsimp only
  split
  · rw [lsw_lswShow]
    refine chanKept_lswPut ?_ j
    exact ⟨rfl, rfl, rfl, rfl, fun _ => rfl, id⟩
  · split
    · rw [lsw_lswShow]
      refine chanKept_lswPut ?_ j
      exact ⟨rfl, rfl, rfl, rfl, id, id⟩
    · exact .refl _

theorem chanKept_lswEval (j k : Nat) (c : Chip) : ChanKept (lsw j c) (lsw j (lswEval k c)) :=
  (chanKept_testAbort j k c).trans (chanKept_lswDrive j k _)

theorem chanKept_foldl {j : Nat} {f : Chip → Nat → Chip} (h : ∀ c n, ChanKept (lsw j c) (lsw j (f c n))) (l : List Nat)
    (c : Chip) : ChanKept (lsw j c) (lsw j (l.foldl f c)) := by
  induction l generalizing c with
  | nil => exact .refl _
  | cons n l ih => exact (h c n).trans (ih (f c n))

theorem chanKept_lswAll (j : Nat) (c : Chip) : ChanKept (lsw j c) (lsw j (lswAll c)) :=
  chanKept_foldl (fun c k => chanKept_lswEval j k c) _ c

theorem chanKept_gateOff (j n : Nat) (c : Chip) : ChanKept (lsw j c) (lsw j (gateOff n c)) := by
  have hopen : ∀ d : Chip, lsw j (openingSeen n d) = lsw j d := fun d => by
    obtain ⟨w, e⟩ := openingSeen_frame n d
    rw [e]; rfl
  have hall : ∀ x, ChanKept (lsw j c) (lsw j (lswAll (hslBayPut n x c))) := fun x => chanKept_lswAll j (hslBayPut n x c)
  unfold gateOff
  dsimp only
  split
  · split
    · rw [hopen]; exact hall _
    · exact hall _
  · exact .refl _

theorem chanKept_recheck (j n : Nat) (c : Chip) : ChanKept (lsw j c) (lsw j (recheck n c)) := by
  rcases recheck_cases n c with ⟨-, e⟩ | ⟨-, e⟩ <;> rw [e]
  · exact .refl _
  · exact chanKept_gateOff j n c

/-- R331, R336: what settling leaves of a channel. -/
theorem chanKept_settle (j : Nat) (c : Chip) : ChanKept (lsw j c) (lsw j (settle c)) :=
  (chanKept_foldl (fun c n => chanKept_recheck j n c) _ c).trans (chanKept_lswAll j _)

/-- R347: after settling a channel that is frozen off is off. -/
theorem out_settle_of_frozen_off {k : Nat} (hk : k < 48) {c : Chip} (h : (lsw k c).hold = some false) :
    (lsw k (settle c)).out = false := by
  have hhold : (lsw k (settle c)).hold = some false := (chanKept_settle k c).hold.trans h
  obtain ⟨-, houts, -⟩ := settled_settle c
  rw [houts k hk, lswWanted, hhold]
  rfl

/-! ### Changes that keep a settled device settled -/

theorem lswPut_lswPut (k : Nat) (x y : LswChan) (c : Chip) : lswPut k y (lswPut k x c) = lswPut k y c := by
  simp [lswPut, Vector.setIfInBounds_setIfInBounds]

theorem touches_lswPut (k : Nat) (x : LswChan) (c : Chip) : Touches k c (lswPut k x c) := .inr ⟨c.regs, x, rfl⟩

theorem touches_lswShow_lswPut (k : Nat) (x : LswChan) (c : Chip) : Touches k c (lswShow k (lswPut k x c)) := by
  obtain ⟨m, e⟩ := lswShow_eq k (lswPut k x c)
  exact .inr ⟨m, x, e⟩

theorem settled_lswShow {c : Chip} (h : Settled c) (k : Nat) : Settled (lswShow k c) := by
  obtain ⟨m, e⟩ := lswShow_eq k c
  rw [e]
  exact settled_congr h rfl rfl rfl rfl rfl rfl

/-- A channel may change in a settled device so long as its output and what that is to be stay, and its test has seen its
input. -/
theorem settled_lswPut {k : Nat} {x : LswChan} {c : Chip} (hk : k < 48) (h : Settled c) (hout : x.out = (lsw k c).out)
    (hwanted : lswWanted x c = lswWanted (lsw k c) c) (htest : x.test = 0 ∨ lswInput x c = x.testIn) :
    Settled (lswPut k x c) := by
  obtain ⟨hgates, hfollow⟩ := h
  have hchans := (chans_iff c).mp hfollow
  refine ⟨hgates, (chans_iff _).mpr fun j hj => ?_⟩
  by_cases hjk : j = k
  · subst hjk
    obtain ⟨hfollows, -⟩ := hchans j hj
    have hput := lsw_lswPut_same hk x c
    refine ⟨?_, by rw [hput]; exact htest⟩
    rw [lswOn, hput, (touches_lswPut j x c).wanted, hout, hwanted]
    exact hfollows
  · exact ((touches_lswPut k x c).ok hjk).mpr (hchans j hj)

/-- R344, R347: what the output of a waiting channel is to be depends on its freezing alone. -/
theorem lswWanted_of_wait {x y : LswChan} (c : Chip) (hhold : x.hold = y.hold) (hx : x.wait = true) (hy : y.wait = true) :
    lswWanted x c = lswWanted y c := by
  rw [lswWanted, lswWanted, hhold]
  cases y.hold with
  | none => simp [hx, hy]
  | some b => rfl

end Sys2Proof.Machine
end

section
/-!
Class writes, the off-state test, retries, LSW_CLR and HOLD channels (chapter 12, R49, R338, R343-R345).
-/

namespace Sys2Proof.Machine
open Sys2Proof Sys2Proof.Safety

/-! ### The answer to a writer -/

/-- The device with the answer to its last command. -/
def answered (e : Status) (c : Chip) : Chip := { c with reply := e }

theorem lsw_answered (k : Nat) (e : Status) (c : Chip) : lsw k (answered e c) = lsw k c := rfl

theorem getF_answered (f : Fld) (i : Nat) (e : Status) (c : Chip) : getF f i (answered e c) = getF f i c := by
  simp only [getF]
  cases f.home <;> rfl

theorem settled_answered {c : Chip} (h : Settled c) (e : Status) : Settled (answered e c) :=
  settled_congr h rfl rfl rfl rfl rfl rfl

theorem asWriter_of_ok {who : Writer} {f : Chip → Chip × Status} {c d : Chip} {e : Status}
    (hw : writerStatus who c = .ok) (h : f c = (d, e)) : asWriter who f c = answered e d := by
  rw [asWriter, hw, h]
  rfl

/-- A command that its check refuses leaves a settled device with the answer alone. -/
theorem run_asWriter_refused {who : Writer} {s : State} {f : Chip → Chip × Status} {e : Status}
    (hw : writerStatus who s.toChip = .ok) (hs : Settled s.toChip) (h : f s.toChip = (s.toChip, e)) :
    s.run (asWriter who f) = .next { s with reply := e } := by
  have hrow : asWriter who f s.toChip = answered e s.toChip := asWriter_of_ok hw h
  have hset : Settled (asWriter who f s.toChip) := hrow ▸ settled_answered hs e
  rw [run_settled hset, hrow]
  rfl

/-- An accepted command answers OK, and the power die settles what it left. -/
theorem run_asWriter_accepted {who : Writer} {s : State} {f : Chip → Chip × Status} {d : Chip}
    (hw : writerStatus who s.toChip = .ok) (h : f s.toChip = (d, .ok)) :
    ∃ t, s.run (asWriter who f) = .next t ∧ t.reply = .ok ∧ t.toChip = settle (answered .ok d) := by
  have hrow : asWriter who f s.toChip = answered .ok d := asWriter_of_ok hw h
  exact ⟨_, run_next _ s, by dsimp only; rw [settle_reply, hrow]; rfl, by dsimp only; rw [hrow]⟩

/-! ### Class writes, R338 -/

/-- R338: the class register and the channel take a class within the trump card's bound. -/
def classSet (k v : Nat) (c : Chip) : Chip :=
  lswShow k (lswPut k { lsw k c with cmd := v, cls := min (lsw k c).cls v } (setF Reg.LSW_CTL_CLASS k v c))

/-- The sender may write class `v`: the deck's bound holds for sessions (R338). -/
def ClassAllowed (who : Writer) (k v : Nat) (c : Chip) : Prop :=
  who = .firmware ∨ v ≤ getF Reg.LSW_CTL_DECKCLASS k c

theorem classWrite_of_allowed {who : Writer} {k v : Nat} {c : Chip} (h : ClassAllowed who k v c) : classWrite who k v c =
    (classSet k (min v (getF Reg.LSW_CTL_MAXCLASS k c))
      (if getF Reg.LSW_CTL_MAXCLASS k c < v then trumpEvent 3 c else c), .ok) := by
  cases who with
  | firmware => rfl
  | session n =>
    have hv : ¬ getF Reg.LSW_CTL_DECKCLASS k c < v := Nat.not_lt.mpr (h.resolve_left fun e => nomatch e)
    simp only [classWrite, hv, decide_false, Bool.false_eq_true, if_false]
    rfl

theorem classWrite_of_refused {n : Fin 6} {k v : Nat} {c : Chip} (h : getF Reg.LSW_CTL_DECKCLASS k c < v) :
    classWrite (.session n) k v c = (c, .range) := by
  simp [classWrite, h]

theorem hslWrite_of_refused {f : Chip → Chip × Status} {c : Chip} {e : Status} (h : f c = (c, e)) (he : e ≠ .ok) :
    hslWrite f c = (c, e) := by
  simp [hslWrite, h, he]

/-- The class registers are none of those that settling and LSW_ST show. -/
theorem shownKey_class (k : Nat) : shownKey (fkey Reg.LSW_CTL_CLASS k) = false := by
  have hw : fkey Reg.LSW_CTL_CLASS k / 32 = 0x161008 + 32 * k := by simp only [fkey, Reg.LSW_CTL_CLASS]; omega
  simp only [shownKey, hw, Bool.or_eq_false_iff, Bool.and_eq_false_iff, decide_eq_false_iff_not, beq_eq_false_iff_ne]
  omega

theorem getF_class_classSet {k v : Nat} (hk : k < 48) (hv : v < 8) (c : Chip) :
    getF Reg.LSW_CTL_CLASS k (classSet k v c) = v := by
  have hshow := alike_lswShow hk (lswPut k { lsw k c with cmd := v, cls := min (lsw k c).cls v }
    (setF Reg.LSW_CTL_CLASS k v c)) _ (shownKey_class k)
  calc getF Reg.LSW_CTL_CLASS k (classSet k v c)
      = getF Reg.LSW_CTL_CLASS k (setF Reg.LSW_CTL_CLASS k v c) := congrArg (· ^^^ Reg.LSW_CTL_CLASS.rst) hshow
    _ = v := (getF_setF_same _ _ _ _).trans (Nat.mod_eq_of_lt hv)

theorem classSet_bregs (k v : Nat) (c : Chip) : (classSet k v c).bregs = c.bregs := by
  obtain ⟨m, e⟩ := lswShow_eq k (lswPut k { lsw k c with cmd := v, cls := min (lsw k c).cls v }
    (setF Reg.LSW_CTL_CLASS k v c))
  rw [classSet, e]
  exact setF_bregs (by decide) _ _ _

/-- R28, R31: a command outside a trump limit counts once, saturating. -/
theorem getF_count_trumpEvent (k : Nat) (c : Chip) : getF Reg.DEV_TRUMP_CNT_COUNT k (trumpEvent k c) =
    min (getF Reg.DEV_TRUMP_CNT_COUNT k c + 1) 0xFFFFFFFF := by
  rw [trumpEvent, getF_addSat_same _ _ _ (by decide), setBitF, getF_of_bregs rfl (setF_bregs (by decide) _ _ _)]

/-- R17: with the bridge up and no TRIP flit waiting, a flit of a lower class leaves the registers as it found them. -/
theorem getF_afterTrips {c : Chip} (hup : c.bridgeUp = true) (htrips : c.bridge.trips = []) (f : Fld) (i : Nat) :
    getF f i (afterTrips c) = getF f i c := by
  rw [afterTrips, if_pos hup, tripDrain, htrips]
  simp only [getF]
  cases f.home <;> rfl

/-- R338: an allowed class write takes the class, clamped to the trump card's, and counts a clamp. -/
theorem exec_lswClassWrite_allowed {s : State} {who : Writer} {k : Fin 48} {v : BitVec 3}
    (hw : writerStatus who s.toChip = .ok) (hallowed : ClassAllowed who k.val v.toNat s.toChip)
    (hup : s.bridgeUp = true) (htrips : s.bridge.trips = []) :
    ∃ t, exec (.lswClassWrite who k v) s = .next t ∧ t.reply = .ok ∧
      getF Reg.LSW_CTL_CLASS k.val t.toChip = min v.toNat (getF Reg.LSW_CTL_MAXCLASS k.val s.toChip) ∧
      getF Reg.DEV_TRUMP_CNT_COUNT 3 t.toChip =
        (if getF Reg.LSW_CTL_MAXCLASS k.val s.toChip < v.toNat
          then min (getF Reg.DEV_TRUMP_CNT_COUNT 3 s.toChip + 1) 0xFFFFFFFF else getF Reg.DEV_TRUMP_CNT_COUNT 3 s.toChip) := by
  have hget := getF_afterTrips hup htrips
  have hcmd : classCommand who k.val v.toNat s.toChip = classWrite who k.val v.toNat (afterTrips s.toChip) := by
    rw [classCommand, hslWrite, classWrite_of_allowed hallowed, hup]
    rfl
  have hafter : ClassAllowed who k.val v.toNat (afterTrips s.toChip) := by rw [ClassAllowed, hget]; exact hallowed
  rw [classWrite_of_allowed hafter, hget] at hcmd
  obtain ⟨t, hstep, hreply, ht⟩ := run_asWriter_accepted hw hcmd
  have hmin : min v.toNat (getF Reg.LSW_CTL_MAXCLASS k.val s.toChip) < 8 := lt_of_le_of_lt (Nat.min_le_left _ _) v.isLt
  refine ⟨t, hstep, hreply, ?_, ?_⟩ <;> rw [ht]
  · rw [getF_settle (shownKey_class _), getF_answered, getF_class_classSet k.isLt hmin]
  · rw [getF_of_bregs rfl (settle_bregs _), getF_answered, getF_of_bregs rfl (classSet_bregs _ _ _)]
    split
    · rw [getF_count_trumpEvent, hget]
    · exact hget _ _

/-- R338: a session's class above the deck's is refused. -/
theorem exec_lswClassWrite_refused {s : State} {who : Writer} {k : Fin 48} {v : BitVec 3}
    (hw : writerStatus who s.toChip = .ok) (hs : Settled s.toChip) (hwho : ∃ n, who = .session n)
    (hv : getF Reg.LSW_CTL_DECKCLASS k.val s.toChip < v.toNat) :
    exec (.lswClassWrite who k v) s = .next { s with reply := .range } := by
  obtain ⟨n, rfl⟩ := hwho
  exact run_asWriter_refused hw hs (hslWrite_of_refused (classWrite_of_refused hv) (by decide))

/-! ### The off-state test, R343 -/

/-- R343: a test run covers the channel. -/
def testDue (x : LswChan) (c : Chip) : Bool :=
  x.cfg.isSome && x.offTest && !x.out && !x.latch && x.test == 0 && (x.wait || !lswInput x c)

/-- A channel begins a test, 1 in a test run and 2 before a retry, and notes its time and its input. -/
def testBegun (n : Nat) (x : LswChan) (c : Chip) : LswChan :=
  { x with test := n, testAt := c.backup.ms, testIn := lswInput x c }

/-- R343: a test run at one channel. -/
def testStep (c : Chip) (k : Nat) : Chip :=
  if testDue (lsw k c) c then lswShow k (lswPut k (testBegun 1 (lsw k c) c) c) else c

theorem testRun_eq (c : Chip) : testRun c = (List.range 48).foldl testStep c := rfl

theorem lswInput_testBegun (n : Nat) (x : LswChan) (c : Chip) : lswInput (testBegun n x c) c = (testBegun n x c).testIn :=
  lswInput_cfg rfl c

theorem lswWanted_testBegun (n : Nat) (x : LswChan) (c : Chip) : lswWanted (testBegun n x c) c = lswWanted x c := by
  simp only [lswWanted, lswInput_testBegun]
  rfl

theorem touches_testStep (c : Chip) (k : Nat) : Touches k c (testStep c k) := by
  unfold testStep
  split
  · exact touches_lswShow_lswPut k _ c
  · exact .inl rfl

theorem settled_testStep {k : Nat} (hk : k < 48) {c : Chip} (h : Settled c) : Settled (testStep c k) := by
  unfold testStep
  split
  · exact settled_lswShow (settled_lswPut (x := testBegun 1 (lsw k c) c) hk h rfl (lswWanted_testBegun 1 _ c)
      (.inr (lswInput_testBegun 1 _ c))) k
  · exact h

/-- What each step of a fold over the channels keeps, the fold keeps. -/
theorem foldl_channels {P : Chip → Prop} {f : Chip → Nat → Chip} (h : ∀ c k, k < 48 → P c → P (f c k)) {c : Chip} (hc : P c) :
    P ((List.range 48).foldl f c) :=
  List.foldlRecOn _ f hc fun c hc k hk => h c k (List.mem_range.mp hk) hc

theorem settled_testRun {c : Chip} (h : Settled c) : Settled (testRun c) :=
  testRun_eq c ▸ foldl_channels (fun _ _ hk => settled_testStep hk) h

/-- LSW_TEST.RUNNING is 1 where channel `k` is in test. -/
def RunningShown (k : Nat) (c : Chip) : Prop :=
  c.lsw.granted = true ∧ ((lsw k c).test ≠ 0 → getF Reg.LSW_TEST_RUNNING 0 c = 1)

theorem runningShown_lswShow {k : Nat} (hk : k < 48) (j : Nat) {c : Chip} (h : c.lsw.granted = true) :
    RunningShown k (lswShow j c) := by
  obtain ⟨m, e⟩ := lswShow_eq j c
  refine ⟨by rw [e]; exact h, fun ht => ?_⟩
  rw [lsw_lswShow] at ht
  have hany : ((List.range 48).any fun j => (lsw j c).test != 0) = true :=
    List.any_eq_true.mpr ⟨k, List.mem_range.mpr hk, bne_iff_ne.mpr ht⟩
  simp only [lswShow, h, Bool.not_true, Bool.false_eq_true, if_false, getF_setF_same, lsw_congr (setF_lsw _ _ _ _), hany]
  rfl

theorem runningShown_testStep {k : Nat} (hk : k < 48) {c : Chip} (h : RunningShown k c) (j : Nat) :
    RunningShown k (testStep c j) := by
  unfold testStep
  split
  · exact runningShown_lswShow hk j h.1
  · exact h

/-- What a test run reads of channel `k`. -/
def testView (k : Nat) (c : Chip) : LswChan × Bool × Nat := (lsw k c, lswInput (lsw k c) c, c.backup.ms)

theorem testView_of_touches {j k : Nat} {c d : Chip} (h : Touches j c d) (hjk : j ≠ k) : testView k d = testView k c := by
  obtain ⟨m, v, e⟩ := h.frame
  have hms : d.backup.ms = c.backup.ms := by rw [e]
  rw [testView, testView, h.other hjk.symm, h.input, hms]

/-- R343: a test run begins the test of a channel that it covers, and shows that tests run. -/
theorem testRun_of_due {k : Nat} (hk : k < 48) {c : Chip} (hgranted : c.lsw.granted = true) (h : testDue (lsw k c) c = true) :
    lsw k (testRun c) = testBegun 1 (lsw k c) c ∧ getF Reg.LSW_TEST_RUNNING 0 (testRun c) = 1 := by
  have hnot : (lsw k c).test = 0 := by
    simp only [testDue, Bool.and_eq_true, beq_iff_eq] at h
    obtain ⟨⟨-, htest⟩, -⟩ := h
    exact htest
  have hbegun : lsw k (testRun c) = testBegun 1 (lsw k c) c := by
    obtain ⟨d, hbefore, hend⟩ := foldl_at (testView k) testStep k
      (fun c j hj => testView_of_touches (touches_testStep c j) hj) (List.range 48) List.nodup_range (List.mem_range.mpr hk) c
    simp only [testView, Prod.mk.injEq] at hbefore hend
    obtain ⟨hlsw, hin, hms⟩ := hbefore
    obtain ⟨hvisit, -⟩ := hend
    rw [hlsw] at hin
    have hdue : testDue (lsw k d) d = true := by rw [hlsw, testDue, hin]; exact h
    rw [testRun_eq, hvisit, testStep, if_pos hdue, lsw_lswShow, lsw_lswPut_same hk, testBegun, testBegun, hlsw, hin, hms]
  obtain ⟨-, hshown⟩ : RunningShown k (testRun c) := by
    rw [testRun_eq]
    exact foldl_channels (P := RunningShown k) (fun _ j _ h => runningShown_testStep hk h j)
      ⟨hgranted, fun ht => absurd hnot ht⟩
  exact ⟨hbegun, hshown (by rw [hbegun]; exact Nat.one_ne_zero)⟩

/-- R343: LSW_TEST with no test running is accepted and tests what it covers. -/
theorem exec_lswTest_run {s : State} {who : Writer} {k : Fin 48} (hw : writerStatus who s.toChip = .ok)
    (hgranted : s.lsw.granted = true) (hs : Settled s.toChip) (hidle : getF Reg.LSW_TEST_RUNNING 0 s.toChip = 0) :
    ∃ t, exec (.lswTest who true) s = .next t ∧ t.reply = .ok ∧ (testDue (lsw k.val s.toChip) s.toChip = true →
      (lsw k.val t.toChip).test = 1 ∧ (lsw k.val t.toChip).testAt = s.backup.ms ∧
        getF Reg.LSW_TEST_RUNNING 0 t.toChip = 1) := by
  have hrow : lswTestWrite true s.toChip = (testRun s.toChip, .ok) := by simp [lswTestWrite, hidle]
  obtain ⟨t, hstep, hreply, ht⟩ := run_asWriter_accepted hw hrow
  rw [settle_of_settled (settled_answered (settled_testRun hs) _)] at ht
  refine ⟨t, hstep, hreply, fun hdue => ?_⟩
  obtain ⟨hbegun, hrunning⟩ := testRun_of_due k.isLt hgranted hdue
  rw [ht, lsw_answered, getF_answered, hbegun]
  exact ⟨rfl, rfl, hrunning⟩

/-- R343: LSW_TEST while a test runs is refused. -/
theorem exec_lswTest_busy {s : State} {who : Writer} (hw : writerStatus who s.toChip = .ok) (hs : Settled s.toChip)
    (hrunning : getF Reg.LSW_TEST_RUNNING 0 s.toChip = 1) : exec (.lswTest who true) s = .next { s with reply := .busy } :=
  run_asWriter_refused hw hs (by simp [lswTestWrite, hrunning])

/-- A channel whose test has ended: the wait before a retry ends with it. -/
def testEnded (x : LswChan) : LswChan := { x with test := 0, wait := x.wait && x.test == 1 }

theorem lsw_lswLatch {k : Nat} (hk : k < 48) (c : Chip) :
    lsw k (lswLatch k c) = { lsw k c with latch := true, wait := false, test := 0 } := by
  rw [lswLatch, lsw_congr (addSat_lsw _ _ _ _ _), lsw_lswPut_same hk]

/-- R343: the flags that a test's voltages set: bit 4 of LSW_ST, OPEN_OFF, and bit 5, SHORT_VBB at 3.0 V. -/
def testFlags (k pull free vbb : Nat) (c : Chip) : Chip :=
  let c := if 6 * vbb ≤ 10 * pull then flagBit (lswStBit 4) k 0 Reg.LSW_ST_EVT_CNT k c else c
  if 3000 ≤ free then flagBit (lswStBit 5) k 0 Reg.LSW_ST_EVT_CNT k c else c

/-- R343, R344: the channel at the end of a test; showing it and TEST_DONE change no part of it. -/
theorem lsw_offTestDone_eq {k pull free vbb : Nat} {c : Chip}
    (hgo : ¬((lsw k c).test = 0 ∨ c.backup.ms < (lsw k c).testAt + 2)) :
    lsw k (offTestDone k pull free vbb c) = lsw k (
      if 3000 ≤ free ∧ (lsw k c).test = 2 then lswLatch k (lswPut k (testEnded (lsw k c)) (testFlags k pull free vbb c))
      else lswEval k (lswPut k (testEnded (lsw k c)) (testFlags k pull free vbb c))) := by
  unfold offTestDone
  dsimp only
  rw [if_neg hgo, apply_ite (lsw k), flagF, lsw_congr (flagBit_lsw _ _ _ _ _ _), ite_self, lsw_lswShow]
  simp only [Bool.and_eq_true, decide_eq_true_eq, beq_iff_eq]
  rfl

/-- R343, R344: a test that ends leaves its channel out of test; before a retry SHORT_VBB latches it. -/
theorem lsw_offTestDone {k : Nat} (hk : k < 48) (pull free vbb : Nat) {c : Chip} (htest : (lsw k c).test ≠ 0)
    (hdone : (lsw k c).testAt + 2 ≤ c.backup.ms) :
    (lsw k (offTestDone k pull free vbb c)).test = 0 ∧ (lsw k (offTestDone k pull free vbb c)).latch =
      ((lsw k c).latch || (decide ((lsw k c).test = 2) && decide (3000 ≤ free))) := by
  have hgo : ¬((lsw k c).test = 0 ∨ c.backup.ms < (lsw k c).testAt + 2) := by omega
  rw [lsw_offTestDone_eq hgo]
  generalize testFlags k pull free vbb c = d
  have hput : lsw k (lswPut k (testEnded (lsw k c)) d) = testEnded (lsw k c) := lsw_lswPut_same hk _ d
  split
  · next h =>
    rw [lsw_lswLatch hk, hput]
    simp [h]
  · next h =>
    have hkept := chanKept_lswEval k k (lswPut k (testEnded (lsw k c)) d)
    rw [hput] at hkept
    have hnoShort : (decide ((lsw k c).test = 2) && decide (3000 ≤ free)) = false := by
      rw [Bool.and_comm, ← Bool.decide_and, decide_eq_false h]
    exact ⟨hkept.test rfl, hkept.latch.trans (by rw [hnoShort, Bool.or_false]; rfl)⟩

/-! ### Retries and the budget, R344 -/

/-- A channel with the temperatures that its retry measures. -/
def measuredAs (tj caseT : Int) (x : LswChan) : LswChan := { x with tj := tj, caseT := caseT }

/-- R344: a retry that is due tests the channel first, or ends its wait. -/
theorem lswRetry_of_due {k : Nat} {tj caseT : Int} {c : Chip} (hwait : (lsw k c).wait = true) (htest : (lsw k c).test = 0)
    (hdue : (lsw k c).tripAt + (lsw k c).waitMs ≤ c.backup.ms) (hcool : lswCool (measuredAs tj caseT (lsw k c)) = true) :
    lswRetry k tj caseT c =
      if (lsw k c).offTest = true then lswShow k (lswPut k (testBegun 2 (measuredAs tj caseT (lsw k c)) c) c)
      else lswShow k (lswEval k (lswPut k { measuredAs tj caseT (lsw k c) with wait := false } c)) := by
  have hgo : (!(lsw k c).wait || (lsw k c).test == 2 || decide (c.backup.ms < (lsw k c).tripAt + (lsw k c).waitMs) ||
      !lswCool (measuredAs tj caseT (lsw k c))) = false := by
    simp [hwait, htest, hcool, hdue]
  simp only [lswRetry, lswPut_lswPut]
  exact if_neg (Bool.eq_false_iff.mp hgo)

/-- R344: a retry that is due begins the test before it, or ends the wait. -/
theorem exec_lswRetry_due {s : State} {k : Fin 48} {tj caseT : Int} (hs : Settled s.toChip)
    (hwait : (lsw k.val s.toChip).wait = true) (htest : (lsw k.val s.toChip).test = 0)
    (hdue : (lsw k.val s.toChip).tripAt + (lsw k.val s.toChip).waitMs ≤ s.backup.ms)
    (hcool : lswCool (measuredAs tj caseT (lsw k.val s.toChip)) = true) :
    ∃ t, exec (.lswRetry k tj caseT) s = .next t ∧
      (if (lsw k.val s.toChip).offTest = true then (lsw k.val t.toChip).test = 2 ∧ (lsw k.val t.toChip).wait = true ∧
          (lsw k.val t.toChip).testAt = s.backup.ms
        else (lsw k.val t.toChip).wait = false) := by
  have hrow := lswRetry_of_due hwait htest hdue hcool
  refine ⟨_, run_next (lswRetry k.val tj caseT) s, ?_⟩
  dsimp only
  rw [hrow]
  split
  · have hset : Settled (lswPut k.val (testBegun 2 (measuredAs tj caseT (lsw k.val s.toChip)) s.toChip) s.toChip) := by
      refine settled_lswPut k.isLt hs rfl ?_ (.inr (lswInput_testBegun 2 _ _))
      exact lswWanted_of_wait _ rfl hwait hwait
    rw [settle_of_settled (settled_lswShow hset _), lsw_lswShow, lsw_lswPut_same k.isLt]
    exact ⟨rfl, hwait, rfl⟩
  · refine (chanKept_settle k.val _).wait ?_
    rw [lsw_lswShow]
    refine (chanKept_lswEval k.val k.val _).wait ?_
    rw [lsw_lswPut_same k.isLt]

/-- R344: a channel on for tBUDGET gets its budget back. -/
theorem exec_retryBudgetRestore {s : State} {k : Fin 48} (hout : (lsw k.val s.toChip).out = true)
    (hon : (lsw k.val s.toChip).onAt + 10000 ≤ s.backup.ms) :
    ∃ t, exec (.retryBudgetRestore k) s = .next t ∧ (lsw k.val t.toChip).retry = (lsw k.val s.toChip).budget := by
  have hrow : budgetRestore k.val s.toChip =
      lswShow k.val (lswPut k.val { lsw k.val s.toChip with retry := (lsw k.val s.toChip).budget } s.toChip) := by
    simp [budgetRestore, hout, hon]
  refine ⟨_, run_next (budgetRestore k.val) s, ?_⟩
  dsimp only
  rw [(chanKept_settle k.val _).retry, hrow, lsw_lswShow, lsw_lswPut_same k.isLt]

/-! ### LSW_CLR, R345 -/

/-- R345: a clear that passes its checks takes the latch away and gives the budget back. -/
theorem lswClear_accepted {k : Nat} {c : Chip} (hk : k < 48) (hcfg : (lsw k c).cfg.isSome = true)
    (hcool : lswCool (lsw k c) = true) (hfunc : (lsw k c).func ≠ 1 ∨ lswInput (lsw k c) c = false) :
    lswClear k true false c = (lswShow k (lswEval k (lswPut k
      { lsw k c with latch := false, retry := (lsw k c).budget } c)), .ok) := by
  have hnone : (lsw k c).cfg.isNone = false := by simpa using hcfg
  have hinput : ((lsw k c).func == 1 && lswInput (lsw k c) c) = false := by
    rcases hfunc with h | h <;> simp [h]
  simp [lswClear, Nat.not_le.mpr hk, hnone, hcool, hinput]

theorem exec_lswClr_accepted {s : State} {who : Writer} {k : Fin 48} (hw : writerStatus who s.toChip = .ok)
    (hcfg : (lsw k.val s.toChip).cfg.isSome = true) (hcool : lswCool (lsw k.val s.toChip) = true)
    (hfunc : (lsw k.val s.toChip).func ≠ 1 ∨ lswInput (lsw k.val s.toChip) s.toChip = false) :
    ∃ t, exec (.lswClr who k.val true false) s = .next t ∧ t.reply = .ok ∧ (lsw k.val t.toChip).latch = false ∧
      (lsw k.val t.toChip).retry = (lsw k.val s.toChip).budget := by
  obtain ⟨t, hstep, hreply, ht⟩ := run_asWriter_accepted hw (lswClear_accepted k.isLt hcfg hcool hfunc)
  have heval := chanKept_lswEval k.val k.val (lswPut k.val
    { lsw k.val s.toChip with latch := false, retry := (lsw k.val s.toChip).budget } s.toChip)
  rw [lsw_lswPut_same k.isLt] at heval
  refine ⟨t, hstep, hreply, ?_, ?_⟩ <;> rw [ht]
  · rw [(chanKept_settle k.val _).latch, lsw_answered, lsw_lswShow, heval.latch]
  · rw [(chanKept_settle k.val _).retry, lsw_answered, lsw_lswShow, heval.retry]

/-- R345: LSW_CLR of a number above the channels is refused. -/
theorem exec_lswClr_range {s : State} {who : Writer} {n : Nat} (hw : writerStatus who s.toChip = .ok)
    (hs : Settled s.toChip) (hn : 48 ≤ n) : exec (.lswClr who n true false) s = .next { s with reply := .range } :=
  run_asWriter_refused hw hs (by simp [lswClear, hn])

/-! ### HOLD channels, R49 -/

/-- R49: a HOLD channel frozen on goes off at the end of its time. -/
theorem exec_holdTimeout_expired {u : State} {k : Fin 48} (hhold : (lsw k.val u.toChip).hold = some true)
    (hat : (lsw k.val u.toChip).holdAt + 1950 ≤ u.backup.ms) :
    ∃ t, exec (.holdTimeout k) u = .next t ∧ (lsw k.val t.toChip).out = false ∧ (lsw k.val t.toChip).hold = some false ∧
      t.backup = u.backup ∧ t.store = u.store := by
  have hrow : holdTimeout k.val u.toChip =
      lswPut k.val { lsw k.val u.toChip with hold := some false, out := false, window := false } u.toChip := by
    simp [holdTimeout, hhold, hat]
  have hoff : (lsw k.val (holdTimeout k.val u.toChip)).hold = some false := by rw [hrow, lsw_lswPut_same k.isLt]
  refine ⟨_, run_next (holdTimeout k.val) u, ?_, ?_, ?_, ?_⟩ <;> dsimp only
  · exact out_settle_of_frozen_off k.isLt hoff
  · rw [(chanKept_settle k.val _).hold, hoff]
  · rw [settle_backup, hrow, lswPut_backup]
  · rw [settle_store, hrow, lswPut_store]

/-! ### The obligation -/

/-- Settles O40: each row's effect on its channel, and what settling keeps of a channel: its latch, retries and freezing, and a
test or a wait that has ended. A test that begins leaves a settled device settled, so that it stands. -/
theorem channelTestsRetriesAndClears : Obligations.ChannelTestsRetriesAndClears := by
  intro s who k hw hgranted
  refine ⟨fun v hallowed hup htrips => exec_lswClassWrite_allowed hw hallowed hup htrips,
    fun v hwho hv hs => exec_lswClassWrite_refused hw hs hwho hv, fun hs hidle => ?_,
    fun hrunning hs => exec_lswTest_busy hw hs hrunning, fun pull free vbb htest hdone => ?_,
    fun tj caseT hs hwait htest hdue hcool => exec_lswRetry_due hs hwait htest hdue hcool,
    fun hout hon => exec_retryBudgetRestore hout hon, fun hcfg hcool hfunc => exec_lswClr_accepted hw hcfg hcool hfunc,
    fun n hn hs => exec_lswClr_range hw hs hn, fun u hhold hat => exec_holdTimeout_expired hhold hat⟩
  · obtain ⟨t, hstep, hreply, htested⟩ := exec_lswTest_run (k := k) hw hgranted hs hidle
    refine ⟨t, hstep, hreply, fun hcfg hoff hout hlatch htest hcover => htested ?_⟩
    simp only [testDue, hcfg, hoff, hout, hlatch, htest]
    rcases hcover with h | h <;> simp [h]
  · refine ⟨_, run_next (offTestDone k.val pull free vbb) s, ?_⟩
    obtain ⟨hended, hlatched⟩ := lsw_offTestDone k.isLt pull free vbb htest hdone
    have hkept := chanKept_settle k.val (offTestDone k.val pull free vbb s.toChip)
    dsimp only
    exact ⟨hkept.test hended, hkept.latch.trans hlatched⟩

end Sys2Proof.Machine
end

section
/-!
Frames for the proofs about clocks, supplies and resets (chapter 03): the registers of the device and power blocks, what a settled
power die rests on, and writes of one-bit flags.
-/

namespace Sys2Proof.Machine
open Sys2Proof Sys2Proof.Safety

/-! ### The registers of the device and power blocks -/

/-- The entries of a register map at the addresses of the device and power blocks, which lie below those of every other block. -/
def lowMap (m : List (Nat × Nat)) : Nat → Nat := fun k => if k < 0x20000 * 32 then mapGet m k else 0

/-- What the registers of the device and power blocks hold. -/
def pwrRegs (c : Chip) : (Nat → Nat) × (Nat → Nat) × (Nat → Nat) := (lowMap c.regs, lowMap c.bregs, lowMap c.fregs)

theorem getF_of_pwrRegs {f : Fld} {i : Nat} {c d : Chip} (h : pwrRegs d = pwrRegs c) (hk : fkey f i < 0x20000 * 32) :
    getF f i d = getF f i c := by
  simp only [pwrRegs, Prod.mk.injEq] at h
  obtain ⟨hregs, hbregs, hfregs⟩ := h
  have hr := congrFun hregs (fkey f i)
  have hb := congrFun hbregs (fkey f i)
  have hf := congrFun hfregs (fkey f i)
  simp only [lowMap, if_pos hk] at hr hb hf
  simp only [getF]
  cases f.home
  · exact congrArg (· ^^^ f.rst) hr
  · exact congrArg (· ^^^ f.rst) hb
  · exact congrArg (· ^^^ f.rst) hf

theorem lowMap_mapPut {k : Nat} (h : 0x20000 * 32 ≤ k) (m : List (Nat × Nat)) (v : Nat) : lowMap (mapPut m k v) = lowMap m := by
  funext j
  unfold lowMap
  split
  · exact mapGet_put_ne m k v j (by omega)
  · rfl

theorem fkey_ge (f : Fld) (i : Nat) : f.base * 32 ≤ fkey f i := by
  simp only [fkey, Nat.add_mul]
  omega

/-- A write to another block leaves them. -/
theorem pwrRegs_setF {f : Fld} (h : 0x20000 ≤ f.base) (i v : Nat) (c : Chip) : pwrRegs (setF f i v c) = pwrRegs c := by
  have hk : 0x20000 * 32 ≤ fkey f i := le_trans (Nat.mul_le_mul_right 32 h) (fkey_ge f i)
  unfold setF pwrRegs
  cases f.home <;> simp only [Chip.withMap, Chip.mapOf, lowMap_mapPut hk]

theorem pwrRegs_setBitF {f : Fld} (h : 0x20000 ≤ f.base) (i k : Nat) (b : Bool) (c : Chip) :
    pwrRegs (setBitF f i k b c) = pwrRegs c := pwrRegs_setF h _ _ _

theorem pwrRegs_addSat {f : Fld} (h : 0x20000 ≤ f.base) (i m n : Nat) (c : Chip) :
    pwrRegs (addSat f i m n c) = pwrRegs c := pwrRegs_setF h _ _ _

theorem pwrRegs_flagF {f g : Fld} (hf : 0x20000 ≤ f.base) (hg : 0x20000 ≤ g.base) (i k j : Nat) (c : Chip) :
    pwrRegs (flagF f i k g j c) = pwrRegs c := by
  rw [flagF, flagBit, pwrRegs_addSat hg, pwrRegs_setBitF hf]

theorem pwrRegs_pushEvents (s : Nat) (c : Chip) : pwrRegs (pushEvents s c).1 = pwrRegs c := by
  simp only [pushEvents]
  split <;> rfl

theorem pwrRegs_pushAll (c : Chip) : pwrRegs (pushAll c) = pwrRegs c :=
  foldl_keeps pwrRegs _ (fun c s => by
    dsimp only
    split
    · rw [pwrRegs_flagF (by decide) (by decide), pwrRegs_pushEvents]
    · exact pwrRegs_pushEvents s c) _ c

/-- R466: an event record is kept in the host block. -/
theorem pwrRegs_eventBit (f : Fld) (i k n : Nat) (x : List Nat) (c : Chip) : pwrRegs (eventBit f i k n x c) = pwrRegs c := by
  simp only [eventBit, eventRec, pwrRegs_pushAll, pwrRegs_setF (f := Reg.HST_EVTSEQ_SEQ) (by decide)]
  rfl

theorem pwrRegs_eventF (f : Fld) (i n : Nat) (x : List Nat) (c : Chip) : pwrRegs (eventF f i n x c) = pwrRegs c :=
  pwrRegs_eventBit f i 0 n x c

/-- Settling shows the load switches alone. -/
theorem lowMap_of_alike {c d : Chip} (h : Alike c d) : lowMap d.regs = lowMap c.regs := by
  funext k
  unfold lowMap
  split
  · exact h k (shownKey_of_lt (by omega))
  · rfl

theorem pwrRegs_settle (c : Chip) : pwrRegs (settle c) = pwrRegs c := by
  simp only [pwrRegs, settle_bregs, settle_fregs, lowMap_of_alike (alike_settle c)]

theorem pwrRegs_lswAll (c : Chip) : pwrRegs (lswAll c) = pwrRegs c := by
  simp only [pwrRegs, lswAll_bregs, lswAll_fregs, lowMap_of_alike (alike_lswAll c)]

theorem pwrRegs_gateOff (n : Nat) (c : Chip) : pwrRegs (gateOff n c) = pwrRegs c := by
  obtain ⟨m, v, b, w, e⟩ := gateOff_frame n c
  have hlow := lowMap_of_alike (alike_gateOff n c)
  rw [e] at hlow ⊢
  simp only [pwrRegs, hlow]
  rfl

theorem pwrRegs_withdrawAll (c : Chip) : pwrRegs (withdrawAll c) = pwrRegs c :=
  foldl_keeps pwrRegs _ (fun c n => pwrRegs_gateOff n c) _ c

theorem pwrRegs_recheckAll (c : Chip) : pwrRegs (recheckAll c) = pwrRegs c :=
  foldl_keeps pwrRegs _ (fun c n => by
    rcases recheck_cases n c with e | e <;> rw [e.2]
    exact pwrRegs_gateOff n c) _ c

/-! ### What a settled power die rests on -/

/-- The parts of the device that gates, channels and tests depend on. -/
def dieView (c : Chip) : HslState × LswState × Bool × Bool × BitVec 6 × Vector InsState 16 :=
  (c.hsl, c.lsw, c.pwr.vpd5, c.pwr.vp12, c.pwr.vbbOk, c.prt.ins)

theorem settled_of_dieView {c d : Chip} (hs : Settled c) (h : dieView d = dieView c) : Settled d := by
  simp only [dieView, Prod.mk.injEq] at h
  obtain ⟨hhsl, hlsw, hvpd5, hvp12, hvbb, hins⟩ := h
  exact settled_congr hs hhsl hlsw hvpd5 hvp12 hvbb hins

@[simp] theorem dieView_setF (f : Fld) (i v : Nat) (c : Chip) : dieView (setF f i v c) = dieView c := by simp [dieView]

/-- The step of a row that leaves the power die as it is. -/
theorem run_kept {s : State} {f : Chip → Chip} (hs : Settled s.toChip) (h : dieView (f s.toChip) = dieView s.toChip) :
    s.run f = .next { toChip := f s.toChip, pending := s.pending } := run_settled (settled_of_dieView hs h)

theorem getF_withPwr (f : Fld) (i : Nat) (c : Chip) (p : PwrState) : getF f i { c with pwr := p } = getF f i c := by
  simp only [getF]
  cases f.home <;> rfl

/-! ### One-bit flags -/

/-- A field of one bit is set. -/
theorem setBitF_of_one_bit {f : Fld} (hf : f.width = 1) (i : Nat) (c : Chip) : setBitF f i 0 true c = setF f i 1 c := by
  have hbit : (if (getF f i c).testBit 0 == true then getF f i c else getF f i c ^^^ 2 ^ 0) % 2 ^ f.width = 1 % 2 ^ f.width := by
    rw [hf, Nat.testBit_zero]
    rcases Nat.mod_two_eq_zero_or_one (getF f i c) with h | h
    · simp [h, Nat.xor_mod_two_eq, Nat.add_mod]
    · simp [h]
  simp only [setBitF, setF, hbit]

/-- A flag of one bit is set and its event counted. -/
theorem flagF_of_one_bit {f g : Fld} (hf : f.width = 1) {i j : Nat} (hk : fkey g j ≠ fkey f i) (c : Chip) :
    flagF f i 0 g j c = setF g j (min (getF g j c + 1) 255) (setF f i 1 c) := by
  rw [flagF, flagBit, setBitF_of_one_bit hf, addSat, getF_setF_of_key hk]

/-- R21 and the like: a count of events reads its old value and one, up to 255. -/
theorem getF_count_flagF {f g : Fld} (hg : g.width = 8) {i j : Nat} (k : Nat) (hk : fkey g j ≠ fkey f i) (c : Chip) :
    getF g j (flagF f i k g j c) = min (getF g j c + 1) 255 := by
  rw [flagF, flagBit, getF_addSat_same _ _ _ (by rw [hg]; decide), setBitF, getF_setF_of_key hk]

end Sys2Proof.Machine
end

section
/-!
Supplies (chapter 03, R62, R67, R68): VBAT, and the falls and returns of the supplies.
-/

namespace Sys2Proof.Machine
open Sys2Proof Sys2Proof.Safety

/-- The step of a row that makes a settled device into `d` and leaves its power die as it is. -/
theorem run_row {s : State} {f : Chip → Chip} {d : Chip} (hs : Settled s.toChip) (hrow : f s.toChip = d)
    (h : dieView d = dieView s.toChip) : s.run f = .next { s with toChip := d } := by
  rw [run_kept hs (hrow ▸ h), hrow]

/-! ### VBAT, R68 -/

theorem vbatMeasure_of_up {mv : Nat} {c : Chip} (hmv : mv < 4096) (hup : c.logicUp = true) (hpowered : c.powered = true) :
    vbatMeasure mv c = if mv < 2600 then setF Reg.PWR_BKSTAT_VBAT_LOW 0 1 (setF Reg.PWR_BKSTAT_VBAT_MV 0 mv c)
      else setF Reg.PWR_BKSTAT_VBAT_MV 0 mv c := by
  simp only [vbatMeasure, hup, hpowered, Bool.not_true, Bool.or_self, Bool.false_eq_true, if_false,
    Nat.min_eq_left (Nat.le_of_lt_succ hmv)]

/-- Settles O59: each side of 2,600 mV writes its fields alone, and without the main supply the row does nothing. -/
theorem vbatIsMeasured : Obligations.VbatIsMeasured := by
  intro s mv hs hmv
  refine ⟨fun hup hpowered => ⟨fun hhigh => ?_, fun hlow => ?_⟩, fun hunpowered => ?_⟩
  · exact run_row hs ((vbatMeasure_of_up hmv hup hpowered).trans (if_neg (by omega))) (by simp)
  · exact run_row hs ((vbatMeasure_of_up hmv hup hpowered).trans (if_pos hlow)) (by simp)
  · exact run_row (f := vbatMeasure mv) hs (by simp [vbatMeasure, hunpowered]) rfl

/-! ### The power die without its supply, R51, R62 -/

/-- R62: the hard-wired logic of a die without supply is as at its first power-on. -/
@[simp] theorem powerDieLost_hsl (c : Chip) : (powerDieLost c).hsl = {} := by
  simp only [powerDieLost, setF_hsl, lswLost, safetyReset_hsl]
  rfl

@[simp] theorem powerDieLost_pwr (c : Chip) : (powerDieLost c).pwr = c.pwr := by
  simp [powerDieLost, lswLost, baysPowerLost]

@[simp] theorem powerDieLost_backup (c : Chip) : (powerDieLost c).backup = (resetStamp c).backup := by
  simp [powerDieLost, lswLost, baysPowerLost]

@[simp] theorem powerDieLost_bridge (c : Chip) : (powerDieLost c).bridge = { c.bridge with trips := [] } := by
  simp [powerDieLost, lswLost, baysPowerLost]

/-- R336: no channel of a die without supply is on. -/
theorem out_settle_of_unpowered {d : Chip} (h : d.powered = false) {k : Nat} (hk : k < 48) :
    (lsw k (settle d)).out = false := by
  obtain ⟨-, hfollow, -⟩ := settled_settle d
  have hp : (settle d).powered = false := by rw [← h]; simp [Chip.powered]
  rw [hfollow k hk, hp, Bool.and_false, Bool.false_and]

/-- R29: no gate of a die whose hard-wired logic is as at power-on is on. -/
theorem gate_settle_of_bays {d : Chip} (h : d.hsl.bays = Vector.replicate 16 {}) {n : Nat} (hn : n < 16) :
    (hslBay n (settle d)).gate = false := by
  refine gate_settle_off hn ?_
  simp [hslBay, h, hn]

theorem exec_vpd5Brownout {s : State} (h : s.pwr.vpd5 = true) :
    ∃ t, exec .vpd5Brownout s = .next t ∧ t.pwr.hold = true ∧ t.pwr.phase = .held ∧ t.powered = false ∧
      (∀ k, k < 48 → (lsw k t.toChip).out = false) ∧ (∀ n, n < 16 → (hslBay n t.toChip).gate = false) ∧
      t.hsl.latch = Vector.replicate 17 0 ∧ t.backup.mirror = s.backup.mirror ∧ t.backup.ms = s.backup.ms := by
  have hrow : vpd5Brownout s.toChip =
      let d := powerDieLost (logicReset 3 (hslReset s.toChip))
      { d with pwr := { d.pwr with vpd5 := false, hold := true, holdPassed := true, phase := .held } } := by
    simp [vpd5Brownout, h]
  have hoff : (vpd5Brownout s.toChip).powered = false := by rw [hrow]; rfl
  have hhsl : (vpd5Brownout s.toChip).hsl = {} := by simp only [hrow, powerDieLost_hsl]
  have hbays : (vpd5Brownout s.toChip).hsl.bays = Vector.replicate 16 {} := congrArg HslState.bays hhsl
  refine ⟨_, run_next vpd5Brownout s, ?_⟩
  dsimp only
  refine ⟨?_, ?_, ?_, fun k hk => out_settle_of_unpowered hoff hk, fun n hn => gate_settle_of_bays hbays hn, ?_, ?_, ?_⟩
  · simp [hrow]
  · simp [hrow]
  · simp [Chip.powered, hrow]
  · rw [settle_hsl_latch, hhsl]
  · simp [hrow, resetStamp]
  · simp [hrow]

/-! ### VP12 and VN12, R62 -/

@[simp] theorem mckOff_pwr (c : Chip) : (mckOff c).pwr = c.pwr := foldl_keeps (·.pwr) _ (fun c _ => setF_pwr _ _ _ c) _ c
@[simp] theorem mckOff_hsl (c : Chip) : (mckOff c).hsl = c.hsl := foldl_keeps (·.hsl) _ (fun c _ => setF_hsl _ _ _ c) _ c
@[simp] theorem mckOff_bridge (c : Chip) : (mckOff c).bridge = c.bridge :=
  foldl_keeps (·.bridge) _ (fun c _ => setF_bridge _ _ _ c) _ c
@[simp] theorem mckOff_backup (c : Chip) : (mckOff c).backup = c.backup :=
  foldl_keeps (·.backup) _ (fun c _ => setF_backup _ _ _ c) _ c

/-- R51: no modulator clock runs. -/
theorem getF_mckOff {g : Nat} (hg : g < 6) (c : Chip) : getF Reg.SNS_GRP_MCK_ON g (mckOff c) = 0 := by
  obtain ⟨d, -, hfold⟩ := foldl_at (getF Reg.SNS_GRP_MCK_ON g) (fun c g => setF Reg.SNS_GRP_MCK_ON g 0 c) g
    (fun c m hm => getF_setF_of_key (by simp only [fkey, Reg.SNS_GRP_MCK_ON]; omega) 0 c)
    (List.range 6) List.nodup_range (List.mem_range.mpr hg) c
  exact hfold.trans (getF_setF_same _ _ _ _)

/-- What the logic die keeps of the power state and of meter time when it declares the bridge down. -/
theorem bridgeDownLogic_kept (c : Chip) : (bridgeDownLogic c).pwr = c.pwr ∧ (bridgeDownLogic c).backup = c.backup ∧
    (c.logicUp = true → (bridgeDownLogic c).bridge.downLogic = true) := by
  unfold bridgeDownLogic
  split
  · next h =>
    refine ⟨rfl, rfl, fun hup => ?_⟩
    simpa [hup] using h
  · split <;> simp

theorem vp12Brownout_eq {c : Chip} (h : c.pwr.vp12 = true) : vp12Brownout c =
    { mckOff (powerDieLost (bridgeDownLogic (hslReset c))) with pwr := { c.pwr with vp12 := false } } := by
  obtain ⟨hpwr, -, -⟩ := bridgeDownLogic_kept (hslReset c)
  simp only [vp12Brownout, h, Bool.not_true, Bool.false_eq_true, if_false, mckOff_pwr, powerDieLost_pwr, hpwr, hslReset_pwr]

theorem exec_vp12Brownout {s : State} (h : s.pwr.vp12 = true) :
    ∃ t, exec .vp12Brownout s = .next t ∧ t.powered = false ∧ t.pwr.phase = s.pwr.phase ∧
      (s.logicUp = true → t.bridge.downLogic = true) ∧ t.hsl.trump = none ∧
      (∀ k, k < 48 → (lsw k t.toChip).out = false) ∧ (∀ n, n < 16 → (hslBay n t.toChip).gate = false) ∧
      (∀ g, g < 6 → getF Reg.SNS_GRP_MCK_ON g t.toChip = 0) ∧ t.backup.mirror = s.backup.mirror ∧ t.backup.ms = s.backup.ms := by
  have hrow := vp12Brownout_eq h
  obtain ⟨-, hbackup, hdown⟩ := bridgeDownLogic_kept (hslReset s.toChip)
  have hhsl : (vp12Brownout s.toChip).hsl = {} := by simp only [hrow, mckOff_hsl, powerDieLost_hsl]
  have hbays : (vp12Brownout s.toChip).hsl.bays = Vector.replicate 16 {} := congrArg HslState.bays hhsl
  have hoff : (vp12Brownout s.toChip).powered = false := by simp [hrow, Chip.powered]
  refine ⟨_, run_next vp12Brownout s, ?_⟩
  dsimp only
  refine ⟨?_, ?_, fun hup => ?_, ?_, fun k hk => out_settle_of_unpowered hoff hk, fun n hn => gate_settle_of_bays hbays hn,
    fun g hg => ?_, ?_, ?_⟩
  · simp [Chip.powered, hrow]
  · simp [hrow]
  · simpa [hrow] using hdown (by simpa [Chip.logicUp] using hup)
  · rw [settle_hsl_trump, hhsl]
  · rw [getF_settle (shownKey_of_lt (by simp only [fkey, Reg.SNS_GRP_MCK_ON]; omega)), hrow]
    rw [getF_withPwr, getF_mckOff hg]
  · simp [hrow, hbackup]
  · simp [hrow, hbackup]

/-! ### The banks, R62, R346 -/

theorem testBit_setBitF {f : Fld} {i k : Nat} (hk : k < f.width) (c : Chip) :
    (getF f i (setBitF f i k true c)).testBit k = true := by
  rw [setBitF, getF_setF_same, Nat.testBit_mod_two_pow, decide_eq_true hk, Bool.true_and]
  cases h : (getF f i c).testBit k
  · simp [h, Nat.testBit_xor, Nat.testBit_two_pow_self]
  · simp [h]

/-- R62, R346: the flags of a bank's fall while the logic die runs, the channels evaluated. -/
theorem vbbBrownout_of_up {b : Fin 6} {c : Chip} (h : c.logicUp = true) :
    let v := c.pwr.vbbOk &&& ~~~(BitVec.ofNat 6 (2 ^ b.val))
    vbbBrownout b c = setF Reg.PWR_SUPSTAT_VBB_OK 0 v.toNat (flagF Reg.PWR_SUPSTAT_VBB_DROP 0 b.val Reg.PWR_SUPSTAT_EVT_CNT 0
      (lswAll { c with pwr := { c.pwr with vbbOk := v } })) := by
  have hup : ∀ d : Chip, d.pwr.phase = c.pwr.phase → d.logicUp = true := fun d hd => by simpa [Chip.logicUp, hd] using h
  simp [vbbBrownout, bankLost, hup]

theorem getLsbD_ofNat_two_pow {b : Nat} (hb : b < 6) : (BitVec.ofNat 6 (2 ^ b)).getLsbD b = true := by
  rw [BitVec.getLsbD_ofNat, Nat.testBit_two_pow_self, decide_eq_true hb, Bool.and_self]

/-- R336: the channels of a bank without supply are off. -/
theorem out_settle_of_bank {d : Chip} {k : Nat} (hk : k < 48) (h : d.pwr.vbbOk.getLsbD (k / 8) = false) :
    (lsw k (settle d)).out = false := by
  obtain ⟨-, hfollow, -⟩ := settled_settle d
  rw [hfollow k hk, settle_pwr, h, Bool.and_false]

theorem exec_vbbBrownout {s : State} {b : Fin 6} (h : s.logicUp = true) :
    ∃ t, exec (.vbbBrownout b) s = .next t ∧ t.pwr.vbbOk.getLsbD b.val = false ∧
      (∀ k, k < 48 → k / 8 = b.val → (lsw k t.toChip).out = false) ∧
      (getF Reg.PWR_SUPSTAT_VBB_DROP 0 t.toChip).testBit b.val = true ∧
      getF Reg.PWR_SUPSTAT_EVT_CNT 0 t.toChip = min (getF Reg.PWR_SUPSTAT_EVT_CNT 0 s.toChip + 1) 255 ∧
      getF Reg.PWR_SUPSTAT_VBB_OK 0 t.toChip = t.pwr.vbbOk.toNat ∧ t.backup = s.backup ∧ t.store = s.store := by
  have hrow := vbbBrownout_of_up (b := b) h
  have hpwr : (vbbBrownout b s.toChip).pwr.vbbOk = s.pwr.vbbOk &&& ~~~(BitVec.ofNat 6 (2 ^ b.val)) := by simp [hrow]
  have hbit : (vbbBrownout b s.toChip).pwr.vbbOk.getLsbD b.val = false := by
    rw [hpwr, BitVec.getLsbD_and, BitVec.getLsbD_not, getLsbD_ofNat_two_pow b.isLt]
    simp
  refine ⟨_, run_next (vbbBrownout b) s, ?_⟩
  dsimp only
  refine ⟨by rw [settle_pwr, hbit], fun k hk hb => out_settle_of_bank hk (by rw [hb, hbit]), ?_, ?_, ?_, ?_, ?_⟩
  · rw [getF_settle (by decide), hrow, getF_setF_of_key (by decide), flagF, flagBit, addSat, getF_setF_of_key (by decide)]
    exact testBit_setBitF b.isLt _
  · rw [getF_settle (by decide), hrow, getF_setF_of_key (by decide), getF_count_flagF rfl _ (by decide)]
    rw [getF_of_pwrRegs (pwrRegs_lswAll _) (by decide)]
    rfl
  · rw [getF_settle (by decide), settle_pwr, hpwr, hrow, getF_setF_same]
    exact Nat.mod_eq_of_lt (BitVec.isLt _)
  · simp [hrow]
  · simp [hrow]

theorem exec_vbbRestore {s : State} {b : Fin 6} (h : s.logicUp = true) (hlow : s.pwr.vbbOk.getLsbD b.val = false) :
    ∃ t, exec (.vbbRestore b) s = .next t ∧ t.pwr.vbbOk = s.pwr.vbbOk ||| BitVec.ofNat 6 (2 ^ b.val) ∧
      getF Reg.PWR_SUPSTAT_VBB_OK 0 t.toChip = t.pwr.vbbOk.toNat ∧ OutputsFollow t.toChip ∧ t.backup = s.backup := by
  have hrow : vbbRestore b s.toChip =
      let v := s.pwr.vbbOk ||| BitVec.ofNat 6 (2 ^ b.val)
      lswAll (setF Reg.PWR_SUPSTAT_VBB_OK 0 v.toNat { s.toChip with pwr := { s.pwr with vbbOk := v } }) := by
    simp only [vbbRestore, hlow, Bool.false_eq_true, if_false, bankBack]
    split
    · rfl
    · next hn => exact absurd h hn
  obtain ⟨-, hfollow, -⟩ := settled_settle (vbbRestore b s.toChip)
  refine ⟨_, run_next (vbbRestore b) s, ?_⟩
  dsimp only
  refine ⟨by simp [hrow], ?_, hfollow, by simp [hrow]⟩
  rw [getF_settle (by decide), settle_pwr, hrow, getF_of_pwrRegs (pwrRegs_lswAll _) (by decide), getF_setF_same, lswAll_pwr, setF_pwr]
  exact Nat.mod_eq_of_lt (BitVec.isLt _)

/-! ### VSTO, R62, R365 -/

/-- What faults of the axes and their display leave: a view that ignores the registers of the blocks from the Dealer on, the axes with
their faults and brakes, the channels, the gates and what follows a gate. -/
structure SafKeeps {β : Type} (v : Chip → β) : Prop where
  setF : ∀ (f : Fld) i x c, 0x20000 ≤ f.base → v (setF f i x c) = v c
  saf : ∀ (c : Chip) x, v { c with saf := x } = v c
  faults : ∀ (c : Chip) x, v { c with backup := { c.backup with safFaults := x } } = v c
  brake : ∀ (c : Chip) x, v { c with hsl := { c.hsl with brake := x } } = v c
  safe : ∀ (c : Chip) x, v { c with hsl := { c.hsl with safe := x } } = v c
  lswAll : ∀ c, v (lswAll c) = v c
  recheckAll : ∀ c, v (recheckAll c) = v c

namespace SafKeeps
variable {β : Type} {v : Chip → β} (h : SafKeeps v)
include h

theorem stoApply (n : Nat) (c : Chip) : v (stoApply n c) = v c := by
  have hsend : ∀ c, v (axcmdSend n c) = v c := fun c => by
    unfold axcmdSend
    split
    · rfl
    · exact h.saf c _
  rw [Machine.stoApply, hsend, brakeSet, h.lswAll, h.brake, h.setF _ _ _ _ (by decide), axisPut, h.saf]

theorem axisFault (n k : Nat) (c : Chip) : v (axisFault n k c) = v c := by
  unfold Machine.axisFault
  split
  · rfl
  · dsimp only
    rw [h.stoApply]
    split
    · rfl
    · simp (disch := decide) only [addSat, flagF, flagBit, setBitF, h.setF, h.faults]

theorem allFault (k : Nat) (c : Chip) : v (allFault k c) = v c := foldl_keeps v _ (fun c n => h.axisFault n k c) _ c

theorem safShow (c : Chip) : v (safShow c) = v c := by
  unfold Machine.safShow
  dsimp only
  rw [h.recheckAll, h.setF _ _ _ _ (by decide), h.setF _ _ _ _ (by decide), h.setF _ _ _ _ (by decide),
    foldl_keeps v _ fun c n => by simp (disch := decide) only [setBitF, h.setF]]
  exact foldl_keeps v _ (fun c n => by split <;> simp (disch := decide) only [setBitF, h.setF, h.safe]) _ c

theorem vstoLost (c : Chip) : v (vstoLost c) = v c := by
  unfold Machine.vstoLost
  split
  · rw [h.safShow, h.allFault]
  · rfl

end SafKeeps

theorem recheckAll_frame (c : Chip) : ∃ m l b w, recheckAll c = c.withDie m l b w := recheckFold_frame (List.range 16) c

theorem safKeeps_pwr : SafKeeps Chip.pwr where
  setF f i x c _ := setF_pwr f i x c
  saf _ _ := rfl
  faults _ _ := rfl
  brake _ _ := rfl
  safe _ _ := rfl
  lswAll := lswAll_pwr
  recheckAll c := by
    obtain ⟨m, l, b, w, e⟩ := recheckAll_frame c
    rw [e]
    rfl

theorem safKeeps_ms : SafKeeps fun c => c.backup.ms where
  setF f i x c _ := by rw [setF_backup]
  saf _ _ := rfl
  faults _ _ := rfl
  brake _ _ := rfl
  safe _ _ := rfl
  lswAll c := by rw [lswAll_backup]
  recheckAll c := by
    obtain ⟨m, l, b, w, e⟩ := recheckAll_frame c
    rw [e]
    rfl

/-- R62: the flags of a fall of VSTO while the logic die runs, before the axes fault. -/
def vstoFallen (c : Chip) : Chip :=
  setF Reg.PWR_SUPSTAT_VSTO_OK 0 0
    (setF Reg.PWR_SUPSTAT_EVT_CNT 0 (min (getF Reg.PWR_SUPSTAT_EVT_CNT 0 c + 1) 255)
      (setF Reg.PWR_SUPSTAT_VSTO_DROP 0 1 { c with pwr := { c.pwr with vstoOk := false } }))

theorem vstoBrownout_of_up {c : Chip} (h : c.logicUp = true) : vstoBrownout c = vstoLost (vstoFallen c) := by
  simp only [vstoBrownout]
  split
  · rw [flagF_of_one_bit rfl (by decide), getF_withPwr]
    rfl
  · next hn => exact absurd h hn

theorem vstoRestore_of_up {c : Chip} (h : c.logicUp = true) : vstoRestore c =
    setF Reg.PWR_SUPSTAT_VSTO_OK 0 1 { c with pwr := { c.pwr with vstoOk := true } } := by
  simp only [vstoRestore]
  exact if_pos h

/-! ### VCOL, R62, R405 -/

theorem vcolBrownout_of_up {c : Chip} (h : c.logicUp = true) : vcolBrownout c =
    setF Reg.DSP_ESTAT_SCAN 0 0 (setF Reg.PWR_SUPSTAT_VCOL_OK 0 0
      (setF Reg.PWR_SUPSTAT_EVT_CNT 0 (min (getF Reg.PWR_SUPSTAT_EVT_CNT 0 c + 1) 255)
        (setF Reg.PWR_SUPSTAT_VCOL_DROP 0 1 { c with pwr := { c.pwr with vcolOk := false } }))) := by
  have hup : ∀ d : Chip, d.pwr.phase = c.pwr.phase → d.logicUp = true := fun d hd => by simpa [Chip.logicUp, hd] using h
  simp only [vcolBrownout]
  split
  · rw [columnsOff, if_pos (hup _ (by simp)), flagF_of_one_bit rfl (by decide), getF_withPwr]
  · next hn => exact absurd h hn

theorem vcolRestore_of_up {c : Chip} (h : c.logicUp = true) : vcolRestore c =
    setF Reg.PWR_SUPSTAT_VCOL_OK 0 1 { c with pwr := { c.pwr with vcolOk := true } } := by
  simp only [vcolRestore]
  exact if_pos h

/-! ### The obligation -/

/-- Settles O10: a die without supply has no gate and no channel on; a bank's and the other supplies' falls and returns write their
own flags, and the power die settles with what they left. -/
theorem suppliesFallAndReturn : Obligations.SuppliesFallAndReturn := by
  refine ⟨fun s h => exec_vpd5Brownout h, fun s h => exec_vp12Brownout h, fun s b h => exec_vbbBrownout h,
    fun s b h hlow => exec_vbbRestore h hlow, fun s h => ⟨?_, fun hs hoff => ?_, fun hs => ?_, fun hs => ?_, fun hs => ?_⟩,
    fun s hs hhold => ?_⟩
  · refine ⟨_, run_next vstoBrownout s, ?_⟩
    dsimp only
    rw [settle_pwr, settle_backup, vstoBrownout_of_up h, safKeeps_pwr.vstoLost, safKeeps_ms.vstoLost]
    simp [vstoFallen]
  · have hlost : vstoLost (vstoFallen s.toChip) = vstoFallen s.toChip := if_neg (by simp [vstoFallen, hoff])
    exact run_row hs ((vstoBrownout_of_up h).trans hlost) (by simp [dieView])
  · exact run_row hs (vstoRestore_of_up h) (by simp [dieView])
  · exact run_row hs (vcolBrownout_of_up h) (by simp [dieView])
  · exact run_row hs (vcolRestore_of_up h) (by simp [dieView])
  · exact run_row (f := backupPor) hs (if_pos hhold) (by simp [dieView])

end Sys2Proof.Machine
end

section
/-!
Sessions that close, links that idle and transfers that end (chapters 05, 17 and 18), as the rows of chapter 03 use them: what they
leave.
-/

namespace Sys2Proof.Machine
open Sys2Proof Sys2Proof.Safety

/-! ### What they leave -/

/-- The device without its registers, the host's sessions, the links, the Dealer and the memories. -/
def coreView (c : Chip) : Chip := { noRegs c with hst := {}, lnk := {}, dlr := {}, mem := {} }

theorem coreView_setF (f : Fld) (i v : Nat) (c : Chip) : coreView (setF f i v c) = coreView c :=
  congrArg (fun d : Chip => { d with hst := {}, lnk := {}, dlr := {}, mem := {} }) (noRegs_setF f i v c)

theorem coreView_flagF (f : Fld) (i k : Nat) (g : Fld) (j : Nat) (c : Chip) : coreView (flagF f i k g j c) = coreView c := by
  rw [flagF, flagBit, addSat, coreView_setF, setBitF, coreView_setF]

/-- A part that the view holds is alike where the views are. -/
theorem part_of_coreView {β : Type} (g : Chip → β) (hg : ∀ c, g (coreView c) = g c) {c d : Chip}
    (h : coreView d = coreView c) : g d = g c := by rw [← hg d, h, hg]

/-- The power die depends on none of them. -/
theorem dieView_of_coreView {c d : Chip} (h : coreView d = coreView c) : dieView d = dieView c :=
  part_of_coreView dieView (fun _ => rfl) h

/-! ### Sessions -/

theorem sess_sessPut_same {s : Nat} (hs : s < 6) (x : Session) (c : Chip) : sess s (sessPut s x c) = x := by
  simp [sess, sessPut, hs]

theorem sess_sessPut_ne {k s : Nat} (h : k ≠ s) (x : Session) (c : Chip) : sess k (sessPut s x c) = sess k c := by
  simp only [sess, sessPut]
  rw [Vector.getElem?_setIfInBounds_ne h.symm]

theorem sess_congr {c d : Chip} (h : d.hst.sess = c.hst.sess) (k : Nat) : sess k d = sess k c := by simp only [sess, h]

theorem sess_flagF (k : Nat) (f : Fld) (i j : Nat) (g : Fld) (n : Nat) (c : Chip) : sess k (flagF f i j g n c) = sess k c :=
  sess_congr (by rw [flagF_hst]) k

theorem sess_withSeat (k : Nat) (c : Chip) (d : Option Nat) (t : Option (Nat × Nat)) (a : Option Nat) (b : Nat) :
    sess k { c with hst := { c.hst with decl := d, target := t, auct := a, bids := b } } = sess k c := rfl

theorem coreView_withHst (c : Chip) (h : HostState) : coreView { c with hst := h } = coreView c := rfl
theorem pwrRegs_withHst (c : Chip) (h : HostState) : pwrRegs { c with hst := h } = pwrRegs c := rfl

/-- A session put back with its state leaves every session's state. -/
theorem state_sessPut {s : Nat} {x : Session} {c : Chip} (hx : x.state = (sess s c).state) (k : Nat) :
    (sess k (sessPut s x c)).state = (sess k c).state := by
  by_cases h : k = s
  · subst h
    by_cases hs : k < 6
    · rw [sess_sessPut_same hs, hx]
    · simp [sess, sessPut, hs]
  · rw [sess_sessPut_ne h]

theorem state_bulkAbort (k s : Nat) (c : Chip) : (sess k (bulkAbort s c)).state = (sess k c).state := by
  simp only [bulkAbort]
  split
  · rw [sess_flagF]
    refine state_sessPut ?_ k
    rfl
  · rfl

theorem coreView_bulkAbort (s : Nat) (c : Chip) : coreView (bulkAbort s c) = coreView c := by
  simp only [bulkAbort]
  split
  · rw [coreView_flagF]; rfl
  · rfl

theorem pwrRegs_bulkAbort (s : Nat) (c : Chip) : pwrRegs (bulkAbort s c) = pwrRegs c := by
  simp only [bulkAbort]
  split
  · rw [pwrRegs_flagF (by decide) (by decide)]; rfl
  · rfl

/-- R465, R470: the Declarer's seat is given up. -/
theorem declDrop_cases (c : Chip) :
    declDrop c = c ∨ ∃ s, declDrop c = bulkAbort s { c with hst := { c.hst with decl := none, target := none } } := by
  unfold declDrop
  split
  · exact .inl rfl
  · next s _ => exact .inr ⟨s, rfl⟩

/-- What a session that closes has done before its place is emptied. -/
def sessLeft (s : Nat) (c : Chip) : Chip :=
  let c := bulkAbort s c
  let c := if c.hst.decl = some s then declDrop c else c
  if c.hst.target.map (·.1) = some s then { c with hst := { c.hst with target := none } } else c

theorem sessClose_eq (s : Nat) (c : Chip) :
    sessClose s c = if (sess s c).state = 0 then c else sessPut s {} (sessLeft s c) := rfl

/-- A view that is kept by aborting a bulk transfer and by changes of the Declarer's seat is kept before a session is emptied. -/
theorem sessLeft_keeps {β : Type} (v : Chip → β) (hbulk : ∀ s c, v (bulkAbort s c) = v c)
    (hseat : ∀ (c : Chip) d t, v { c with hst := { c.hst with decl := d, target := t } } = v c) (s : Nat) (c : Chip) :
    v (sessLeft s c) = v c := by
  have hdrop : ∀ c, v (declDrop c) = v c := fun c => by
    rcases declDrop_cases c with e | ⟨s, e⟩ <;> rw [e]
    rw [hbulk]
    exact hseat c none none
  have hdecl : ∀ c : Chip, v (if c.hst.decl = some s then declDrop c else c) = v c := fun c => by
    split
    · exact hdrop c
    · rfl
  have htarget : ∀ c : Chip, v (if c.hst.target.map (·.1) = some s then { c with hst := { c.hst with target := none } } else c) =
      v c := fun c => by
    split
    · exact hseat c c.hst.decl none
    · rfl
  exact (htarget _).trans ((hdecl _).trans (hbulk s c))

theorem coreView_sessClose (s : Nat) (c : Chip) : coreView (sessClose s c) = coreView c := by
  rw [sessClose_eq]
  split
  · rfl
  · exact sessLeft_keeps coreView coreView_bulkAbort (fun _ _ _ => rfl) s c

theorem pwrRegs_sessClose (s : Nat) (c : Chip) : pwrRegs (sessClose s c) = pwrRegs c := by
  rw [sessClose_eq]
  split
  · rfl
  · exact sessLeft_keeps pwrRegs pwrRegs_bulkAbort (fun _ _ _ => rfl) s c

theorem state_sessClose_same {s : Nat} (hs : s < 6) (c : Chip) : (sess s (sessClose s c)).state = 0 := by
  rw [sessClose_eq]
  split
  · assumption
  · rw [sess_sessPut_same hs]

theorem state_sessClose_ne {k s : Nat} (h : k ≠ s) (c : Chip) : (sess k (sessClose s c)).state = (sess k c).state := by
  rw [sessClose_eq]
  split
  · rfl
  · rw [sess_sessPut_ne h]
    exact sessLeft_keeps (fun c => (sess k c).state) (fun s c => state_bulkAbort k s c) (fun _ _ _ => rfl) s c

/-- R326: a relayed session ends with its flow closing; any other just closes. -/
theorem endSession_eq (s : Nat) (c : Chip) : ∃ l, endSession s c = { sessClose s c with lnk := l } := by
  simp only [endSession]
  split
  · exact ⟨_, rfl⟩
  · split
    · exact ⟨_, rfl⟩
    · exact ⟨_, rfl⟩

theorem coreView_endSession (s : Nat) (c : Chip) : coreView (endSession s c) = coreView c := by
  obtain ⟨l, e⟩ := endSession_eq s c
  rw [e]
  exact coreView_sessClose s c

theorem pwrRegs_endSession (s : Nat) (c : Chip) : pwrRegs (endSession s c) = pwrRegs c := by
  obtain ⟨l, e⟩ := endSession_eq s c
  rw [e]
  exact pwrRegs_sessClose s c

theorem state_endSession_same {s : Nat} (hs : s < 6) (c : Chip) : (sess s (endSession s c)).state = 0 := by
  obtain ⟨l, e⟩ := endSession_eq s c
  rw [e]
  exact state_sessClose_same hs c

theorem state_endSession_ne {k s : Nat} (h : k ≠ s) (c : Chip) : (sess k (endSession s c)).state = (sess k c).state := by
  obtain ⟨l, e⟩ := endSession_eq s c
  rw [e]
  exact state_sessClose_ne h c

/-- Ending the first `m` sessions ends each of them. -/
theorem state_endSessions {k m : Nat} (hk : k < m) (hm : m ≤ 6) (c : Chip) :
    (sess k ((List.range m).foldl (fun c s => endSession s c) c)).state = 0 := by
  obtain ⟨d, -, hfold⟩ := foldl_at (fun c => (sess k c).state) (fun c s => endSession s c) k
    (fun c s hs => state_endSession_ne hs.symm c) (List.range m) List.nodup_range (List.mem_range.mpr hk) c
  exact hfold.trans (state_endSession_same (by omega) d)

theorem coreView_closeNetSessions (c : Chip) : coreView (closeNetSessions c) = coreView c :=
  foldl_keeps coreView _ (fun c s => coreView_endSession s c) _ c

theorem pwrRegs_closeNetSessions (c : Chip) : pwrRegs (closeNetSessions c) = pwrRegs c :=
  foldl_keeps pwrRegs _ (fun c s => pwrRegs_endSession s c) _ c

theorem state_closeNetSessions {k : Nat} (hk : k < 4) (c : Chip) : (sess k (closeNetSessions c)).state = 0 :=
  state_endSessions hk (by decide) c

theorem coreView_closeAllSessions (c : Chip) : coreView (closeAllSessions c) = coreView c := by
  rw [closeAllSessions, coreView_withHst]
  exact foldl_keeps coreView _ (fun c s => coreView_endSession s c) (List.range 6) c

theorem state_closeAllSessions {k : Nat} (hk : k < 6) (c : Chip) : (sess k (closeAllSessions c)).state = 0 := by
  rw [closeAllSessions, sess_withSeat]
  exact state_endSessions hk (by decide) c

/-! ### Links and transfers -/

/-- One hand of the links goes idle (R120). -/
def handIdle (c : Chip) (h : Nat) : Chip :=
  setF Reg.DLR_HAND_STATE (64 + h) 0 (setF Reg.DLR_HAND_CLASS (64 + h) 0 (setF Reg.DLR_HAND_WAIT (64 + h) 0 (linkPut h {} c)))

theorem linksIdle_eq (c : Chip) : linksIdle c =
    (List.range 32).foldl (fun d h => if (linkCandidates c).contains h then d else handIdle d h) c := rfl

theorem linksIdle_keeps {β : Type} (v : Chip → β) (hv : ∀ c h, v (handIdle c h) = v c) (c : Chip) : v (linksIdle c) = v c := by
  rw [linksIdle_eq]
  exact foldl_keeps v _ (fun d h => by
    split
    · rfl
    · exact hv d h) _ c

theorem coreView_linksIdle (c : Chip) : coreView (linksIdle c) = coreView c :=
  linksIdle_keeps coreView (fun c h => by simp only [handIdle, coreView_setF]; rfl) c

theorem pwrRegs_handIdle (c : Chip) (h : Nat) : pwrRegs (handIdle c h) = pwrRegs c := by
  rw [handIdle, pwrRegs_setF (by decide), pwrRegs_setF (by decide), pwrRegs_setF (by decide)]
  rfl

theorem pwrRegs_linksIdle (c : Chip) : pwrRegs (linksIdle c) = pwrRegs c := linksIdle_keeps pwrRegs pwrRegs_handIdle c

theorem coreView_transferEnd (t : Nat) (st : Status) (c : Chip) : coreView (transferEnd t st c) = coreView c := by
  unfold transferEnd
  split
  · rfl
  · exact coreView_setF _ _ _ _

theorem pwrRegs_transferEnd (t : Nat) (st : Status) (c : Chip) : pwrRegs (transferEnd t st c) = pwrRegs c := by
  unfold transferEnd
  split
  · rfl
  · exact pwrRegs_setF (by decide) _ _ _

end Sys2Proof.Machine
end

section
/-!
Power states (chapter 03, R63-R66, R526): requests, entry into STANDBY, wakes and the idle timer.
-/

namespace Sys2Proof.Machine
open Sys2Proof Sys2Proof.Safety

/-! ### Requests, R64, R65, R81 -/

theorem dieView_answered (e : Status) (c : Chip) : dieView (answered e c) = dieView c := rfl

/-- R81: a writer without the right gets its answer alone. -/
theorem run_pwrReq_refused {s : State} {who : Writer} (req : Nat) (hs : Settled s.toChip)
    (hw : writerStatus who s.toChip ≠ .ok) :
    s.run (pwrReqWrite who req) = .next { s with reply := writerStatus who s.toChip } := by
  have hrow : pwrReqWrite who req s.toChip = answered (writerStatus who s.toChip) s.toChip := by
    unfold pwrReqWrite
    split
    · next h => exact absurd h hw
    · rfl
  exact run_row hs hrow (dieView_answered _ _)

/-- The step of a request by a writer with the right. -/
theorem run_pwrReq {s : State} {who : Writer} {req : Nat} {d : Chip} {e : Status} (hs : Settled s.toChip)
    (hw : writerStatus who s.toChip = .ok) (h : pwrRequest req s.toChip = (d, e)) (hd : dieView d = dieView s.toChip) :
    s.run (pwrReqWrite who req) = .next { s with toChip := { d with reply := e } } := by
  have hrow : pwrReqWrite who req s.toChip = { d with reply := e } := by
    simp only [pwrReqWrite, hw, h]
  exact run_row hs hrow hd

theorem standbyForbidden_eq {c : Chip}
    (h : cardU8 0x0003 0 0 0 c ≠ 1 ∨ bayBusy c = true ∨ getF Reg.UPD_STAT_PENDING 0 c = 1) : standbyForbidden c = true := by
  rw [standbyForbidden, Bool.or_eq_true, Bool.or_eq_true, bne_iff_ne, beq_iff_eq]
  tauto

/-! ### STANDBY reached, R63, R64 -/

theorem transferEnd_hst (t : Nat) (st : Status) (c : Chip) : (transferEnd t st c).hst = c.hst := by
  unfold transferEnd
  split
  · rfl
  · rw [setF_hst]

theorem getF_transferEnd {f : Fld} {i t : Nat} (h : fkey f i ≠ fkey Reg.MEM_TE_STAT_STATE t) (st : Status) (c : Chip) :
    getF f i (transferEnd t st c) = getF f i c := by
  unfold transferEnd
  split
  · rfl
  · rw [getF_setF_of_key h]
    simp only [getF]
    cases f.home <;> rfl

theorem coreView_readerStop (c : Chip) : coreView (readerStop c) = readerStop (coreView c) := rfl
theorem pwrRegs_readerStop (c : Chip) : pwrRegs (readerStop c) = pwrRegs c := rfl
theorem sess_readerStop (k : Nat) (c : Chip) : sess k (readerStop c) = sess k c := rfl
theorem getF_readerStop (f : Fld) (i : Nat) (c : Chip) : getF f i (readerStop c) = getF f i c := by
  simp only [getF]
  cases f.home <;> rfl

theorem sess_setF (k : Nat) (f : Fld) (i v : Nat) (c : Chip) : sess k (setF f i v c) = sess k c :=
  sess_congr (by rw [setF_hst]) k

theorem sess_transferEnd (k t : Nat) (st : Status) (c : Chip) : sess k (transferEnd t st c) = sess k c :=
  sess_congr (by rw [transferEnd_hst]) k

theorem pwrRegs_withPwr (c : Chip) (p : PwrState) : pwrRegs { c with pwr := p } = pwrRegs c := rfl

/-- R64: what stops at the entry into STANDBY. -/
structure StandbyStopped (c d : Chip) : Prop where
  core : coreView d = coreView (readerStop { c with pwr := { c.pwr with sbAt := c.backup.ms } })
  regs : pwrRegs d = pwrRegs c
  sessions : ∀ k, k < 4 → (sess k d).state = 0
  scan : getF Reg.DSP_ESTAT_SCAN 0 d = 0

theorem standbyStopped_standbyStop (c : Chip) : StandbyStopped c (standbyStop c) where
  core := by
    rw [standbyStop, coreView_transferEnd, coreView_transferEnd, coreView_readerStop, displayStandby, coreView_setF,
      coreView_closeNetSessions, coreView_linksIdle, coreView_readerStop]
  regs := by
    rw [standbyStop, pwrRegs_transferEnd, pwrRegs_transferEnd, pwrRegs_readerStop, displayStandby, pwrRegs_setF (by decide),
      pwrRegs_closeNetSessions, pwrRegs_linksIdle, pwrRegs_withPwr]
  sessions k hk := by
    rw [standbyStop, sess_transferEnd, sess_transferEnd, sess_readerStop, displayStandby, sess_setF]
    exact state_closeNetSessions hk _
  scan := by
    rw [standbyStop, getF_transferEnd (by decide), getF_transferEnd (by decide), getF_readerStop, displayStandby,
      getF_setF_same]
    rfl

/-- The entry into STANDBY has come to its end, before what is off in STANDBY stops. -/
def standbyEntered (c : Chip) : Chip :=
  setF Reg.PWR_STATE_STATE 0 3 { c with pwr := { c.pwr with sbEntry := false, timerWake := false } }

theorem exec_standbyReached {s : State} (hs : Settled s.toChip) (h : s.pwr.sbEntry = true) :
    ∃ t, exec .standbyReached s = .next t ∧ getF Reg.PWR_STATE_STATE 0 t.toChip = 3 ∧
      (∀ k, k < 4 → (sess k t.toChip).state = 0) ∧ t.nfc.seen = [] ∧ getF Reg.DSP_ESTAT_SCAN 0 t.toChip = 0 ∧
      t.pwr.sbEntry = false ∧ t.pwr.sbAt = s.backup.ms ∧ t.hsl = s.hsl ∧
      t.backup = s.backup ∧ t.store = s.store ∧ t.bil = s.bil := by
  have hrow : standbyReached s.toChip = standbyStop (standbyEntered s.toChip) := if_pos h
  obtain ⟨hcore, hregs, hsess, hscan⟩ := standbyStopped_standbyStop (standbyEntered s.toChip)
  rw [← hrow] at hcore hregs hsess hscan
  have hdie : dieView (standbyReached s.toChip) = dieView s.toChip :=
    (dieView_of_coreView hcore).trans (by simp [standbyEntered, readerStop, dieView])
  refine ⟨_, run_kept hs hdie, ?_, hsess, part_of_coreView (fun c => c.nfc.seen) (fun _ => rfl) hcore, hscan, ?_⟩
  · dsimp only
    rw [getF_of_pwrRegs hregs (by decide), standbyEntered, getF_setF_same]
    rfl
  · dsimp only
    rw [part_of_coreView Chip.pwr (fun _ => rfl) hcore, part_of_coreView Chip.hsl (fun _ => rfl) hcore,
      part_of_coreView Chip.backup (fun _ => rfl) hcore, part_of_coreView Chip.store (fun _ => rfl) hcore,
      part_of_coreView Chip.bil (fun _ => rfl) hcore]
    simp [standbyEntered, readerStop]

/-! ### Wakes, R66 -/

theorem testBit_of_firstBit {n m k : Nat} (h : firstBit n m = some k) : k < n ∧ m.testBit k = true := by
  rw [firstBit] at h
  exact ⟨List.mem_range.mp (List.mem_of_find?_eq_some h), List.find?_some h⟩

/-- A wake in STANDBY by an enabled source. -/
theorem standbyWakeFrom_of_enabled {k : Nat} {c : Chip} (hs : inStandby c = true) (hk : (regWord 0x10008 c).testBit k = true) :
    standbyWakeFrom k c = let d := setF Reg.PWR_STATE_WAKE_SRC 0 k (sessResume c)
      if k = 7 then setF Reg.PWR_STATE_STATE 0 2 { d with pwr := { d.pwr with timerWake := true } } else enterRun d := by
  simp only [standbyWakeFrom, wakes, hs, hk, Bool.and_self, if_true]

theorem legalPoll_of_none {c : Chip} (h : c.dsp.pend = none) : legalPoll c = c := by
  simp only [legalPoll, h]

theorem exec_standbyWake {s : State} {sources : BitVec 8} {k : Nat} (hs : inStandby s.toChip = true)
    (hk : firstBit 8 ((sources &&& BitVec.ofNat 8 (regWord 0x10008 s.toChip)).toNat) = some k) (hpend : s.dsp.pend = none) :
    ∃ t, exec (.standbyWake sources) s = .next t ∧ getF Reg.PWR_STATE_WAKE_SRC 0 t.toChip = k ∧
      getF Reg.PWR_STATE_STATE 0 t.toChip = (if k = 7 then 2 else 1) ∧ t.backup = s.backup ∧ t.store = s.store := by
  obtain ⟨hlt, hbit⟩ := testBit_of_firstBit hk
  have henabled : (regWord 0x10008 s.toChip).testBit k = true := by
    simp only [BitVec.toNat_and, BitVec.toNat_ofNat, Nat.testBit_and, Nat.testBit_mod_two_pow, Bool.and_eq_true] at hbit
    exact hbit.2.2
  have hwake := standbyWakeFrom_of_enabled hs henabled
  have hdsp : (standbyWakeFrom k s.toChip).dsp = s.dsp := by
    rw [hwake]
    dsimp only
    split <;> simp [enterRun, sessResume]
  have hrow : standbyWake sources s.toChip = standbyWakeFrom k s.toChip := by
    simp only [standbyWake, hk]
    exact legalPoll_of_none (by rw [hdsp, hpend])
  refine ⟨_, run_next (standbyWake sources) s, ?_⟩
  dsimp only
  rw [getF_settle (by decide), getF_settle (by decide), settle_backup, settle_store, hrow, hwake]
  dsimp only
  have hmod : k % 2 ^ Reg.PWR_STATE_WAKE_SRC.width = k := Nat.mod_eq_of_lt (lt_trans hlt (by decide))
  split
  · rw [getF_setF_of_key (by decide), getF_withPwr, getF_setF_same, getF_setF_same, hmod]
    exact ⟨rfl, rfl, by simp [sessResume], by simp [sessResume]⟩
  · rw [enterRun, getF_setF_of_key (by decide), getF_withPwr, getF_setF_same, getF_setF_same, hmod]
    exact ⟨rfl, rfl, by simp [sessResume], by simp [sessResume]⟩

/-! ### The obligation -/

/-- Settles O11: a request writes its field, and RUN and LEAN change places at once; what STANDBY stops and what wakes the device are
read from the rows' own lemmas. -/
theorem powerStateRequests : Obligations.PowerStateRequests := by
  refine ⟨fun s who hs hw => ⟨run_pwrReq_refused 1 hs hw, run_pwrReq_refused 2 hs hw, run_pwrReq_refused 3 hs hw⟩,
    fun s who hs hw => ⟨fun h2 => ?_, fun h1 => ?_, fun h2 => ?_, fun h1 => ?_, fun hfree => ?_, fun hbusy => ?_,
      fun hentry => exec_standbyReached hs hentry, fun sources k hstandby hk hpend => exec_standbyWake hstandby hk hpend,
      fun hrun h1 hpos hidle => ?_, fun hrun h2 => ?_⟩⟩
  · exact run_pwrReq hs hw (by simp [pwrRequest, h2]) (by simp)
  · exact run_pwrReq hs hw (by simp [pwrRequest, h1]) (by simp)
  · exact run_pwrReq hs hw (by simp [pwrRequest, h2, enterRun]) (by simp [dieView])
  · exact run_pwrReq hs hw (by simp [pwrRequest, h1]) (by simp)
  · exact run_pwrReq hs hw (by simp [pwrRequest, hfree]) (by simp [dieView])
  · exact run_pwrReq hs hw (by simp [pwrRequest, standbyForbidden_eq hbusy]) rfl
  · exact run_row (f := idleExpiry) hs (if_pos ⟨hrun, h1, hpos, hidle⟩) (by simp)
  · refine run_row (f := loadDemand) hs ?_ (d := setF Reg.PWR_STATE_STATE 0 1
      { s.toChip with pwr := { s.pwr with idleMs := 0, timerWake := false } }) (by simp [dieView])
    simp [loadDemand, activity, hrun, h2, enterRun]

end Sys2Proof.Machine
end

section
/-!
PFWARN_N and SVCBTN_N (chapter 03, R72, R73, R78, R79).
-/

namespace Sys2Proof.Machine
open Sys2Proof Sys2Proof.Safety

/-! ### The legal panel and the saves under a power-fail warning, R220 -/

/-- What starting and aborting saves and updates of the legal panel leave: the power state, the backup domain and the registers of the
device and power blocks. -/
def warnView (c : Chip) : PwrState × BackupState × ((Nat → Nat) × (Nat → Nat) × (Nat → Nat)) := (c.pwr, c.backup, pwrRegs c)

theorem warnView_setF {f : Fld} (h : 0x20000 ≤ f.base) (i v : Nat) (c : Chip) : warnView (setF f i v c) = warnView c := by
  rw [warnView, pwrRegs_setF h, setF_pwr, setF_backup, warnView]

theorem warnView_pendCancel (c : Chip) : warnView (pendCancel c) = warnView c := by
  unfold pendCancel
  split
  · rw [warnView, pwrRegs_eventF, eventF_pwr, eventF_backup, ← warnView, warnView_setF (by decide)]
  · rfl

theorem warnView_legalAbort (c : Chip) : warnView (legalAbort c) = warnView c := by
  simp only [legalAbort]
  split
  · rfl
  · rw [flagF, flagBit, addSat, warnView_setF (by decide), setBitF, warnView_setF (by decide)]
    rfl

theorem upd_legalAbort (c : Chip) : (legalAbort c).dsp.upd = none := by
  simp only [legalAbort]
  split
  · assumption
  · rw [flagF_dsp]

theorem legalAbort_bil (c : Chip) : (legalAbort c).bil = c.bil := by
  simp only [legalAbort]
  split
  · rfl
  · rw [flagF_bil]

theorem pendCancel_kept (c : Chip) : (pendCancel c).bil = c.bil ∧ (pendCancel c).dsp = c.dsp := by
  unfold pendCancel
  split <;> simp

theorem warnView_pfStart (c : Chip) : warnView (pfStart c) = warnView c := by
  rw [pfStart, warnView_pendCancel, warnView_legalAbort]
  rfl

/-- R72, R220: a save and an update of the legal panel end with the warning. -/
theorem pfStart_ends (c : Chip) : (pfStart c).bil.save = none ∧ (pfStart c).dsp.upd = none := by
  rw [pfStart, (pendCancel_kept _).1, (pendCancel_kept _).2, legalAbort_bil]
  exact ⟨rfl, upd_legalAbort _⟩

theorem warnView_saveStart (c : Chip) : warnView (saveStart c) = warnView c := by
  unfold saveStart
  split <;> rfl

theorem warnView_legalStart (r : LegalReq) (c : Chip) : warnView (legalStart r c) = warnView c := by
  simp only [legalStart]
  change warnView (addSat _ _ _ _ _) = _
  rw [addSat, warnView_setF (by decide), warnView_setF (by decide), warnView_setF (by decide), warnView_setF (by decide)]

theorem warnView_legalRequest (r : LegalReq) (c : Chip) : warnView (legalRequest r c) = warnView c := by
  unfold legalRequest
  split
  · rfl
  · split
    · rfl
    · split
      · rfl
      · split
        · exact warnView_legalStart r _
        · rfl

theorem warnView_pfEnd (c : Chip) : warnView (pfEnd c) = warnView c := by
  rw [pfEnd, legalRecover, warnView_legalRequest, finalStop, warnView_saveStart]

/-- Settling notes openings in the readings of sessions alone. -/
theorem settle_bil_save (c : Chip) : (settle c).bil.save = c.bil.save := by
  have h := tripView_settle c
  simp only [tripView, Prod.mk.injEq] at h
  obtain ⟨-, -, -, -, hledger⟩ := h
  have hsave : ∀ b, (ledgerRest b).save = b.save := fun _ => rfl
  rw [← hsave, hledger, hsave]

theorem warnView_settle (c : Chip) : warnView (settle c) = warnView c := by
  rw [warnView, settle_pwr, settle_backup, pwrRegs_settle, warnView]

/-! ### PFWARN_N, R72, R73 -/

/-- R72: the warning stands and is counted. -/
def warned (c : Chip) : Chip :=
  addSat Reg.PWR_PFW_PF_CNT 0 65535 1 (setF Reg.PWR_PFW_ACTIVE 0 1 { c with pwr := { c.pwr with pfLow := true } })

theorem pfwarnRecognised_of_up {c : Chip} (hup : c.logicUp = true) (hhold : c.pwr.hold = false) (hoff : c.pwr.off = false)
    (hlow : c.pwr.pfLow = false) : pfwarnRecognised c =
      if c.pwr.phase = .startDue then startHold (warned c) else if c.pwr.phase = .run then pfStart (warned c) else warned c := by
  have hwarned : (warned c).pwr.phase = c.pwr.phase := by simp [warned]
  rw [pfwarnRecognised, if_neg (by simp [hhold, hoff, hlow]), ← hwarned]
  dsimp only
  rw [if_neg (by simpa [Chip.logicUp] using hup), hwarned]
  rfl

theorem getF_warned (c : Chip) : getF Reg.PWR_PFW_ACTIVE 0 (warned c) = 1 ∧
    getF Reg.PWR_PFW_PF_CNT 0 (warned c) = min (getF Reg.PWR_PFW_PF_CNT 0 c + 1) 65535 ∧
    getF Reg.PWR_STATE_STATE 0 (warned c) = getF Reg.PWR_STATE_STATE 0 c := by
  refine ⟨?_, ?_, ?_⟩
  · rw [warned, addSat, getF_setF_of_key (by decide), getF_setF_same]
    rfl
  · rw [warned, getF_addSat_same _ _ _ (by decide), getF_setF_of_key (by decide), getF_withPwr]
  · rw [warned, addSat, getF_setF_of_key (by decide), getF_setF_of_key (by decide), getF_withPwr]

/-- What the row of a recognised warning leaves: the warning, the wait of a start sequence that is due, and the end of what a running
deck saves and shows. -/
structure Warned (c d : Chip) : Prop where
  low : d.pwr.pfLow = true
  active : getF Reg.PWR_PFW_ACTIVE 0 d = 1
  count : getF Reg.PWR_PFW_PF_CNT 0 d = min (getF Reg.PWR_PFW_PF_CNT 0 c + 1) 65535
  run : c.pwr.phase = .run → d.bil.save = none ∧ d.dsp.upd = none
  start : c.pwr.phase = .startDue → d.pwr.phase = .startWait ∧ getF Reg.PWR_PFW_START_WAIT 0 d = 1
  state : getF Reg.PWR_STATE_STATE 0 d = getF Reg.PWR_STATE_STATE 0 c
  backup : d.backup = c.backup

theorem warned_pfwarnRecognised {c : Chip} (hup : c.logicUp = true) (hhold : c.pwr.hold = false) (hoff : c.pwr.off = false)
    (hlow : c.pwr.pfLow = false) : Warned c (pfwarnRecognised c) := by
  obtain ⟨hactive, hcount, hstate⟩ := getF_warned c
  have hpwr : (warned c).pwr = { c.pwr with pfLow := true } := by simp [warned]
  have hbackup : (warned c).backup = c.backup := by simp [warned]
  rw [pfwarnRecognised_of_up hup hhold hoff hlow]
  split
  · next hdue =>
    have hkeep : ∀ f i, fkey f i ≠ fkey Reg.PWR_PFW_START_WAIT 0 → getF f i (startHold (warned c)) = getF f i (warned c) :=
      fun f i hk => by rw [startHold, getF_setF_of_key hk, getF_withPwr]
    exact {
      low := by simp [startHold, hpwr]
      active := (hkeep _ _ (by decide)).trans hactive
      count := (hkeep _ _ (by decide)).trans hcount
      run := fun h => by simp [hdue] at h
      start := fun _ => ⟨by simp [startHold], getF_setF_same _ _ _ _⟩
      state := (hkeep _ _ (by decide)).trans hstate
      backup := by simp [startHold, hbackup] }
  · next hdue =>
    have hview : ∀ d, warnView d = warnView (warned c) → (c.pwr.phase = .run → d.bil.save = none ∧ d.dsp.upd = none) →
        Warned c d := fun d hd hrun => by
      simp only [warnView, Prod.mk.injEq] at hd
      obtain ⟨hp, hb, hr⟩ := hd
      exact {
        low := by rw [hp, hpwr]
        active := (getF_of_pwrRegs hr (by decide)).trans hactive
        count := (getF_of_pwrRegs hr (by decide)).trans hcount
        run := hrun
        start := fun h => absurd h hdue
        state := (getF_of_pwrRegs hr (by decide)).trans hstate
        backup := hb.trans hbackup }
    split
    · exact hview _ (warnView_pfStart _) fun _ => pfStart_ends _
    · next hrun => exact hview _ rfl fun h => absurd h hrun

theorem exec_pfwarnRecognised {s : State} (hup : s.logicUp = true) (hhold : s.pwr.hold = false) (hoff : s.pwr.off = false)
    (hlow : s.pwr.pfLow = false) : ∃ t, exec .pfwarnRecognised s = .next t ∧ Warned s.toChip t.toChip := by
  have h := warned_pfwarnRecognised hup hhold hoff hlow
  have hview := warnView_settle (pfwarnRecognised s.toChip)
  simp only [warnView, Prod.mk.injEq] at hview
  obtain ⟨hp, hb, hr⟩ := hview
  refine ⟨_, run_next pfwarnRecognised s, ?_⟩
  dsimp only
  exact {
    low := by rw [hp, h.low]
    active := (getF_of_pwrRegs hr (by decide)).trans h.active
    count := (getF_of_pwrRegs hr (by decide)).trans h.count
    run := fun hrun => by rw [settle_bil_save, settle_dsp]; exact h.run hrun
    start := fun hdue => ⟨by rw [hp, (h.start hdue).1], (getF_of_pwrRegs hr (by decide)).trans (h.start hdue).2⟩
    state := (getF_of_pwrRegs hr (by decide)).trans h.state
    backup := hb.trans h.backup }

/-- R73: without every supply in range the warning stands. -/
theorem pfwarnRecovered_of_missing {c : Chip} (hup : c.logicUp = true) (hsup : c.suppliesOk = false) : pfwarnRecovered c = c := by
  simp [pfwarnRecovered, hup, hsup]

/-- R73: the warning is over, before what a running deck does then. -/
def recovered (c : Chip) : Chip :=
  setF Reg.PWR_PFW_DIP 0 1 (setF Reg.PWR_PFW_ACTIVE 0 0 { c with pwr := { c.pwr with pfLow := false } })

theorem pfwarnRecovered_of_up {c : Chip} (hup : c.logicUp = true) (hhold : c.pwr.hold = false) (hoff : c.pwr.off = false)
    (hlow : c.pwr.pfLow = true) (hwait : c.pwr.phase ≠ .startWait) (hsup : c.suppliesOk = true) :
    warnView (pfwarnRecovered c) = warnView (recovered c) := by
  have hgo : (!c.pwr.pfLow || c.pwr.hold || c.pwr.off || decide (c.pwr.phase = .startWait)) = false := by
    simp [hlow, hhold, hoff, hwait]
  simp only [pfwarnRecovered, hgo, hup, hsup, Bool.not_true, Bool.false_eq_true, if_false]
  split
  · exact warnView_pfEnd _
  · rfl

theorem exec_pfwarnRecovered {s : State} (hup : s.logicUp = true) (hhold : s.pwr.hold = false) (hoff : s.pwr.off = false)
    (hlow : s.pwr.pfLow = true) (hwait : s.pwr.phase ≠ .startWait) (hsup : s.suppliesOk = true) :
    ∃ t, exec .pfwarnRecovered s = .next t ∧ t.pwr.pfLow = false ∧ getF Reg.PWR_PFW_ACTIVE 0 t.toChip = 0 ∧
      getF Reg.PWR_PFW_DIP 0 t.toChip = 1 ∧ t.backup = s.backup := by
  have hview := (warnView_settle _).trans (pfwarnRecovered_of_up hup hhold hoff hlow hwait hsup)
  simp only [warnView, Prod.mk.injEq] at hview
  obtain ⟨hp, hb, hr⟩ := hview
  refine ⟨_, run_next pfwarnRecovered s, ?_⟩
  dsimp only
  rw [hp, hb, getF_of_pwrRegs hr (by decide), getF_of_pwrRegs hr (by decide), recovered, setF_pwr, setF_pwr, setF_backup, setF_backup,
    getF_setF_same, getF_setF_of_key (by decide), getF_setF_same]
  exact ⟨rfl, rfl, rfl, rfl⟩

end Sys2Proof.Machine
end

section
/-!
SVCBTN_N (chapter 03, R78, R79), and the obligation about it and PFWARN_N.
-/

namespace Sys2Proof.Machine
open Sys2Proof Sys2Proof.Safety

/-! ### A press begins -/

/-- R66: outside STANDBY nothing wakes. -/
theorem standbyWake_of_awake {c : Chip} (hawake : inStandby c = false) (hpend : c.dsp.pend = none) (sources : BitVec 8) :
    standbyWake sources c = c := by
  unfold standbyWake
  split
  · rfl
  · next k _ =>
    have hkept : standbyWakeFrom k c = c := by simp [standbyWakeFrom, wakes, hawake]
    rw [hkept, legalPoll_of_none hpend]

theorem inStandby_svcHeld (c : Chip) (a : Option Nat) (b : Bool) :
    inStandby (setF Reg.PWR_SVC_HELD 0 1 { c with pwr := { c.pwr with svcStart := a, svcDone := b } }) = inStandby c := by
  rw [inStandby, getF_setF_of_key (by decide), getF_withPwr, setF_pwr, inStandby]

theorem svcPressStart_of_awake {c : Chip} (hup : c.logicUp = true) (hstale : c.pwr.svcStale = none) (hstart : c.pwr.svcStart = none)
    (hawake : inStandby c = false) (hpend : c.dsp.pend = none) : svcPressStart c =
      setF Reg.PWR_SVC_HELD 0 1 { c with pwr := { c.pwr with svcStart := some c.backup.ms, svcDone := false } } := by
  rw [svcPressStart, if_neg (by simp [hup, hstale, hstart])]
  exact standbyWake_of_awake ((inStandby_svcHeld c _ _).trans hawake) (by rw [setF_dsp, hpend]) _

/-! ### A press ends -/

/-- R78: a press of at most 60 s is not failed closed. -/
theorem svcFailedClosed_of_short {c : Chip} {t : Nat} (h : c.pwr.svcStart = some t) (hms : c.backup.ms ≤ t + 60000) :
    svcFailedClosed c = c := by
  simp [svcFailedClosed, h, hms]

theorem svcFailedClosed_of_long {c : Chip} {t : Nat} (hup : c.logicUp = true) (hdone : c.pwr.svcDone = false)
    (h : c.pwr.svcStart = some t ∨ c.pwr.svcStart = none ∧ c.pwr.svcStale = some t) (hms : t + 60000 < c.backup.ms) :
    svcFailedClosed c = svcFail c := by
  have hsome : (c.pwr.svcStart <|> c.pwr.svcStale) = some t := by
    rcases h with h | ⟨h, h'⟩
    · rw [h]; rfl
    · rw [h, h']; rfl
  simp only [svcFailedClosed, hsome]
  exact if_neg (by simp [hup, hdone, hms])

/-- The end of a press that began at `t`, as `c` shows it: its length, and no press any more. -/
def pressNoted (t : Nat) (c : Chip) : Chip :=
  let d := setF Reg.PWR_SVC_LAST_MS 0 (min (c.backup.ms - t) 65535) c
  { d with pwr := { d.pwr with svcStart := none, svcDone := false } }

/-- R78: a press of 20 ms to 9,999 ms asks for attention. -/
def attentionAsked (c : Chip) : Chip :=
  eventF Reg.PWR_SVC_ATTENTION 0 0xFF [] (openBidWindow (setF Reg.PWR_SVC_ATTENTION 0 1 c))

/-- R78: a press of 10 s to 60 s asks for recovery. -/
def recoveryAsked (c : Chip) : Chip :=
  openBidWindow (setF Reg.PWR_SVC_RECOVERY 0 1 (hostSettingsToDeck (closeAllSessions c)))

theorem svcPressEnd_of_start {c : Chip} {t : Nat} (hup : c.logicUp = true)
    (h : (svcFailedClosed (setF Reg.PWR_SVC_HELD 0 0 c)).pwr.svcStart = some t) : svcPressEnd c =
      let d := svcFailedClosed (setF Reg.PWR_SVC_HELD 0 0 c)
      if d.pwr.svcDone ∨ d.backup.ms - t < 20 ∨ 60000 < d.backup.ms - t then pressNoted t d
      else if d.backup.ms - t < 10000 then attentionAsked (pressNoted t d) else recoveryAsked (pressNoted t d) := by
  rw [svcPressEnd, if_neg (by simp [hup])]
  simp only [h]
  rfl

/-- A press of at most 60 s, by its length. -/
theorem svcPressEnd_of_short {c : Chip} {t : Nat} (hup : c.logicUp = true) (h : c.pwr.svcStart = some t)
    (hms : c.backup.ms ≤ t + 60000) : svcPressEnd c =
      let d := setF Reg.PWR_SVC_HELD 0 0 c
      if c.pwr.svcDone ∨ c.backup.ms - t < 20 ∨ 60000 < c.backup.ms - t then pressNoted t d
      else if c.backup.ms - t < 10000 then attentionAsked (pressNoted t d) else recoveryAsked (pressNoted t d) := by
  have hkept := svcFailedClosed_of_short (c := setF Reg.PWR_SVC_HELD 0 0 c) (t := t) (by rw [setF_pwr, h])
    (by rw [setF_backup]; exact hms)
  rw [svcPressEnd_of_start hup (t := t) (by rw [hkept, setF_pwr, h]), hkept]
  simp only [setF_pwr, setF_backup]

@[simp] theorem pressNoted_pwr (t : Nat) (c : Chip) :
    (pressNoted t c).pwr = { c.pwr with svcStart := none, svcDone := false } := by simp [pressNoted]
@[simp] theorem pressNoted_backup (t : Nat) (c : Chip) : (pressNoted t c).backup = c.backup := by simp [pressNoted]
@[simp] theorem pressNoted_store (t : Nat) (c : Chip) : (pressNoted t c).store = c.store := by simp [pressNoted]

theorem getF_pressNoted_same (t : Nat) (c : Chip) :
    getF Reg.PWR_SVC_LAST_MS 0 (pressNoted t c) = min (c.backup.ms - t) 65535 := by
  rw [pressNoted, getF_withPwr, getF_setF_same]
  exact Nat.mod_eq_of_lt (lt_of_le_of_lt (Nat.min_le_right _ _) (by decide))

theorem getF_pressNoted {f : Fld} {i : Nat} (hk : fkey f i ≠ fkey Reg.PWR_SVC_LAST_MS 0) (t : Nat) (c : Chip) :
    getF f i (pressNoted t c) = getF f i c := by rw [pressNoted, getF_withPwr, getF_setF_of_key hk]

/-- R466: an event record leaves every register below the host block. -/
theorem getF_eventF {f : Fld} {i : Nat} (hk : fkey f i < 0x20000 * 32) (g : Fld) (j n : Nat) (x : List Nat) (c : Chip) :
    getF f i (eventF g j n x c) = getF f i c := getF_of_pwrRegs (pwrRegs_eventF g j n x c) hk

theorem getF_openBidWindow {f : Fld} {i : Nat} (hk : fkey f i < 0x20000 * 32) (c : Chip) :
    getF f i (openBidWindow c) = getF f i c :=
  getF_of_pwrRegs ((pwrRegs_setF (by decide) _ _ _).trans (pwrRegs_withPwr _ _)) hk

@[simp] theorem openBidWindow_pwr (c : Chip) : (openBidWindow c).pwr = { c.pwr with bidOpen := some (c.backup.ms + 60000) } := by
  simp [openBidWindow]
@[simp] theorem openBidWindow_backup (c : Chip) : (openBidWindow c).backup = c.backup := by simp [openBidWindow]
@[simp] theorem openBidWindow_store (c : Chip) : (openBidWindow c).store = c.store := by simp [openBidWindow]
@[simp] theorem openBidWindow_hst (c : Chip) : (openBidWindow c).hst = c.hst := by simp [openBidWindow]

/-! ### The rows of a press's end -/

section
variable {s : State} {t0 : Nat} (hup : s.logicUp = true) (hstart : s.pwr.svcStart = some t0)
include hup hstart

/-- R78: a press below 20 ms asks for nothing. -/
theorem exec_svcbtnPressEnd_bounce (hlen : s.backup.ms - t0 < 20) :
    ∃ t, exec .svcbtnPressEnd s = .next t ∧ t.pwr = { s.pwr with svcStart := none, svcDone := false } ∧
      getF Reg.PWR_SVC_LAST_MS 0 t.toChip = s.backup.ms - t0 ∧ getF Reg.PWR_SVC_HELD 0 t.toChip = 0 ∧
      getF Reg.PWR_SVC_ATTENTION 0 t.toChip = getF Reg.PWR_SVC_ATTENTION 0 s.toChip ∧ t.backup = s.backup ∧
      t.store = s.store := by
  have hrow : svcPressEnd s.toChip = pressNoted t0 (setF Reg.PWR_SVC_HELD 0 0 s.toChip) := by
    rw [svcPressEnd_of_short hup hstart (by omega)]
    exact if_pos (.inr (.inl hlen))
  refine ⟨_, run_next svcPressEnd s, ?_⟩
  dsimp only
  rw [settle_pwr, settle_backup, settle_store, getF_settle (by decide), getF_settle (by decide), getF_settle (by decide), hrow,
    getF_pressNoted_same, getF_pressNoted (by decide), getF_pressNoted (by decide), getF_setF_same, getF_setF_of_key (by decide),
    setF_backup]
  exact ⟨by simp, by omega, rfl, rfl, by simp, by simp⟩

/-- R78: the attention request. -/
theorem exec_svcbtnPressEnd_attention (hdone : s.pwr.svcDone = false) (hmin : 20 ≤ s.backup.ms - t0)
    (hmax : s.backup.ms - t0 ≤ 9999) :
    ∃ t, exec .svcbtnPressEnd s = .next t ∧ getF Reg.PWR_SVC_ATTENTION 0 t.toChip = 1 ∧
      getF Reg.PWR_SVC_LAST_MS 0 t.toChip = s.backup.ms - t0 ∧ t.pwr.bidOpen = some (s.backup.ms + 60000) ∧
      getF Reg.PWR_SVC_HELD 0 t.toChip = 0 ∧ t.backup = s.backup ∧ t.store = s.store := by
  have hrow : svcPressEnd s.toChip = attentionAsked (pressNoted t0 (setF Reg.PWR_SVC_HELD 0 0 s.toChip)) := by
    rw [svcPressEnd_of_short hup hstart (by omega)]
    dsimp only
    rw [if_neg (by rw [hdone]; simp; omega), if_pos (by omega)]
  refine ⟨_, run_next svcPressEnd s, ?_⟩
  dsimp only
  rw [settle_pwr, settle_backup, settle_store, getF_settle (by decide), getF_settle (by decide), getF_settle (by decide), hrow,
    attentionAsked, getF_eventF (by decide), getF_eventF (by decide), getF_eventF (by decide), getF_openBidWindow (by decide),
    getF_openBidWindow (by decide), getF_openBidWindow (by decide), getF_setF_same, getF_setF_of_key (by decide),
    getF_setF_of_key (by decide), getF_pressNoted_same, getF_pressNoted (by decide), getF_setF_same, setF_backup]
  exact ⟨rfl, by omega, by simp, rfl, by simp, by simp⟩

/-- R78: the recovery request. -/
theorem exec_svcbtnPressEnd_recovery (hdone : s.pwr.svcDone = false) (hmin : 10000 ≤ s.backup.ms - t0)
    (hmax : s.backup.ms - t0 ≤ 60000) :
    ∃ t, exec .svcbtnPressEnd s = .next t ∧ getF Reg.PWR_SVC_RECOVERY 0 t.toChip = 1 ∧
      (∀ k, k < 6 → (sess k t.toChip).state = 0) ∧ t.hst.decl = none ∧ getF Reg.HST_CTL_NET_OFF 0 t.toChip = 0 ∧
      t.pwr.bidOpen = some (s.backup.ms + 60000) ∧ t.backup = s.backup ∧ t.store = s.store := by
  have hrow : svcPressEnd s.toChip = recoveryAsked (pressNoted t0 (setF Reg.PWR_SVC_HELD 0 0 s.toChip)) := by
    rw [svcPressEnd_of_short hup hstart (by omega)]
    dsimp only
    rw [if_neg (by rw [hdone]; simp; omega), if_neg (by omega)]
  have hcore := coreView_closeAllSessions (pressNoted t0 (setF Reg.PWR_SVC_HELD 0 0 s.toChip))
  have hbackup := part_of_coreView Chip.backup (fun _ => rfl) hcore
  have hstore := part_of_coreView Chip.store (fun _ => rfl) hcore
  refine ⟨_, run_next svcPressEnd s, ?_⟩
  dsimp only
  rw [settle_pwr, settle_backup, settle_store, settle_hst, getF_settle (by decide), getF_settle (by decide), hrow, recoveryAsked,
    getF_openBidWindow (by decide), getF_setF_same, openBidWindow_pwr, openBidWindow_hst, openBidWindow_backup,
    openBidWindow_store, hostSettingsToDeck]
  refine ⟨rfl, fun k hk => ?_, by simp [closeAllSessions], ?_, ?_, ?_, ?_⟩
  · rw [sess_congr (c := closeAllSessions (pressNoted t0 (setF Reg.PWR_SVC_HELD 0 0 s.toChip))) (by simp) k]
    exact state_closeAllSessions hk _
  · rw [openBidWindow, getF_setF_of_key (by decide), getF_withPwr, getF_setF_of_key (by decide), getF_setF_same]
    rfl
  · simp [hbackup]
  · simp [hbackup]
  · simp [hstore]

end

/-! ### A button that failed closed -/

@[simp] theorem svcFail_pwr (c : Chip) : (svcFail c).pwr = { c.pwr with svcDone := true } := by simp [svcFail]
@[simp] theorem svcFail_backup (c : Chip) : (svcFail c).backup = c.backup := by simp [svcFail]
@[simp] theorem svcFail_store (c : Chip) : (svcFail c).store = c.store := by simp [svcFail]

theorem getF_svcFail (c : Chip) : getF Reg.PWR_SVC_FAILED 0 (svcFail c) = 1 ∧
    getF Reg.PWR_SVC_FAIL_CNT 0 (svcFail c) = min (getF Reg.PWR_SVC_FAIL_CNT 0 c + 1) 255 ∧
    getF Reg.PWR_SVC_HELD 0 (svcFail c) = getF Reg.PWR_SVC_HELD 0 c := by
  refine ⟨?_, ?_, ?_⟩
  · rw [svcFail, getF_eventF (by decide), getF_withPwr, addSat, getF_setF_of_key (by decide), getF_setF_same]
    rfl
  · rw [svcFail, getF_eventF (by decide), getF_withPwr, getF_addSat_same _ _ _ (by decide), getF_setF_of_key (by decide)]
  · rw [svcFail, getF_eventF (by decide), getF_withPwr, addSat, getF_setF_of_key (by decide), getF_setF_of_key (by decide)]

/-- R78, R79: the press is longer than 60 s and still held, or was held since before the last reset. -/
theorem exec_svcbtnFailedClosed {s : State} {t0 : Nat} (hup : s.logicUp = true)
    (hpress : s.pwr.svcStart = some t0 ∨ s.pwr.svcStart = none ∧ s.pwr.svcStale = some t0) (hdone : s.pwr.svcDone = false)
    (hlong : t0 + 60000 < s.backup.ms) :
    ∃ t, exec .svcbtnFailedClosed s = .next t ∧ getF Reg.PWR_SVC_FAILED 0 t.toChip = 1 ∧
      getF Reg.PWR_SVC_FAIL_CNT 0 t.toChip = min (getF Reg.PWR_SVC_FAIL_CNT 0 s.toChip + 1) 255 ∧
      t.pwr.svcDone = true ∧ t.backup = s.backup ∧ t.store = s.store := by
  obtain ⟨hfailed, hcount, -⟩ := getF_svcFail s.toChip
  refine ⟨_, run_next svcFailedClosed s, ?_⟩
  dsimp only
  rw [settle_pwr, settle_backup, settle_store, getF_settle (by decide), getF_settle (by decide),
    svcFailedClosed_of_long hup hdone hpress hlong, svcFail_pwr, svcFail_backup, svcFail_store]
  exact ⟨hfailed, hcount, rfl, rfl, rfl⟩

/-- R78: a press that ends after more than 60 s is the failure, noted before its length. -/
theorem exec_svcbtnPressEnd_failed {s : State} {t0 : Nat} (hup : s.logicUp = true) (hstart : s.pwr.svcStart = some t0)
    (hdone : s.pwr.svcDone = false) (hlong : 60000 < s.backup.ms - t0) :
    ∃ t, exec .svcbtnPressEnd s = .next t ∧ getF Reg.PWR_SVC_FAILED 0 t.toChip = 1 ∧
      getF Reg.PWR_SVC_FAIL_CNT 0 t.toChip = min (getF Reg.PWR_SVC_FAIL_CNT 0 s.toChip + 1) 255 ∧
      getF Reg.PWR_SVC_LAST_MS 0 t.toChip = min (s.backup.ms - t0) 65535 ∧ t.pwr.bidOpen = s.pwr.bidOpen ∧
      getF Reg.PWR_SVC_HELD 0 t.toChip = 0 ∧ t.backup = s.backup ∧ t.store = s.store := by
  have hfail : svcFailedClosed (setF Reg.PWR_SVC_HELD 0 0 s.toChip) = svcFail (setF Reg.PWR_SVC_HELD 0 0 s.toChip) :=
    svcFailedClosed_of_long (t := t0) (by simpa [Chip.logicUp] using hup) (by simpa using hdone) (.inl (by simpa using hstart))
      (by rw [setF_backup]; omega)
  have hrow : svcPressEnd s.toChip = pressNoted t0 (svcFail (setF Reg.PWR_SVC_HELD 0 0 s.toChip)) := by
    rw [svcPressEnd_of_start hup (t := t0) (by rw [hfail, svcFail_pwr, setF_pwr]; exact hstart), hfail]
    exact if_pos (.inl (by simp))
  obtain ⟨hfailed, hcount, hheld⟩ := getF_svcFail (setF Reg.PWR_SVC_HELD 0 0 s.toChip)
  refine ⟨_, run_next svcPressEnd s, ?_⟩
  dsimp only
  rw [settle_pwr, settle_backup, settle_store, getF_settle (by decide), getF_settle (by decide), getF_settle (by decide),
    getF_settle (by decide), hrow, getF_pressNoted (by decide), getF_pressNoted (by decide), getF_pressNoted_same,
    getF_pressNoted (by decide), hfailed, hcount, hheld, getF_setF_of_key (by decide), getF_setF_same, svcFail_backup, setF_backup]
  exact ⟨rfl, rfl, rfl, by simp, rfl, by simp, by simp⟩

theorem bidWindowEnd_of_over {w : Nat} {c : Chip} (hopen : c.pwr.bidOpen = some w) (hover : w ≤ c.backup.ms) :
    bidWindowEnd c = setF Reg.HST_SVC_WINDOW_S 0 0 { c with pwr := { c.pwr with bidOpen := none } } := by
  simp only [bidWindowEnd, hopen]
  exact if_neg (by omega)

/-! ### The obligation -/

/-- Settles O12: a warning and its end by what they leave, a press of the button by its length. -/
theorem powerFailAndServiceButton : Obligations.PowerFailAndServiceButton := by
  intro s hup
  refine ⟨fun hhold hoff hlow => ?_, fun _ hsup hs => ?_,
    fun hhold hoff hlow hwait hsup => exec_pfwarnRecovered hup hhold hoff hlow hwait hsup,
    fun hstale hstart hawake hpend hs => ?_, fun t0 hstart hdone hmin hmax => exec_svcbtnPressEnd_attention hup hstart hdone hmin hmax,
    fun t0 hstart hdone hmin hmax => exec_svcbtnPressEnd_recovery hup hstart hdone hmin hmax,
    fun t0 hstart hdone hlong => exec_svcbtnPressEnd_failed hup hstart hdone hlong,
    fun t0 hstart hlen => exec_svcbtnPressEnd_bounce hup hstart hlen,
    fun t0 hpress hdone hlong => exec_svcbtnFailedClosed hup hpress hdone hlong, fun w hs hopen hover => ?_⟩
  · obtain ⟨t, hexec, h⟩ := exec_pfwarnRecognised hup hhold hoff hlow
    exact ⟨t, hexec, h.low, h.active, h.count, h.run, h.start, h.state, h.backup⟩
  · exact run_row hs (pfwarnRecovered_of_missing hup hsup) rfl
  · exact run_row hs (svcPressStart_of_awake hup hstale hstart hawake hpend) (by simp [dieView])
  · exact run_row hs (bidWindowEnd_of_over hopen hover) (by simp [dieView])

end Sys2Proof.Machine
end

section
/-!
The seal and the tamper inputs (chapters 03 and 16, R69, R226, R229, R439).
-/

namespace Sys2Proof.Machine
open Sys2Proof Sys2Proof.Safety

/-! ### Tamper occurrences, R226, R229 -/

/-- An occurrence is recorded at once: the legal store is restored, and no action of a boundary of this ms waits. -/
def recordsNow (c : Chip) : Bool := c.bil.ready && !(c.bil.due.any fun d => d.mt == c.backup.ms)

theorem recordsNow_of {c : Chip} (hready : c.bil.ready = true) (hdue : (c.bil.due.any fun d => d.mt == c.backup.ms) = false) :
    recordsNow c = true := by simp [recordsNow, hready, hdue]

theorem occurrence_of_now (code : Nat) {c : Chip} (h : recordsNow c = true) :
    occurrence code c = tamperPut code 0 (wallMs c / 1000) c.backup.ms c := by
  simp only [recordsNow, Bool.and_eq_true, Bool.not_eq_true'] at h
  obtain ⟨hready, hdue⟩ := h
  rw [occurrence, if_pos hready, tamper, if_neg (by simp [hdue])]

theorem occurrence_of_later (code : Nat) {c : Chip}
    (h : c.bil.ready = false ∨ (c.bil.due.any fun d => d.mt == c.backup.ms) = true) :
    occurrence code c = tamperLater code 0 c := by
  unfold occurrence
  split
  · next hready =>
    rcases h with h | h
    · exact absurd hready (by simp [h])
    · exact if_pos h
  · rfl

theorem occurrence_cases (code : Nat) (c : Chip) :
    occurrence code c = tamperPut code 0 (wallMs c / 1000) c.backup.ms c ∨ occurrence code c = tamperLater code 0 c := by
  cases h : recordsNow c
  · refine .inr (occurrence_of_later code ?_)
    cases hready : c.bil.ready
    · exact .inl rfl
    · simpa [recordsNow, hready] using h
  · exact .inl (occurrence_of_now code h)

/-- R226: the record of a code counts each of its occurrences. -/
theorem count_tamperPut {code : Nat} (h : code - 1 < 16) (info wall mt : Nat) (c : Chip) :
    ((tamperPut code info wall mt c).store.tamper[code - 1]?.getD {}).count =
      min ((c.store.tamper[code - 1]?.getD {}).count + 1) 0xFFFFFFFF := by
  simp only [tamperPut, Vector.getElem?_setIfInBounds_self, h, if_true, Option.getD_some]
  split
  · next hzero => rw [hzero]; rfl
  · rfl

/-- What an occurrence leaves. -/
theorem occurrence_kept (code : Nat) (c : Chip) : (occurrence code c).hsl = c.hsl ∧ (occurrence code c).sec = c.sec ∧
    (occurrence code c).backup.inputs = c.backup.inputs ∧ (occurrence code c).backup.ms = c.backup.ms ∧
    (occurrence code c).backup.sealDue = c.backup.sealDue := by
  rcases occurrence_cases code c with e | e <;> rw [e] <;> exact ⟨rfl, rfl, rfl, rfl, rfl⟩

theorem level_of_inputs {c d : Chip} (h : d.backup.inputs = c.backup.inputs) (k : Fin 5) :
    (d.backup.inputs[k]).level = (c.backup.inputs[k]).level := by rw [h]

/-! ### The seal, R439 -/

/-- The seal is open, as its input shows it. -/
def sealInputOpen (c : Chip) : Chip := inputPut 0 true { c with backup := { c.backup with sealDue := false } }

/-- An opening counts its service transition beside its occurrence. -/
theorem sealOpen_of_closed {c : Chip} (hin : inputsSampled c = true) (hclosed : (c.backup.inputs[0]).level = false) :
    ∃ d, sealOpen c = d ∧ d.store = (occurrence 3 (sealInputOpen c)).store ∧
      d.backup = (occurrence 3 (sealInputOpen c)).backup ∧ d.hsl = c.hsl := by
  have hhsl : (occurrence 3 (sealInputOpen c)).hsl = c.hsl := (occurrence_kept _ _).1
  refine ⟨_, rfl, ?_⟩
  rw [sealOpen, if_neg (by simp [hin, hclosed])]
  dsimp only
  split
  · exact ⟨by rw [addSat, setF_store]; rfl, by rw [addSat, setF_backup]; rfl, by rw [addSat, setF_hsl]; exact hhsl⟩
  · exact ⟨rfl, rfl, hhsl⟩

theorem exec_sealOpened {s : State} (hin : inputsSampled s.toChip = true) (hclosed : (s.backup.inputs[0]).level = false) :
    ∃ t, exec .sealOpened s = .next t ∧ (t.backup.inputs[0]).level = true ∧ t.backup.sealDue = false ∧
      (s.bil.ready = true → s.bil.due.any (fun d => d.mt == s.backup.ms) = false →
        (t.store.tamper[2]).count = min ((s.store.tamper[2]).count + 1) 0xFFFFFFFF ∧ t.store.copies = s.store.copies ∧
          t.backup.late = s.backup.late) ∧
      (s.bil.ready = false ∨ s.bil.due.any (fun d => d.mt == s.backup.ms) = true → t.store = s.store ∧
        t.backup.late = s.backup.late ++ [(3, 0, wallMs s.toChip / 1000, s.backup.ms)]) ∧
      t.backup.ms = s.backup.ms ∧ t.hsl.latch = s.hsl.latch ∧ t.hsl.trump = s.hsl.trump := by
  obtain ⟨d, hd, hstore, hbackup, hhsl⟩ := sealOpen_of_closed hin hclosed
  obtain ⟨-, -, hinputs, hms, hsealDue⟩ := occurrence_kept 3 (sealInputOpen s.toChip)
  refine ⟨_, run_next sealOpen s, ?_⟩
  dsimp only
  rw [settle_backup, settle_store, settle_hsl_latch, settle_hsl_trump, hd, hstore, hbackup, hhsl]
  refine ⟨?_, hsealDue, fun hready hdue => ?_, fun hlater => ?_, hms, rfl, rfl⟩
  · exact (level_of_inputs hinputs 0).trans (by simp [sealInputOpen, inputPut])
  · have hnow := occurrence_of_now 3 (c := sealInputOpen s.toChip) (recordsNow_of hready hdue)
    have hcount := count_tamperPut (code := 3) (by decide) 0 (wallMs (sealInputOpen s.toChip) / 1000)
      (sealInputOpen s.toChip).backup.ms (sealInputOpen s.toChip)
    rw [← hnow] at hcount
    have hold : (sealInputOpen s.toChip).store = s.store := rfl
    refine ⟨by simpa [hold] using hcount, ?_, ?_⟩ <;> rw [hnow] <;> rfl
  · rw [occurrence_of_later 3 (c := sealInputOpen s.toChip) hlater]
    exact ⟨rfl, rfl⟩

/-- The seal is closed, as its input shows it. -/
def sealInputClosed (c : Chip) : Chip := inputPut 0 false c

theorem exec_sealClosed {s : State} (hin : inputsSampled s.toChip = true) (hopen : (s.backup.inputs[0]).level = true)
    (hservice : inService s.toChip = false) :
    ∃ t, exec (.sealClosed true) s = .next t ∧ (t.backup.inputs[0]).level = false ∧ t.backup.ms = s.backup.ms ∧
      t.sec = s.sec ∧ t.hsl.latch = s.hsl.latch ∧
      (s.pwr.phase = .run → getF Reg.BIL_STAT_COPY_NEW 0 t.toChip = 1 ∧
        t.store = { s.store with sealed := some (sealedOf (runningDeck s.toChip)) }) ∧
      (s.pwr.phase = .bare → t.store = s.store ∧ t.backup.sealDue = s.backup.sealDue) ∧
      (s.pwr.phase ≠ .run → s.pwr.phase ≠ .bare → t.store = s.store ∧ t.backup.sealDue = true) := by
  have hrow : sealClose true s.toChip = match s.pwr.phase with
      | .run => sealCopy (sealInputClosed s.toChip)
      | .bare => sealInputClosed s.toChip
      | _ => { sealInputClosed s.toChip with backup := { (sealInputClosed s.toChip).backup with sealDue := true } } := by
    rw [sealClose, if_neg (by simp [hin, hopen])]
    simp only [hservice, Bool.false_eq_true, if_false, sealRecord, Bool.not_false, if_true]
    rfl
  have hlevel : ((sealInputClosed s.toChip).backup.inputs[0]).level = false := by simp [sealInputClosed, inputPut]
  refine ⟨_, run_next (sealClose true) s, ?_⟩
  dsimp only
  rw [settle_backup, settle_store, settle_hsl_latch, settle_sec, getF_settle (by decide), hrow]
  cases hphase : s.pwr.phase with
  | run =>
    dsimp only
    refine ⟨by simpa [sealCopy] using hlevel, by simp [sealCopy, sealInputClosed, inputPut],
      by simp [sealCopy, sealInputClosed, inputPut], by simp [sealCopy, sealInputClosed, inputPut],
      fun _ => ⟨?_, by simp [sealCopy, sealInputClosed, inputPut, runningDeck]⟩, nofun, fun h => absurd rfl h⟩
    rw [sealCopy, flagF_of_one_bit rfl (by decide), getF_setF_of_key (by decide), getF_setF_same]
    rfl
  | bare => exact ⟨hlevel, rfl, rfl, rfl, nofun, fun _ => ⟨rfl, rfl⟩, fun _ h => absurd rfl h⟩
  | _ => exact ⟨hlevel, rfl, rfl, rfl, nofun, nofun, fun _ _ => ⟨rfl, rfl⟩⟩

/-! ### The tamper inputs, R69, R226, R227 -/

theorem tamperInput_of_change {k : Fin 5} {level recordOk : Bool} {c : Chip} (hk : k.val ≠ 0) (hin : inputsSampled c = true)
    (hlevel : (c.backup.inputs[k]).level ≠ level) : tamperInput k.val level recordOk c =
      if c.backup.tamperCfg.1.testBit (k.val - 1) = level ∧ c.backup.tamperCfg.2.testBit (k.val - 1) = true then
        occurrence ([1, 2, 14, 15].getD (k.val - 1) 1) (inputPut k.val level c) else inputPut k.val level c := by
  rw [tamperInput, if_neg hk, if_neg (by simpa [hin] using hlevel)]
  rfl

theorem exec_tamperInputChange {s : State} {k : Fin 5} {level recordOk : Bool} (hin : inputsSampled s.toChip = true)
    (hk : k.val ≠ 0) (hlevel : (s.backup.inputs[k]).level ≠ level) (hready : s.bil.ready = true)
    (hdue : s.bil.due.any (fun d => d.mt == s.backup.ms) = false) :
    ∃ t, exec (.tamperInputChange k level recordOk) s = .next t ∧ (t.backup.inputs[k]).level = level ∧
      (s.backup.tamperCfg.1.testBit (k.val - 1) = level → s.backup.tamperCfg.2.testBit (k.val - 1) = true →
        ∀ code, [1, 2, 14, 15][k.val - 1]? = some code →
        (t.store.tamper[code - 1]?.getD ({} : TamperRec)).count =
          min ((s.store.tamper[code - 1]?.getD ({} : TamperRec)).count + 1) 0xFFFFFFFF) ∧
      (s.backup.tamperCfg.2.testBit (k.val - 1) = false → t.store = s.store) ∧ t.hsl.latch = s.hsl.latch ∧
      t.sec = s.sec := by
  have hrow := tamperInput_of_change (recordOk := recordOk) hk hin hlevel
  have hput : ((inputPut k.val level s.toChip).backup.inputs[k]).level = level := by simp [inputPut]
  refine ⟨_, run_next (tamperInput k.val level recordOk) s, ?_⟩
  dsimp only
  rw [settle_backup, settle_store, settle_hsl_latch, settle_sec, hrow]
  split
  · next h =>
    obtain ⟨-, henabled⟩ := h
    obtain ⟨hhsl, hsec, hinputs, -, -⟩ := occurrence_kept ([1, 2, 14, 15].getD (k.val - 1) 1) (inputPut k.val level s.toChip)
    rw [hhsl, hsec]
    refine ⟨(level_of_inputs hinputs k).trans hput, fun _ _ code hcode => ?_, fun hoff => absurd henabled (by simp [hoff]), rfl, rfl⟩
    have hlt : code - 1 < 16 := by
      have hmem := List.mem_of_getElem? hcode
      simp only [List.mem_cons, List.not_mem_nil, or_false] at hmem
      omega
    rw [List.getD_eq_getElem?_getD, hcode, Option.getD_some,
      occurrence_of_now code (c := inputPut k.val level s.toChip) (recordsNow_of hready hdue), count_tamperPut hlt]
    rfl
  · next h => exact ⟨hput, fun hactive henabled => absurd ⟨hactive, henabled⟩ h, fun _ => rfl, rfl, rfl⟩

/-- Settles O48: an input shows its registered level, and its occurrence is recorded at once or kept for later. -/
theorem sealAndTamperInputsRecord : Obligations.SealAndTamperInputsRecord := fun _ hin =>
  ⟨fun hclosed => exec_sealOpened hin hclosed, fun hopen hservice => exec_sealClosed hin hopen hservice,
    fun _ _ _ hk hlevel hready hdue => exec_tamperInputChange hin hk hlevel hready hdue⟩

end Sys2Proof.Machine
end

section
/-!
Streams that lose their clock, and the clock checks (chapters 03 and 06, R58, R59, R148, R150).
-/

namespace Sys2Proof.Machine
open Sys2Proof Sys2Proof.Safety

/-! ### The loss of a stream -/

theorem fkey_bit (f : Fld) (i : Nat) : fkey f i % 32 = f.lsb % 32 := by simp only [fkey]; omega

/-- Fields at different bits of their words are different fields. -/
theorem getF_setF_of_lsb {g f : Fld} (h : g.lsb % 32 ≠ f.lsb % 32) (j i v : Nat) (c : Chip) :
    getF g j (setF f i v c) = getF g j c :=
  getF_setF_of_key (fun e => h (by rw [← fkey_bit g j, e, fkey_bit])) v c

theorem getF_flagF_of_lsb {e f g : Fld} (hf : e.lsb % 32 ≠ f.lsb % 32) (hg : e.lsb % 32 ≠ g.lsb % 32) (m i k j : Nat) (c : Chip) :
    getF e m (flagF f i k g j c) = getF e m c := by
  rw [flagF, flagBit, addSat, getF_setF_of_lsb hg, setBitF, getF_setF_of_lsb hf]

/-- A stream's state put back. -/
def streamPut (s : Nat) (x : StreamState) (c : Chip) : Chip :=
  { c with sns := { c.sns with streams := c.sns.streams.setIfInBounds s x } }

/-- R150: the event of a loss is counted by the stream's word of flags. -/
def lossCounted (s : Nat) (c : Chip) : Chip :=
  match s / 32 with
  | 0 => addSat Reg.SNS_FLAG_EVT_LOSS0 0 255 1 c
  | 1 => addSat Reg.SNS_FLAG_EVT_LOSS1 0 255 1 c
  | _ => addSat Reg.SNS_FLAG_EVT_LOSS2 0 255 1 c

/-- A loss of a stream that is lost already may raise its cause. -/
def lossAgain (s cause : Nat) (c : Chip) : Chip :=
  let st := c.sns.streams[s]?.getD {}
  let d := streamPut s { st with good := 0 } c
  if st.lostAt = d.sns.prtN ∧ getF Reg.SNS_SSTAT_CAUSE s d < cause then setF Reg.SNS_SSTAT_CAUSE s cause d else d

/-- R150: the flags, counts and event record of a new loss. -/
def lossNew (s cause : Nat) (c : Chip) : Chip :=
  let st := { (c.sns.streams[s]?.getD {}) with lost := true, lostAt := c.sns.prtN, good := 0, bad := 0, recovery := false }
  eventBit Reg.SNS_LOSS_LOSS (s / 32) (s % 32) s [] (addSat Reg.SNS_LOSSCNT_LOSS s 65535 1 (setF Reg.SNS_SSTAT_CAUSE s cause
    (lossCounted s (setBitF Reg.SNS_LOSS_LOSS (s / 32) (s % 32) true (streamPut s st c)))))

/-- The loss of a stream that a billing element reads is an occurrence of tampering. -/
def lossBilled (s : Nat) (c : Chip) : Chip := if streamBilled s c then tamper 9 s c else c

theorem declareLost_eq (s cause : Nat) (c : Chip) : declareLost s cause c =
    if !streamOn s c then c
    else if (c.sns.streams[s]?.getD {}).lost then lossAgain s cause c
    else showStream s (lossBilled s (lossNew s cause c)) := rfl

/-- What the loss of stream `s` leaves: a view that ignores that stream's state, the registers of the blocks from the Dealer on (roles
apart, which stand at bit 29), event records and tamper records. -/
structure LossKeeps {β : Type} (s : Nat) (v : Chip → β) : Prop where
  setF : ∀ (f : Fld) i x c, 0x20000 ≤ f.base → f.lsb % 32 ≠ 29 → v (setF f i x c) = v c
  stream : ∀ (c : Chip) x, v (streamPut s x c) = v c
  event : ∀ f i k n x c, v (eventBit f i k n x c) = v c
  tamper : ∀ k n c, v (tamper k n c) = v c

namespace LossKeeps
variable {β : Type} {s : Nat} {v : Chip → β} (h : LossKeeps s v)
include h

theorem showStream (c : Chip) : v (showStream s c) = v c := by
  rw [Machine.showStream, lossAny, h.setF _ _ _ _ (by decide) (by decide), h.setF _ _ _ _ (by decide) (by decide),
    h.setF _ _ _ _ (by decide) (by decide), setBitF, h.setF _ _ _ _ (by decide) (by decide)]

theorem lossCounted (c : Chip) : v (lossCounted s c) = v c := by
  unfold Machine.lossCounted
  split <;> exact h.setF _ _ _ _ (by decide) (by decide)

theorem lossAgain (cause : Nat) (c : Chip) : v (lossAgain s cause c) = v c := by
  simp only [Machine.lossAgain]
  split
  · rw [h.setF _ _ _ _ (by decide) (by decide), h.stream]
  · exact h.stream _ _

theorem lossNew (cause : Nat) (c : Chip) : v (lossNew s cause c) = v c := by
  rw [Machine.lossNew, h.event, addSat, h.setF _ _ _ _ (by decide) (by decide), h.setF _ _ _ _ (by decide) (by decide),
    h.lossCounted, setBitF, h.setF _ _ _ _ (by decide) (by decide), h.stream]

theorem lossBilled (c : Chip) : v (lossBilled s c) = v c := by
  unfold Machine.lossBilled
  split
  · exact h.tamper _ _ _
  · rfl

theorem declareLost (cause : Nat) (c : Chip) : v (declareLost s cause c) = v c := by
  rw [declareLost_eq]
  split
  · rfl
  · split
    · exact h.lossAgain cause c
    · rw [h.showStream, h.lossBilled, h.lossNew]

end LossKeeps

/-- The device without its registers, the streams' states, the event records and the tamper records. -/
def lossView (c : Chip) : Chip :=
  { noRegs c with sns := {}, hst := {}, store := { c.store with tamper := default }, backup := { c.backup with late := [] } }

theorem lossView_setF (f : Fld) (i v : Nat) (c : Chip) : lossView (setF f i v c) = lossView c :=
  congrArg (fun d : Chip => { d with sns := {}, hst := {}, store := { d.store with tamper := default }
                                     backup := { d.backup with late := [] } }) (noRegs_setF f i v c)

theorem lossView_pushAll (c : Chip) : lossView (pushAll c) = lossView c :=
  foldl_keeps lossView _ (fun c s => by
    have hpush : lossView (pushEvents s c).1 = lossView c := by
      simp only [pushEvents]
      split <;> rfl
    dsimp only
    split
    · rw [flagF, flagBit, addSat, lossView_setF, setBitF, lossView_setF, hpush]
    · exact hpush) _ c

theorem lossView_eventBit (f : Fld) (i k n : Nat) (x : List Nat) (c : Chip) : lossView (eventBit f i k n x c) = lossView c := by
  simp only [eventBit, eventRec, lossView_pushAll, lossView_setF]
  rfl

theorem lossView_tamper (k n : Nat) (c : Chip) : lossView (tamper k n c) = lossView c := by
  unfold tamper
  split <;> rfl

theorem lossKeeps_lossView (s : Nat) : LossKeeps s lossView where
  setF f i x c _ _ := lossView_setF f i x c
  stream _ _ := rfl
  event := lossView_eventBit
  tamper := lossView_tamper

theorem pwrRegs_tamper (k n : Nat) (c : Chip) : pwrRegs (tamper k n c) = pwrRegs c := by
  unfold tamper
  split <;> rfl

theorem lossKeeps_pwrRegs (s : Nat) : LossKeeps s pwrRegs where
  setF _ _ _ _ hf _ := pwrRegs_setF hf _ _ _
  stream _ _ := rfl
  event := pwrRegs_eventBit
  tamper := pwrRegs_tamper

theorem getF_withRegs {c d : Chip} (f : Fld) (i : Nat) (hr : d.regs = c.regs) (hb : d.bregs = c.bregs) (hf : d.fregs = c.fregs) :
    getF f i d = getF f i c := by
  simp only [getF, Chip.mapOf, hr, hb, hf]

theorem streamOn_congr {c d : Chip} {n : Nat} (h : streamRole n d = streamRole n c) : streamOn n d = streamOn n c := by
  rw [streamOn, streamOn, h]

theorem lossKeeps_streamRole (s n : Nat) : LossKeeps s (streamRole n) where
  setF _ _ _ _ _ hlsb := getF_setF_of_lsb (Ne.symm hlsb) n _ _ _
  stream c x := getF_withRegs Reg.SNS_CFG_ROLE n rfl rfl rfl
  event _ _ _ _ _ c := by
    have hpush : ∀ c : Chip, getF Reg.SNS_CFG_ROLE n (pushAll c) = getF Reg.SNS_CFG_ROLE n c := fun c =>
      foldl_keeps (getF Reg.SNS_CFG_ROLE n) _ (fun c s => by
        have hone : getF Reg.SNS_CFG_ROLE n (pushEvents s c).1 = getF Reg.SNS_CFG_ROLE n c := by
          refine getF_withRegs _ _ ?_ ?_ ?_ <;> simp only [pushEvents] <;> split <;> rfl
        dsimp only
        split
        · rw [getF_flagF_of_lsb (by decide) (by decide), hone]
        · exact hone) _ c
    simp only [streamRole, eventBit, eventRec, hpush, getF_setF_of_lsb (g := Reg.SNS_CFG_ROLE) (f := Reg.HST_EVTSEQ_SEQ) (by decide)]
    exact getF_withRegs _ _ rfl rfl rfl
  tamper k m c := by
    refine getF_withRegs _ _ ?_ ?_ ?_ <;> unfold tamper <;> split <;> rfl

/-- The losses of another stream. -/
theorem lossKeeps_other {s n : Nat} (hne : n ≠ s) : LossKeeps s fun c => c.sns.streams[n]? where
  setF f i x c _ _ := by rw [setF_sns]
  stream c x := Vector.getElem?_setIfInBounds_ne hne.symm
  event f i k m x c := by rw [eventBit_sns]
  tamper k m c := by rw [tamper_sns]

/-- A stream is declared lost. -/
def streamLost (n : Nat) (c : Chip) : Bool := (c.sns.streams[n]?.getD {}).lost

theorem streamLost_congr {c d : Chip} {n : Nat} (h : d.sns = c.sns) : streamLost n d = streamLost n c := by
  rw [streamLost, streamLost, h]

theorem streamLost_streamPut {n : Nat} (hn : n < 96) (x : StreamState) (c : Chip) : streamLost n (streamPut n x c) = x.lost := by
  simp [streamLost, streamPut, hn]

theorem showStream_sns (s : Nat) (c : Chip) : (showStream s c).sns = c.sns := by simp [showStream, lossAny, setBitF]

theorem lossBilled_sns (s : Nat) (c : Chip) : (lossBilled s c).sns = c.sns := by
  unfold lossBilled
  split <;> simp

theorem lossCounted_sns (s : Nat) (c : Chip) : (lossCounted s c).sns = c.sns := by
  unfold lossCounted
  split <;> simp [addSat]

theorem streamLost_lossNew {s : Nat} (hs : s < 96) (cause : Nat) (c : Chip) : streamLost s (lossNew s cause c) = true := by
  rw [lossNew, streamLost_congr (eventBit_sns _ _ _ _ _ _), addSat, streamLost_congr (setF_sns _ _ _ _),
    streamLost_congr (setF_sns _ _ _ _), streamLost_congr (lossCounted_sns _ _), setBitF, streamLost_congr (setF_sns _ _ _ _),
    streamLost_streamPut hs]

theorem streamLost_declareLost {s : Nat} (hs : s < 96) (cause : Nat) {c : Chip} (hon : streamOn s c = true) :
    streamLost s (declareLost s cause c) = true := by
  rw [declareLost_eq, if_neg (by simp [hon])]
  split
  · next hlost =>
    simp only [lossAgain]
    split
    · rw [streamLost_congr (setF_sns _ _ _ _), streamLost_streamPut hs]
      exact hlost
    · rw [streamLost_streamPut hs]
      exact hlost
  · rw [streamLost_congr (showStream_sns _ _), streamLost_congr (lossBilled_sns _ _), streamLost_lossNew hs]

/-! ### Every stream lost -/

theorem streamsLostAll_keeps {β : Type} {v : Chip → β} (h : ∀ s, LossKeeps s v) (c : Chip) : v (streamsLostAll c) = v c :=
  foldl_keeps v _ (fun c s => (h s).declareLost 3 c) _ c

/-- R59, R148: every configured stream is declared lost. -/
theorem streamLost_streamsLostAll {n : Nat} (hn : n < 96) {c : Chip} (hon : streamOn n c = true) :
    streamLost n (streamsLostAll c) = true := by
  obtain ⟨d, hd, hfold⟩ := foldl_at (fun c => (c.sns.streams[n]?, streamRole n c)) (fun c s => declareLost s 3 c) n
    (fun c m hm => Prod.ext ((lossKeeps_other hm.symm).declareLost 3 c) ((lossKeeps_streamRole m n).declareLost 3 c))
    (List.range 96) List.nodup_range (List.mem_range.mpr hn) c
  simp only [Prod.mk.injEq] at hd hfold
  have hon' : streamOn n d = true := (streamOn_congr hd.2).trans hon
  rw [streamLost, streamsLostAll, hfold.1]
  exact streamLost_declareLost hn 3 hon'

/-! ### Blind protection -/

/-- The device without its registers, the protection and the bridge. -/
def blindView (c : Chip) : Chip := { noRegs c with prt := {}, bridge := {} }

theorem blindView_setF (f : Fld) (i v : Nat) (c : Chip) : blindView (setF f i v c) = blindView c :=
  congrArg (fun d : Chip => { d with prt := {}, bridge := {} }) (noRegs_setF f i v c)

theorem blindView_tripSend (n : Nat) (kinds : BitVec 6) (c : Chip) : blindView (tripSend n kinds c) = blindView c := by
  simp only [tripSend]
  split <;> rfl

theorem pwrRegs_tripSend (n : Nat) (kinds : BitVec 6) (c : Chip) : pwrRegs (tripSend n kinds c) = pwrRegs c := by
  simp only [tripSend]
  split <;> rfl

theorem blindView_blindAll (c : Chip) : blindView (blindAll c) = blindView c := by
  refine (foldl_keeps blindView _ (fun c n => ?_) _ _).trans (blindView_setF _ _ _ c)
  dsimp only
  split
  · rw [blindView_tripSend]; rfl
  · rfl

theorem pwrRegs_blindAll (c : Chip) : pwrRegs (blindAll c) = pwrRegs c := by
  refine (foldl_keeps pwrRegs _ (fun c n => ?_) _ _).trans (pwrRegs_setF (by decide) _ _ c)
  dsimp only
  split
  · rw [pwrRegs_tripSend]; rfl
  · rfl

theorem part_of_blindView {β : Type} (g : Chip → β) (hg : ∀ c, g (blindView c) = g c) (c : Chip) : g (blindAll c) = g c := by
  rw [← hg (blindAll c), blindView_blindAll, hg]

@[simp] theorem blindAll_hsl (c : Chip) : (blindAll c).hsl = c.hsl := part_of_blindView Chip.hsl (fun _ => rfl) c
@[simp] theorem blindAll_pwr (c : Chip) : (blindAll c).pwr = c.pwr := part_of_blindView Chip.pwr (fun _ => rfl) c
@[simp] theorem blindAll_sns (c : Chip) : (blindAll c).sns = c.sns := part_of_blindView Chip.sns (fun _ => rfl) c

theorem part_of_lossView {β : Type} (g : Chip → β) (hg : ∀ c, g (lossView c) = g c) (c : Chip) : g (streamsLostAll c) = g c := by
  rw [← hg (streamsLostAll c), streamsLostAll_keeps lossKeeps_lossView, hg]

@[simp] theorem streamsLostAll_pwr (c : Chip) : (streamsLostAll c).pwr = c.pwr := part_of_lossView Chip.pwr (fun _ => rfl) c

/-! ### MCLK, R58, R59 -/

/-- What MCLK's loss writes before its consequences. -/
def mclkFallen (c : Chip) : Chip :=
  let d := flagF Reg.PWR_CLKSTAT_MCLK_FAULT 0 0 Reg.PWR_CLKSTAT_EVT_CNT 0 (setF Reg.PWR_CLKSTAT_MCLK_OK 0 0 c)
  { d with pwr := { d.pwr with mclkFault := true, mclkGood := 0 } }

theorem mclkFallen_pwr (c : Chip) : (mclkFallen c).pwr = { c.pwr with mclkFault := true, mclkGood := 0 } := by simp [mclkFallen]

theorem mclkFault_of_good {c : Chip} (h : c.pwr.mclkFault = false) :
    mclkFault c = blindAll (withdrawAll (streamsLostAll (mclkFallen c))) := by
  simp only [mclkFault, setF_pwr, h, Bool.false_eq_true, if_false, mclkFallen]

theorem getF_fault_mclkFallen (c : Chip) : getF Reg.PWR_CLKSTAT_MCLK_FAULT 0 (mclkFallen c) = 1 := by
  rw [mclkFallen, getF_withPwr, flagF_of_one_bit rfl (by decide), getF_setF_of_key (by decide), getF_setF_same]
  rfl

/-- R59: what MCLK's fault leaves. -/
structure MclkLost (c d : Chip) : Prop where
  fault : d.pwr.mclkFault = true
  regs : pwrRegs d = pwrRegs (mclkFallen c)
  streams : ∀ n, n < 96 → streamOn n c = true → streamLost n d = true
  gates : ∀ n, n < 16 → (hslBay n d).gate = false ∧ (hslBay n d).grant = false

theorem getF_mclkFallen {f : Fld} {i : Nat} (hfault : fkey f i ≠ fkey Reg.PWR_CLKSTAT_MCLK_FAULT 0)
    (hcount : fkey f i ≠ fkey Reg.PWR_CLKSTAT_EVT_CNT 0) (hok : fkey f i ≠ fkey Reg.PWR_CLKSTAT_MCLK_OK 0) (c : Chip) :
    getF f i (mclkFallen c) = getF f i c := by
  rw [mclkFallen, getF_withPwr, flagF, flagBit, addSat, getF_setF_of_key hcount, setBitF, getF_setF_of_key hfault,
    getF_setF_of_key hok]

theorem streamRole_mclkFallen (n : Nat) (c : Chip) : streamRole n (mclkFallen c) = streamRole n c := by
  have hne : ∀ f : Fld, f.lsb % 32 ≠ 29 → fkey Reg.SNS_CFG_ROLE n ≠ fkey f 0 := fun f hf e => by
    have hbit := congrArg (· % 32) e
    simp only [fkey_bit] at hbit
    exact hf hbit.symm
  exact getF_mclkFallen (hne _ (by decide)) (hne _ (by decide)) (hne _ (by decide)) c

theorem mclkLost_mclkFault {c : Chip} (h : c.pwr.mclkFault = false) : MclkLost c (mclkFault c) where
  fault := by
    rw [mclkFault_of_good h, blindAll_pwr, withdrawAll_pwr, streamsLostAll_pwr, mclkFallen_pwr]
  regs := by rw [mclkFault_of_good h, pwrRegs_blindAll, pwrRegs_withdrawAll, streamsLostAll_keeps lossKeeps_pwrRegs]
  streams n hn hon := by
    have hon' : streamOn n (mclkFallen c) = true := (streamOn_congr (streamRole_mclkFallen n c)).trans hon
    rw [mclkFault_of_good h, streamLost_congr (blindAll_sns _), streamLost_congr (withdrawAll_sns _),
      streamLost_streamsLostAll hn hon']
  gates n hn := by
    rw [mclkFault_of_good h, hslBay_congr (congrArg HslState.bays (blindAll_hsl _))]
    exact ⟨gate_withdrawAll hn _, grant_withdrawAll hn _⟩

/-! ### The rows of MCLK -/

/-- R58: a check window's count, shown. -/
def mclkCounted (count : Nat) (c : Chip) : Chip := setF Reg.PWR_CLKCNT_MCLK 0 (min count 65535) c

theorem getF_mclkCounted (count : Nat) (c : Chip) : getF Reg.PWR_CLKCNT_MCLK 0 (mclkCounted count c) = min count 65535 := by
  rw [mclkCounted, getF_setF_same]
  exact Nat.mod_eq_of_lt (lt_of_le_of_lt (Nat.min_le_right _ _) (by decide))

/-- A bad window: the count of bad windows in a row, and no good one. -/
def mclkMissed (count : Nat) (c : Chip) : Chip :=
  { mclkCounted count c with pwr := { c.pwr with mclkFail := c.pwr.mclkFail + 1, mclkGood := 0 } }

theorem mclkWindow_of_bad {count : Nat} {c : Chip} (hup : c.logicUp = true) (hbad : count < 40919 ∨ 41001 < count) :
    mclkWindow count c = if 1 ≤ c.pwr.mclkFail then mclkFault (mclkMissed count c) else streamsLostAll (mclkMissed count c) := by
  rw [mclkWindow, if_neg (by simp [hup])]
  dsimp only
  rw [if_neg (by omega), setF_pwr]
  split
  · next h => rw [if_pos (by omega)]; rfl
  · next h => rw [if_neg (by omega)]; rfl

theorem streamRole_mclkMissed (n count : Nat) (c : Chip) : streamRole n (mclkMissed count c) = streamRole n c := by
  rw [streamRole, mclkMissed, getF_withPwr, mclkCounted, getF_setF_of_lsb (by decide), streamRole]

theorem dieView_mclkMissed (count : Nat) (c : Chip) : dieView (mclkMissed count c) = dieView c := by
  simp [dieView, mclkMissed, mclkCounted]

/-- R58: the first bad window loses the streams alone. -/
theorem exec_mclkWindow_firstBad {s : State} {count : Nat} (hs : Settled s.toChip) (hup : s.logicUp = true)
    (hbad : count < 40919 ∨ 41001 < count) (hfirst : s.pwr.mclkFail = 0) :
    ∃ t, exec (.mclkCheckWindow count) s = .next t ∧ t.pwr.mclkFail = 1 ∧ t.pwr.mclkGood = 0 ∧
      t.pwr.mclkFault = s.pwr.mclkFault ∧ getF Reg.PWR_CLKCNT_MCLK 0 t.toChip = min count 65535 ∧
      (∀ n, n < 96 → streamOn n s.toChip = true → (t.sns.streams[n]?.getD {}).lost = true) ∧ t.hsl = s.hsl := by
  have hrow : mclkWindow count s.toChip = streamsLostAll (mclkMissed count s.toChip) :=
    (mclkWindow_of_bad hup hbad).trans (if_neg (by rw [hfirst]; decide))
  have hdie : dieView (mclkWindow count s.toChip) = dieView s.toChip := by
    rw [hrow, part_of_lossView dieView (fun _ => rfl), dieView_mclkMissed]
  refine ⟨_, run_kept hs hdie, ?_⟩
  dsimp only
  rw [hrow, streamsLostAll_pwr, getF_of_pwrRegs (streamsLostAll_keeps lossKeeps_pwrRegs _) (by decide)]
  refine ⟨by simp [mclkMissed, hfirst], rfl, rfl, ?_, fun n hn hon => ?_, ?_⟩
  · rw [mclkMissed, getF_withPwr, getF_mclkCounted]
  · exact streamLost_streamsLostAll hn ((streamOn_congr (streamRole_mclkMissed n count _)).trans hon)
  · rw [part_of_lossView Chip.hsl (fun _ => rfl), mclkMissed, mclkCounted, setF_hsl]

theorem exec_mclkWindow_secondBad {s : State} {count : Nat} (hup : s.logicUp = true)
    (hbad : count < 40919 ∨ 41001 < count) (hsecond : 1 ≤ s.pwr.mclkFail) (hgood : s.pwr.mclkFault = false) :
    ∃ t, exec (.mclkCheckWindow count) s = .next t ∧ t.pwr.mclkFault = true ∧
      getF Reg.PWR_CLKCNT_MCLK 0 t.toChip = min count 65535 ∧
      getF Reg.PWR_CLKSTAT_MCLK_OK 0 t.toChip = 0 ∧ getF Reg.PWR_CLKSTAT_MCLK_FAULT 0 t.toChip = 1 ∧
      getF Reg.PWR_CLKSTAT_EVT_CNT 0 t.toChip = min (getF Reg.PWR_CLKSTAT_EVT_CNT 0 s.toChip + 1) 255 ∧
      (∀ n, n < 96 → streamOn n s.toChip = true → (t.sns.streams[n]?.getD {}).lost = true) ∧
      ∀ n, n < 16 → (hslBay n t.toChip).gate = false ∧ (hslBay n t.toChip).grant = false := by
  have hrow : mclkWindow count s.toChip = mclkFault (mclkMissed count s.toChip) :=
    (mclkWindow_of_bad hup hbad).trans (if_pos hsecond)
  obtain ⟨hfault, hregs, hstreams, hgates⟩ := mclkLost_mclkFault (c := mclkMissed count s.toChip) hgood
  have hcnt := getF_mclkCounted count s.toChip
  refine ⟨_, run_next (mclkWindow count) s, ?_⟩
  dsimp only
  rw [settle_pwr, settle_sns, getF_settle (by decide), getF_settle (by decide), getF_settle (by decide), getF_settle (by decide),
    hrow, getF_of_pwrRegs hregs (by decide), getF_of_pwrRegs hregs (by decide), getF_of_pwrRegs hregs (by decide),
    getF_of_pwrRegs hregs (by decide)]
  refine ⟨hfault, ?_, ?_, ?_, ?_, fun n hn hon => ?_, fun n hn => ?_⟩
  · rw [getF_mclkFallen (by decide) (by decide) (by decide), mclkMissed, getF_withPwr, hcnt]
  · rw [mclkFallen, getF_withPwr, getF_flagF_of_lsb (by decide) (by decide), getF_setF_same]
    rfl
  · exact getF_fault_mclkFallen _
  · rw [mclkFallen, getF_withPwr, getF_count_flagF rfl _ (by decide), getF_setF_of_key (by decide), mclkMissed, getF_withPwr,
      mclkCounted, getF_setF_of_key (by decide)]
  · exact hstreams n hn ((streamOn_congr (streamRole_mclkMissed n count _)).trans hon)
  · obtain ⟨hgate, hgrant⟩ := hgates n hn
    exact ⟨gate_settle_off hn hgate, grant_settle_off hgrant⟩

/-- R59: the metrology PLL's loss is MCLK's. -/
theorem exec_metroPllLoss {s : State} (hup : s.logicUp = true) (hgood : s.pwr.mclkFault = false) :
    ∃ t, exec .metroPllLoss s = .next t ∧ t.pwr.mclkFault = true ∧ getF Reg.PWR_CLKSTAT_MCLK_FAULT 0 t.toChip = 1 ∧
      (∀ n, n < 96 → streamOn n s.toChip = true → (t.sns.streams[n]?.getD {}).lost = true) ∧
      ∀ n, n < 16 → (hslBay n t.toChip).gate = false ∧ (hslBay n t.toChip).grant = false := by
  have hrow : metroPllLoss s.toChip = mclkFault s.toChip := if_pos hup
  obtain ⟨hfault, hregs, hstreams, hgates⟩ := mclkLost_mclkFault hgood
  refine ⟨_, run_next metroPllLoss s, ?_⟩
  dsimp only
  rw [settle_pwr, settle_sns, getF_settle (by decide), hrow, getF_of_pwrRegs hregs (by decide)]
  refine ⟨hfault, getF_fault_mclkFallen _, hstreams, fun n hn => ?_⟩
  obtain ⟨hgate, hgrant⟩ := hgates n hn
  exact ⟨gate_settle_off hn hgate, grant_settle_off hgrant⟩

/-- R58: a window that passes while MCLK is good, and one of the 100 that end its fault. -/
theorem mclkWindow_of_pass {count : Nat} {c : Chip} (hup : c.logicUp = true) (hmin : 40919 ≤ count) (hmax : count ≤ 41001) :
    mclkWindow count c =
      { setF Reg.PWR_CLKSTAT_MCLK_OK 0 1 (setF Reg.PWR_CLKCNT_MCLK 0 count c) with
        pwr := if c.pwr.mclkFault then
          { c.pwr with mclkFail := 0, mclkFault := decide (c.pwr.mclkGood < 99)
                       mclkGood := if c.pwr.mclkGood < 99 then c.pwr.mclkGood + 1 else 0 }
          else { c.pwr with mclkFail := 0 } } := by
  rw [mclkWindow, if_neg (by simp [hup])]
  dsimp only
  rw [if_pos ⟨hmin, hmax⟩, Nat.min_eq_left (by omega)]
  simp only [setF_pwr]
  cases hfault : c.pwr.mclkFault
  · simp
  · by_cases hlast : c.pwr.mclkGood < 99
    · simp [hlast]
    · simp [hlast]

end Sys2Proof.Machine
end

section
/-!
The other clocks (chapter 03, R58, R59): BCLK, the drift of TCLK, the PLLs and FCLK.
-/

namespace Sys2Proof.Machine
open Sys2Proof Sys2Proof.Safety

/-! ### BCLK and the drift of TCLK -/

theorem bclkWindow_of_pass {count : Nat} {c : Chip} (hup : c.logicUp = true) (hmin : 31040 ≤ count) (hmax : count ≤ 32960)
    (hgood : c.pwr.mclkFault = false) (hpower : c.bridge.downPower = false) (hlogic : c.bridge.downLogic = false)
    (hpowered : c.powered = true) : bclkWindow count c = setF Reg.PWR_CLKSTAT_BCLK_OK 0 1
      { setF Reg.PWR_CLKCNT_BCLK 0 count c with pwr := { c.pwr with bclkFail := 0 } } := by
  rw [bclkWindow, if_neg (by simp [hup, hgood, hpower, hlogic, hpowered]), Nat.min_eq_left (by omega)]
  dsimp only
  rw [if_pos ⟨hmin, hmax⟩, setF_pwr]

theorem tclkDrift_of_first {count : Nat} {c : Chip} (hup : c.logicUp = true) (hbad : count < 327647 ∨ 327713 < count)
    (hfirst : c.pwr.driftFail = 0) : tclkDrift count c = { c with pwr := { c.pwr with driftFail := 1 } } := by
  rw [tclkDrift, if_neg (by simp [hup]), if_neg (by omega), if_pos hfirst]

theorem tclkDrift_of_next {count : Nat} {c : Chip} (hup : c.logicUp = true) (hbad : count < 327647 ∨ 327713 < count)
    (hnext : c.pwr.driftFail ≠ 0) : tclkDrift count c =
      setF Reg.PWR_CLKSTAT_EVT_CNT 0 (min (getF Reg.PWR_CLKSTAT_EVT_CNT 0 c + 1) 255)
        (setF Reg.PWR_CLKSTAT_TCLK_DRIFT 0 1 { c with pwr := { c.pwr with driftFail := c.pwr.driftFail + 1 } }) := by
  rw [tclkDrift, if_neg (by simp [hup]), if_neg (by omega), if_neg hnext, flagF_of_one_bit rfl (by decide), getF_withPwr]

theorem tclkDrift_of_pass {count : Nat} {c : Chip} (hup : c.logicUp = true) (hmin : 327647 ≤ count) (hmax : count ≤ 327713) :
    tclkDrift count c = { c with pwr := { c.pwr with driftFail := 0 } } := by
  rw [tclkDrift, if_neg (by simp [hup]), if_pos ⟨hmin, hmax⟩]

/-! ### The link PLL -/

theorem handIdle_dlr (h : Nat) (c : Chip) :
    (handIdle c h).dlr = { c.dlr with links := c.dlr.links.setIfInBounds h {} } := by simp [handIdle, linkPut]

/-- What an idle hand shows. -/
def handView (h : Nat) (c : Chip) : Option LinkHand × Nat := (c.dlr.links[h]?, getF Reg.DLR_HAND_STATE (64 + h) c)

theorem getF_linkPut (f : Fld) (i h : Nat) (x : LinkHand) (c : Chip) : getF f i (linkPut h x c) = getF f i c :=
  getF_withRegs f i rfl rfl rfl

theorem handView_handIdle_ne {h m : Nat} (hne : m ≠ h) (c : Chip) : handView h (handIdle c m) = handView h c := by
  have hkey : ∀ f ∈ [Reg.DLR_HAND_STATE, Reg.DLR_HAND_CLASS, Reg.DLR_HAND_WAIT],
      fkey Reg.DLR_HAND_STATE (64 + h) ≠ fkey f (64 + m) := by
    intro f hf
    simp only [List.mem_cons, List.not_mem_nil, or_false] at hf
    rcases hf with rfl | rfl | rfl <;>
      simp only [fkey, Reg.DLR_HAND_STATE, Reg.DLR_HAND_CLASS, Reg.DLR_HAND_WAIT] <;> omega
  refine Prod.ext ?_ ?_
  · simp only [handView, handIdle_dlr, Vector.getElem?_setIfInBounds_ne hne]
  · simp only [handView, handIdle]
    rw [getF_setF_of_key (hkey _ (by simp)), getF_setF_of_key (hkey _ (by simp)), getF_setF_of_key (hkey _ (by simp)),
      getF_linkPut]

theorem handView_handIdle_same {h : Nat} (hh : h < 32) (c : Chip) : handView h (handIdle c h) = (some {}, 0) := by
  refine Prod.ext ?_ ?_
  · simp [handView, handIdle_dlr, hh]
  · simp only [handView, handIdle]
    rw [getF_setF_same]
    rfl

/-- R59: without the link PLL every hand of the links goes idle. -/
theorem handView_linksIdle {h : Nat} (hh : h < 32) {c : Chip} (hpll : c.pwr.linkPll = false) :
    handView h (linksIdle c) = (some {}, 0) := by
  have hnone : linkCandidates c = [] := by simp [linkCandidates, hpll]
  obtain ⟨d, -, hfold⟩ := foldl_at (handView h) (fun d m => if (linkCandidates c).contains m then d else handIdle d m) h
    (fun d m hm => by
      simp only [hnone, List.contains_nil, Bool.false_eq_true, if_false]
      exact handView_handIdle_ne hm d) (List.range 32) List.nodup_range (List.mem_range.mpr hh) c
  rw [linksIdle_eq, hfold, hnone]
  exact handView_handIdle_same hh d

/-- The flag and the event of a lost PLL, and the PLL gone. -/
def linkPllFallen (c : Chip) : Chip :=
  let d := flagF Reg.PWR_CLKSTAT_LINK_PLL 0 0 Reg.PWR_CLKSTAT_EVT_CNT 0 c
  { d with pwr := { d.pwr with linkPll := false } }

theorem linkPllLoss_of_up {c : Chip} (hup : c.logicUp = true) (hpll : c.pwr.linkPll = true) :
    linkPllLoss c = linksIdle (linkPllFallen c) := by
  rw [linkPllLoss, if_neg (by simp [hup, hpll]), linkPllFallen]

theorem coreView_withPwr {c d : Chip} (h : coreView d = coreView c) (p : PwrState) :
    coreView { d with pwr := p } = coreView { c with pwr := p } := congrArg (fun e : Chip => { e with pwr := p }) h

theorem coreView_linkPllLoss {c : Chip} (hup : c.logicUp = true) (hpll : c.pwr.linkPll = true) :
    coreView (linkPllLoss c) = coreView { c with pwr := { c.pwr with linkPll := false } } := by
  rw [linkPllLoss_of_up hup hpll, coreView_linksIdle, linkPllFallen, coreView_withPwr (coreView_flagF _ _ _ _ _ c), flagF_pwr]

theorem lnk_linkPllLoss {c : Chip} (hup : c.logicUp = true) (hpll : c.pwr.linkPll = true) : (linkPllLoss c).lnk = c.lnk := by
  rw [linkPllLoss_of_up hup hpll, linksIdle_keeps Chip.lnk fun c h => by simp [handIdle, linkPut]]
  simp [linkPllFallen]

theorem exec_linkPllLoss {s : State} (hs : Settled s.toChip) (hup : s.logicUp = true) (hpll : s.pwr.linkPll = true) :
    ∃ t, exec .linkPllLoss s = .next t ∧ t.pwr = { s.pwr with linkPll := false } ∧
      getF Reg.PWR_CLKSTAT_LINK_PLL 0 t.toChip = 1 ∧
      getF Reg.PWR_CLKSTAT_EVT_CNT 0 t.toChip = min (getF Reg.PWR_CLKSTAT_EVT_CNT 0 s.toChip + 1) 255 ∧
      (∀ (h : Nat) (hh : h < 32), t.dlr.links[h] = {} ∧ getF Reg.DLR_HAND_STATE (64 + h) t.toChip = 0) ∧
      t.lnk = s.lnk ∧ t.hsl = s.hsl ∧ t.bil = s.bil ∧ t.backup = s.backup ∧ t.store = s.store := by
  have hcore := coreView_linkPllLoss hup hpll
  have hregs : pwrRegs (linkPllLoss s.toChip) = pwrRegs (linkPllFallen s.toChip) := by
    rw [linkPllLoss_of_up hup hpll, pwrRegs_linksIdle]
  have hhsl := part_of_coreView Chip.hsl (fun _ => rfl) hcore
  have hbil := part_of_coreView Chip.bil (fun _ => rfl) hcore
  have hbackup := part_of_coreView Chip.backup (fun _ => rfl) hcore
  have hstore := part_of_coreView Chip.store (fun _ => rfl) hcore
  refine ⟨_, run_kept hs ((dieView_of_coreView hcore).trans (by simp [dieView])), part_of_coreView Chip.pwr (fun _ => rfl) hcore,
    ?_, ?_, fun h hh => ?_, lnk_linkPllLoss hup hpll, hhsl, hbil, hbackup, hstore⟩
  · dsimp only
    rw [getF_of_pwrRegs hregs (by decide), linkPllFallen, getF_withPwr, flagF_of_one_bit rfl (by decide),
      getF_setF_of_key (by decide), getF_setF_same]
    rfl
  · dsimp only
    rw [getF_of_pwrRegs hregs (by decide), linkPllFallen, getF_withPwr, getF_count_flagF rfl _ (by decide)]
  · dsimp only
    have hview := handView_linksIdle hh (c := linkPllFallen s.toChip) (by simp [linkPllFallen])
    rw [← linkPllLoss_of_up hup hpll] at hview
    simp only [handView, Prod.mk.injEq] at hview
    obtain ⟨hlink, hstate⟩ := hview
    exact ⟨by simpa [hh] using hlink, hstate⟩

/-! ### The relock of the link PLL -/

/-- What the state of vehicle link `n` rests on, and what its failure shows. -/
def failView (n : Nat) (c : Chip) : (Nat × Nat × Nat) × BayState × VLinkState :=
  ((vState n c, bayState n c, bayHlc n c), bayGet n c, vlink n c)

theorem hlcLive_of_failView {n : Nat} {c d : Chip} (h : failView n d = failView n c) : hlcLive n d = hlcLive n c := by
  simp only [failView, Prod.mk.injEq] at h
  obtain ⟨⟨hv, hstate, hhlc⟩, -⟩ := h
  simp only [hlcLive, hlcWanted, hv, hstate, hhlc]

theorem hlcFailed_of_failView {n : Nat} {c d : Chip} (h : failView n d = failView n c) (hc : HlcFailed n c) : HlcFailed n d := by
  simp only [failView, Prod.mk.injEq] at h
  obtain ⟨⟨hv, -⟩, hbay, hlink⟩ := h
  rw [HlcFailed, hv, hbay, hlink]
  exact hc

/-- R303: the failure of vehicle link `n` by the loss of the link. -/
theorem hlcFail_eq (n : Nat) (c : Chip) : hlcFail n (some Reg.LNK_VEVT_LINK_LOSS) c =
    let d := flagF Reg.LNK_VEVT_LINK_LOSS n 0 Reg.LNK_STAT_EVT_CNT 0 c
    let d := vlinkPut n { vlink n d with nmk := none, run := none } d
    setF Reg.LNK_VSTAT_STATE n 5 (hlcPut n { (bayGet n d).hlc with failed := true, up := false, power := false } d) := rfl

theorem getF_hlcPut (f : Fld) (i n : Nat) (x : HlcState) (c : Chip) : getF f i (hlcPut n x c) = getF f i c :=
  getF_withRegs f i rfl rfl rfl

theorem getF_vlinkPut (f : Fld) (i n : Nat) (x : VLinkState) (c : Chip) : getF f i (vlinkPut n x c) = getF f i c :=
  getF_withRegs f i rfl rfl rfl

theorem getF_hlcFail {f : Fld} {i n : Nat} (hflag : fkey f i ≠ fkey Reg.LNK_VEVT_LINK_LOSS n)
    (hcount : fkey f i ≠ fkey Reg.LNK_STAT_EVT_CNT 0) (hstate : fkey f i ≠ fkey Reg.LNK_VSTAT_STATE n) (c : Chip) :
    getF f i (hlcFail n (some Reg.LNK_VEVT_LINK_LOSS) c) = getF f i c := by
  rw [hlcFail_eq, getF_setF_of_key hstate, getF_hlcPut, getF_vlinkPut, flagF, flagBit, addSat, getF_setF_of_key hcount, setBitF,
    getF_setF_of_key hflag]

theorem failView_hlcFail_ne {n m : Nat} (hn : n < 16) (hne : m ≠ n) (c : Chip) :
    failView n (hlcFail m (some Reg.LNK_VEVT_LINK_LOSS) c) = failView n c := by
  refine Prod.ext (Prod.ext ?_ (Prod.ext ?_ ?_)) (Prod.ext ?_ ?_)
  · exact getF_hlcFail (by simp only [fkey, Reg.LNK_VSTAT_STATE, Reg.LNK_VEVT_LINK_LOSS]; omega)
      (by simp only [fkey, Reg.LNK_VSTAT_STATE, Reg.LNK_STAT_EVT_CNT]; omega) (by simp only [fkey, Reg.LNK_VSTAT_STATE]; omega) c
  · exact getF_hlcFail (by simp only [fkey, Reg.BAY_STATE_STATE, Reg.LNK_VEVT_LINK_LOSS]; omega)
      (by simp only [fkey, Reg.BAY_STATE_STATE, Reg.LNK_STAT_EVT_CNT]; omega)
      (by simp only [fkey, Reg.BAY_STATE_STATE, Reg.LNK_VSTAT_STATE]; omega) c
  · exact getF_hlcFail (by simp only [fkey, Reg.BAY_CFG_HLC, Reg.LNK_VEVT_LINK_LOSS]; omega)
      (by simp only [fkey, Reg.BAY_CFG_HLC, Reg.LNK_STAT_EVT_CNT]; omega)
      (by simp only [fkey, Reg.BAY_CFG_HLC, Reg.LNK_VSTAT_STATE]; omega) c
  · simp [failView, hlcFail_eq, bayGet, hlcPut, bayPut, vlinkPut, hne]
  · simp [failView, hlcFail_eq, vlink, hlcPut, bayPut, vlinkPut, hne]

theorem hlcFailed_hlcFail {n : Nat} (hn : n < 16) (c : Chip) : HlcFailed n (hlcFail n (some Reg.LNK_VEVT_LINK_LOSS) c) := by
  refine ⟨?_, ?_, ?_, ?_⟩
  · rw [vState, hlcFail_eq, getF_setF_same]
    rfl
  · simp [hlcFail_eq, bayGet, hlcPut, bayPut, hn]
  · simp [hlcFail_eq, bayGet, hlcPut, bayPut, hn]
  · simp [hlcFail_eq, vlink, hlcPut, bayPut, vlinkPut, hn]

/-- What leaving the chain and listening leave: a view that ignores the chain's own state, the registers that are not the state of a
vehicle link (which stands at bit 28), and a session that closes. -/
structure ChainKeeps {β : Type} (v : Chip → β) : Prop where
  setF : ∀ (f : Fld) i x c, f.lsb % 32 ≠ 28 → v (setF f i x c) = v c
  chain : ∀ (c : Chip) x, v (chainPut x c) = v c
  sess : ∀ s c, v (sessClose s c) = v c

namespace ChainKeeps
variable {β : Type} {v : Chip → β} (h : ChainKeeps v)
include h

theorem chainDrop (w : TxWait) (c : Chip) : v (chainDrop w c) = v c := by
  have hclose : ∀ f c, v (relaySessionClose f c) = v c := fun f c => by
    unfold relaySessionClose
    split
    · rfl
    · exact h.sess _ _
  have hrelay : ∀ c, v (if 2 ≤ w.flow then relayEnd w.flow c else c) = v c := fun c => by
    split
    · rw [relayEnd, hclose, putFlow, h.chain]
    · rfl
  rw [Machine.chainDrop, addSat, h.setF _ _ _ _ (by decide), chainFlag, flagF, flagBit, addSat, h.setF _ _ _ _ (by decide), setBitF,
    h.setF _ _ _ _ (by decide)]
  exact (hrelay _).trans (h.chain _ _)

theorem startListen (c : Chip) : v (startListen c) = v c := by
  have hdrops : ∀ (l : List TxWait) c, v (l.foldl (fun c w => Machine.chainDrop w c) c) = v c := fun l => by
    induction l with
    | nil => exact fun _ => rfl
    | cons w l ih => exact fun c => (ih _).trans (h.chainDrop w c)
  rw [Machine.startListen, offChain, h.setF _ _ _ _ (by decide), setRole, h.setF _ _ _ _ (by decide), h.setF _ _ _ _ (by decide),
    h.chain, h.chain, hdrops]

end ChainKeeps

theorem getF_sessClose {f : Fld} (hflag : f.lsb % 32 ≠ Reg.HST_STAT_BULK_ABORT.lsb % 32)
    (hcount : f.lsb % 32 ≠ Reg.HST_STAT_EVT_CNT.lsb % 32) (i s : Nat) (c : Chip) : getF f i (sessClose s c) = getF f i c := by
  rw [sessClose_eq]
  split
  · rfl
  · refine (getF_withRegs f i rfl rfl rfl).trans
      (sessLeft_keeps (getF f i) (fun s c => ?_) (fun c d t => getF_withRegs f i rfl rfl rfl) s c)
    simp only [bulkAbort]
    split
    · exact (getF_flagF_of_lsb hflag hcount _ _ _ _ _).trans (getF_withRegs f i rfl rfl rfl)
    · rfl

theorem lnk_sessClose (s : Nat) (c : Chip) : (sessClose s c).lnk = c.lnk := by
  rw [sessClose_eq]
  split
  · rfl
  · refine sessLeft_keeps Chip.lnk (fun s c => ?_) (fun _ _ _ => rfl) s c
    simp only [bulkAbort]
    split
    · rw [flagF_lnk]; rfl
    · rfl

theorem chainKeeps_vState (n : Nat) : ChainKeeps (vState n) where
  setF _ _ _ _ hlsb := getF_setF_of_lsb (Ne.symm hlsb) _ _ _ _
  chain _ _ := getF_withRegs _ _ rfl rfl rfl
  sess s c := getF_sessClose (by decide) (by decide) n s c

theorem chainKeeps_bay : ChainKeeps Chip.bay where
  setF f i x c _ := setF_bay f i x c
  chain _ _ := rfl
  sess s c := part_of_coreView Chip.bay (fun _ => rfl) (coreView_sessClose s c)

theorem chainKeeps_vehicle : ChainKeeps fun c => c.lnk.vehicle where
  setF f i x c _ := by rw [setF_lnk]
  chain _ _ := rfl
  sess s c := by rw [lnk_sessClose]

theorem hlcFailed_startListen {n : Nat} {c : Chip} (h : HlcFailed n c) : HlcFailed n (startListen c) := by
  have hbay : bayGet n (startListen c) = bayGet n c := by rw [bayGet, bayGet, chainKeeps_bay.startListen]
  have hlink : vlink n (startListen c) = vlink n c := by rw [vlink, vlink, chainKeeps_vehicle.startListen]
  rw [HlcFailed, (chainKeeps_vState n).startListen, hbay, hlink]
  exact h

/-- R303, R328: the restart of the links fails each link that is up. -/
theorem hlcFailed_linksRestart {n : Nat} (hn : n < 16) {c : Chip} (hlive : hlcLive n c = true) : HlcFailed n (linksRestart c) := by
  obtain ⟨d, hd, hfold⟩ := foldl_at (failView n)
    (fun c m => if hlcLive m c then hlcFail m (some Reg.LNK_VEVT_LINK_LOSS) c else c) n
    (fun c m hm => by
      split
      · exact failView_hlcFail_ne hn hm c
      · rfl) (List.range 16) List.nodup_range (List.mem_range.mpr hn) c
  have hfailed := hlcFailed_of_failView hfold (by
    rw [if_pos ((hlcLive_of_failView hd).trans hlive)]
    exact hlcFailed_hlcFail hn d)
  simp only [linksRestart]
  split
  · exact hfailed
  · exact hlcFailed_startListen hfailed

/-- What the restart of the links leaves. -/
def restartView (c : Chip) : PwrState × BackupState × LegalStore := (c.pwr, c.backup, c.store)

theorem chainKeeps_restartView : ChainKeeps restartView where
  setF f i x c _ := by simp [restartView]
  chain _ _ := rfl
  sess s c := part_of_coreView restartView (fun _ => rfl) (coreView_sessClose s c)

theorem restartView_linksRestart (c : Chip) : restartView (linksRestart c) = restartView c := by
  have hfold := foldl_keeps restartView
    (fun c m => if hlcLive m c then hlcFail m (some Reg.LNK_VEVT_LINK_LOSS) c else c) (fun c m => by
      split
      · simp [hlcFail_eq, restartView, hlcPut, bayPut, vlinkPut]
      · rfl) (List.range 16) c
  simp only [linksRestart]
  split
  · exact hfold
  · exact (chainKeeps_restartView.startListen _).trans hfold

theorem hlcFailed_settle {n : Nat} (hn : n < 16) {c : Chip} (h : HlcFailed n c) : HlcFailed n (settle c) := by
  have hstate : vState n (settle c) = vState n c :=
    getF_settle (shownKey_of_lt (by simp only [fkey, Reg.LNK_VSTAT_STATE]; omega)) c
  rw [HlcFailed, hstate, bayGet, settle_bay, vlink, settle_lnk]
  exact h

theorem exec_linkPllRelock {s : State} (hup : s.logicUp = true) (hpll : s.pwr.linkPll = false) :
    ∃ t, exec .linkPllRelock s = .next t ∧ t.pwr.linkPll = true ∧
      (∀ n, n < 16 → hlcLive n s.toChip = true → HlcFailed n t.toChip) ∧ t.backup = s.backup ∧ t.store = s.store := by
  have hrow : linkPllRelock s.toChip = linksRestart { s.toChip with pwr := { s.pwr with linkPll := true } } :=
    if_neg (by simp [hup, hpll])
  have hview := restartView_linksRestart { s.toChip with pwr := { s.pwr with linkPll := true } }
  simp only [restartView, Prod.mk.injEq] at hview
  obtain ⟨hpwr, hbackup, hstore⟩ := hview
  refine ⟨_, run_next linkPllRelock s, ?_⟩
  dsimp only
  rw [settle_pwr, settle_backup, settle_store, hrow, hpwr, hbackup, hstore]
  refine ⟨rfl, fun n hn hlive => hlcFailed_settle hn (hlcFailed_linksRestart hn ?_), rfl, rfl⟩
  rw [← hlive]
  refine hlcLive_of_failView ?_
  simp only [failView, vState, bayState, bayHlc, getF_withPwr]
  rfl

/-! ### The host PLL and FCLK -/

/-- The flag and the event of a lost host PLL, and the PLL gone. -/
def hostPllFallen (c : Chip) : Chip :=
  let d := flagF Reg.PWR_CLKSTAT_HOST_PLL 0 0 Reg.PWR_CLKSTAT_EVT_CNT 0 c
  { d with pwr := { d.pwr with hostPll := false } }

theorem hostPllLoss_of_up {c : Chip} (hup : c.logicUp = true) (hpll : c.pwr.hostPll = true) :
    hostPllLoss c = closeNetSessions (hostPllFallen c) := by
  rw [hostPllLoss, if_neg (by simp [hup, hpll]), hostPllFallen]

theorem sess_settle (k : Nat) (c : Chip) : sess k (settle c) = sess k c := sess_congr (by rw [settle_hst]) k

theorem closeNetSessions_pwr (c : Chip) : (closeNetSessions c).pwr = c.pwr :=
  part_of_coreView Chip.pwr (fun _ => rfl) (coreView_closeNetSessions c)
theorem closeNetSessions_backup (c : Chip) : (closeNetSessions c).backup = c.backup :=
  part_of_coreView Chip.backup (fun _ => rfl) (coreView_closeNetSessions c)
theorem closeNetSessions_store (c : Chip) : (closeNetSessions c).store = c.store :=
  part_of_coreView Chip.store (fun _ => rfl) (coreView_closeNetSessions c)

theorem hostPllFallen_pwr (c : Chip) : (hostPllFallen c).pwr = { c.pwr with hostPll := false } := by simp [hostPllFallen]

theorem exec_hostPllLoss {s : State} (hup : s.logicUp = true) (hpll : s.pwr.hostPll = true) :
    ∃ t, exec .hostPllLoss s = .next t ∧ t.pwr.hostPll = false ∧
      getF Reg.PWR_CLKSTAT_HOST_PLL 0 t.toChip = 1 ∧ (∀ k, k < 4 → (sess k t.toChip).state = 0) ∧
      t.backup = s.backup ∧ t.store = s.store := by
  refine ⟨_, run_next hostPllLoss s, ?_⟩
  dsimp only
  rw [settle_pwr, settle_backup, settle_store, getF_settle (by decide), hostPllLoss_of_up hup hpll,
    closeNetSessions_pwr, hostPllFallen_pwr, closeNetSessions_backup, closeNetSessions_store,
    getF_of_pwrRegs (pwrRegs_closeNetSessions _) (by decide)]
  refine ⟨rfl, ?_, fun k hk => ?_, by simp [hostPllFallen], by simp [hostPllFallen]⟩
  · rw [hostPllFallen, getF_withPwr, flagF_of_one_bit rfl (by decide), getF_setF_of_key (by decide), getF_setF_same]
    rfl
  · rw [sess_settle]
    exact state_closeNetSessions hk _

theorem fclkLoss_of_up {c : Chip} (hup : c.logicUp = true) (hfclk : c.pwr.fclk = true) : fclkLoss c =
    { setF Reg.PWR_CLKSTAT_EVT_CNT 0 (min (getF Reg.PWR_CLKSTAT_EVT_CNT 0 c + 1) 255) (setF Reg.PWR_CLKSTAT_FCLK_LOSS 0 1 c) with
      pwr := { c.pwr with fclk := false }, nfc := { c.nfc with seen := [] } } := by
  rw [fclkLoss, if_neg (by simp [hup, hfclk]), flagF_of_one_bit rfl (by decide)]
  simp [readerStop]

end Sys2Proof.Machine
end

section
/-!
Meter time (chapters 03 and 08, R58-R60, R69, R200, R216): what a billing boundary leaves, and the stop and return of TCLK.
-/

namespace Sys2Proof.Machine
open Sys2Proof Sys2Proof.Safety

/-! ### What the actions of a boundary leave -/

/-- A view that ignores the ledgers, the residual banks, the tamper records and the registers of the blocks from the Dealer on. -/
structure BoundaryKeeps {β : Type} (v : Chip → β) : Prop where
  setF : ∀ (f : Fld) i x c, 0x20000 ≤ f.base → v (setF f i x c) = v c
  ledger : ∀ (c : Chip) b s, v { c with bil := b, store := s } = v c
  banks : ∀ (c : Chip) b on l, v { c with backup := { c.backup with banks := b, bankOn := on, late := l } } = v c

namespace BoundaryKeeps
variable {β : Type} {v : Chip → β} (h : BoundaryKeeps v)
include h

theorem bil (c : Chip) (b : LedgerState) : v { c with bil := b } = v c := h.ledger c b c.store

theorem flagF (f : Fld) (i k : Nat) (g : Fld) (j : Nat) (hf : 0x20000 ≤ f.base) (hg : 0x20000 ≤ g.base) (c : Chip) :
    v (flagF f i k g j c) = v c := by
  rw [Machine.flagF, flagBit, addSat, h.setF _ _ _ _ hg, setBitF, h.setF _ _ _ _ hf]

theorem bankTag (k : Nat) (c : Chip) : v (bankTag k c) = v c := h.banks c _ c.backup.bankOn c.backup.late

theorem boundary (demand ends : Bool) (wall old periods : Nat) (c : Chip) : v (boundary demand ends wall old periods c) = v c := by
  rw [Machine.boundary, bankSwitch, h.bankTag]
  exact (h.banks _ _ _ _).trans (h.bil c _)

theorem setTariff (c : Chip) : v (setTariff c) = v c := by
  simp only [Machine.setTariff]
  split
  · exact h.ledger c _ _
  · exact h.bil c _

theorem markBoundary (c : Chip) : v (markBoundary c) = v c := by
  simp only [Machine.markBoundary]
  split
  · rw [h.boundary, h.setTariff]
  · split
    · rw [h.boundary, h.setTariff]
    · split
      · rw [h.boundary, h.setTariff]
      · split
        · rw [retariff, h.bankTag, h.setTariff]
        · exact h.setTariff c

theorem demandDir (d : Due) (s k energy : Nat) (c : Chip) : v (demandDir d s k energy c) = v c := by
  simp only [Machine.demandDir]
  split
  · exact h.bil c _
  · rfl

/-- The fold over the sets is named, so that the kernel does not evaluate it under every projection of the device. -/
theorem demandEnd (d : Due) (c : Chip) : v (demandEnd d c) = v c := by
  unfold Machine.demandEnd
  split
  · rfl
  · obtain ⟨e, hfold⟩ : ∃ e, e = (List.range 17).foldl (fun c s =>
        let iv := c.bil.ivl[s]?.getD (0, 0)
        Machine.demandDir d s 1 iv.2 (Machine.demandDir d s 0 iv.1 c)) c := ⟨_, rfl⟩
    have he : v e = v c := by
      rw [hfold]
      exact foldl_keeps v _ (fun c s => by
        dsimp only
        rw [h.demandDir, h.demandDir]) _ c
    rw [← hfold]
    dsimp only
    split
    · rw [h.flagF _ _ _ _ _ (by decide) (by decide), h.ledger, he]
    · rw [h.bil, he]

theorem periodClose (d : Due) (c : Chip) : v (periodClose d c) = v c := by
  unfold Machine.periodClose
  split
  · rfl
  · dsimp only
    rw [h.flagF _ _ _ _ _ (by decide) (by decide), h.ledger]

theorem attributeTake (t : Take) (c : Chip) : v (attributeTake t c) = v c := by
  have hnote : ∀ tariff c, v (noteReading tariff t c) = v c := fun tariff c => by
    unfold noteReading
    split
    · rfl
    · exact h.bil c _
  unfold Machine.attributeTake
  split
  · split
    · exact h.bil c _
    · exact (hnote _ _).trans (h.bil c _)
  · exact (hnote _ _).trans (h.bil c _)

theorem publishSet (s : Nat) (c : Chip) : v (publishSet s c) = v c := by
  have hbase : 0x20000 ≤ setBase s := by simp only [setBase]; omega
  have hset : ∀ (f : Fld) i x c, setBase s ≤ f.base → v (Machine.setF f i x c) = v c := fun f i x c hf =>
    h.setF f i x c (le_trans hbase hf)
  unfold Machine.publishSet
  split
  · rfl
  · dsimp only
    rw [hset _ _ _ _ (Nat.le_add_right _ _),
      foldl_keeps v _ (fun c m => by
        rw [hset _ _ _ _ (Nat.le_add_right _ _), hset _ _ _ _ (Nat.le_add_right _ _), hset _ _ _ _ (Nat.le_add_right _ _),
          hset _ _ _ _ (Nat.le_add_right _ _)]),
      foldl_keeps v _ (fun c d => by rw [hset _ _ _ _ (Nat.le_add_right _ _), hset _ _ _ _ (Nat.le_add_right _ _)]),
      foldl_keeps v _ (fun c r => by rw [hset _ _ _ _ (Nat.le_add_right _ _), hset _ _ _ _ (Nat.le_refl _)])]

theorem publishTamper (k : Nat) (c : Chip) : v (publishTamper k c) = v c := by
  have hput : ∀ w x c, v (Machine.setF (Reg.tcWord w) k x c) = v c := fun w x c =>
    h.setF _ _ _ _ (le_trans (by decide) (Nat.le_add_right 0xB8000 (4 * w)))
  simp only [Machine.publishTamper, hput]

theorem publishGlobals (c : Chip) : v (publishGlobals c) = v c := by
  unfold Machine.publishGlobals
  dsimp only
  rw [foldl_keeps v _ fun c k => h.publishTamper k c]
  simp (disch := decide) only [setPair, h.setF]
  split <;> simp (disch := decide) only [runFields, h.setF, h.bil]

theorem publishBilling (c : Chip) : v (publishBilling c) = v c := by
  rw [Machine.publishBilling, h.publishGlobals]
  exact foldl_keeps v _ (fun c s => h.publishSet s c) _ c

theorem lateTamper (c : Chip) : v (lateTamper c) = v c := by
  have hputs : ∀ (l : List (Nat × Nat × Nat × Nat)) c, v (l.foldl (fun c x => tamperPut x.1 x.2.1 x.2.2.1 x.2.2.2 c) c) = v c :=
    fun l => by
      induction l with
      | nil => exact fun _ => rfl
      | cons x l ih => exact fun c => (ih _).trans (h.ledger c c.bil _)
  exact (hputs _ _).trans (h.banks c c.backup.banks c.backup.bankOn [])

theorem saveStart (c : Chip) : v (saveStart c) = v c := by
  unfold Machine.saveStart
  split
  · rfl
  · exact h.ledger c _ _

theorem dueNow (c : Chip) : v (dueNow c) = v c := by
  have hlate : ∀ c : Chip, v (if c.bil.due.isEmpty then Machine.lateTamper c else c) = v c := fun c => by
    split
    · exact h.lateTamper c
    · rfl
  have htakes : ∀ (l : List Take) c, v (l.foldl (fun c t => Machine.attributeTake t c) c) = v c := fun l => by
    induction l with
    | nil => exact fun _ => rfl
    | cons t l ih => exact fun c => (ih _).trans (h.attributeTake t c)
  unfold Machine.dueNow
  split
  · unfold runDue
    split
    · rfl
    · rw [h.saveStart, hlate, h.publishBilling, htakes, h.bil, dueActions, h.periodClose, h.demandEnd]
  · rfl

end BoundaryKeeps

/-! ### Wall time lost, R200 -/

/-- Meter time and wall time, with the power state. -/
def wallView (c : Chip) : PwrState × Nat × Bool × Nat := (c.pwr, c.backup.ms, c.backup.wallValid, c.backup.wallLostAt)

theorem boundaryKeeps_wallView : BoundaryKeeps wallView where
  setF f i x c _ := by simp [wallView]
  ledger _ _ _ := rfl
  banks _ _ _ _ := rfl

theorem boundaryKeeps_pwrRegs : BoundaryKeeps pwrRegs where
  setF _ _ _ _ hf := pwrRegs_setF hf _ _ _
  ledger _ _ _ := rfl
  banks _ _ _ _ := rfl

/-- What the stop of TCLK shows. -/
def tclkRegs (c : Chip) : Nat × Nat × Nat :=
  (getF Reg.PWR_CLKSTAT_TCLK_STOP 0 c, getF Reg.PWR_CLKSTAT_TCLK_OK 0 c, getF Reg.PWR_CLKSTAT_MT_MCLK 0 c)

theorem tclkRegs_of_pwrRegs {c d : Chip} (h : pwrRegs d = pwrRegs c) : tclkRegs d = tclkRegs c := by
  rw [tclkRegs, getF_of_pwrRegs h (by decide), getF_of_pwrRegs h (by decide), getF_of_pwrRegs h (by decide), tclkRegs]

theorem getF_withBackup (f : Fld) (i : Nat) (c : Chip) (b : BackupState) : getF f i { c with backup := b } = getF f i c :=
  getF_withRegs f i rfl rfl rfl

theorem tclkRegs_wallStop (c : Chip) : tclkRegs (wallStop c) = tclkRegs c := by
  have hkeep : ∀ f, fkey f 0 ≠ fkey Reg.PWR_BKSTAT_RTC_VALID 0 → getF f 0 (wallStop c) = getF f 0 c := fun f hf => by
    rw [wallStop, getF_setF_of_key hf, getF_withBackup]
  rw [tclkRegs, hkeep _ (by decide), hkeep _ (by decide), hkeep _ (by decide), tclkRegs]

/-- R200: wall time ends where meter time stands. -/
def wallStopped (w : PwrState × Nat × Bool × Nat) : PwrState × Nat × Bool × Nat :=
  (w.1, w.2.1, false, if w.2.2.1 then w.2.1 else w.2.2.2)

theorem wallView_wallStop (c : Chip) : wallView (wallStop c) = wallStopped (wallView c) := by
  rw [wallView, wallStop, setF_pwr, setF_backup]
  rfl

/-- The actions of the boundary at the loss of wall time, from before and after it. -/
theorem wallLost_kept {β : Type} {v : Chip → β} (h : BoundaryKeeps v) {g : β → β} (hstop : ∀ c, v (wallStop c) = g (v c)) (c : Chip) :
    v (wallLost c) = g (v c) := by
  simp only [wallLost]
  split
  · exact hstop c
  · split
    · rw [h.dueNow, retariff, h.bankTag, h.bil, h.setTariff, hstop, h.markBoundary]
    · rw [h.dueNow, h.boundary, h.setTariff, hstop, h.markBoundary]

/-! ### The stop of TCLK, R58, R60 -/

/-- TCLK has stopped, and meter time has taken up what MCLK counted. -/
def tclkStopped (cycles : Nat) (c : Chip) : Chip :=
  let d := setF Reg.PWR_CLKSTAT_TCLK_OK 0 0 (setF Reg.PWR_CLKSTAT_MT_MCLK 0 1
    (flagF Reg.PWR_CLKSTAT_TCLK_STOP 0 0 Reg.PWR_CLKSTAT_EVT_CNT 0 c))
  { d with
    backup := { d.backup with ms := (d.backup.ms + cycles / 40960) % 2 ^ 64 }
    pwr := { d.pwr with tclkGone := true, tclkBack := false, mclkMs := cycles % 40960 } }

theorem tclkStop_eq (cycles : Nat) (c : Chip) : tclkStop cycles c = wallLost (tclkStopped cycles c) := rfl

theorem wallView_tclkStopped (cycles : Nat) (c : Chip) : wallView (tclkStopped cycles c) =
    ({ c.pwr with tclkGone := true, tclkBack := false, mclkMs := cycles % 40960 }, (c.backup.ms + cycles / 40960) % 2 ^ 64,
      c.backup.wallValid, c.backup.wallLostAt) := by
  simp [wallView, tclkStopped]

theorem getF_withBackupPwr (f : Fld) (i : Nat) (c : Chip) (b : BackupState) (p : PwrState) :
    getF f i { c with backup := b, pwr := p } = getF f i c := getF_withRegs f i rfl rfl rfl

theorem tclkRegs_tclkStopped (cycles : Nat) (c : Chip) : tclkRegs (tclkStopped cycles c) = (1, 0, 1) := by
  refine Prod.ext ?_ (Prod.ext ?_ ?_)
  · simp only [tclkRegs, tclkStopped]
    rw [getF_withBackupPwr, getF_setF_of_key (by decide), getF_setF_of_key (by decide), flagF_of_one_bit rfl (by decide),
      getF_setF_of_key (by decide), getF_setF_same]
    rfl
  · simp only [tclkRegs, tclkStopped]
    rw [getF_withBackupPwr, getF_setF_same]
    rfl
  · simp only [tclkRegs, tclkStopped]
    rw [getF_withBackupPwr, getF_setF_of_key (by decide), getF_setF_same]
    rfl

/-- The second window without an edge of TCLK. -/
theorem tclkWindow_of_second {cycles : Nat} {c : Chip} (hup : c.logicUp = true) (hpowered : c.powered = true)
    (hhere : c.pwr.tclkGone = false) (hsecond : 1 ≤ c.pwr.tclkFail) :
    tclkWindow 0 cycles c = tclkStop cycles { c with pwr := { c.pwr with tclkFail := 0 } } := by
  rw [tclkWindow, if_neg (by simp [hup, hpowered]), if_neg (by decide), if_neg (by simp [hhere]), if_pos hsecond]

theorem tclkWindow_of_first {cycles : Nat} {c : Chip} (hup : c.logicUp = true) (hpowered : c.powered = true)
    (hhere : c.pwr.tclkGone = false) (hfirst : c.pwr.tclkFail = 0) :
    tclkWindow 0 cycles c = { c with pwr := { c.pwr with tclkFail := 1 } } := by
  rw [tclkWindow, if_neg (by simp [hup, hpowered]), if_neg (by decide), if_neg (by simp [hhere]), if_neg (by omega)]

theorem tclkWindow_of_edges {edges cycles : Nat} {c : Chip} (hup : c.logicUp = true) (hpowered : c.powered = true)
    (hhere : c.pwr.tclkGone = false) (hedges : 1 ≤ edges) :
    tclkWindow edges cycles c = setF Reg.PWR_CLKSTAT_TCLK_OK 0 1 { c with pwr := { c.pwr with tclkFail := 0 } } := by
  rw [tclkWindow, if_neg (by simp [hup, hpowered]), if_pos hedges]
  exact if_neg (by simp [hhere])

theorem exec_tclkWindow_stop {s : State} {cycles : Nat} (hup : s.logicUp = true) (hpowered : s.powered = true)
    (hhere : s.pwr.tclkGone = false) (hsecond : 1 ≤ s.pwr.tclkFail) :
    ∃ t, exec (.tclkPresenceWindow 0 cycles) s = .next t ∧ t.backup.ms = (s.backup.ms + cycles / 40960) % 2 ^ 64 ∧
      t.backup.wallValid = false ∧ (s.backup.wallValid = true → t.backup.wallLostAt = t.backup.ms) ∧
      t.pwr.tclkGone = true ∧ t.pwr.mclkMs = cycles % 40960 ∧ getF Reg.PWR_CLKSTAT_TCLK_STOP 0 t.toChip = 1 ∧
      getF Reg.PWR_CLKSTAT_TCLK_OK 0 t.toChip = 0 ∧ getF Reg.PWR_CLKSTAT_MT_MCLK 0 t.toChip = 1 := by
  have hrow := tclkWindow_of_second (cycles := cycles) hup hpowered hhere hsecond
  rw [tclkStop_eq] at hrow
  have hwall := wallLost_kept boundaryKeeps_wallView wallView_wallStop
    (tclkStopped cycles { s.toChip with pwr := { s.pwr with tclkFail := 0 } })
  have hregs := wallLost_kept (v := tclkRegs)
    { setF := fun _ _ _ _ hf => tclkRegs_of_pwrRegs (pwrRegs_setF hf _ _ _)
      ledger := fun c b s => tclkRegs_of_pwrRegs (boundaryKeeps_pwrRegs.ledger c b s)
      banks := fun c b on l => tclkRegs_of_pwrRegs (boundaryKeeps_pwrRegs.banks c b on l) } (g := id) tclkRegs_wallStop
    (tclkStopped cycles { s.toChip with pwr := { s.pwr with tclkFail := 0 } })
  rw [← hrow, wallView_tclkStopped] at hwall
  rw [← hrow, tclkRegs_tclkStopped] at hregs
  simp only [wallView, wallStopped, tclkRegs, id, Prod.mk.injEq] at hwall hregs
  obtain ⟨hpwr, hms, hvalid, hlost⟩ := hwall
  obtain ⟨hstop, hok, hmclk⟩ := hregs
  refine ⟨_, run_next (tclkWindow 0 cycles) s, ?_⟩
  dsimp only
  rw [settle_pwr, settle_backup, getF_settle (by decide), getF_settle (by decide), getF_settle (by decide), hpwr]
  exact ⟨hms, hvalid, fun h => by rw [hlost, hms, if_pos h], rfl, rfl, hstop, hok, hmclk⟩

/-! ### The millisecond, R59, R60 -/

/-- R59: a millisecond ends with the 32nd or the 33rd cycle, at the wrap of the accumulator. -/
theorem cycles_of_frac {frac : Nat} (h : frac < 1000) : ∃ n, n = (32768 - frac + 999) / 1000 ∧ (n = 32 ∨ n = 33) ∧
    frac + 1000 * (n - 1) < 32768 ∧ (frac + 1000 * n) % 32768 + 32768 = frac + 1000 * n ∧ (frac + 1000 * n) % 32768 < 1000 := by
  refine ⟨_, rfl, ?_⟩
  omega

/-- The device without its registers and the display. -/
def legalView (c : Chip) : Chip := { noRegs c with dsp := {}, glass := {} }

theorem legalView_setF (f : Fld) (i v : Nat) (c : Chip) : legalView (setF f i v c) = legalView c :=
  congrArg (fun d : Chip => { d with dsp := {}, glass := {} }) (noRegs_setF f i v c)

theorem legalView_legalStart (r : LegalReq) (c : Chip) : legalView (legalStart r c) = legalView c := by
  simp only [legalStart]
  change legalView (addSat _ _ _ _ _) = _
  rw [addSat, legalView_setF, legalView_setF, legalView_setF, legalView_setF]

theorem legalView_legalRequest (r : LegalReq) (c : Chip) : legalView (legalRequest r c) = legalView c := by
  unfold legalRequest
  split
  · rfl
  · split
    · rfl
    · split
      · rfl
      · split
        · exact legalView_legalStart r _
        · rfl

theorem legalView_legalPoll (c : Chip) : legalView (legalPoll c) = legalView c := by
  unfold legalPoll
  split
  · rfl
  · split
    · rfl
    · exact legalView_legalRequest _ _

theorem part_of_legalView {β : Type} (g : Chip → β) (hg : ∀ c, g (legalView c) = g c) (c : Chip) : g (legalPoll c) = g c := by
  rw [← hg (legalPoll c), legalView_legalPoll, hg]

theorem legalPoll_pwr (c : Chip) : (legalPoll c).pwr = c.pwr := part_of_legalView Chip.pwr (fun _ => rfl) c
theorem legalPoll_backup (c : Chip) : (legalPoll c).backup = c.backup := part_of_legalView Chip.backup (fun _ => rfl) c
theorem legalPoll_store (c : Chip) : (legalPoll c).store = c.store := part_of_legalView Chip.store (fun _ => rfl) c
theorem legalPoll_bil (c : Chip) : (legalPoll c).bil = c.bil := part_of_legalView Chip.bil (fun _ => rfl) c
theorem dieView_legalPoll (c : Chip) : dieView (legalPoll c) = dieView c := part_of_legalView dieView (fun _ => rfl) c

/-- Meter time and the idle time one millisecond on. -/
def tickCounted (frac : Nat) (c : Chip) : Chip :=
  let d := { c with backup := { c.backup with ms := (c.backup.ms + 1) % 2 ^ 64, frac := frac } }
  if idleRuns d then { d with pwr := { d.pwr with idleMs := d.pwr.idleMs + 1 } } else d

theorem tickCounted_kept (frac : Nat) (c : Chip) : dieView (tickCounted frac c) = dieView c ∧
    (tickCounted frac c).backup = { c.backup with ms := (c.backup.ms + 1) % 2 ^ 64, frac := frac } ∧
    (tickCounted frac c).store = c.store ∧ (tickCounted frac c).bil = c.bil ∧
    (tickCounted frac c).pwr.tclkGone = c.pwr.tclkGone ∧ (tickCounted frac c).pwr.tclkBack = c.pwr.tclkBack := by
  simp only [tickCounted]
  split <;> exact ⟨rfl, rfl, rfl, rfl, rfl, rfl⟩

/-- R60: back with TCLK at the end of a millisecond. -/
def tclkTaken (c : Chip) : Chip :=
  let d := setF Reg.PWR_CLKSTAT_TCLK_OK 0 1 (setF Reg.PWR_CLKSTAT_MT_MCLK 0 0 c)
  { d with backup := { d.backup with frac := 0 }, pwr := { d.pwr with tclkGone := false, tclkBack := false, mclkMs := 0 } }

theorem meterTick_eq (c : Chip) : meterTick c =
    if c.pwr.off || c.backup.tclkStop then c
    else
      let frac := if c.pwr.tclkGone then c.backup.frac
        else (c.backup.frac + 1000 * ((32768 - c.backup.frac + 999) / 1000)) % 32768
      let d := legalPoll (tickCounted frac c)
      if d.pwr.tclkGone ∧ d.pwr.tclkBack then tclkTaken d
      else if d.pwr.tclkGone then { d with pwr := { d.pwr with mclkMs := 0 } } else d := rfl

/-- R59: meter time counted with TCLK. -/
theorem meterTick_of_tclk {c : Chip} (hon : c.pwr.off = false) (hruns : c.backup.tclkStop = false) (hhere : c.pwr.tclkGone = false) :
    meterTick c = legalPoll (tickCounted ((c.backup.frac + 1000 * ((32768 - c.backup.frac + 999) / 1000)) % 32768) c) := by
  obtain ⟨-, -, -, -, hgone, -⟩ :=
    tickCounted_kept ((c.backup.frac + 1000 * ((32768 - c.backup.frac + 999) / 1000)) % 32768) c
  rw [meterTick_eq, if_neg (by simp [hon, hruns]), if_neg (c := c.pwr.tclkGone = true) (by simp [hhere])]
  dsimp only
  rw [legalPoll_pwr, hgone, hhere, if_neg (by simp), if_neg (by simp)]

/-- R60: the millisecond at which meter time goes back to TCLK. -/
theorem meterTick_of_return {c : Chip} (hon : c.pwr.off = false) (hruns : c.backup.tclkStop = false) (hgone : c.pwr.tclkGone = true)
    (hback : c.pwr.tclkBack = true) : meterTick c = tclkTaken (legalPoll (tickCounted c.backup.frac c)) := by
  obtain ⟨-, -, -, -, hgone', hback'⟩ := tickCounted_kept c.backup.frac c
  rw [meterTick_eq, if_neg (by simp [hon, hruns]), if_pos hgone]
  dsimp only
  rw [legalPoll_pwr, hgone', hback', if_pos ⟨hgone, hback⟩]

theorem exec_meterTick_tclk {s : State} (hs : Settled s.toChip) (hon : s.pwr.off = false) (hruns : s.backup.tclkStop = false)
    (hhere : s.pwr.tclkGone = false) (hfrac : s.backup.frac < 1000) :
    ∃ t n, exec .meterTimeTick s = .next t ∧ t.backup.ms = (s.backup.ms + 1) % 2 ^ 64 ∧ (n = 32 ∨ n = 33) ∧
      s.backup.frac + 1000 * (n - 1) < 32768 ∧ t.backup.frac + 32768 = s.backup.frac + 1000 * n ∧ t.backup.frac < 1000 ∧
      t.backup.wallOff = s.backup.wallOff ∧ t.backup.wallValid = s.backup.wallValid ∧ t.store = s.store ∧ t.bil = s.bil := by
  obtain ⟨n, hn, hcycles, hbefore, hwrap, hafter⟩ := cycles_of_frac hfrac
  have hrow := meterTick_of_tclk hon hruns hhere
  rw [← hn] at hrow
  obtain ⟨hdie, hbackup, hstore, hbil, -, -⟩ := tickCounted_kept ((s.backup.frac + 1000 * n) % 32768) s.toChip
  rw [← dieView_legalPoll, ← hrow] at hdie
  rw [← legalPoll_backup, ← hrow] at hbackup
  rw [← legalPoll_store, ← hrow] at hstore
  rw [← legalPoll_bil, ← hrow] at hbil
  refine ⟨_, n, run_kept hs hdie, ?_⟩
  dsimp only
  rw [hbackup, hstore, hbil]
  exact ⟨rfl, hcycles, hbefore, hwrap, hafter, rfl, rfl, rfl, rfl⟩

theorem exec_meterTick_return {s : State} (hs : Settled s.toChip) (hon : s.pwr.off = false) (hruns : s.backup.tclkStop = false)
    (hgone : s.pwr.tclkGone = true) (hback : s.pwr.tclkBack = true) :
    ∃ t, exec .meterTimeTick s = .next t ∧ t.backup.ms = (s.backup.ms + 1) % 2 ^ 64 ∧ t.backup.frac = 0 ∧
      t.pwr.tclkGone = false ∧ getF Reg.PWR_CLKSTAT_MT_MCLK 0 t.toChip = 0 ∧ getF Reg.PWR_CLKSTAT_TCLK_OK 0 t.toChip = 1 ∧
      t.store = s.store ∧ t.bil = s.bil := by
  have hrow := meterTick_of_return hon hruns hgone hback
  obtain ⟨hdie, hbackup, hstore, hbil, -, -⟩ := tickCounted_kept s.backup.frac s.toChip
  rw [← dieView_legalPoll] at hdie
  rw [← legalPoll_backup] at hbackup
  rw [← legalPoll_store] at hstore
  rw [← legalPoll_bil] at hbil
  generalize legalPoll (tickCounted s.backup.frac s.toChip) = d at hrow hdie hbackup hstore hbil
  refine ⟨_, run_kept hs (by rw [hrow, ← hdie]; simp [tclkTaken, dieView]), ?_⟩
  dsimp only
  rw [hrow]
  refine ⟨by simp [tclkTaken, hbackup], rfl, rfl, ?_, ?_, by simp [tclkTaken, hstore], by simp [tclkTaken, hbil]⟩
  · rw [tclkTaken, getF_withBackupPwr, getF_setF_of_key (by decide), getF_setF_same]
    rfl
  · rw [tclkTaken, getF_withBackupPwr, getF_setF_same]
    rfl

/-! ### The obligation -/

/-- Settles O9: each window of a clock check by its result, each lost clock by what it stops, and meter time by the accumulator's
wrap; the actions of the boundary at TCLK's stop leave meter time alone. -/
theorem clocksAndMeterTime : Obligations.ClocksAndMeterTime := by
  refine ⟨fun s hs hup => ⟨fun count hmin hmax hgood => ?_, fun count hbad hfirst => exec_mclkWindow_firstBad hs hup hbad hfirst,
      fun count hbad hsecond hgood => exec_mclkWindow_secondBad hup hbad hsecond hgood, fun count hmin hmax hfault => ?_,
      fun hgood => exec_metroPllLoss hup hgood, fun count hmin hmax hgood hpower hlogic hpowered => ?_,
      fun count hbad => ⟨fun hfirst => ?_, fun hnext => ?_⟩, fun count hmin hmax => ?_,
      fun hpll => exec_linkPllLoss hs hup hpll, fun hpll => exec_linkPllRelock hup hpll, fun hpll => exec_hostPllLoss hup hpll,
      ?_, fun hfclk => ?_, ?_⟩,
    fun s hs hon hruns hhere hfrac => exec_meterTick_tclk hs hon hruns hhere hfrac,
    fun s hs hon hruns hgone hback => exec_meterTick_return hs hon hruns hgone hback,
    fun s cycles hup hpowered hhere hsecond => exec_tclkWindow_stop hup hpowered hhere hsecond,
    fun s cycles hs hup hpowered hhere hfirst => ?_, fun s edges cycles hs hup hpowered hhere hedges => ?_, fun s hs hgone => ?_,
    fun s hs hhold => ?_⟩
  · exact run_row hs ((mclkWindow_of_pass hup hmin hmax).trans (by rw [if_neg (by simp [hgood])])) (by simp [dieView])
  · exact run_row hs ((mclkWindow_of_pass hup hmin hmax).trans (by rw [if_pos hfault])) (by simp [dieView])
  · exact run_row hs (bclkWindow_of_pass hup hmin hmax hgood hpower hlogic hpowered) (by simp [dieView])
  · exact run_row hs (tclkDrift_of_first hup hbad hfirst) rfl
  · exact run_row hs (tclkDrift_of_next hup hbad hnext) (by simp [dieView])
  · exact run_row hs (tclkDrift_of_pass hup hmin hmax) rfl
  · exact run_row (f := hostPllRelock) hs rfl rfl
  · exact run_row hs (fclkLoss_of_up hup hfclk) (by simp [dieView])
  · exact run_row (f := fclkReturn) hs rfl rfl
  · exact run_row hs (tclkWindow_of_first hup hpowered hhere hfirst) rfl
  · exact run_row hs (tclkWindow_of_edges hup hpowered hhere hedges) (by simp [dieView])
  · exact run_row (f := tclkReturn) hs (if_pos hgone) rfl
  · exact run_row (f := tclkStopInHold) hs (if_pos hhold) rfl

end Sys2Proof.Machine
end

section
/-!
Why a deck is rejected (chapter 04, R90): every rejection names a reason.
-/

namespace Sys2Proof.Machine
open Sys2Proof Sys2Proof.Safety

/-! ### Violations of the rules over the whole deck, R523 -/

/-- Every violation of a list names a reason. -/
def Reasoned (v : Viol) : Prop := ∀ x ∈ v, x.2 ≠ 0

@[simp] theorem reasoned_nil : Reasoned [] := nofun

@[simp] theorem reasoned_singleton {i r : Nat} : Reasoned [(i, r)] ↔ r ≠ 0 := by simp [Reasoned]

@[simp] theorem reasoned_append {v w : Viol} : Reasoned (v ++ w) ↔ Reasoned v ∧ Reasoned w := by
  simp only [Reasoned, List.mem_append]
  exact ⟨fun h => ⟨fun x hx => h x (.inl hx), fun x hx => h x (.inr hx)⟩, fun h x hx => hx.elim (h.1 x) (h.2 x)⟩

@[simp] theorem reasoned_flatMap {α : Type} {l : List α} {f : α → Viol} : Reasoned (l.flatMap f) ↔ ∀ a ∈ l, Reasoned (f a) := by
  simp only [Reasoned, List.mem_flatMap]
  exact ⟨fun h a ha x hx => h x ⟨a, ha, hx⟩, fun h x ⟨a, ha, hx⟩ => h a ha x hx⟩

theorem reasoned_bad {r : Nat} (h : r ≠ 0) (c : Bool) (i : Nat) : Reasoned (bad c i r) := by
  unfold bad
  split <;> simp [h]

@[simp] theorem reasoned_bad_five (c : Bool) (i : Nat) : Reasoned (bad c i 5) := reasoned_bad (by decide) c i
@[simp] theorem reasoned_bad_seven (c : Bool) (i : Nat) : Reasoned (bad c i 7) := reasoned_bad (by decide) c i
@[simp] theorem reasoned_bad_bounds (c : Bool) (i : Nat) : Reasoned (bad c i 0xD) := reasoned_bad (by decide) c i

@[simp] theorem reasoned_pairs_seven (l : List Held) (clash : Held → Held → Bool) : Reasoned (pairs l clash 7) := by
  simp [pairs]

theorem reasoned_crossStreams (d : Deck) : Reasoned (crossStreams d) := by
  simp only [crossStreams, reasoned_append, reasoned_flatMap, reasoned_bad_seven, reasoned_pairs_seven, implies_true, true_and, and_true]
  refine ⟨⟨⟨fun n _ => ?_, ?_⟩, fun h _ => ?_⟩, fun n _ => ?_⟩
  · split <;> simp
  · split <;> simp
  · split <;> simp
  · split
    · rw [reasoned_flatMap]
      intro pole _
      split <;> simp
    · simp

theorem reasoned_crossElements (d : Deck) : Reasoned (crossElements d) := by
  simp only [crossElements, reasoned_append, reasoned_flatMap, reasoned_bad_seven, reasoned_bad_five, reasoned_pairs_seven,
    implies_true, and_true]
  refine fun e _ => ⟨?_, ?_⟩
  · split <;> simp
  · split
    · simp
    · simp
    · rw [reasoned_append]
      refine ⟨reasoned_bad_seven _ _, ?_⟩
      split <;> simp

theorem reasoned_crossBilling (d : Deck) : Reasoned (crossBilling d) := by
  simp only [crossBilling, reasoned_append]
  refine ⟨⟨?_, ?_⟩, ?_⟩ <;> split <;> simp

theorem reasoned_crossBays (d : Deck) : Reasoned (crossBays d) := by
  simp only [crossBays, reasoned_append, reasoned_flatMap, reasoned_bad_seven, reasoned_bad_five, reasoned_pairs_seven,
    implies_true, true_and, and_true]
  split <;> simp

theorem reasoned_crossRest (d : Deck) : Reasoned (crossRest d) := by
  simp only [crossRest, reasoned_append, reasoned_flatMap, reasoned_bad_seven, reasoned_pairs_seven, implies_true, and_true]
  refine ⟨?_, ?_⟩ <;> split <;> simp

theorem mem_of_firstViol {v : Viol} {x : Nat × Nat} (h : firstViol v = some x) : x ∈ v := by
  have hfold : ∀ (v : Viol) (best : Option (Nat × Nat)), v.foldl (fun best x => match best with
      | none => some x
      | some b => if x.1 < b.1 ∨ (x.1 = b.1 ∧ x.2 < b.2) then some x else some b) best = some x → best = some x ∨ x ∈ v := by
    intro v
    induction v with
    | nil => exact fun _ h => .inl h
    | cons y v ih =>
      intro best h
      cases best with
      | none =>
        rcases ih (some y) h with hbest | hmem
        · exact .inr (by simp [Option.some.inj hbest])
        · exact .inr (List.mem_cons_of_mem y hmem)
      | some b =>
        rcases ih _ h with hbest | hmem
        · dsimp only at hbest
          split at hbest
          · exact .inr (by simp [Option.some.inj hbest])
          · exact .inl hbest
        · exact .inr (List.mem_cons_of_mem y hmem)
  rcases hfold v none h with hnone | hmem
  · exact absurd hnone nofun
  · exact hmem

theorem reason_of_firstViol {v : Viol} (hv : Reasoned v) {i r : Nat} (h : firstViol v = some (i, r)) : r ≠ 0 :=
  hv (i, r) (mem_of_firstViol h)

theorem reason_of_crossCheck {sigIdx : Nat} {d : Deck} {i r : Nat} (h : crossCheck sigIdx d = some (i, r)) : r ≠ 0 := by
  refine reason_of_firstViol ?_ h
  simp only [reasoned_append, reasoned_flatMap, reasoned_bad_five, implies_true, true_and]
  exact ⟨⟨⟨⟨reasoned_crossStreams d, reasoned_crossElements d⟩, reasoned_crossBilling d⟩, reasoned_crossBays d⟩,
    reasoned_crossRest d⟩

theorem reason_of_trumpBounds {d : Deck} {i r : Nat} (h : trumpBounds d = some (i, r)) : r ≠ 0 := by
  refine reason_of_firstViol ?_ h
  simp only [reasoned_append, reasoned_flatMap, reasoned_bad_bounds, implies_true, true_and]
  refine ⟨?_, ?_⟩ <;> split <;> simp

/-! ### The walk over the cards, R84-R90 -/

theorem reason_of_typeCheck {typ version flags r : Nat} {payload : List Nat} {metro : Nat × Nat}
    (h : typeCheck typ version flags payload metro = .error r) : r ≠ 0 := by
  simp only [typeCheck] at h
  split at h
  · cases h; decide
  · split at h
    · cases h; decide
    · split at h
      · cases h
      · split at h
        · split at h
          · cases h
          · cases h; decide
        · split at h
          · cases h; decide
          · split at h
            · cases h; decide
            · cases h

theorem reason_of_deckWalk {metro : Nat × Nat} {total : Nat} (fuel : Nat) {off idx : Nat} {rest : List Nat} {seen : Deck}
    {r : Reject} (h : deckWalk metro total fuel off idx rest seen = .error r) : r.reason ≠ 0 := by
  induction fuel generalizing off idx rest seen with
  | zero =>
    simp only [deckWalk] at h
    cases h
    exact Nat.succ_ne_zero _
  | succ fuel ih =>
    simp only [deckWalk] at h
    split at h
    · cases h
    · split at h
      · cases h; exact Nat.succ_ne_zero _
      · split at h
        · cases h; exact Nat.succ_ne_zero _
        · split at h
          · next hcheck => cases h; exact reason_of_typeCheck hcheck
          · split at h
            · cases h; exact Nat.succ_ne_zero _
            · next skipped _ _ =>
              generalize (if skipped = true then 0 else payloadReason _ _ _) = q at h
              split at h
              · next hreason => cases h; exact hreason
              · exact ih h

/-- R90: a rejected deck has a reason. -/
theorem reason_of_deckCheck {slot : Nat} {sigOk : Bool} {c : Chip} {r : Reject} (h : deckCheck slot sigOk c = .error r) :
    r.reason ≠ 0 := by
  simp only [deckCheck] at h
  split at h
  · cases h; exact Nat.succ_ne_zero _
  · split at h
    · next hwalk => cases h; exact reason_of_deckWalk _ hwalk
    · split at h
      · cases h; exact Nat.succ_ne_zero _
      · split at h
        · next hcross => cases h; exact reason_of_crossCheck hcross
        · split at h
          · cases h; exact Nat.succ_ne_zero _
          · split at h
            · cases h; exact Nat.succ_ne_zero _
            · split at h
              · cases h; exact Nat.succ_ne_zero _
              · split at h
                · next hbounds => cases h; exact reason_of_trumpBounds hbounds
                · split at h
                  · cases h; exact Nat.succ_ne_zero _
                  · cases h

end Sys2Proof.Machine
end

section
/-!
What the start of a deck leaves (chapter 04, R100): the power state, the trump card held and the cards.
-/

namespace Sys2Proof.Machine
open Sys2Proof Sys2Proof.Safety

/-- The power state with its register, the trump card held and the cards of the running deck. -/
def runView (c : Chip) : PwrState × Option (List Nat) × List Card × Nat :=
  (c.pwr, c.hsl.trump, c.deck.cards, getF Reg.PWR_STATE_STATE 0 c)

theorem runView_congr {c d : Chip} (hpwr : d.pwr = c.pwr) (htrump : d.hsl.trump = c.hsl.trump) (hcards : d.deck.cards = c.deck.cards)
    (hregs : pwrRegs d = pwrRegs c) : runView d = runView c := by
  rw [runView, hpwr, htrump, hcards, getF_of_pwrRegs hregs (by decide), runView]

theorem runView_setF_of_key {f : Fld} {i : Nat} (h : fkey Reg.PWR_STATE_STATE 0 ≠ fkey f i) (v : Nat) (c : Chip) :
    runView (setF f i v c) = runView c := by
  rw [runView, getF_setF_of_key h, setF_pwr, setF_hsl, setF_deck, runView]

theorem runView_setF {f : Fld} (h : 0x20000 ≤ f.base) (i v : Nat) (c : Chip) : runView (setF f i v c) = runView c := by
  refine runView_setF_of_key (fun e => ?_) v c
  have hge := fkey_ge f i
  have hlow : fkey Reg.PWR_STATE_STATE 0 < 0x20000 * 32 := by decide
  omega

theorem runView_flagF {f g : Fld} (hf : 0x20000 ≤ f.base) (hg : 0x20000 ≤ g.base) (i k j : Nat) (c : Chip) :
    runView (flagF f i k g j c) = runView c := by
  rw [flagF, flagBit, addSat, runView_setF hg, setBitF, runView_setF hf]

theorem boundaryKeeps_runView : BoundaryKeeps runView where
  setF _ _ _ _ hf := runView_setF hf _ _ _
  ledger _ _ _ := rfl
  banks _ _ _ _ := rfl

theorem runView_lswAll (c : Chip) : runView (lswAll c) = runView c := by
  obtain ⟨m, l, e⟩ := lswAll_frame c
  refine runView_congr ?_ ?_ ?_ (pwrRegs_lswAll c) <;> rw [e]

theorem safKeeps_runView : SafKeeps runView where
  setF _ _ _ _ hf := runView_setF hf _ _ _
  saf _ _ := rfl
  faults _ _ := rfl
  brake _ _ := rfl
  safe _ _ := rfl
  lswAll := runView_lswAll
  recheckAll c := by
    obtain ⟨m, l, b, w, e⟩ := recheckAll_frame c
    refine runView_congr ?_ ?_ ?_ (pwrRegs_recheckAll c) <;> rw [e] <;> rfl

theorem runView_tamper (k n : Nat) (c : Chip) : runView (tamper k n c) = runView c := by
  unfold tamper
  split <;> rfl

/-! ### Keys, memory and firmware -/

/-- R425: a device key is made in the first lifecycle alone. -/
def devKeyMade (pufOk : Bool) (c : Chip) : Chip :=
  if lifecycle c = 0 ∧ pufOk then { c with sec := { c.sec with devKey := true } } else c

/-- R441: the keys of a retired device are gone. -/
def keysErased (c : Chip) : Chip := if lifecycle c = 4 then { c with sec := { c.sec with entries := [] } } else c

/-- R434: the copy of the key counter follows the counter. -/
def keyCounterCopied (c : Chip) : Chip :=
  let ctr := getF Reg.SEC_KEYCTR_CTR 0 c
  if getF Reg.SEC_KEYCTR_BACKUP 0 c = ctr then c
  else setF Reg.SEC_KEYCTR_BACKUP 0 ctr (flagF Reg.SEC_STAT_CTR_MISM 0 0 Reg.SEC_STAT_EVT_CNT 0 c)

theorem startKeys_eq (pufOk : Bool) (c : Chip) : startKeys pufOk c =
    keyCounterCopied (keysErased (devKeyMade pufOk (setF Reg.SEC_STAT_PUF_FAIL 0 (!pufOk).toNat
      { c with sec := { c.sec with root := pufOk, full := false, slots := [], drawn := c.sec.drawn + 1 } }))) := rfl

theorem runView_startKeys (pufOk : Bool) (c : Chip) : runView (startKeys pufOk c) = runView c := by
  have hmade : ∀ c, runView (devKeyMade pufOk c) = runView c := fun c => by
    unfold devKeyMade
    split <;> rfl
  have herased : ∀ c, runView (keysErased c) = runView c := fun c => by
    unfold keysErased
    split <;> rfl
  have hcopied : ∀ c, runView (keyCounterCopied c) = runView c := fun c => by
    simp only [keyCounterCopied]
    split
    · rfl
    · rw [runView_setF (by decide), runView_flagF (by decide) (by decide)]
  rw [startKeys_eq, hcopied, herased, hmade, runView_setF (by decide)]
  rfl

theorem runView_startMemory (ok size4 : Bool) (c : Chip) : runView (startMemory ok size4 c) = runView c := by
  have hkitty : ∀ c, runView (kittyStart c) = runView c := fun c => by
    have hfold : ∀ (g : Nat → Nat) c, runView ((List.range 12).foldl (fun c k => setF Reg.MEM_KITTY_USED k (g k) c) c) = runView c :=
      fun g c => foldl_keeps runView _ (fun c k => runView_setF (by decide) k (g k) c) _ c
    simp only [kittyStart]
    split
    · rw [runView_flagF (by decide) (by decide), hfold]
    · rw [hfold]
  rw [startMemory, hkitty, runView_setF (by decide), runView_setF (by decide), runView_setF (by decide)]

theorem runView_hdrShow (c : Chip) : runView (hdrShow c) = runView c :=
  foldl_keeps runView _ (fun c s => by
    dsimp only
    rw [runView_setF (by decide), runView_setF (by decide)]) _ c

theorem runView_hdrWrite (f : BootHeader → BootHeader) (c : Chip) : runView (hdrWrite f c) = runView c := by
  rw [hdrWrite, runView_hdrShow]
  rfl

theorem runView_fallbackNote (c : Chip) : runView (fallbackNote c) = runView c := by
  rw [fallbackNote, addSat, runView_setF (by decide), runView_flagF (by decide) (by decide)]

theorem runView_failedBoot (c : Chip) : runView (failedBoot c) = runView c := by
  simp only [failedBoot]
  split
  · rfl
  · split
    · rfl
    · rw [runView_fallbackNote, runView_setF (by decide), runView_hdrWrite]
      rfl

theorem runView_imgCheck (act : Option Bool) (s : Nat) (sigOk : Bool) (c : Chip) : runView (imgCheck act s sigOk c).1 = runView c := by
  simp only [imgCheck]
  split
  · rw [runView_setF (by decide), runView_setF (by decide)]
  · rw [runView_flagF (by decide) (by decide), runView_setF (by decide), runView_setF (by decide)]

theorem runView_bootImage (s : Nat) (c : Chip) : runView (bootImage s c) = runView c := by
  have hfold : ∀ (g : Nat → Nat) c, runView ((List.range 8).foldl (fun c k => setF Reg.SEC_MFW_DIGEST k (g k) c) c) = runView c :=
    fun g c => foldl_keeps runView _ (fun c k => runView_setF (by decide) k (g k) c) _ c
  have hshown : ∀ (c : Chip) x y, runView { c with sec := x, upd := y } = runView c := fun _ _ _ => rfl
  rw [bootImage, hshown, hfold, runView_setF (by decide), runView_setF (by decide), runView_setF (by decide)]

theorem runView_triesRise (s cause : Nat) (c : Chip) : runView (triesRise s cause c) = runView c := by
  unfold triesRise
  split
  · exact runView_hdrWrite _ c
  · rfl

/-- R508: the check of slot `s`, where it is to be tried; `sig` says which image's signature holds. -/
def slotChecked (tried : Bool) (s : Nat) (imgA imgB : Bool) (c : Chip) : Chip × Bool :=
  if tried then imgCheck none s (if s = 0 then imgA else imgB) c else (c, false)

/-- R508: no image is valid. -/
def noFirmware (c : Chip) : Chip :=
  setF Reg.UPD_STAT_NO_FW 0 1 { c with upd := { c.upd with metro := (0, 0xFFFFFFFF) } }

/-- The image that boots, the headers shown. -/
def fwChosen (imgA imgB : Bool) (c : Chip) : Chip :=
  let p := (bootHdr c).pref
  let first := slotChecked (slotState p c = 2 ∨ slotState p c = 3) p imgA imgB c
  if first.2 then bootImage p (triesRise p (getF Reg.PWR_RSTCAUSE_CAUSE 0 c) first.1)
  else
    let second := slotChecked (slotState (1 - p) first.1 = 3) (1 - p) imgA imgB first.1
    if second.2 then bootImage (1 - p) (fallbackNote second.1) else noFirmware second.1

theorem fwSelect_eq (imgA imgB : Bool) (c : Chip) : fwSelect imgA imgB c = fwChosen imgA imgB (hdrShow (failedBoot c)) := by
  simp only [fwSelect, fwChosen, slotChecked, decide_eq_true_eq]
  rfl

theorem runView_slotChecked (tried : Bool) (s : Nat) (imgA imgB : Bool) (c : Chip) :
    runView (slotChecked tried s imgA imgB c).1 = runView c := by
  unfold slotChecked
  split
  · exact runView_imgCheck none s _ c
  · rfl

theorem runView_noFirmware (c : Chip) : runView (noFirmware c) = runView c := by
  rw [noFirmware, runView_setF (by decide)]
  rfl

theorem runView_fwSelect (imgA imgB : Bool) (c : Chip) : runView (fwSelect imgA imgB c) = runView c := by
  rw [fwSelect_eq, fwChosen]
  dsimp only
  split
  · rw [runView_bootImage, runView_triesRise, runView_slotChecked, runView_hdrShow, runView_failedBoot]
  · split
    · rw [runView_bootImage, runView_fallbackNote, runView_slotChecked, runView_slotChecked, runView_hdrShow, runView_failedBoot]
    · rw [runView_noFirmware, runView_slotChecked, runView_slotChecked, runView_hdrShow, runView_failedBoot]

/-! ### The cards -/

theorem runView_loadFields (p : List Nat) (i : Nat) {l : List (Fld × Nat × Nat)} (hl : ∀ q ∈ l, 0x20000 ≤ q.1.base) (c : Chip) :
    runView (loadFields p i l c) = runView c := by
  unfold loadFields
  induction l generalizing c with
  | nil => rfl
  | cons q l ih =>
    rw [List.foldl_cons, ih (fun r hr => hl r (List.mem_cons_of_mem q hr)), runView_setF (hl q List.mem_cons_self)]

theorem runView_applyDealer (c : Chip) : runView (applyDealer c) = runView c := by
  refine (foldl_keeps runView _ (fun c k => ?_) _ _).trans (runView_setF (by decide) _ _ c)
  rw [runView_setF (by decide), runView_setF (by decide), runView_setF (by decide), runView_setF (by decide)]

theorem runView_applyPower (c : Chip) : runView (applyPower c) = runView c := by
  simp only [applyPower, List.foldl_cons, List.foldl_nil]
  rw [runView_setF_of_key (by decide), runView_setF_of_key (by decide), runView_setF_of_key (by decide),
    runView_setF_of_key (by decide), runView_setF_of_key (by decide), runView_setF_of_key (by decide)]

theorem runView_applyLinks (c : Chip) : runView (applyLinks c) = runView c := by
  have hatt : ∀ c, runView ((List.range 16).foldl (fun c k => setF Reg.LNK_VATT_ATT k (trumpU8 (0x64 + k) c) c) c) = runView c :=
    fun c => foldl_keeps runView _ (fun c k => runView_setF (by decide) k _ c) _ c
  simp only [applyLinks]
  split
  · rw [runView_setF (by decide), runView_setF (by decide), hatt, runView_setF (by decide)]
  · rw [runView_loadFields _ _ (by decide), runView_setF (by decide), runView_setF (by decide), hatt, runView_setF (by decide)]

theorem runView_applyCard (k : Card) (c : Chip) : runView (applyCard k c) = runView c := by
  unfold applyCard
  split
  · simp only [applyStream]
    rw [runView_setF (by decide), runView_setF (by decide), runView_setF (by decide), runView_setF (by decide),
      runView_setF (by decide), runView_loadFields _ _ (by decide)]
  · rw [applyElement, runView_setF (by decide), runView_loadFields _ _ (by decide)]
  · exact runView_loadFields _ _ (by decide) c
  · rw [applyBay, runView_setF (by decide), runView_loadFields _ _ (by decide)]
  · exact runView_loadFields _ _ (by decide) c
  · simp only [applyProtect]
    split
    · rw [runView_setF (by decide), runView_setF (by decide)]
    · exact runView_loadFields _ _ (by decide) c
  · rfl

theorem runView_applyCards (l : List Card) (c : Chip) : runView (l.foldl (fun c k => applyCard k c) c) = runView c := by
  induction l generalizing c with
  | nil => rfl
  | cons k l ih => rw [List.foldl_cons, ih, runView_applyCard]

theorem runView_applyLatency (c : Chip) : runView (applyLatency c) = runView c :=
  foldl_keeps runView _ (fun c s => by
    split
    · rw [runView_setF (by decide), runView_setF (by decide), runView_setF (by decide), runView_setF (by decide)]
    · rfl) _ c

theorem runView_applySets (c : Chip) : runView (applySets c) = runView c :=
  foldl_keeps runView _ (fun c s => by
    have hbase : ∀ n, 0x20000 ≤ setBase s + n := fun n => by simp only [setBase]; omega
    dsimp only
    rw [runView_setF (hbase _), runView_setF (hbase _)]) _ c

theorem runView_showStream (s : Nat) (c : Chip) : runView (showStream s c) = runView c := by
  rw [showStream, lossAny, runView_setF (by decide), runView_setF (by decide), runView_setF (by decide), setBitF,
    runView_setF (by decide)]

theorem runView_withSns (c : Chip) (x : SensingState) : runView { c with sns := x } = runView c := rfl

theorem runView_sensingStart (c : Chip) : runView (sensingStart c) = runView c := by
  have hshow : ∀ c s, runView (if streamOn s c then showStream s c else c) = runView c := fun c s => by
    split
    · exact runView_showStream s c
    · rfl
  simp only [sensingStart]
  rw [foldl_keeps runView _ hshow, runView_withSns]

theorem runView_elemsStart (c : Chip) : runView (elemsStart c) = runView c :=
  foldl_keeps runView _ (fun c e => by split <;> rfl) _ c

theorem runView_protPut (n : Nat) (x : ProtInst) (c : Chip) : runView (protPut n x c) = runView c := rfl
theorem runView_putLatch (n : Nat) (x : BitVec 6) (c : Chip) : runView (putLatch n x c) = runView c := rfl

/-- R292: without the backup domain's contents the mirror of the latches is void. -/
def latchesLost (lost : Bool) (c : Chip) : Chip :=
  if lost then { c with
    hsl := { c.hsl with latch := Vector.replicate 17 0 }
    backup := { c.backup with mirror := Vector.replicate 17 0 } }
  else c

theorem runView_latchesLost (lost : Bool) (c : Chip) : runView (latchesLost lost c) = runView c := by
  unfold latchesLost
  split <;> rfl

/-- R281, R292: the protection of bay or feeder `n` starts BLIND, and UNK where the mirror is void. -/
def protStarted (lost : Bool) (n : Nat) (c : Chip) : Chip :=
  if protConfigured n c then
    let lim := if n < 16 then getF Reg.BAY_LIM_IMAX n c else getF Reg.PRT_FDR_FEED_A 0 c
    protPut n { lim := lim, follow := lim, first := n < 16 }
      (putLatch n (latchOf n c ||| kindBit 4 ||| (if lost then kindBit 5 else 0)) c)
  else c

theorem runView_protStarted (lost : Bool) (n : Nat) (c : Chip) : runView (protStarted lost n c) = runView c := by
  unfold protStarted
  split
  · exact (runView_protPut n _ _).trans (runView_putLatch n _ c)
  · rfl

theorem protectionStart_eq (lost : Bool) (c : Chip) : protectionStart lost c =
    (List.range 17).foldl (fun c n => protStarted lost n c) (latchesLost lost { c with prt := {} }) := rfl

theorem runView_protectionStart (lost : Bool) (c : Chip) : runView (protectionStart lost c) = runView c := by
  rw [protectionStart_eq, foldl_keeps runView _ fun c n => runView_protStarted lost n c, runView_latchesLost]
  rfl

theorem runView_baysApply (c : Chip) : runView (baysApply c) = runView c :=
  foldl_keeps runView _ (fun c n => by split <;> rfl) _ c

end Sys2Proof.Machine
end

section
/-!
What the last steps of the start leave (chapter 04, R100): load switches, safety functions, reader and panels, keys and
links.
-/

namespace Sys2Proof.Machine
open Sys2Proof Sys2Proof.Safety

/-! ### Load switches, R343, R347, R348 -/

theorem runView_lswPut (k : Nat) (x : LswChan) (c : Chip) : runView (lswPut k x c) = runView c := rfl

theorem runView_lswRegs (k : Nat) (c : Chip) : runView (lswRegs k c) = runView c := by
  simp (disch := decide) only [lswRegs, runView_setF]

theorem runView_lswShow (k : Nat) (c : Chip) : runView (lswShow k c) = runView c := by
  unfold lswShow
  split
  · rfl
  · simp (disch := decide) only [runView_setF]

theorem runView_lswFlag (k bit : Nat) (c : Chip) : runView (lswFlag k bit c) = runView c := by
  have hbit : ∀ c, runView (flagBit (lswStBit bit) k 0 Reg.LSW_ST_EVT_CNT k c) = runView c := fun c =>
    runView_flagF (f := lswStBit bit) (show 0x20000 ≤ Reg.LSW_ST_OC.base by decide) (by decide) k 0 k c
  unfold lswFlag
  split
  · dsimp only
    split
    · rw [addSat, runView_setF (by decide), hbit]
    · rw [addSat, runView_setF (by decide), hbit]
  · rfl

theorem runView_lswReport (k : Nat) (c : Chip) : runView (lswReport k c) = runView c := by
  simp only [lswReport]
  rw [runView_lswPut]
  exact foldl_keeps runView _ (fun c b => by
    split
    · exact runView_lswFlag k b c
    · rfl) _ c

theorem runView_testRun (c : Chip) : runView (testRun c) = runView c :=
  foldl_keeps runView _ (fun c k => by
    dsimp only
    split
    · rw [runView_lswShow, runView_lswPut]
    · rfl) _ c

/-- R343: channel `k` starts with its card. -/
def lswCarded (c : Chip) (k : Nat) : Chip :=
  let x := lsw k c
  let p := cardPayload 0x0060 k c
  let x := { x with cfg := p, hold := none, test := 0, wait := false }
  let cls := x.u8 8
  lswRegs k (lswPut k
    { x with cmd := cls, cls := if x.out then min x.cls cls else cls, retry := if x.latch then x.retry else x.budget } c)

/-- The channels are granted to the logic die. -/
def lswGranted (c : Chip) : Chip := { c with lsw := { c.lsw with granted := true } }

theorem lswCards_eq (c : Chip) : lswCards c =
    lswAll (testRun ((List.range 48).foldl (fun c k => lswShow k (lswReport k c))
      (lswGranted ((List.range 48).foldl lswCarded c)))) := rfl

theorem runView_lswCards (c : Chip) : runView (lswCards c) = runView c := by
  have hgranted : ∀ c, runView (lswGranted c) = runView c := fun _ => rfl
  rw [lswCards_eq, runView_lswAll, runView_testRun,
    foldl_keeps runView _ fun c k => by rw [runView_lswShow, runView_lswReport], hgranted]
  exact foldl_keeps runView _ (fun c k => by
    simp only [lswCarded]
    rw [runView_lswRegs, runView_lswPut]) _ c

/-! ### Safety functions, R373, R374 -/

theorem runView_withSaf (c : Chip) (x : SafState) : runView { c with saf := x } = runView c := rfl

theorem runView_safetyRegs (k : Nat) (c : Chip) : runView (safetyRegs k c) = runView c := by
  unfold safetyRegs
  split
  · rfl
  · dsimp only
    split
    · simp (disch := decide) only [runView_setF]
    · simp (disch := decide) only [runView_setF]

theorem runView_axcmdSend (n : Nat) (c : Chip) : runView (axcmdSend n c) = runView c := by
  unfold axcmdSend
  split
  · rfl
  · exact runView_withSaf c _

theorem runView_ss1 (n : Nat) (c : Chip) : runView (ss1 n c) = runView c := by
  unfold ss1
  dsimp only
  split
  · rfl
  · rw [runView_axcmdSend]
    exact runView_withSaf c _

theorem runView_demandBegin (k : Nat) (c : Chip) : runView (demandBegin k c) = runView c := by
  simp only [demandBegin]
  rw [foldl_keeps runView _ fun c n => by
    split
    · rw [runView_ss1, addSat, runView_setF (by decide)]
    · split
      · rw [safKeeps_runView.stoApply, addSat, runView_setF (by decide)]
      · rw [addSat, runView_setF (by decide)]]
  exact runView_flagF (by decide) (by decide) _ _ _ c

theorem runView_inputEval (k : Nat) (c : Chip) : runView (inputEval k c) = runView c := by
  have hmirror : ∀ c, runView (mirrorPend c) = runView c := fun _ => rfl
  have hput : ∀ x c, runView (safInPut k x c) = runView c := fun _ _ => rfl
  unfold inputEval
  split
  · rfl
  · dsimp only
    split
    · rw [runView_demandBegin, hmirror, hput]
    · rw [hmirror, hput]

/-- R373: the safety functions run, every axis at rest. -/
def safArmed (srstHigh : Bool) (c : Chip) : Chip :=
  let pend := c.backup.safPend
  let inp := Vector.ofFn fun (k : Fin 18) =>
    ({ a := c.saf.inp[k].a, b := c.saf.inp[k].b, pend := pend.getLsbD k.val } : SafIn)
  let axes := Vector.ofFn fun (_ : Fin 16) => ({ rxAt := c.backup.ms } : Axis)
  { c with saf := { on := true, inp := inp, axis := axes, stale := srstHigh } }

/-- R374: without the backup domain's contents every axis faults. -/
def safForgotten (c : Chip) : Chip := if getF Reg.PWR_BKSTAT_BK_LOST 0 c = 1 then allFault 12 c else c

theorem safetyCards_eq (srstHigh : Bool) (c : Chip) : safetyCards srstHigh c =
    safShow ((List.range 18).foldl (fun c k => inputEval k c) (safForgotten (safArmed srstHigh
      ((List.range 18).foldl (fun c k => safetyRegs k c) (setF Reg.SAF_ARCH_ARCH 0 (trumpU8 0x9C c) c))))) := rfl

theorem runView_safetyCards (srstHigh : Bool) (c : Chip) : runView (safetyCards srstHigh c) = runView c := by
  have hforgotten : ∀ c, runView (safForgotten c) = runView c := fun c => by
    unfold safForgotten
    split
    · exact safKeeps_runView.allFault 12 c
    · rfl
  have harmed : ∀ c, runView (safArmed srstHigh c) = runView c := fun c => runView_withSaf c _
  rw [safetyCards_eq, safKeeps_runView.safShow, foldl_keeps runView _ fun c k => runView_inputEval k c, hforgotten, harmed,
    foldl_keeps runView _ fun c k => runView_safetyRegs k c, runView_setF (by decide)]

/-! ### Reader, panels, keys and links -/

theorem runView_nfcCards (c : Chip) : runView (nfcCards c) = runView c := by
  have htag : ∀ (c : Chip) x, runView { c with tag := x } = runView c := fun _ _ => rfl
  simp only [nfcCards]
  split
  · simp (disch := decide) only [runView_setF]
  · rw [htag]
    simp (disch := decide) only [runView_setF]

theorem runView_displayCards (c : Chip) : runView (displayCards c) = runView c := by
  rw [displayCards, runView_setF (by decide), runView_setF (by decide)]

theorem runView_keymapNote (e : Nat) (c : Chip) : runView (keymapNote e c) = runView c := by
  simp only [keymapNote]
  split
  · exact runView_setF (by decide) _ _ c
  · rfl

theorem runView_keyLoad (id : Nat) (c : Chip) : runView (keyLoad id c) = runView c := by
  have hslots : ∀ (c : Chip) x, runView { c with sec := x } = runView c := fun _ _ => rfl
  unfold keyLoad
  split
  · rfl
  · dsimp only
    split
    · rw [hslots, runView_keymapNote]
    · exact runView_keymapNote _ c

theorem runView_attApply (k : Nat) (c : Chip) : runView (attApply k c) = runView c := by
  have hclamp : ∀ (p : Prop) [Decidable p] c, runView (if p then trumpEvent 4 c else c) = runView c := fun p _ c => by
    split
    · rw [trumpEvent, addSat, runView_setF_of_key (by decide), setBitF, runView_setF_of_key (by decide)]
    · rfl
  unfold attApply
  dsimp only
  split
  · rw [runView_setF (by decide), hclamp]
  · rw [runView_setF (by decide), hclamp]

theorem runView_fallToFloor (c : Chip) : runView (fallToFloor c) = runView c := by
  have hchain : ∀ x c, runView (chainPut x c) = runView c := fun _ _ => rfl
  simp only [fallToFloor, applyAlloc]
  split
  · rw [limitPass, runView_protPut, runView_setF (by decide), runView_setF (by decide), runView_setF (by decide), hchain]
  · rw [runView_setF (by decide), runView_setF (by decide), runView_setF (by decide), hchain]

/-- R309: the links of a started deck, and the counter of the chain link beyond its reserve. -/
def linksMade (key : Option (List Nat)) (c : Chip) : Chip :=
  let ctr := max c.backup.chainCtr c.emmc.chainReserve
  { c with
    lnk := { chain := { key := key } }
    backup := { c.backup with chainCtr := ctr }
    emmc := { c.emmc with chainReserve := ctr + 65536 } }

/-- R322: what is allotted at the start. -/
def linksAllotted (c : Chip) : Chip :=
  if chainOn c then fallToFloor c
  else setF Reg.LNK_CALLOC_APPLIED 0 (getF Reg.PRT_FDR_FEED_A 0 c)
    (setF Reg.LNK_CALLOC_RECEIVED 0 (getF Reg.PRT_FDR_FEED_A 0 c) (setF Reg.LNK_CBUDGET_SRC 0 2 c))

theorem linksStart_eq (key : Option (List Nat)) (c : Chip) : linksStart key c =
    linksAllotted ((List.range 17).foldl (fun c k => attApply k c) (setF Reg.LNK_TEST_RUNNING 0 1 (linksMade key c))) := rfl

theorem runView_linksStart (key : Option (List Nat)) (c : Chip) : runView (linksStart key c) = runView c := by
  have hallotted : ∀ c, runView (linksAllotted c) = runView c := fun c => by
    unfold linksAllotted
    split
    · exact runView_fallToFloor c
    · simp (disch := decide) only [runView_setF]
  have hmade : ∀ c, runView (linksMade key c) = runView c := fun _ => rfl
  rw [linksStart_eq, hallotted, foldl_keeps runView _ fun c k => runView_attApply k c, runView_setF (by decide), hmade]

theorem runView_passOffers (c : Chip) : runView (passOffers c) = runView c :=
  foldl_keeps runView _ (fun c n => by
    split
    · dsimp only
      rw [runView_setF (by decide), limitPass, runView_protPut]
    · rfl) _ c

/-! ### Every card applied -/

theorem runView_withBackup (c : Chip) (b : BackupState) : runView { c with backup := b } = runView c := rfl

theorem runView_cardsApplied (env : StartEnv) (c : Chip) : runView (cardsApplied env c) = runView c := by
  simp only [cardsApplied]
  rw [runView_passOffers, runView_linksStart, runView_keyLoad, runView_displayCards, runView_nfcCards, runView_safetyCards,
    runView_lswCards, runView_baysApply, runView_protectionStart, runView_elemsStart, runView_sensingStart, runView_applySets,
    runView_applyLatency, runView_withBackup, runView_applyCards, runView_applyLinks, runView_applyPower, runView_applyDealer]

theorem runView_readEntries (c : Chip) : runView (readEntries c) = runView c :=
  foldl_keeps runView _ (fun c e => runView_keymapNote e c) _ c

end Sys2Proof.Machine
end

section
/-!
What the start leaves of the power state: the legal store and its sessions (chapters 08 and 09, R222-R224, R258).
-/

namespace Sys2Proof.Machine
open Sys2Proof Sys2Proof.Safety

/-! ### The legal store at the start, R222-R224 -/

theorem runView_eventF (f : Fld) (i n : Nat) (x : List Nat) (c : Chip) : runView (eventF f i n x c) = runView c :=
  runView_congr (eventF_pwr f i n x c) (by rw [eventF_hsl]) (by rw [eventF_deck]) (pwrRegs_eventF f i n x c)

theorem runView_legalRequest (r : LegalReq) (c : Chip) : runView (legalRequest r c) = runView c := by
  have hview := legalView_legalRequest r c
  have hwarn := warnView_legalRequest r c
  simp only [warnView, Prod.mk.injEq] at hwarn
  obtain ⟨hpwr, -, hregs⟩ := hwarn
  have hpart : ∀ d : Chip, (legalView d).hsl.trump = d.hsl.trump ∧ (legalView d).deck.cards = d.deck.cards :=
    fun _ => ⟨rfl, rfl⟩
  obtain ⟨ht, hc⟩ := hpart (legalRequest r c)
  rw [hview] at ht hc
  exact runView_congr hpwr ht.symm hc.symm hregs

theorem runView_demandEnd (d : Due) (c : Chip) : runView (demandEnd d c) = runView c := boundaryKeeps_runView.demandEnd d c
theorem runView_periodClose (d : Due) (c : Chip) : runView (periodClose d c) = runView c := boundaryKeeps_runView.periodClose d c
theorem runView_withLedger (c : Chip) (b : LedgerState) (s : LegalStore) : runView { c with bil := b, store := s } = runView c := rfl

theorem runView_foldBank (tariff : Nat) (b : ResidBank) (c : Chip) : runView (foldBank tariff b c) = runView c :=
  foldl_keeps runView _ (fun c s => by
    unfold applyTake
    exact runView_withLedger c _ c.store) _ c

theorem runView_restorePending (due : List Due) (c : Chip) : runView (restorePending due c) = runView c := by
  have hdue : ∀ d c, runView (dueRestore d c) = runView c := fun d c => by
    simp only [dueRestore]
    split
    · exact runView_demandEnd d c
    · split
      · rw [runView_periodClose, runView_demandEnd]
      · rw [runView_withLedger, runView_demandEnd]
  have hfold : ∀ (l : List Due) c, runView (l.foldl (fun c d => dueRestore d c) c) = runView c := fun l => by
    induction l with
    | nil => exact fun _ => rfl
    | cons d l ih => exact fun c => (ih _).trans (hdue d c)
  simp only [restorePending]
  split
  · rw [runView_flagF (by decide) (by decide), hfold]
  · exact hfold due c

theorem runView_foldBanks (src : RestoreSrc) (due : List Due) (c : Chip) : runView (foldBanks src due c) = runView c := by
  simp only [foldBanks]
  rw [runView_foldBank, runView_withLedger]
  split
  · exact runView_restorePending due c
  · split
    · rw [cutInterval, runView_demandEnd, runView_foldBank]
    · rw [runView_restorePending, runView_foldBank]

/-- R213: the first period begins where wall time is known. -/
def periodBegun (c : Chip) : Chip :=
  if c.store.perIdx.isNone then { c with store := { c.store with perIdx := some (periodIdx c.wall c) } } else c

theorem behindCheck_eq (c : Chip) : behindCheck c =
    let c := periodBegun c
    if beforePeriod c then
      { c with bil := { c.bil with behind := true }, store := { c.store with perFlags := c.store.perFlags ||| 2 } }
    else { c with bil := { c.bil with behind := false } } := rfl

theorem runView_behindCheck (c : Chip) : runView (behindCheck c) = runView c := by
  have hbegun : runView (periodBegun c) = runView c := by
    unfold periodBegun
    split <;> rfl
  rw [behindCheck_eq]
  dsimp only
  split
  · rw [runView_withLedger, hbegun]
  · rw [runView_withLedger, hbegun]

theorem runView_outageEnds (c : Chip) : runView (outageEnds c) = runView c := by
  simp only [outageEnds]
  rw [boundaryKeeps_runView.setTariff, runView_periodClose]
  split
  · rw [runView_behindCheck, runView_withLedger]
  · rfl

theorem runView_restoreFrom (init : Bool) (w : WorkCopy) (c : Chip) : runView (restoreFrom init w c) = runView c := by
  have hsave : ∀ c, runView (restoreSave w c) = runView c := fun _ => rfl
  have hinterval : ∀ c, runView (restoreInterval c) = runView c := fun _ => rfl
  have hcut : ∀ tariff last c, runView (if init then c else cutInterval tariff last c) = runView c := fun tariff last c => by
    split
    · rfl
    · rw [cutInterval, runView_demandEnd]
  have hnoted : ∀ (p : Prop) [Decidable p] code info wall mt c,
      runView (if p then tamperPut code info wall mt c else c) = runView c := fun p _ code info wall mt c => by split <;> rfl
  simp only [restoreFrom]
  rw [hsave, boundaryKeeps_runView.lateTamper, hinterval, hnoted, runView_outageEnds, hcut, runView_foldBanks, runView_withLedger,
    runView_setF (by decide), runView_setF (by decide)]

/-- R223: a store that holds nothing yet is formatted. -/
def storeFormatted (c : Chip) : Chip := if !c.store.formatted && (lifecycle c == 1 || lifecycle c == 3) then storeInit c else c

/-- R224: a gap of meter time is noted. -/
def gapNoted (c : Chip) : Chip :=
  if c.backup.gap then
    eventF Reg.BIL_STAT_MT_GAP 0 0xFF (Byte.le 8 c.backup.ms) (flagF Reg.BIL_STAT_MT_GAP 0 0 Reg.BIL_STAT_EVT_CNT 0 c)
  else c

theorem restoreLegal_eq (c : Chip) : restoreLegal c =
    let init := !(gapNoted c).store.formatted && (lifecycle (gapNoted c) == 1 || lifecycle (gapNoted c) == 3)
    let d := storeFormatted (gapNoted c)
    publishBilling (match newestCopy d.store with
      | none => { d with bil := { d.bil with lsFail := true } }
      | some w => restoreFrom init w d) := rfl

theorem runView_restoreLegal (c : Chip) : runView (restoreLegal c) = runView c := by
  have hgap : runView (gapNoted c) = runView c := by
    unfold gapNoted
    split
    · rw [runView_eventF, runView_flagF (by decide) (by decide)]
    · rfl
  have hformatted : ∀ c, runView (storeFormatted c) = runView c := fun c => by
    unfold storeFormatted
    split <;> rfl
  rw [restoreLegal_eq]
  dsimp only
  rw [boundaryKeeps_runView.publishBilling]
  split
  · rw [runView_withLedger, hformatted, hgap]
  · rw [runView_restoreFrom, hformatted, hgap]

theorem runView_takeReading (kind bay imp exp_ : Nat) (s : ReadStamp) (r : ReadState) (c : Chip) :
    runView (takeReading kind bay imp exp_ s r c) = runView c := by
  have hsession : ∀ hand c, runView (ceSession hand 1 c).1 = runView c := fun hand c => by
    unfold ceSession
    split
    · rfl
    · rw [ceAdmit, runView_setF (by decide), runView_setF (by decide), runView_setF (by decide)]
      rfl
  have hissue : ∀ hand c, runView (ksrIssue hand c) = runView c := fun hand c => by
    unfold ksrIssue
    split
    · rfl
    · dsimp only
      split
      · rfl
      · rw [runView_withLedger, hsession]
  simp only [takeReading]
  rw [hissue, runView_withLedger]

theorem runView_runShow (k : Nat) (c : Chip) : runView (runShow k c) = runView c := by
  unfold runShow
  split
  · rw [runView_legalRequest]
    rfl
  · rfl

theorem runView_legalRunStart (bay : Nat) (c : Chip) : runView (legalRunStart bay c) = runView c := by
  have hlegal : ∀ (c : Chip) x, runView { c with legal := x } = runView c := fun _ _ => rfl
  unfold legalRunStart
  split
  · split
    · rfl
    · rfl
  · simp only [runNext]
    split
    · rw [runView_runShow, hlegal]
    · split
      · rw [runView_legalRequest, runView_runShow, hlegal]
      · split
        · rw [runView_runShow, hlegal, runView_runShow, hlegal]
        · rw [runView_legalRequest, hlegal, runView_runShow, hlegal, runView_runShow, hlegal]

theorem runView_stopReadingRun (n : Nat) (c : Chip) : runView (stopReadingRun n c) = runView c := by
  have hstop : ∀ c, runView (stopReading n c) = runView c := fun c => by
    unfold stopReading
    split
    · unfold stopReadingTake
      split
      · rfl
      · dsimp only
        rw [runView_takeReading, runView_withLedger]
    · rfl
  unfold stopReadingRun
  split
  · rw [runView_legalRunStart, hstop]
  · rfl

/-- R258: a session that the cut left open ends at the start. -/
def sessionCut (c : Chip) (n : Nat) : Chip :=
  match c.store.sessions[n]?.getD none with
  | none => c
  | some (number, imp) =>
    let r : ReadState := { number := number, startImp := imp, openAt := some 0 }
    let c := { c with bil := { c.bil with done := c.bil.done.setIfInBounds n [r] } }
    let c := { c with legal := { c.legal with lastEnd := some n } }
    let c := bayPut n { bayGet n c with closing := true } (setF Reg.BAY_STATE_REASON n 0x10 c)
    stopReadingRun n (flagF Reg.BAY_EVT_SESS_END n 0 Reg.BAY_EVT_EVT_CNT n c)

theorem runView_sessionCut (c : Chip) (n : Nat) : runView (sessionCut c n) = runView c := by
  have hbay : ∀ x c, runView (bayPut n x c) = runView c := fun _ _ => rfl
  unfold sessionCut
  split
  · rfl
  · dsimp only
    rw [runView_stopReadingRun, runView_flagF (by decide) (by decide), hbay, runView_setF (by decide)]
    rfl

theorem runView_sessionsCut (c : Chip) : runView (sessionsCut c) = runView c := by
  have hfold : sessionsCut c = if !c.bil.ready then c else (List.range 16).foldl sessionCut c := rfl
  rw [hfold]
  split
  · rfl
  · exact foldl_keeps runView _ runView_sessionCut _ c

theorem runView_hostStart (c : Chip) : runView (hostStart c) = runView c := by
  have hbad : ∀ (p : Prop) [Decidable p] (c : Chip) x, runView (if p then c else { c with hst := x }) = runView c :=
    fun p _ c x => by split <;> rfl
  exact foldl_keeps runView _ (fun c i => by
    dsimp only
    rw [hbad, runView_keyLoad]) _ c

/-- R97: a deck other than the last one is an occurrence. -/
def deckCompared (c : Chip) : Chip :=
  match c.store.deckDigest with
  | some old => if old = c.sec.mDeck then c else tamper 11 0 c
  | none => c

/-- R98, R439: the sealed content of a sealed device, where it is not recorded yet. -/
def sealRestored (c : Chip) : Chip :=
  let due := c.backup.sealDue && sealed c
  let d := if sealed c && (c.store.sealed.isNone || due) then sealCopy c else c
  { d with backup := { d.backup with sealDue := false } }

theorem startLegal_eq (c : Chip) : startLegal c = hostStart (publishSecond (legalRefresh (publishBilling (sessionsCut
    (sealRestored (noteDeck (restoreLegal c))))))) := rfl

theorem runView_sealRestored (c : Chip) : runView (sealRestored c) = runView c := by
  simp only [sealRestored]
  rw [runView_withBackup]
  split
  · rw [sealCopy, runView_flagF (by decide) (by decide)]
    rfl
  · rfl

theorem runView_noteDeck (c : Chip) : runView (noteDeck c) = runView c := by
  have hcompared : runView (deckCompared c) = runView c := by
    unfold deckCompared
    split
    · split
      · rfl
      · exact runView_tamper 11 0 c
    · rfl
  exact hcompared

theorem runView_startLegal (c : Chip) : runView (startLegal c) = runView c := by
  have hpublish : ∀ c, runView (publishSecond c) = runView c := fun _ => rfl
  have hrefresh : ∀ c, runView (legalRefresh c) = runView c := fun c => by
    unfold legalRefresh
    split
    · rw [runView_legalRequest]
      rfl
    · rfl
  rw [startLegal_eq, runView_hostStart, hpublish, hrefresh, boundaryKeeps_runView.publishBilling, runView_sessionsCut,
    runView_sealRestored, runView_noteDeck, runView_restoreLegal]

end Sys2Proof.Machine
end

section
/-!
The start sequence (chapter 04, R75, R93, R96, R100).
-/

namespace Sys2Proof.Machine
open Sys2Proof Sys2Proof.Safety

/-! ### Before the decks -/

/-- What the start takes from the reset record. -/
structure StartTaken (c d : Chip) : Prop where
  first : d.pwr.firstCause = none
  held : d.pwr.holdPassed = false
  fired : d.pwr.porFired = false
  trump : d.hsl.trump = c.hsl.trump

theorem hsl_startStatus (c : Chip) : (startStatus c).hsl = c.hsl := by
  simp only [startStatus, setF_hsl]
  split <;> simp

/-- The backup domain as the start finds it, the lost contents and the stop of TCLK counted. -/
def backupFound (env : StartEnv) (c : Chip) : Chip :=
  let lost := !env.retentionOk || c.pwr.porFired
  if lost then backupLost env.inputs c
  else if c.pwr.holdPassed then { c with backup := { c.backup with cut := true } }
  else c

/-- R69: the gap that the stop of TCLK in HOLD left. -/
def gapFound (c : Chip) : Chip :=
  if c.backup.tclkStop then
    setF Reg.PWR_BKSTAT_MTIME_GAP 0 1 (wallStop { c with backup := { c.backup with tclkStop := false, gap := true } })
  else c

theorem startBackup_eq (env : StartEnv) (c : Chip) : startBackup env c =
    let d := startStatus (rstRecord (startCause (!env.retentionOk || c.pwr.porFired) c) (gapFound (backupFound env c)))
    { d with
      pwr := { d.pwr with
        porFired := false, holdPassed := false, firstCause := none, bclkFlag := false, startAt := d.backup.ms }
      bridge := {} } := rfl

theorem startTaken_startBackup (env : StartEnv) (c : Chip) : StartTaken c (startBackup env c) := by
  have hfound : (backupFound env c).hsl = c.hsl := by
    simp only [backupFound]
    split
    · simp [backupLost]
    · split <;> rfl
  have hgap : ∀ c, (gapFound c).hsl = c.hsl := fun c => by
    unfold gapFound
    split
    · simp [wallStop]
    · rfl
  rw [startBackup_eq]
  refine ⟨rfl, rfl, rfl, congrArg HslState.trump ?_⟩
  rw [hsl_startStatus, rstRecord, setF_hsl, addSat, setF_hsl, setF_hsl, hgap, hfound]

theorem startTaken_startPrep (env : StartEnv) (c : Chip) : StartTaken c (startPrep env c) := by
  obtain ⟨hfirst, hheld, hfired, htrump⟩ := startTaken_startBackup env c
  have hview : runView (startPrep env c) = runView (startBackup env c) := by
    rw [startPrep, runView_setF (by decide), runView_fwSelect, runView_startMemory, runView_startKeys]
  simp only [runView, Prod.mk.injEq] at hview
  obtain ⟨hpwr, htrump', -, -⟩ := hview
  exact ⟨by rw [hpwr, hfirst], by rw [hpwr, hheld], by rw [hpwr, hfired], by rw [htrump', htrump]⟩

/-! ### The walk over the decks, R93 -/

theorem runView_deckRecord {slot : Nat} (r : Option Reject) (c : Chip) : runView (deckRecord slot r c) = runView c := by
  have hok : 0x20000 ≤ (deckOkReg slot).base := by
    unfold deckOkReg
    split <;> decide
  simp only [deckRecord]
  rw [runView_setF hok, runView_setF (by decide), runView_setF (by decide), runView_setF (by decide)]

/-- An accepted deck: its cards run, and its trump card is held by the hard-wired logic. -/
theorem deckAccept_kept (slot deckMs : Nat) (d : Deck) (h : Held) (c : Chip) :
    (deckAccept slot deckMs d h c).pwr = c.pwr ∧ (deckAccept slot deckMs d h c).hsl.trump = some h.p := by
  simp only [deckAccept, setF_pwr, setF_hsl]
  rw [foldl_keeps Chip.pwr _ fun c k => setF_pwr _ _ _ c, foldl_keeps Chip.hsl _ fun c k => setF_hsl _ _ _ c]
  simp only [setF_pwr, setF_hsl, and_self]

/-- The try of a slot ends with a reason and leaves the power state and the card held, or with a trump card held. -/
theorem slotTry_cases (slot : Nat) (env : StartEnv) (c : Chip) :
    ((slotTry slot env c).2 ≠ 0 ∧ runView (slotTry slot env c).1 = runView c) ∨
    ((slotTry slot env c).2 = 0 ∧ (slotTry slot env c).1.pwr = c.pwr ∧ (slotTry slot env c).1.hsl.trump.isSome = true) := by
  unfold slotTry
  split
  · next hcheck => exact .inl ⟨reason_of_deckCheck hcheck, runView_deckRecord _ c⟩
  · split
    · exact .inl ⟨Nat.succ_ne_zero _, runView_deckRecord _ c⟩
    · split
      · exact .inl ⟨Nat.succ_ne_zero _, runView_deckRecord _ c⟩
      · obtain ⟨hpwr, htrump⟩ := deckAccept_kept slot env.deckMs _ _ (deckRecord slot none c)
        refine .inr ⟨rfl, hpwr.trans ?_, by rw [htrump]; rfl⟩
        exact congrArg Prod.fst (runView_deckRecord none c)

/-- R93: a deck is chosen with its trump card held, or none is and the power die keeps what it held. -/
theorem deckChoose_cases (env : StartEnv) (c : Chip) : (deckChoose env c).1.pwr = c.pwr ∧
    ((deckChoose env c).2 = true → (deckChoose env c).1.hsl.trump.isSome = true) ∧
    ((deckChoose env c).2 = false → (deckChoose env c).1.hsl.trump = c.hsl.trump) := by
  have hseal : ∀ (p : Prop) [Decidable p] (c : Chip), runView (if p then tamper 10 0 c else c) = runView c := fun p _ c => by
    split
    · exact runView_tamper 10 0 c
    · rfl
  have hparts : ∀ {c d : Chip}, runView d = runView c → d.pwr = c.pwr ∧ d.hsl.trump = c.hsl.trump := fun h => by
    simp only [runView, Prod.mk.injEq] at h
    obtain ⟨hpwr, htrump, -, -⟩ := h
    exact ⟨hpwr, htrump⟩
  simp only [deckChoose]
  rcases slotTry_cases (getF Reg.UPD_DECK_STAT_PREF 0 c) env c with ⟨hreason, ha⟩ | ⟨hnone, hpwr, htrump⟩
  · rw [if_neg hreason]
    obtain ⟨hpwrA, htrumpA⟩ := hparts ha
    generalize slotTry (getF Reg.UPD_DECK_STAT_PREF 0 c) env c = a at hpwrA htrumpA ⊢
    have hb := slotTry_cases (1 - getF Reg.UPD_DECK_STAT_PREF 0 c) env a.1
    generalize slotTry (1 - getF Reg.UPD_DECK_STAT_PREF 0 c) env a.1 = b at hb ⊢
    obtain ⟨hpwrS, htrumpS⟩ := hparts (hseal (a.2 = 0xE ∨ b.2 = 0xE) b.1)
    dsimp only
    rw [hpwrS, htrumpS]
    rcases hb with ⟨hreason, hb⟩ | ⟨hnone, hpwr, htrump⟩
    · obtain ⟨hpwr, htrump⟩ := hparts hb
      exact ⟨hpwr.trans hpwrA, fun h => absurd (by simpa using h) hreason, fun _ => htrump.trans htrumpA⟩
    · exact ⟨hpwr.trans hpwrA, fun _ => htrump, fun h => absurd h (by simp [hnone])⟩
  · rw [if_pos hnone]
    exact ⟨hpwr, fun _ => htrump, nofun⟩

/-! ### The accepted deck runs, and bare mode, R96, R100 -/

theorem runStart_eq (env : StartEnv) (c : Chip) : runStart env c =
    startLegal (readEntries (cardsApplied env (enterRun { c with pwr := { c.pwr with phase := .run } }))) := rfl

theorem runView_runStart (env : StartEnv) (c : Chip) : runView (runStart env c) =
    ({ c.pwr with phase := .run, idleMs := 0, timerWake := false }, c.hsl.trump, c.deck.cards, 1) := by
  rw [runStart_eq, runView_startLegal, runView_readEntries, runView_cardsApplied, runView, enterRun, getF_setF_same]
  simp [Reg.PWR_STATE_STATE]

/-- What bare mode shows and holds. -/
def bareView (c : Chip) : PwrState × Option (List Nat) × List Card × Nat :=
  (c.pwr, c.hsl.trump, c.deck.cards, getF Reg.UPD_DECK_STAT_BARE 0 c)

theorem bareView_setF {f : Fld} {i : Nat} (h : fkey Reg.UPD_DECK_STAT_BARE 0 ≠ fkey f i) (v : Nat) (c : Chip) :
    bareView (setF f i v c) = bareView c := by
  rw [bareView, getF_setF_of_key h, setF_pwr, setF_hsl, setF_deck, bareView]

/-- The device in bare mode before its keys, channels and panels. -/
def bared (c : Chip) : Chip :=
  let c := { c with
    pwr := { c.pwr with phase := .bare }
    deck := { c.deck with cards := [] }
    sec := { c.sec with mDeck := List.replicate 32 0 } }
  let c := (List.range 8).foldl (fun c k => setF Reg.UPD_DECK_DIG_DIGEST k 0 c) c
  let c := setF Reg.UPD_DECK_STAT_FALLBACK 0 0 (setF Reg.UPD_DECK_SERIAL_SERIAL 0 0 c)
  setF Reg.UPD_DECK_STAT_BARE 0 1 c

theorem bareStart_eq (c : Chip) : bareStart c =
    publishSecond (legalBare (lswBare (readEntries (setF Reg.UPD_DECK_STAT_RUN 0 0 (bared c))))) := rfl

theorem bareView_bared (c : Chip) : bareView (bared c) = ({ c.pwr with phase := .bare }, c.hsl.trump, [], 1) := by
  simp only [bared, bareView, setF_pwr, setF_hsl, setF_deck]
  rw [foldl_keeps Chip.pwr _ fun c k => setF_pwr _ _ _ c, foldl_keeps Chip.hsl _ fun c k => setF_hsl _ _ _ c,
    foldl_keeps Chip.deck _ fun c k => setF_deck _ _ _ c, getF_setF_same]
  rfl

theorem bareView_readEntries (c : Chip) : bareView (readEntries c) = bareView c :=
  foldl_keeps bareView _ (fun c e => by
    simp only [keymapNote]
    split
    · next he =>
      refine bareView_setF ?_ _ c
      simp only [fkey, Reg.UPD_DECK_STAT_BARE, Reg.SEC_KEYMAP_LOADED]
      omega
    · rfl) _ c

theorem bareView_legalBare (c : Chip) : bareView (legalBare c) = bareView c := by
  have hstart : ∀ r c, bareView (legalStart r c) = bareView c := fun r c => by
    simp only [legalStart]
    change bareView (addSat _ _ _ _ _) = _
    rw [addSat, bareView_setF (by decide), bareView_setF (by decide), bareView_setF (by decide), bareView_setF (by decide)]
  unfold legalBare legalRequest
  split
  · rfl
  · split
    · rfl
    · split
      · rfl
      · split
        · exact hstart _ _
        · rfl

theorem bareView_bareStart (c : Chip) : bareView (bareStart c) = ({ c.pwr with phase := .bare }, c.hsl.trump, [], 1) := by
  have hpublish : ∀ c, bareView (publishSecond c) = bareView c := fun _ => rfl
  have hbare : ∀ c, bareView (lswBare c) = bareView c := fun _ => rfl
  rw [bareStart_eq, hpublish, bareView_legalBare, hbare, bareView_readEntries, bareView_setF (by decide), bareView_bared]

/-! ### The obligation -/

theorem startSequence_of_due {env : StartEnv} {c : Chip} (hdue : c.pwr.phase = .startDue) (hpowered : c.powered = true) :
    startSequence env c = if c.pwr.pfLow then startHold c
      else
        let r := deckChoose env (startPrep env c)
        if r.2 && env.dramOk && !loaderRuns r.1 then runStart env r.1 else bareStart r.1 := by
  rw [startSequence, if_neg (by simp [hdue, hpowered])]
  rfl

/-- Settles O14: the decks are walked before the sequence chooses; what it starts then leaves the card held and the power state's
phase as chosen. -/
theorem startSequenceChooses : Obligations.StartSequenceChooses := by
  intro s env hdue hpowered
  have hrow := startSequence_of_due (env := env) hdue hpowered
  refine ⟨fun hlow => ?_, fun hlow => ?_⟩
  · rw [if_pos hlow] at hrow
    refine ⟨_, run_next (startSequence env) s, ?_⟩
    dsimp only
    rw [settle_pwr, getF_settle (by decide), hrow, startHold, setF_pwr, getF_setF_same]
    exact ⟨rfl, rfl⟩
  · rw [if_neg (by simp [hlow])] at hrow
    obtain ⟨hfirst, hheld, hfired, htrump⟩ := startTaken_startPrep env s.toChip
    obtain ⟨hpwr, hsome, hnone⟩ := deckChoose_cases env (startPrep env s.toChip)
    generalize deckChoose env (startPrep env s.toChip) = r at hrow hpwr hsome hnone
    dsimp only at hrow ⊢
    refine ⟨_, run_next (startSequence env) s, ?_⟩
    dsimp only
    rw [settle_pwr, settle_hsl_trump, settle_deck, getF_settle (by decide), getF_settle (by decide), hrow]
    by_cases hrun : (r.2 && env.dramOk && !loaderRuns r.1) = true
    · rw [if_pos hrun]
      have hview := runView_runStart env r.1
      simp only [runView, Prod.mk.injEq] at hview
      obtain ⟨hp, ht, hc, hstate⟩ := hview
      simp only [Bool.and_eq_true, Bool.not_eq_true'] at hrun
      obtain ⟨⟨hchosen, hdram⟩, hloader⟩ := hrun
      rw [hp, ht, hc, hstate]
      refine ⟨by rw [hpwr, hfirst], by rw [hpwr, hheld], by rw [hpwr, hfired], rfl, hsome, fun h => (hnone h).trans htrump,
        fun h => ?_, fun _ _ _ => ⟨rfl, rfl, rfl⟩⟩
      simp [hdram, hloader, hchosen] at h
    · rw [if_neg hrun]
      have hview := bareView_bareStart r.1
      simp only [bareView, Prod.mk.injEq] at hview
      obtain ⟨hp, ht, hc, hbare⟩ := hview
      rw [hp, ht, hc, hbare]
      refine ⟨by rw [hpwr, hfirst], by rw [hpwr, hheld], by rw [hpwr, hfired], rfl, hsome, fun h => (hnone h).trans htrump,
        fun _ => ⟨rfl, rfl, rfl⟩, fun hdram hloader hchosen => absurd ?_ hrun⟩
      simp [hdram, hloader, hchosen]

end Sys2Proof.Machine
end

section
/-!
A bay's session machine (chapter 09, R257-R261): what its inputs leave, and what follows its transition.
-/

namespace Sys2Proof.Machine
open Sys2Proof Sys2Proof.Safety

/-! ### Bays -/

theorem bayGet_bayPut_same {n : Nat} (hn : n < 16) (x : BayState) (c : Chip) : bayGet n (bayPut n x c) = x := by
  simp [bayGet, bayPut, hn]

theorem bayGet_bayPut_ne {m n : Nat} (h : m ≠ n) (x : BayState) (c : Chip) : bayGet m (bayPut n x c) = bayGet m c := by
  simp only [bayGet, bayPut]
  rw [Vector.getElem?_setIfInBounds_ne (fun e => h e.symm)]

theorem bayGet_congr {c d : Chip} (h : d.bay = c.bay) (n : Nat) : bayGet n d = bayGet n c := by simp only [bayGet, h]

theorem getF_bayPut (f : Fld) (i n : Nat) (x : BayState) (c : Chip) : getF f i (bayPut n x c) = getF f i c :=
  getF_withRegs f i rfl rfl rfl

theorem gateOff_kept (n : Nat) (c : Chip) : (gateOff n c).bay = c.bay ∧ (gateOff n c).store = c.store ∧
    (gateOff n c).backup = c.backup ∧ (gateOff n c).pwr = c.pwr ∧ (gateOff n c).hsl.trump = c.hsl.trump ∧
    (gateOff n c).hsl.latch = c.hsl.latch ∧ (gateOff n c).bregs = c.bregs ∧ (gateOff n c).fregs = c.fregs := by
  obtain ⟨m, v, b, w, e⟩ := gateOff_frame n c
  rw [e]
  exact ⟨rfl, rfl, rfl, rfl, rfl, rfl, rfl, rfl⟩

theorem getF_of_alike {f : Fld} {i : Nat} {c d : Chip} (ha : Alike c d) (hb : d.bregs = c.bregs) (hf : d.fregs = c.fregs)
    (h : shownKey (fkey f i) = false) : getF f i d = getF f i c := by
  have hr := ha _ h
  simp only [getF]
  cases f.home
  · exact congrArg (· ^^^ f.rst) hr
  · exact congrArg (fun m => mapGet m (fkey f i) ^^^ f.rst) hb
  · exact congrArg (fun m => mapGet m (fkey f i) ^^^ f.rst) hf

theorem getF_gateOff {f : Fld} {i : Nat} (h : shownKey (fkey f i) = false) (n : Nat) (c : Chip) :
    getF f i (gateOff n c) = getF f i c := by
  obtain ⟨-, -, -, -, -, -, hb, hf⟩ := gateOff_kept n c
  exact getF_of_alike (alike_gateOff n c) hb hf h

theorem getF_lswAll {f : Fld} {i : Nat} (h : shownKey (fkey f i) = false) (c : Chip) : getF f i (lswAll c) = getF f i c :=
  getF_of_alike (alike_lswAll c) (lswAll_bregs c) (lswAll_fregs c) h

/-! ### BAYn_STATE -/

/-- The address of BAYn_STATE. -/
def stateWord (n : Nat) : Nat := 0x100044 + 4096 * n

/-- State and reason of a bay. -/
def stateView (n : Nat) (c : Chip) : Nat × Nat := (bayState n c, getF Reg.BAY_STATE_REASON n c)

theorem word_state (n : Nat) : fkey Reg.BAY_STATE_STATE n / 32 = stateWord n ∧
    fkey Reg.BAY_STATE_REASON n / 32 = stateWord n := by
  simp only [fkey, Reg.BAY_STATE_STATE, Reg.BAY_STATE_REASON, stateWord]
  omega

/-- A write to another word leaves state and reason. -/
theorem stateView_setF {n : Nat} {f : Fld} {i : Nat} (h : fkey f i / 32 ≠ stateWord n) (v : Nat) (c : Chip) :
    stateView n (setF f i v c) = stateView n c := by
  obtain ⟨hstate, hreason⟩ := word_state n
  unfold stateView bayState
  rw [getF_setF_of_key (fun e => h (by rw [← hstate, e])), getF_setF_of_key (fun e => h (by rw [← hreason, e]))]

theorem word_ne_of_bay {f : Fld} (hstride : f.stride = 4096) (hlsb : f.lsb < 32) (hbase : f.base ≠ 0x100044) (n : Nat) :
    fkey f n / 32 ≠ stateWord n := by
  simp only [fkey, hstride, stateWord]
  omega

theorem word_ne_of_far {f : Fld} (hbase : 0x110000 ≤ f.base) {n : Nat} (hn : n < 16) (i : Nat) :
    fkey f i / 32 ≠ stateWord n := by
  have hkey := fkey_ge f i
  unfold stateWord
  omega

theorem word_ne_of_low {f : Fld} {i : Nat} (h : fkey f i < 0x100000 * 32) (n : Nat) : fkey f i / 32 ≠ stateWord n := by
  unfold stateWord
  omega

theorem stateView_flagF {f g : Fld} {n : Nat} (hf : f.stride = 4096 ∧ f.lsb < 32 ∧ f.base ≠ 0x100044)
    (hg : g.stride = 4096 ∧ g.lsb < 32 ∧ g.base ≠ 0x100044) (c : Chip) : stateView n (flagF f n 0 g n c) = stateView n c := by
  obtain ⟨hfs, hfl, hfb⟩ := hf
  obtain ⟨hgs, hgl, hgb⟩ := hg
  rw [flagF, flagBit, addSat, stateView_setF (word_ne_of_bay hgs hgl hgb n), setBitF,
    stateView_setF (word_ne_of_bay hfs hfl hfb n)]

theorem shownKey_state {n : Nat} (hn : n < 16) :
    shownKey (fkey Reg.BAY_STATE_STATE n) = false ∧ shownKey (fkey Reg.BAY_STATE_REASON n) = false := by
  constructor <;> refine shownKey_of_lt ?_ <;> simp only [fkey, Reg.BAY_STATE_STATE, Reg.BAY_STATE_REASON] <;> omega

theorem stateView_lswAll {n : Nat} (hn : n < 16) (c : Chip) : stateView n (lswAll c) = stateView n c := by
  obtain ⟨hstate, hreason⟩ := shownKey_state hn
  rw [stateView, bayState, getF_lswAll hstate, getF_lswAll hreason]
  rfl

theorem stateView_gateOff {n : Nat} (hn : n < 16) (m : Nat) (c : Chip) : stateView n (gateOff m c) = stateView n c := by
  obtain ⟨hstate, hreason⟩ := shownKey_state hn
  rw [stateView, bayState, getF_gateOff hstate, getF_gateOff hreason]
  rfl

/-! ### The inputs of a publish -/

/-- The logic's registers that the inputs leave: all but BAYn_EVT and what settling shows. -/
def inputRegs (n : Nat) (c : Chip) : Nat → Nat := fun k =>
  if shownKey k = true ∨ k / 32 = 0x100040 + 4096 * n then 0 else mapGet c.regs k

/-- Commands that wait at a bay, the hand that holds its session, and the hand it is to move to. -/
def bayAsks (x : BayState) : Option Nat × Option Nat × Option (Fin 3) × Option (Fin 3) := (x.cmd, x.cardCmd, x.hand, x.move)

/-- The parts that the inputs of bay `n`'s session machine leave. -/
structure InputView where
  regs : (Nat → Nat) × List (Nat × Nat) × List (Nat × Nat)
  pwr : PwrState
  backup : BackupState
  store : LegalStore
  bil : LedgerState
  trump : Option (List Nat)
  latch : Vector (BitVec 6) 17
  asks : Option Nat × Option Nat × Option (Fin 3) × Option (Fin 3)

def inputView (n : Nat) (c : Chip) : InputView :=
  { regs := (inputRegs n c, c.bregs, c.fregs), pwr := c.pwr, backup := c.backup, store := c.store, bil := ledgerRest c.bil
    trump := c.hsl.trump, latch := c.hsl.latch, asks := bayAsks (bayGet n c) }

theorem inputView_bayPut {n : Nat} (hn : n < 16) {x : BayState} {c : Chip} (h : bayAsks x = bayAsks (bayGet n c)) :
    inputView n (bayPut n x c) = inputView n c := by
  unfold inputView
  rw [bayGet_bayPut_same hn, h]
  rfl

theorem inputRegs_setF {n : Nat} {f : Fld} (hf : f.base = 0x100040 ∧ f.stride = 4096 ∧ f.lsb < 32) (v : Nat) (c : Chip) :
    inputRegs n (setF f n v c) = inputRegs n c := by
  obtain ⟨hbase, hstride, hlsb⟩ := hf
  have hword : fkey f n / 32 = 0x100040 + 4096 * n := by
    simp only [fkey, hbase, hstride]
    omega
  funext k
  unfold inputRegs
  split
  · rfl
  next hk =>
    unfold setF
    cases f.home
    · exact mapGet_put_ne _ _ _ _ fun e => hk (.inr (by rw [e, hword]))
    · rfl
    · rfl

theorem inputView_setF {n : Nat} {f : Fld} (hvol : f.home = .vol) (hf : f.base = 0x100040 ∧ f.stride = 4096 ∧ f.lsb < 32)
    (v : Nat) (c : Chip) : inputView n (setF f n v c) = inputView n c := by
  have hregs := inputRegs_setF (n := n) hf v c
  unfold inputView
  rw [hregs, setF_bregs (by rw [hvol]; decide), setF_fregs (by rw [hvol]; decide), bayGet_congr (setF_bay f n v c)]
  simp

theorem inputView_gateOff (n m : Nat) (c : Chip) : inputView n (gateOff m c) = inputView n c := by
  obtain ⟨hbay, hstore, hbackup, hpwr, htrump, hlatch, hbregs, hfregs⟩ := gateOff_kept m c
  have hregs : inputRegs n (gateOff m c) = inputRegs n c := by
    funext k
    unfold inputRegs
    split
    · rfl
    next hk => exact alike_gateOff m c k (by simpa using fun e => hk (.inl e))
  unfold inputView
  rw [hregs, hbregs, hfregs, hpwr, hbackup, hstore, ledgerRest_gateOff, htrump, hlatch, bayGet_congr hbay]

theorem inputView_fallBack {n : Nat} (hn : n < 16) (c : Chip) : inputView n (fallBack n c) = inputView n c := by
  simp only [fallBack]
  split
  · rw [flagF, flagBit, addSat, inputView_setF rfl (by decide), setBitF, inputView_setF rfl (by decide)]
    exact inputView_bayPut hn rfl
  · rfl

theorem inputView_undefNote {n : Nat} (hn : n < 16) (c : Chip) : inputView n (undefNote n c) = inputView n c := by
  simp only [undefNote]
  split <;> exact inputView_bayPut hn rfl

theorem inputView_lockConfirm {n : Nat} (hn : n < 16) (c : Chip) : inputView n (lockConfirm n c) = inputView n c := by
  simp only [lockConfirm]
  split
  · exact inputView_bayPut hn rfl
  · rfl

theorem inputView_dcPut {n : Nat} (hn : n < 16) (x : DcState) (c : Chip) : inputView n (dcPut n x c) = inputView n c :=
  inputView_bayPut hn rfl

theorem inputView_grantDrop {n : Nat} (hn : n < 16) (c : Chip) : inputView n (grantDrop n c) = inputView n c := by
  rw [grantDrop, inputView_gateOff]
  exact inputView_bayPut hn rfl

/-- A view that both branches leave. -/
theorem view_ite {β : Type} {v : Chip → β} {p : Prop} [Decidable p] {a b : Chip} {x : β} (ha : v a = x) (hb : v b = x) :
    v (if p then a else b) = x := by
  split
  · exact ha
  · exact hb

theorem inputView_dcWatch {n : Nat} (hn : n < 16) (c : Chip) : inputView n (dcWatch n c) = inputView n c := by
  unfold dcWatch
  exact view_ite rfl (view_ite ((inputView_grantDrop hn _).trans (inputView_dcPut hn _ c)) (inputView_dcPut hn _ c))

theorem inputView_dcAdvance {n : Nat} (hn : n < 16) (c : Chip) : inputView n (dcAdvance n c) = inputView n c := by
  have hstage : ∀ x y, inputView n (dcPut n x (insPut n y c)) = inputView n c := fun x y => inputView_dcPut hn x _
  unfold dcAdvance
  dsimp only
  split
  case h_3 => exact view_ite (inputView_dcPut hn _ c) rfl
  case h_6 => rfl
  all_goals exact view_ite (hstage _ _) rfl

theorem inputView_bayInputs {n : Nat} (hn : n < 16) (c : Chip) : inputView n (bayInputs n c) = inputView n c := by
  rw [bayInputs, inputView_dcAdvance hn, inputView_dcWatch hn, inputView_lockConfirm hn, inputView_undefNote hn,
    inputView_fallBack hn]

/-- R257: a vehicle is seen, and nothing but a fault can bar a session. -/
structure VehicleSeen (n : Nat) (c : Chip) : Prop where
  state : bayState n c = 1
  seen : 2 ≤ recClass n c ∧ recClass n c ≤ 4
  plug : plugOk n c = true
  store : c.bil.lsFail = false
  pending : actPending c = false
  hand : (bayGet n c).hand = none
  move : (bayGet n c).move = none

/-- What a session machine's inputs leave as they found it. -/
structure InputsKept (n : Nat) (c d : Chip) : Prop where
  reg : ∀ f i, shownKey (fkey f i) = false → fkey f i / 32 ≠ 0x100040 + 4096 * n → getF f i d = getF f i c
  asks : bayAsks (bayGet n d) = bayAsks (bayGet n c)
  bil : ledgerRest d.bil = ledgerRest c.bil
  pwr : d.pwr = c.pwr
  backup : d.backup = c.backup
  store : d.store = c.store
  trump : d.hsl.trump = c.hsl.trump
  latch : d.hsl.latch = c.hsl.latch

theorem inputsKept_of_inputView {n : Nat} {c d : Chip} (h : inputView n d = inputView n c) : InputsKept n c d where
  reg f i hshown hword := by
    have hregs := congrArg InputView.regs h
    simp only [inputView, Prod.mk.injEq] at hregs
    obtain ⟨hr, hb, hf⟩ := hregs
    have hkey := congrFun hr (fkey f i)
    simp only [inputRegs, hshown, hword, Bool.false_eq_true, or_self, if_false] at hkey
    simp only [getF]
    cases f.home
    · exact congrArg (· ^^^ f.rst) hkey
    · exact congrArg (fun m => mapGet m (fkey f i) ^^^ f.rst) hb
    · exact congrArg (fun m => mapGet m (fkey f i) ^^^ f.rst) hf
  asks := congrArg InputView.asks h
  bil := congrArg InputView.bil h
  pwr := congrArg InputView.pwr h
  backup := congrArg InputView.backup h
  store := congrArg InputView.store h
  trump := congrArg InputView.trump h
  latch := congrArg InputView.latch h

theorem inputsKept_bayInputs {n : Nat} (hn : n < 16) (c : Chip) : InputsKept n c (bayInputs n c) :=
  inputsKept_of_inputView (inputView_bayInputs hn c)

namespace InputsKept
variable {n : Nat} (hn : n < 16) {c d : Chip} (h : InputsKept n c d)
include hn h

/-- A field of a bay but BAYn_EVT. -/
theorem bayReg {f : Fld} (hf : f.stride = 4096 ∧ f.lsb < 32 ∧ f.base < 0x101000 ∧ f.base ≠ 0x100040) :
    getF f n d = getF f n c := by
  obtain ⟨hstride, hlsb, hbase, hevt⟩ := hf
  refine h.reg f n (shownKey_of_lt ?_) ?_ <;> simp only [fkey, hstride] <;> omega

/-- A field outside the bays and the load switches. -/
theorem otherReg {f : Fld} {i : Nat} (hshown : shownKey (fkey f i) = false)
    (hfar : fkey f i < 0x100000 * 32 ∨ 0x110000 * 32 ≤ fkey f i) : getF f i d = getF f i c :=
  h.reg f i hshown (by omega)

theorem state : bayState n d = bayState n c := h.bayReg hn (by decide)

theorem recognised : recClass n d = recClass n c := h.bayReg hn (by decide)

theorem plug : plugOk n d = plugOk n c := by
  simp only [plugOk, baySocket, h.bayReg hn (f := Reg.BAY_PROX_CODE) (by decide),
    h.bayReg hn (f := Reg.BAY_CFG_PP_MODE) (by decide)]

theorem pending : actPending d = actPending c := by
  simp only [actPending, h.otherReg hn (f := Reg.UPD_STAT_PENDING) (i := 0) (by decide) (by decide)]

theorem mayLeave : mayLeaveF n d = mayLeaveF n c := by
  have hready : d.bil.ready = c.bil.ready := by
    show (ledgerRest d.bil).ready = (ledgerRest c.bil).ready
    rw [h.bil]
  have hlat : getF Reg.PRT_LAT_KINDS n d = getF Reg.PRT_LAT_KINDS n c := by
    refine h.otherReg hn (shownKey_of_lt ?_) (.inr ?_) <;> simp only [fkey, Reg.PRT_LAT_KINDS] <;> omega
  simp only [mayLeaveF, held, bayEnabled, trumpU16, h.trump, h.pwr, hready, hlat,
    h.bayReg hn (f := Reg.BAY_CFG_TYPE) (by decide), h.otherReg hn (f := Reg.PRT_SEQ_SEQ) (i := 0) (by decide) (by decide),
    h.otherReg hn (f := Reg.PRT_LAT_KINDS) (i := 16) (by decide) (by decide)]

theorem vehicleSeen (hseen : VehicleSeen n c) : VehicleSeen n d := by
  obtain ⟨hstate, hrec, hplug, hstore, hpending, hhand, hmove⟩ := hseen
  have hasks := h.asks
  simp only [bayAsks, Prod.mk.injEq] at hasks
  obtain ⟨-, -, hhand', hmove'⟩ := hasks
  refine ⟨(h.state hn).trans hstate, by rwa [h.recognised hn], (h.plug hn).trans hplug, ?_, (h.pending hn).trans hpending,
    hhand'.trans hhand, hmove'.trans hmove⟩
  show (ledgerRest d.bil).lsFail = false
  rw [h.bil]
  exact hstore

end InputsKept

/-! ### What a transition changes -/

/-- State, hand and entry of a bay, with the HSL, the backup domain and the legal store. -/
structure ShownView where
  state : Nat × Nat
  hsl : HslState
  store : LegalStore
  backup : BackupState
  entered : Nat
  hand : Option (Fin 3)

def shownView (n : Nat) (c : Chip) : ShownView :=
  { state := stateView n c, hsl := c.hsl, store := c.store, backup := c.backup
    entered := (bayGet n c).entered, hand := (bayGet n c).hand }

/-- The commands that wait at a bay. -/
def waiting (n : Nat) (c : Chip) : Option Nat × Option Nat := ((bayGet n c).cmd, (bayGet n c).cardCmd)

def bayView (n : Nat) (c : Chip) : ShownView × (Option Nat × Option Nat) := (shownView n c, waiting n c)

theorem bayView_congr {n : Nat} {c d : Chip} (hstate : stateView n d = stateView n c) (hhsl : d.hsl = c.hsl)
    (hstore : d.store = c.store) (hbackup : d.backup = c.backup) (hbay : d.bay = c.bay) : bayView n d = bayView n c := by
  simp only [bayView, shownView, waiting, hstate, hhsl, hstore, hbackup, bayGet_congr hbay]

theorem bayView_setF {n : Nat} {f : Fld} {i : Nat} (h : fkey f i / 32 ≠ stateWord n) (v : Nat) (c : Chip) :
    bayView n (setF f i v c) = bayView n c :=
  bayView_congr (stateView_setF h v c) (setF_hsl ..) (setF_store ..) (setF_backup ..) (setF_bay ..)

theorem bayView_flagF {f g : Fld} {n : Nat} (hf : f.stride = 4096 ∧ f.lsb < 32 ∧ f.base ≠ 0x100044)
    (hg : g.stride = 4096 ∧ g.lsb < 32 ∧ g.base ≠ 0x100044) (c : Chip) : bayView n (flagF f n 0 g n c) = bayView n c :=
  bayView_congr (stateView_flagF hf hg c) (flagF_hsl ..) (flagF_store ..) (flagF_backup ..) (flagF_bay ..)

/-- What the view keeps of a bay's record. -/
def bayShown (x : BayState) : Nat × Option (Fin 3) × Option Nat × Option Nat := (x.entered, x.hand, x.cmd, x.cardCmd)

theorem bayView_bayPut {n : Nat} (hn : n < 16) {x : BayState} {c : Chip} (h : bayShown x = bayShown (bayGet n c)) :
    bayView n (bayPut n x c) = bayView n c := by
  simp only [bayShown, Prod.mk.injEq] at h
  obtain ⟨hentered, hhand, hcmd, hcard⟩ := h
  simp only [bayView, shownView, waiting, bayGet_bayPut_same hn, hentered, hhand, hcmd, hcard]
  rfl

theorem bayView_checkEnd (n m : Nat) (c : Chip) : bayView n (checkEnd m c) = bayView n c := by
  unfold checkEnd
  exact view_ite rfl rfl

/-- R258: a granted session's reading waits for its stop. -/
def readingEnded (n : Nat) (c : Chip) : Chip :=
  let d := if (bayGet n c).granted then
      { c with bil := { c.bil with
        done := c.bil.done.setIfInBounds n (c.bil.done[n]?.getD [] ++ [c.bil.read[n]?.getD {}])
        read := c.bil.read.setIfInBounds n {} } }
    else c
  { d with legal := { d.legal with lastEnd := some n } }

theorem sessionEnd_eq (n : Nat) (c : Chip) : sessionEnd n c =
    if (bayGet n c).hand.isNone && (bayGet n c).move.isNone then c
    else flagF Reg.BAY_EVT_SESS_END n 0 Reg.BAY_EVT_EVT_CNT n (capDrop n
      (bayPut n { bayGet n c with move := some 2, granted := false, auth := false } (readingEnded n c))) := rfl

theorem readingEnded_kept (n : Nat) (c : Chip) : (readingEnded n c).bay = c.bay ∧
    ∀ m, bayView m (readingEnded n c) = bayView m c := by
  simp only [readingEnded]
  split <;> exact ⟨rfl, fun _ => rfl⟩

theorem bayView_capDrop (n m : Nat) (c : Chip) : bayView n (capDrop m c) = bayView n c := rfl

theorem bayView_sessionEnd {n : Nat} (hn : n < 16) (c : Chip) : bayView n (sessionEnd n c) = bayView n c := by
  obtain ⟨hbay, hview⟩ := readingEnded_kept n c
  rw [sessionEnd_eq]
  refine view_ite rfl ?_
  rw [bayView_flagF (by decide) (by decide), bayView_capDrop, bayView_bayPut hn (by rw [bayGet_congr hbay]; rfl), hview]

/-- What the view shows once the bay has entered state `st`. -/
def ShownView.to (st : Nat) (v : ShownView) : ShownView := { v with state := (st, v.state.2), entered := v.backup.ms }

theorem bayView_goto {n st : Nat} (hn : n < 16) (hst : st < 16) (c : Chip) :
    bayView n (goto n st c) = ((bayView n c).1.to st, (bayView n c).2) := by
  have hbay : bayGet n (goto n st c) = { bayGet n c with entered := c.backup.ms } :=
    (bayGet_congr (setF_bay ..) n).trans (bayGet_bayPut_same hn _ c)
  have hstate : stateView n (goto n st c) = (st, getF Reg.BAY_STATE_REASON n c) := by
    simp only [stateView, bayState, goto, getF_setF_same, getF_setF_of_lsb (g := Reg.BAY_STATE_REASON)
      (f := Reg.BAY_STATE_STATE) (by decide), getF_bayPut]
    exact congrArg (·, _) (Nat.mod_eq_of_lt hst)
  have hhsl : (goto n st c).hsl = c.hsl := setF_hsl ..
  have hstore : (goto n st c).store = c.store := setF_store ..
  have hbackup : (goto n st c).backup = c.backup := setF_backup ..
  simp only [bayView, shownView, waiting, hbay, hstate, hhsl, hstore, hbackup]
  rfl

/-! ### FAULT -/

/-- R260: the event of a fault reason. -/
def faultNoted (n r : Nat) (c : Chip) : Chip :=
  match r with
  | 4 => addSat Reg.BAY_LIFE_CLOSEF n 255 1 (flagF Reg.BAY_EVT_CLOSE_FAIL n 0 Reg.BAY_EVT_EVT_CNT n c)
  | 6 => flagF Reg.BAY_EVT_PILOT_FAULT n 0 Reg.BAY_EVT_EVT_CNT n c
  | 7 => flagF Reg.BAY_EVT_PP_FAULT n 0 Reg.BAY_EVT_EVT_CNT n c
  | 8 => flagF Reg.BAY_EVT_LOCK_FAIL n 0 Reg.BAY_EVT_EVT_CNT n c
  | _ => c

/-- The session has ended and its grant is withdrawn, the fault's reason recorded. -/
def faultEnded (n r : Nat) (c : Chip) : Chip :=
  checkEnd n (sessionEnd n (grantDrop n (setReason n r (faultNoted n r c))))

theorem toFault_eq (n r : Nat) (c : Chip) : toFault n r c =
    let x := bayGet n (faultEnded n r c)
    goto n 9 (bayPut n { x with faultClr := false, pausedBy := none, dc := { x.dc with stage := 0, fault := false } }
      (faultEnded n r c)) := rfl

theorem bayView_faultNoted (n r : Nat) (c : Chip) : bayView n (faultNoted n r c) = bayView n c := by
  unfold faultNoted
  split
  case h_1 =>
    rw [addSat, bayView_setF (word_ne_of_bay rfl (by decide) (by decide) n), bayView_flagF (by decide) (by decide)]
  case h_5 => rfl
  all_goals exact bayView_flagF (by decide) (by decide) c

theorem setReason_of_fault {n r : Nat} (hr : r ≤ 8) (c : Chip) : setReason n r c = setF Reg.BAY_STATE_REASON n r c :=
  if_pos (.inr hr)

theorem waiting_congr {n : Nat} {c d : Chip} (h : d.bay = c.bay) : waiting n d = waiting n c := by
  simp only [waiting, bayGet_congr h]

theorem waiting_grantDrop {n : Nat} (hn : n < 16) (c : Chip) : waiting n (grantDrop n c) = waiting n c := by
  obtain ⟨hbay, -⟩ := gateOff_kept n (bayPut n { bayGet n c with grantReq := false } c)
  rw [grantDrop, waiting_congr hbay, waiting, bayGet_bayPut_same hn]
  rfl

theorem stateView_grantDrop {n : Nat} (hn : n < 16) (c : Chip) : stateView n (grantDrop n c) = stateView n c := by
  rw [grantDrop, stateView_gateOff hn]
  rfl

theorem bayView_faultEnded {n : Nat} (hn : n < 16) (r : Nat) (c : Chip) :
    bayView n (faultEnded n r c) = bayView n (grantDrop n (setReason n r (faultNoted n r c))) := by
  rw [faultEnded, bayView_checkEnd, bayView_sessionEnd hn]

theorem reason_faultEnded {n r : Nat} (hn : n < 16) (hr : r ≤ 8) (c : Chip) :
    getF Reg.BAY_STATE_REASON n (faultEnded n r c) = r := by
  have hview := congrArg (·.1.state.2) (bayView_faultEnded hn r c)
  have hdrop := congrArg (·.2) (stateView_grantDrop hn (setReason n r (faultNoted n r c)))
  refine (hview.trans hdrop).trans ?_
  rw [stateView, setReason_of_fault hr, getF_setF_same]
  exact Nat.mod_eq_of_lt (by show r < 256; omega)

theorem gate_faultEnded {n : Nat} (hn : n < 16) (r : Nat) (c : Chip) :
    (hslBay n (faultEnded n r c)).gate = false ∧ (hslBay n (faultEnded n r c)).grant = false := by
  have hhsl : (faultEnded n r c).hsl = _ := congrArg (·.1.hsl) (bayView_faultEnded hn r c)
  obtain ⟨hgate, hgrant, -⟩ := hslBay_gateOff_same hn
    (bayPut n { bayGet n (setReason n r (faultNoted n r c)) with grantReq := false } (setReason n r (faultNoted n r c)))
  rw [hslBay_congr (congrArg HslState.bays hhsl) n]
  exact ⟨hgate, hgrant⟩

theorem waiting_faultEnded {n r : Nat} (hn : n < 16) (hr : r ≤ 8) (c : Chip) :
    waiting n (faultEnded n r c) = waiting n c := by
  have hview : waiting n (faultEnded n r c) = _ := congrArg (·.2) (bayView_faultEnded hn r c)
  have hnoted : waiting n (faultNoted n r c) = _ := congrArg (·.2) (bayView_faultNoted n r c)
  rw [hview, bayView, waiting_grantDrop hn, setReason_of_fault hr, waiting_congr (setF_bay ..), hnoted]
  rfl

theorem bayView_toFault {n : Nat} (hn : n < 16) (r : Nat) (c : Chip) :
    bayView n (toFault n r c) = ((bayView n (faultEnded n r c)).1.to 9, (bayView n (faultEnded n r c)).2) := by
  rw [toFault_eq, bayView_goto hn (by decide), bayView_bayPut hn]
  rfl

theorem bayFaulted_toFault {n r : Nat} (hn : n < 16) (hr : r ≤ 8) (c : Chip) :
    BayFaulted n r (toFault n r c) ∧ waiting n (toFault n r c) = waiting n c := by
  have hview := bayView_toFault hn r c
  have hstate : stateView n (toFault n r c) = _ := congrArg (·.1.state) hview
  have hwaiting : waiting n (toFault n r c) = _ := congrArg (·.2) hview
  have hhsl : (toFault n r c).hsl = (faultEnded n r c).hsl := congrArg (·.1.hsl) hview
  obtain ⟨hgate, hgrant⟩ := gate_faultEnded hn r c
  rw [← hslBay_congr (congrArg HslState.bays hhsl) n] at hgate hgrant
  exact ⟨⟨congrArg (·.1) hstate, (congrArg (·.2) hstate).trans (reason_faultEnded hn hr c), hgate, hgrant⟩,
    hwaiting.trans (waiting_faultEnded hn hr c)⟩

/-! ### IDLE and CONNECTED -/

theorem bayView_bayMs {n : Nat} (hn : n < 16) (c : Chip) : bayView n (bayMs c) = bayView n c := by
  unfold bayMs
  exact view_ite (bayView_setF (word_ne_of_far (by decide) hn 0) _ c) rfl

theorem bayView_toIdle {n : Nat} (hn : n < 16) (c : Chip) :
    bayView n (toIdle n c) = ((bayView n c).1.to 1, (bayView n c).2) := by
  rw [toIdle, bayView_goto hn (by decide), bayView_bayPut hn]
  rfl

theorem bayView_activity {n : Nat} (c : Chip) : bayView n (activity c) = bayView n c := by
  unfold activity
  refine view_ite rfl (view_ite ?_ rfl)
  rw [enterRun, bayView_setF (word_ne_of_low (by decide) n)]
  rfl

theorem bayView_lswAll {n : Nat} (hn : n < 16) (c : Chip) : bayView n (lswAll c) = bayView n c :=
  bayView_congr (stateView_lswAll hn c) (hsl_lswAll c) (lswAll_store c) (lswAll_backup c) (lswAll_bay c)

theorem bayView_lockDrive {n : Nat} (hn : n < 16) (m : Nat) (on : Bool) (c : Chip) :
    bayView n (lockDrive m on c) = bayView n c := by
  have hline : ∀ l on c, bayView n (lineLevel l on c) = bayView n c := fun l on c => by
    rw [lineLevel, bayView_lswAll hn]
    rfl
  unfold lockDrive
  refine view_ite ?_ rfl
  rw [lineApply, hline, bayView_setF (word_ne_of_far (by decide) hn _), bayView_setF (word_ne_of_far (by decide) hn _),
    bayView_setF (word_ne_of_far (by decide) hn _)]

theorem bayView_hlcPut {n : Nat} (hn : n < 16) (x : HlcState) (c : Chip) : bayView n (hlcPut n x c) = bayView n c :=
  bayView_bayPut hn rfl

theorem bayView_linkBegin {n : Nat} (hn : n < 16) (c : Chip) : bayView n (linkBegin n c) = bayView n c := by
  have hset : ∀ {f : Fld} (_ : 0x110000 ≤ f.base) v c, bayView n (setF f n v c) = bayView n c := fun hf v c =>
    bayView_setF (word_ne_of_far hf hn n) v c
  unfold linkBegin
  refine view_ite rfl (view_ite ?_ ?_)
  · rw [hset (by decide), bayView_hlcPut hn]
  · rw [hset (by decide), hset (by decide), hset (by decide), hset (by decide), hset (by decide)]
    rfl

/-- R258: the record of a bay whose session begins. -/
def sessionBay (n : Nat) (c : Chip) : BayState :=
  let x := bayGet n c
  let lock := getF Reg.BAY_CFG_LOCK_CH n c
  { entered := c.backup.ms, auth := x.carried || getF Reg.BAY_CFG_FREE n c == 1
    lockOn := lock != 0xFF, locked := lock == 0xFF || (x.lockOn && x.locked), lockFb := x.lockFb
    cmd := x.cmd, cardCmd := x.cardCmd, cardFirst := x.cardFirst, weld := x.weld, authHash := x.carryHash, hand := some 0
    closing := x.closing, dc := { x.dc with stage := 0, stopAt := none } }

/-- R258: a session begins with no reason, in the active hand. -/
def sessionBegun (n : Nat) (c : Chip) : Chip :=
  setF Reg.BAY_STATE_REASON n 0 (ceSessionStart n (bayPut n (sessionBay n c) c))

theorem toConnected_eq (n : Nat) (c : Chip) : toConnected n c =
    activity (goto n 2 (linkBegin n
      (if getF Reg.BAY_CFG_LOCK_CH n c != 0xFF then lockDrive n true (sessionBegun n c) else sessionBegun n c))) := rfl

theorem bayView_sessionBegun {n : Nat} (hn : n < 16) (c : Chip) : bayView n (sessionBegun n c) =
    ({ shownView n c with state := (bayState n c, 0), entered := c.backup.ms, hand := some 0 }, waiting n c) := by
  have hbay : bayGet n (sessionBegun n c) = sessionBay n c :=
    (bayGet_congr (setF_bay ..) n).trans (bayGet_bayPut_same hn _ c)
  have hstate : stateView n (sessionBegun n c) = (bayState n c, 0) := by
    simp only [stateView, bayState, sessionBegun, getF_setF_same, getF_setF_of_lsb (g := Reg.BAY_STATE_STATE)
      (f := Reg.BAY_STATE_REASON) (by decide)]
    rfl
  have hhsl : (sessionBegun n c).hsl = c.hsl := setF_hsl ..
  have hstore : (sessionBegun n c).store = c.store := setF_store ..
  have hbackup : (sessionBegun n c).backup = c.backup := setF_backup ..
  simp only [bayView, shownView, waiting, hbay, hstate, hhsl, hstore, hbackup]
  rfl

theorem bayView_toConnected {n : Nat} (hn : n < 16) (c : Chip) : bayView n (toConnected n c) =
    ({ shownView n c with state := (2, 0), entered := c.backup.ms, hand := some 0 }, waiting n c) := by
  have hlock := view_ite (v := bayView n) (p := (getF Reg.BAY_CFG_LOCK_CH n c != 0xFF) = true)
    (bayView_lockDrive hn n true (sessionBegun n c)) rfl
  rw [toConnected_eq, bayView_activity, bayView_goto hn (by decide), bayView_linkBegin hn, hlock, bayView_sessionBegun hn]
  rfl

/-! ### After every action -/

theorem bayView_offerUpdate (n : Nat) (c : Chip) : bayView n (offerUpdate n c) = bayView n c := by
  simp only [offerUpdate]
  rw [bayView_setF (word_ne_of_bay rfl (by decide) (by decide) n)]
  exact view_ite rfl rfl

theorem bayView_commitGroup {n g : Nat} (c : Chip) : bayView n (commitGroup g c).1 = bayView n c := by
  unfold commitGroup
  split
  · rfl
  next hg =>
    have hg : g < 112 := by
      by_contra h
      exact hg (.inl (by omega))
    split
    · rfl
    · dsimp only
      rw [setBitF, bayView_setF (word_ne_of_low (by simp only [fkey, Reg.DLR_PEND_PENDING]; omega) n)]
      rfl

theorem bayView_shadowWrite (n g key v : Nat) (c : Chip) : bayView n (shadowWrite g key v c).1 = bayView n c := by
  unfold shadowWrite
  split <;> rfl

theorem bayView_pilotDrive (n : Nat) (c : Chip) : bayView n (pilotDrive n c) = bayView n c := by
  unfold pilotDrive
  split
  · rfl
  · refine view_ite rfl ?_
    rw [bayView_commitGroup, bayView_shadowWrite, bayView_shadowWrite]

theorem bayView_lockRelease {n : Nat} (hn : n < 16) (c : Chip) : bayView n (lockRelease n c) = bayView n c := by
  unfold lockRelease
  refine view_ite ?_ rfl
  rw [bayView_lockDrive hn, bayView_bayPut hn]
  rfl

theorem bayView_showHands (n : Nat) (c : Chip) : bayView n (showHands n c) = bayView n c := by
  have hset : ∀ {f : Fld} (_ : Reg.BAY_STATE_STATE.lsb % 32 ≠ f.lsb % 32 ∧ Reg.BAY_STATE_REASON.lsb % 32 ≠ f.lsb % 32) v c,
      bayView n (setF f n v c) = bayView n c := fun hf v c => by
    obtain ⟨hstate, hreason⟩ := hf
    refine bayView_congr ?_ (setF_hsl ..) (setF_store ..) (setF_backup ..) (setF_bay ..)
    rw [stateView, bayState, getF_setF_of_lsb hstate, getF_setF_of_lsb hreason]
    rfl
  simp only [showHands]
  rw [hset (by decide), hset (by decide), hset (by decide)]

/-- What the session machine drives after an action, before the hands are shown. -/
def bayDriven (n : Nat) (c : Chip) : Chip := lockRelease n (pilotDrive n (exportDrive n (offerUpdate n c)))

theorem bayAfter_eq (n : Nat) (c : Chip) : bayAfter n c = showHands n (bayDriven n c) := rfl

theorem bayView_bayDriven {n : Nat} (hn : n < 16) (c : Chip) : bayView n (bayDriven n c) = bayView n c := by
  rw [bayDriven, bayView_lockRelease hn, bayView_pilotDrive, exportDrive, bayView_hlcPut hn, bayView_offerUpdate]

theorem bayView_bayAfter {n : Nat} (hn : n < 16) (c : Chip) : bayView n (bayAfter n c) = bayView n c := by
  rw [bayAfter_eq, bayView_showHands, bayView_bayDriven hn]

/-- R259: the bits of BAYn_STATE show the hands of the bay's record. -/
theorem getF_showHands (n : Nat) (c : Chip) :
    getF Reg.BAY_STATE_ACTIVE_H n (showHands n c) = ((bayGet n c).hand == some 0).toNat ∧
    getF Reg.BAY_STATE_PAUSED_H n (showHands n c) = ((bayGet n c).hand == some 1).toNat ∧
    getF Reg.BAY_STATE_CLOSING_H n (showHands n c) = ((bayGet n c).hand == some 2 || (bayGet n c).closing).toNat := by
  have hbit : ∀ b : Bool, b.toNat % 2 ^ 1 = b.toNat := by decide
  refine ⟨?_, ?_, ?_⟩
  · rw [showHands, getF_setF_same]
    exact hbit _
  · rw [showHands, getF_setF_of_lsb (by decide), getF_setF_same]
    exact hbit _
  · rw [showHands, getF_setF_of_lsb (by decide), getF_setF_of_lsb (by decide), getF_setF_same]
    exact hbit _

theorem shownKey_hands {n : Nat} (hn : n < 16) {f : Fld} (hf : f.base = 0x100044 ∧ f.stride = 4096 ∧ f.lsb < 32) :
    shownKey (fkey f n) = false ∧ fkey f n ≠ fkey Reg.NFC_PRES_BAY 0 := by
  obtain ⟨hbase, hstride, hlsb⟩ := hf
  have hpres : fkey Reg.NFC_PRES_BAY 0 = 0x180008 * 32 + 8 := rfl
  have hkey : fkey f n < 0x110000 * 32 := by
    simp only [fkey, hbase, hstride]
    omega
  exact ⟨shownKey_of_lt (by omega), by omega⟩

theorem getF_pendTake {f : Fld} {i : Nat} (h : fkey f i ≠ fkey Reg.NFC_PRES_BAY 0) (c : Chip) :
    getF f i (pendTake c) = getF f i c := by
  unfold pendTake
  split
  · rfl
  · split
    · rfl
    · rw [getF_setF_of_key h]
      exact getF_withRegs f i rfl rfl rfl

theorem shownView_pendTake {n : Nat} (hn : n < 16) (c : Chip) : shownView n (pendTake c) = shownView n c := by
  have hauth : ∀ m h c, shownView n (cardAuth m h c) = shownView n c := fun m h c => by
    by_cases hm : n = m
    · subst hm
      unfold shownView cardAuth
      rw [bayGet_bayPut_same hn]
      rfl
    · unfold shownView cardAuth
      rw [bayGet_bayPut_ne hm]
      rfl
  unfold pendTake
  split
  · rfl
  · split
    · rfl
    · exact (congrArg (·.1) (bayView_setF (word_ne_of_far (f := Reg.NFC_PRES_BAY) (by decide) hn 0) _ _)).trans (hauth _ _ _)

/-! ### The publish -/

theorem cmdsStep_of_none {n : Nat} {c : Chip} (h : waiting n c = (none, none)) : cmdsStep n c = c := by
  simp only [waiting, Prod.mk.injEq] at h
  obtain ⟨hcmd, hcard⟩ := h
  simp only [cmdsStep, cmdStep, cardStep, hcmd, hcard, ite_self]

theorem advance_of_fault {n r : Nat} {c : Chip} (h0 : bayState n c ≠ 0) (h9 : bayState n c ≠ 9) (h10 : bayState n c ≠ 10)
    (hr : faultReason n c = some r) : advance n c = toFault n r c := by
  simp [advance, h0, h9, h10, hr]

theorem advance_of_leaving {n : Nat} {c : Chip} (h0 : bayState n c = 0) (hleave : mayLeaveF n c = true) :
    advance n c = toIdle n (bayMs c) := by
  simp [advance, h0, hleave]

theorem advance_of_vehicle {n : Nat} {c : Chip} (hfault : faultReason n c = none) (h : VehicleSeen n c) :
    advance n c = toConnected n c := by
  obtain ⟨hstate, ⟨hlow, hhigh⟩, hplug, hstore, hpending, hhand, hmove⟩ := h
  simp [advance, hstate, hfault, hlow, hhigh, hplug, hstore, hpending, hhand, hmove]

theorem faultReason_le {n r : Nat} {c : Chip} (h : faultReason n c = some r) : r ≤ 8 := by
  simp only [faultReason] at h
  repeat' split at h
  all_goals first | (cases h; decide) | cases h

/-- What a publish leaves once the bay has no command: the transition, what follows it, and a pending credential. -/
def published (n : Nat) (c : Chip) : Chip := pendTake (bayAfter n (advance n (bayInputs n c)))

theorem sessionPublish_of_runs {n : Nat} {c : Chip} (hruns : bayRuns n c = true)
    (hwait : waiting n (advance n (bayInputs n c)) = (none, none)) : sessionPublish n c = published n c := by
  have hcmds := cmdsStep_of_none hwait
  simp only [sessionPublish, sessionStep, hruns, Bool.not_true, Bool.false_eq_true, if_false, if_true]
  exact congrArg (fun d => pendTake (bayAfter n d)) hcmds

theorem shownView_published {n : Nat} (hn : n < 16) (c : Chip) :
    shownView n (published n c) = shownView n (advance n (bayInputs n c)) := by
  rw [published, shownView_pendTake hn]
  exact congrArg (·.1) (bayView_bayAfter hn _)

theorem active_published {n : Nat} (hn : n < 16) (c : Chip) : getF Reg.BAY_STATE_ACTIVE_H n (settle (published n c)) =
    ((shownView n (advance n (bayInputs n c))).hand == some 0).toNat := by
  obtain ⟨hshown, hne⟩ := shownKey_hands hn (f := Reg.BAY_STATE_ACTIVE_H) (by decide)
  have hhand : (bayGet n (bayDriven n _)).hand = _ := congrArg (·.1.hand) (bayView_bayDriven hn (advance n (bayInputs n c)))
  obtain ⟨hactive, -⟩ := getF_showHands n (bayDriven n (advance n (bayInputs n c)))
  rw [getF_settle hshown, published, getF_pendTake hne, bayAfter_eq, hactive, hhand]
  rfl

/-- A settled device shows what the view holds; the gates apart, which settling may withdraw. -/
structure Shows (n : Nat) (v : ShownView) (d : Chip) : Prop where
  state : bayState n d = v.state.1
  reason : getF Reg.BAY_STATE_REASON n d = v.state.2
  entered : (bayGet n d).entered = v.entered
  hand : (bayGet n d).hand = v.hand
  latch : d.hsl.latch = v.hsl.latch
  store : d.store = v.store

theorem shows_settle {n : Nat} (hn : n < 16) (c : Chip) : Shows n (shownView n c) (settle c) where
  state := getF_settle (shownKey_state hn).1 c
  reason := getF_settle (shownKey_state hn).2 c
  entered := by rw [bayGet_congr (settle_bay c)]; rfl
  hand := by rw [bayGet_congr (settle_bay c)]; rfl
  latch := settle_hsl_latch c
  store := settle_store c

theorem waiting_bayInputs {n : Nat} (hn : n < 16) {c : Chip} (hcmd : (bayGet n c).cmd = none)
    (hcard : (bayGet n c).cardCmd = none) : waiting n (bayInputs n c) = (none, none) := by
  have hasks := (inputsKept_bayInputs hn c).asks
  simp only [bayAsks, Prod.mk.injEq] at hasks
  obtain ⟨hcmd', hcard', -⟩ := hasks
  rw [waiting, hcmd', hcard', hcmd, hcard]

section
variable {s : State} {n : Fin 16} (hruns : bayRuns n.val s.toChip = true) (hcmd : (bayGet n.val s.toChip).cmd = none)
  (hcard : (bayGet n.val s.toChip).cardCmd = none)
include hruns hcmd hcard

/-- A transition that leaves the commands alone is what the row's step shows. -/
theorem exec_sessionMachineStep {d : Chip} (hrow : advance n.val (bayInputs n.val s.toChip) = d)
    (hkeep : waiting n.val d = waiting n.val (bayInputs n.val s.toChip)) :
    exec (.sessionMachineStep n) s = .next { toChip := settle (published n.val s.toChip), pending := s.pending } ∧
      shownView n.val (published n.val s.toChip) = shownView n.val d := by
  have hwait : waiting n.val (advance n.val (bayInputs n.val s.toChip)) = (none, none) := by
    rw [hrow, hkeep, waiting_bayInputs n.isLt hcmd hcard]
  have hshown := shownView_published n.isLt s.toChip
  rw [hrow] at hshown
  refine ⟨?_, hshown⟩
  rw [← sessionPublish_of_runs hruns hwait]
  rfl

/-- R260: a fault reason leads to FAULT. -/
theorem exec_sessionMachineStep_fault {r : Nat} (h0 : bayState n.val (bayInputs n.val s.toChip) ≠ 0)
    (h9 : bayState n.val (bayInputs n.val s.toChip) ≠ 9) (h10 : bayState n.val (bayInputs n.val s.toChip) ≠ 10)
    (hr : faultReason n.val (bayInputs n.val s.toChip) = some r) :
    ∃ t, exec (.sessionMachineStep n) s = .next t ∧ BayFaulted n.val r t.toChip := by
  obtain ⟨⟨hstate, hreason, hgate, hgrant⟩, hkeep⟩ :=
    bayFaulted_toFault n.isLt (faultReason_le hr) (bayInputs n.val s.toChip)
  obtain ⟨hexec, hshown⟩ := exec_sessionMachineStep hruns hcmd hcard (advance_of_fault h0 h9 h10 hr) hkeep
  have hshows := shows_settle n.isLt (published n.val s.toChip)
  have hhsl : (published n.val s.toChip).hsl = _ := congrArg ShownView.hsl hshown
  rw [← hslBay_congr (congrArg HslState.bays hhsl) n.val] at hgate hgrant
  rw [hshown] at hshows
  refine ⟨_, hexec, ?_⟩
  dsimp only
  exact ⟨hshows.state.trans hstate, hshows.reason.trans hreason, gate_settle_off n.isLt hgate, grant_settle_off hgrant⟩

/-- R101: the bay leaves state F. -/
theorem exec_sessionMachineStep_leaves (h0 : bayState n.val s.toChip = 0) (hleave : mayLeaveF n.val s.toChip = true) :
    ∃ t, exec (.sessionMachineStep n) s = .next t ∧ bayState n.val t.toChip = 1 ∧
      (bayGet n.val t.toChip).entered = s.backup.ms ∧ t.hsl.latch = s.hsl.latch ∧ t.store = s.store := by
  have hkept := inputsKept_bayInputs n.isLt s.toChip
  have hrow := advance_of_leaving ((hkept.state n.isLt).trans h0) ((hkept.mayLeave n.isLt).trans hleave)
  have hidle := bayView_toIdle n.isLt (bayMs (bayInputs n.val s.toChip))
  rw [bayView_bayMs n.isLt] at hidle
  simp only [bayView, Prod.mk.injEq] at hidle
  obtain ⟨hidle, hkeep⟩ := hidle
  obtain ⟨hexec, hshown⟩ := exec_sessionMachineStep hruns hcmd hcard hrow hkeep
  have hshows := shows_settle n.isLt (published n.val s.toChip)
  rw [hshown, hidle] at hshows
  refine ⟨_, hexec, ?_⟩
  dsimp only
  exact ⟨hshows.state, hshows.entered.trans (congrArg BackupState.ms hkept.backup), hshows.latch.trans hkept.latch,
    hshows.store.trans hkept.store⟩

/-- R257, R259: a vehicle begins a session with the active hand. -/
theorem exec_sessionMachineStep_connects (hfault : faultReason n.val (bayInputs n.val s.toChip) = none)
    (h : VehicleSeen n.val s.toChip) :
    ∃ t, exec (.sessionMachineStep n) s = .next t ∧ bayState n.val t.toChip = 2 ∧ (bayGet n.val t.toChip).hand = some 0 ∧
      getF Reg.BAY_STATE_ACTIVE_H n.val t.toChip = 1 ∧ getF Reg.BAY_STATE_REASON n.val t.toChip = 0 ∧
      t.hsl.latch = s.hsl.latch ∧ t.store = s.store := by
  have hkept := inputsKept_bayInputs n.isLt s.toChip
  have hrow := advance_of_vehicle hfault (hkept.vehicleSeen n.isLt h)
  have hview := bayView_toConnected n.isLt (bayInputs n.val s.toChip)
  simp only [bayView, Prod.mk.injEq] at hview
  obtain ⟨hview, hkeep⟩ := hview
  obtain ⟨hexec, hshown⟩ := exec_sessionMachineStep hruns hcmd hcard hrow hkeep
  have hactive := active_published n.isLt (c := s.toChip)
  have hshows := shows_settle n.isLt (published n.val s.toChip)
  rw [hshown, hview] at hshows
  rw [hrow, hview] at hactive
  refine ⟨_, hexec, ?_⟩
  dsimp only
  exact ⟨hshows.state, hshows.hand, hactive, hshows.reason, hshows.latch.trans hkept.latch,
    hshows.store.trans hkept.store⟩

end

/-! ### A move between hands, R259 -/

/-- R259: the closing hand is released once its reading is done with. -/
def closingFreed (n : Nat) (c : Chip) : Chip :=
  if (bayGet n c).closing && closingDone n c then bayPut n { bayGet n c with closing := false } c else c

theorem closingFreed_cases (n : Nat) (c : Chip) :
    closingFreed n c = c ∨ closingFreed n c = bayPut n { bayGet n c with closing := false } c :=
  (ite_eq_or_eq _ _ _).symm

theorem handMove_of_pause {n : Nat} (hn : n < 16) {c : Chip} (h : (bayGet n c).move = some 1) : handMove n c =
    showHands n (bayPut n { bayGet n (closingFreed n c) with hand := some 1, move := none } (closingFreed n c)) := by
  have hmove : (bayGet n (closingFreed n c)).move = some 1 := by
    rcases closingFreed_cases n c with e | e
    · rw [e, h]
    · rw [e, bayGet_bayPut_same hn]
      exact h
  unfold closingFreed at hmove ⊢
  simp only [handMove]
  rw [hmove]
  rfl

theorem handMove_of_close {n : Nat} {c : Chip} (h : (bayGet n c).move = some 2) (hfree : (bayGet n c).closing = false)
    (hout : mayMoveOut n c = true) :
    handMove n c = showHands n (bayPut n { bayGet n c with hand := none, move := none, closing := true } c) := by
  simp [handMove, h, hfree, hout]

/-- What a move leaves: the bay's record is `x`, BAYn_STATE shows its hands. -/
theorem exec_sessionHandMove {s : State} {n : Fin 16} {x : BayState} {c : Chip}
    (hrow : handMove n.val s.toChip = showHands n.val (bayPut n.val x c)) (hstate : bayState n.val c = bayState n.val s.toChip)
    (hkept : c.backup = s.backup ∧ c.store = s.store) :
    ∃ t, exec (.sessionHandMove n) s = .next t ∧ bayGet n.val t.toChip = x ∧
      getF Reg.BAY_STATE_ACTIVE_H n.val t.toChip = (x.hand == some 0).toNat ∧
      getF Reg.BAY_STATE_PAUSED_H n.val t.toChip = (x.hand == some 1).toNat ∧
      getF Reg.BAY_STATE_CLOSING_H n.val t.toChip = (x.hand == some 2 || x.closing).toNat ∧
      bayState n.val t.toChip = bayState n.val s.toChip ∧ t.backup = s.backup ∧ t.store = s.store := by
  obtain ⟨hactive, hpaused, hclosing⟩ := getF_showHands n.val (bayPut n.val x c)
  have hview := bayView_showHands n.val (bayPut n.val x c)
  have hbay : (showHands n.val (bayPut n.val x c)).bay = _ := (setF_bay ..).trans ((setF_bay ..).trans (setF_bay ..))
  rw [bayGet_bayPut_same n.isLt] at hactive hpaused hclosing
  refine ⟨_, run_next (handMove n.val) s, ?_⟩
  dsimp only
  rw [hrow, bayGet_congr ((settle_bay _).trans hbay), bayGet_bayPut_same n.isLt, settle_backup, settle_store, bayState,
    getF_settle (shownKey_hands n.isLt (by decide)).1, getF_settle (shownKey_hands n.isLt (by decide)).1,
    getF_settle (shownKey_hands n.isLt (by decide)).1, getF_settle (shownKey_hands n.isLt (by decide)).1]
  exact ⟨rfl, hactive, hpaused, hclosing, (congrArg (·.1.state.1) hview).trans hstate,
    (congrArg (·.1.backup) hview).trans hkept.1, (congrArg (·.1.store) hview).trans hkept.2⟩

/-! ### The obligation -/

/-- Settles O26: the inputs leave what decides the transition, what follows the transition leaves what it did, and a move sets the
hand that BAYn_STATE shows. -/
theorem sessionMachineMoves : Obligations.SessionMachineMoves := by
  intro s n
  refine ⟨fun hruns hcmd hcard => ⟨fun r h0 h9 h10 hr => ?_, fun h0 hleave => ?_,
    fun hstate hfault hlow hhigh hplug hstore hpending hhand hmove => ?_⟩, fun hmove => ?_, fun hmove hfree hout => ?_⟩
  · exact exec_sessionMachineStep_fault hruns hcmd hcard h0 h9 h10 hr
  · exact exec_sessionMachineStep_leaves hruns hcmd hcard h0 hleave
  · exact exec_sessionMachineStep_connects hruns hcmd hcard hfault
      ⟨hstate, ⟨hlow, hhigh⟩, hplug, hstore, hpending, hhand, hmove⟩
  · have hfreed : bayView n.val (closingFreed n.val s.toChip) = bayView n.val s.toChip := by
      rcases closingFreed_cases n.val s.toChip with e | e <;> rw [e]
      exact bayView_bayPut n.isLt rfl
    obtain ⟨t, hexec, hbay, hactive, hpaused, -, hsame, hbackup, hstore⟩ :=
      exec_sessionHandMove (handMove_of_pause n.isLt hmove) (congrArg (·.1.state.1) hfreed)
        ⟨congrArg (·.1.backup) hfreed, congrArg (·.1.store) hfreed⟩
    exact ⟨t, hexec, by rw [hbay], by rw [hbay], hpaused, hactive, hsame, hbackup, hstore⟩
  · obtain ⟨t, hexec, hbay, -, -, hclosing, -, hbackup, hstore⟩ :=
      exec_sessionHandMove (handMove_of_close hmove hfree hout) rfl ⟨rfl, rfl⟩
    exact ⟨t, hexec, by rw [hbay], by rw [hbay], hclosing, hbackup, hstore⟩

end Sys2Proof.Machine
end

section
/-!
Host sessions (chapter 17, R457-R469): what the frame of a served session leaves, and its answer.
-/

namespace Sys2Proof.Machine
open Sys2Proof Sys2Proof.Safety

/-! ### What a frame and its answer leave -/

/-- The device without its registers, the host's sessions, the idle timer and the status of the last command. -/
def heardView (c : Chip) : Chip :=
  { noRegs c with hst := {}, reply := .ok, pwr := { c.pwr with idleMs := 0, timerWake := false } }

/-- A part that the view holds is alike where the views are. -/
theorem part_of_heardView {β : Type} (g : Chip → β) (hg : ∀ c, g (heardView c) = g c) {c d : Chip}
    (h : heardView d = heardView c) : g d = g c := by rw [← hg d, h, hg]

theorem heardView_of_noRegs {c d : Chip} (h : noRegs d = noRegs c) : heardView d = heardView c :=
  congrArg (fun d : Chip => { d with hst := {}, reply := .ok, pwr := { d.pwr with idleMs := 0, timerWake := false } }) h

theorem heardView_enterRun (c : Chip) : heardView (enterRun c) = heardView c := by
  rw [enterRun, heardView_of_noRegs (noRegs_setF ..)]
  rfl

theorem activity_cases (c : Chip) :
    activity c = c ∨ activity c = enterRun c ∨ activity c = { c with pwr := { c.pwr with idleMs := 0 } } := by
  unfold activity
  split
  · exact .inl rfl
  · split
    · exact .inr (.inl rfl)
    · exact .inr (.inr rfl)

theorem heardView_activity (c : Chip) : heardView (activity c) = heardView c := by
  rcases activity_cases c with e | e | e <;> rw [e]
  · exact heardView_enterRun c
  · rfl

theorem wakeIrq_eq (k : Nat) (on : Bool) (c : Chip) : ∃ w, wakeIrq k on c = { c with hst := { c.hst with woke := w } } := by
  unfold wakeIrq
  split
  · exact ⟨on, rfl⟩
  · exact ⟨c.hst.woke, rfl⟩

/-- A frame counts in its session and ends idleness. -/
theorem frameTake_eq (k : Nat) (c : Chip) : ∃ w v, frameTake k c = activity (addSat Reg.HST_SCNT_RX k 65535 1
    { c with hst := { c.hst with woke := w, sess := v } }) := by
  obtain ⟨w, hw⟩ := wakeIrq_eq k false c
  rw [frameTake, hw]
  exact ⟨w, _, rfl⟩

theorem heardView_frameTake (k : Nat) (c : Chip) : heardView (frameTake k c) = heardView c := by
  obtain ⟨w, v, e⟩ := frameTake_eq k c
  rw [e, heardView_activity, addSat, heardView_of_noRegs (noRegs_setF ..)]
  rfl

theorem activity_hst (c : Chip) : (activity c).hst = c.hst := by
  rcases activity_cases c with e | e | e <;> rw [e]
  exact setF_hst ..

theorem decl_frameTake (k : Nat) (c : Chip) : (frameTake k c).hst.decl = c.hst.decl := by
  obtain ⟨w, v, e⟩ := frameTake_eq k c
  rw [e, activity_hst, addSat_hst]

theorem fregs_frameTake (k : Nat) (c : Chip) : (frameTake k c).fregs = c.fregs := by
  have hactivity : ∀ c, (activity c).fregs = c.fregs := fun c => by
    rcases activity_cases c with e | e | e <;> rw [e]
    exact setF_fregs (by decide) ..
  obtain ⟨w, v, e⟩ := frameTake_eq k c
  rw [e, hactivity, addSat, setF_fregs (by decide)]

/-- The answer is the status and what the host is shown; nothing else changes. -/
theorem respond_eq (type : Nat) (rq : Request) (st : Status) (data : List Nat) (c : Chip) :
    ∃ h seq, respond type rq st data c = { c with reply := st, hst := h } ∧ h.resp = some
      { sess := rq.sess.val, type := type, tag := rq.tag.toNat, seq := seq, status := st, data := data } := by
  unfold respond
  dsimp only
  split
  · split
    · exact ⟨_, _, rfl, rfl⟩
    · exact ⟨_, _, rfl, rfl⟩
  · exact ⟨_, _, rfl, rfl⟩

theorem answered_respond (type : Nat) (rq : Request) (st : Status) (data : List Nat) (c : Chip) :
    Answered type rq st data (respond type rq st data c) := by
  obtain ⟨h, seq, e, hresp⟩ := respond_eq type rq st data c
  rw [e]
  exact ⟨rfl, seq, hresp⟩

theorem answered_congr {type : Nat} {rq : Request} {st : Status} {data : List Nat} {c d : Chip} (hreply : d.reply = c.reply)
    (hresp : d.hst.resp = c.hst.resp) (h : Answered type rq st data c) : Answered type rq st data d := by
  obtain ⟨hst, seq, hseq⟩ := h
  exact ⟨hreply.trans hst, seq, hresp.trans hseq⟩

theorem answered_settle {type : Nat} {rq : Request} {st : Status} {data : List Nat} {c : Chip}
    (h : Answered type rq st data c) : Answered type rq st data (settle c) :=
  answered_congr (settle_reply c) (by rw [settle_hst]) h

theorem heardView_respond (type : Nat) (rq : Request) (st : Status) (data : List Nat) (c : Chip) :
    heardView (respond type rq st data c) = heardView c := by
  obtain ⟨h, seq, e, -⟩ := respond_eq type rq st data c
  rw [e]
  rfl

theorem getF_respond (f : Fld) (i type : Nat) (rq : Request) (st : Status) (data : List Nat) (c : Chip) :
    getF f i (respond type rq st data c) = getF f i c := by
  obtain ⟨h, seq, e, -⟩ := respond_eq type rq st data c
  rw [e]
  exact getF_withRegs f i rfl rfl rfl

/-! ### Fields of the deck and firmware block -/

/-- A field at or above the block UPD, chapters 04 and 19. -/
abbrev UpdField (f : Fld) (i : Nat) : Prop := 0x1d0000 * 32 ≤ fkey f i

theorem getF_frameTake {f : Fld} {i k : Nat} (h : UpdField f i) (hk : k < 6) (c : Chip) :
    getF f i (frameTake k c) = getF f i c := by
  have hcount : fkey f i ≠ fkey Reg.HST_SCNT_RX k := by
    have hkey : fkey Reg.HST_SCNT_RX k = (0x1b0030 + 4 * k) * 32 + 16 := rfl
    omega
  have hstate : fkey f i ≠ fkey Reg.PWR_STATE_STATE 0 := by
    have hkey : fkey Reg.PWR_STATE_STATE 0 = 0x10000 * 32 := rfl
    omega
  have hactivity : ∀ c, getF f i (activity c) = getF f i c := fun c => by
    rcases activity_cases c with e | e | e <;> rw [e]
    · rw [enterRun, getF_setF_of_key hstate, getF_withPwr]
    · exact getF_withPwr f i c _
  obtain ⟨w, v, e⟩ := frameTake_eq k c
  rw [e, hactivity, addSat, getF_setF_of_key hcount]
  exact getF_withRegs f i rfl rfl rfl

theorem getF_settle_of_upd {f : Fld} {i : Nat} (h : UpdField f i) (c : Chip) : getF f i (settle c) = getF f i c := by
  refine getF_settle ?_ c
  simp only [shownKey, Bool.or_eq_false_iff, Bool.and_eq_false_iff, decide_eq_false_iff_not, beq_eq_false_iff_ne]
  omega

/-! ### Requests of the Declarer -/

/-- R459, R474: the frame of a served session is accepted. -/
theorem onFrame_of_serves {k : Nat} {c : Chip} (h : Serves k c) (f : Chip → Chip) : onFrame k f c = f (frameTake k c) := by
  obtain ⟨hrun, hpause, hstandby, hopen⟩ := h
  simp [onFrame, onPort, hostUp, hrun, hpause, hstandby, hopen]

theorem phase_frameTake (k : Nat) (c : Chip) : (frameTake k c).pwr.phase = c.pwr.phase :=
  part_of_heardView (·.pwr.phase) (fun _ => rfl) (heardView_frameTake k c)

/-- R96: with a deck every command acts. -/
theorem here_of_serves {k : Nat} {c : Chip} (h : Serves k c) (a : Acts) : a.here (frameTake k c) = true := by
  obtain ⟨hrun, -, -, -⟩ := h
  simp [Acts.here, phase_frameTake, hrun]

theorem isDeclarer_of_owns {k : Nat} {c : Chip} (h : Owns k c) : isDeclarer k (frameTake k c) = true := by
  obtain ⟨-, hdecl⟩ := h
  simp [isDeclarer, decl_frameTake, hdecl]

theorem hostReq_of_owns {rq : Request} {c : Chip} (h : Owns rq.sess.val c) (type : Nat) (decl : Bool) (acts : Acts)
    (f : Chip → Chip × Status × List Nat) : hostReq type rq decl acts f c =
      respond type rq (f (frameTake rq.sess.val c)).2.1 (f (frameTake rq.sess.val c)).2.2 (f (frameTake rq.sess.val c)).1 := by
  simp [hostReq, onFrame_of_serves h.1, here_of_serves h.1, isDeclarer_of_owns h]

/-- The answer to a command by bulk and to one whose answer is its status. -/
theorem bulkCmd_of_owns {rq : Request} {c : Chip} (h : Owns rq.sess.val c) (acts : Acts) (f : Chip → Chip × Status) :
    bulkCmd rq acts f c = respond 0x42 rq (f (frameTake rq.sess.val c)).2 [] (f (frameTake rq.sess.val c)).1 := by
  rw [bulkCmd, hostReq_of_owns h]

theorem statusCmd_of_owns {rq : Request} {c : Chip} (h : Owns rq.sess.val c) (decl : Bool) (acts : Acts)
    (f : Chip → Chip × Status) : statusCmd rq decl acts f c =
      respond 0x20 rq (f (frameTake rq.sess.val c)).2 [] (f (frameTake rq.sess.val c)).1 := by
  rw [statusCmd, hostCmd, hostReq_of_owns h]

/-- A command that restarts the device is answered and carried out first. -/
theorem restartCmd_of_ok {rq : Request} {c : Chip} (h : Owns rq.sess.val c) (acts : Acts) {check : Chip → Status}
    (hcheck : check (frameTake rq.sess.val c) = .ok) (act : Chip → Chip) :
    restartCmd rq acts check act c = restart 10 (act (respond 0x20 rq .ok [] (frameTake rq.sess.val c))) := by
  simp [restartCmd, onFrame_of_serves h.1, here_of_serves h.1, isDeclarer_of_owns h, hcheck]

theorem restartCmd_of_refused {rq : Request} {c : Chip} (h : Owns rq.sess.val c) (acts : Acts) {check : Chip → Status}
    (hcheck : check (frameTake rq.sess.val c) ≠ .ok) (act : Chip → Chip) :
    restartCmd rq acts check act c =
      respond 0x20 rq (check (frameTake rq.sess.val c)) [] (frameTake rq.sess.val c) := by
  simp [restartCmd, onFrame_of_serves h.1, here_of_serves h.1, isDeclarer_of_owns h]

end Sys2Proof.Machine
end

section
/-!
Decks (chapter 04, R90, R99, R105-R107, and R503): what DECK_LOAD, DECK_ACTIVATE and DECK_COMMIT leave.
-/

namespace Sys2Proof.Machine
open Sys2Proof Sys2Proof.Safety

/-! ### A deck's slot and its record, R105-R107 -/

theorem fkey_deckOkReg {slot : Nat} (hs : slot < 2) : fkey (deckOkReg slot) 0 = 0x1d0100 * 32 + slot := by
  obtain rfl | rfl : slot = 0 ∨ slot = 1 := by omega
  all_goals rfl

theorem updField_deckOkReg {slot : Nat} (hs : slot < 2) : UpdField (deckOkReg slot) 0 := by
  rw [UpdField, fkey_deckOkReg hs]
  omega

/-- The OK bit reads what is written. -/
theorem getF_setF_deckOkReg (slot v : Nat) (c : Chip) : getF (deckOkReg slot) 0 (setF (deckOkReg slot) 0 v c) = v % 2 := by
  rw [getF_setF_same]
  unfold deckOkReg
  split <;> rfl

theorem updField_rej (slot : Nat) : UpdField Reg.UPD_DECK_REJ_REASON slot ∧ UpdField Reg.UPD_DECK_REJ_CARD slot ∧
    UpdField Reg.UPD_DECK_REJOFF_OFFSET slot := by
  simp only [UpdField, fkey, Reg.UPD_DECK_REJ_REASON, Reg.UPD_DECK_REJ_CARD, Reg.UPD_DECK_REJOFF_OFFSET]
  omega

/-- R107: the record of a slot reads its result: the OK bit, and reason, card and offset of a rejection or zero. -/
theorem getF_deckRecord {slot : Nat} (hs : slot < 2) (r : Option Reject) (c : Chip) :
    getF (deckOkReg slot) 0 (deckRecord slot r c) = r.isNone.toNat ∧
    getF Reg.UPD_DECK_REJ_REASON slot (deckRecord slot r c) = (r.getD ⟨0, 0, 0⟩).reason % 2 ^ 8 ∧
    getF Reg.UPD_DECK_REJ_CARD slot (deckRecord slot r c) = (r.getD ⟨0, 0, 0⟩).idx % 2 ^ 16 ∧
    getF Reg.UPD_DECK_REJOFF_OFFSET slot (deckRecord slot r c) = (r.getD ⟨0, 0, 0⟩).off % 2 ^ 22 := by
  have hok := fkey_deckOkReg hs
  have hreason : fkey Reg.UPD_DECK_REJ_REASON slot = (0x1d0104 + 8 * slot) * 32 + 24 := rfl
  have hcard : fkey Reg.UPD_DECK_REJ_CARD slot = (0x1d0104 + 8 * slot) * 32 := rfl
  have hoff : fkey Reg.UPD_DECK_REJOFF_OFFSET slot = (0x1d0108 + 8 * slot) * 32 := rfl
  unfold deckRecord
  dsimp only
  refine ⟨?_, ?_, ?_, ?_⟩
  · rw [getF_setF_deckOkReg]
    exact Nat.mod_eq_of_lt (Bool.toNat_lt _)
  · rw [getF_setF_of_key (by omega), getF_setF_same]
    rfl
  · rw [getF_setF_of_key (by omega), getF_setF_of_key (by omega), getF_setF_same]
    rfl
  · rw [getF_setF_of_key (by omega), getF_setF_of_key (by omega), getF_setF_of_key (by omega), getF_setF_same]
    rfl

theorem deck_deckRecord (slot : Nat) (r : Option Reject) (c : Chip) : (deckRecord slot r c).deck = c.deck := by
  simp only [deckRecord, setF_deck]

theorem store_deckRecord (slot : Nat) (r : Option Reject) (c : Chip) : (deckRecord slot r c).store = c.store := by
  simp only [deckRecord, setF_store]

theorem deck_frameTake (k : Nat) (c : Chip) : (frameTake k c).deck = c.deck :=
  part_of_heardView (·.deck) (fun _ => rfl) (heardView_frameTake k c)

theorem store_frameTake (k : Nat) (c : Chip) : (frameTake k c).store = c.store :=
  part_of_heardView (·.store) (fun _ => rfl) (heardView_frameTake k c)

/-! ### DECK_LOAD, R105 -/

/-- A deck of an admissible length, for the slot that does not run, is admitted. -/
theorem deckAdmit_ok {slot total : Nat} {c : Chip} (hslot : slot < 2) (hlo : 300 ≤ total) (hhi : total ≤ 4194304)
    (hrun : c.pwr.phase = .run) (hother : getF Reg.UPD_DECK_STAT_RUN 0 c ≠ slot) : deckAdmit slot total c = .ok := by
  have hlen : ¬(total < 300 ∨ 4194304 < total) := by omega
  have hrange : ¬1 < slot := by omega
  simp [deckAdmit, hlen, hrange, deckRunSlot, hrun, hother]

theorem deckLoad_of_accepted {slot : Nat} {bytes : List Nat} {sigOk : Bool} {c : Chip} {d : Deck}
    (hadmit : deckAdmit slot bytes.length c = .ok) (hcheck : deckCheck slot sigOk (deckWritten slot bytes c) = .ok d) :
    deckLoad slot bytes sigOk c = (deckRecord slot none (deckWritten slot bytes c), .ok) := by
  unfold deckWritten at *
  simp only [deckLoad, hadmit, hcheck]

theorem deckLoad_of_rejected {slot : Nat} {bytes : List Nat} {sigOk : Bool} {c : Chip} {r : Reject}
    (hadmit : deckAdmit slot bytes.length c = .ok) (hcheck : deckCheck slot sigOk (deckWritten slot bytes c) = .error r) :
    deckLoad slot bytes sigOk c = (deckRecord slot (some r) (deckWritten slot bytes c), rejectStatus r.reason) := by
  unfold deckWritten at *
  simp only [deckLoad, hadmit, hcheck]

theorem deck_deckWrite (slot : Nat) (bytes : List Nat) (cut : Option Nat) (c : Chip) : (deckWrite slot bytes cut c).deck =
    { c.deck with flash := c.deck.flash.setIfInBounds slot (cut.elim bytes bytes.take) } := by
  cases cut <;> simp [deckWrite]

theorem store_deckWrite (slot : Nat) (bytes : List Nat) (cut : Option Nat) (c : Chip) :
    (deckWrite slot bytes cut c).store = c.store := by simp [deckWrite]

theorem getF_deckWrite (slot : Nat) (bytes : List Nat) (cut : Option Nat) (c : Chip) :
    getF (deckOkReg slot) 0 (deckWrite slot bytes cut c) = 0 := getF_setF_deckOkReg slot 0 _

/-- The slot that is written holds the bytes, the other slot what it held. -/
theorem flash_written {slot : Nat} (hs : slot < 2) (v : Vector (List Nat) 2) (b : List Nat) :
    (v.setIfInBounds slot b)[slot]?.getD [] = b ∧ (v.setIfInBounds slot b)[1 - slot]?.getD [] = v[1 - slot]?.getD [] := by
  rw [Vector.getElem?_setIfInBounds_self_of_lt hs, Vector.getElem?_setIfInBounds_ne (by omega)]
  exact ⟨rfl, rfl⟩

/-- What the step of a DECK_LOAD leaves whose check ended with result `r` and status `st`. -/
theorem exec_deckLoad {s : State} {rq : Request} {slot : Nat} {bytes : List Byte} {sigOk : Bool} {r : Option Reject} {st : Status}
    (howns : Owns rq.sess.val s.toChip) (hslot : slot < 2)
    (hload : deckLoad slot (Byte.nats bytes) sigOk (frameTake rq.sess.val s.toChip) =
      (deckRecord slot r (deckWritten slot (Byte.nats bytes) (frameTake rq.sess.val s.toChip)), st)) :
    ∃ t, exec (.deckLoad rq slot bytes sigOk none) s = .next t ∧ Answered 0x42 rq st [] t.toChip ∧
      getF (deckOkReg slot) 0 t.toChip = r.isNone.toNat ∧
      getF Reg.UPD_DECK_REJ_REASON slot t.toChip = (r.getD ⟨0, 0, 0⟩).reason % 2 ^ 8 ∧
      getF Reg.UPD_DECK_REJ_CARD slot t.toChip = (r.getD ⟨0, 0, 0⟩).idx % 2 ^ 16 ∧
      getF Reg.UPD_DECK_REJOFF_OFFSET slot t.toChip = (r.getD ⟨0, 0, 0⟩).off % 2 ^ 22 ∧
      t.deck = { s.deck with flash := s.deck.flash.setIfInBounds slot (Byte.nats bytes), loaded := some slot } ∧
      t.store = s.store := by
  have hrow : deckLoadRow rq slot (Byte.nats bytes) sigOk none s.toChip = respond 0x42 rq st []
      (deckRecord slot r (deckWritten slot (Byte.nats bytes) (frameTake rq.sess.val s.toChip))) := by
    rw [deckLoadRow, bulkCmd_of_owns howns, hload]
  obtain ⟨hok, hreason, hcard, hoff⟩ :=
    getF_deckRecord hslot r (deckWritten slot (Byte.nats bytes) (frameTake rq.sess.val s.toChip))
  obtain ⟨ureason, ucard, uoff⟩ := updField_rej slot
  refine ⟨_, run_next (deckLoadRow rq slot (Byte.nats bytes) sigOk none) s, ?_⟩
  dsimp only
  rw [hrow, getF_settle_of_upd (updField_deckOkReg hslot), getF_settle_of_upd ureason, getF_settle_of_upd ucard,
    getF_settle_of_upd uoff, getF_respond, getF_respond, getF_respond, getF_respond, settle_deck, settle_store,
    part_of_heardView (·.deck) (fun _ => rfl) (heardView_respond ..),
    part_of_heardView (·.store) (fun _ => rfl) (heardView_respond ..), deck_deckRecord, store_deckRecord]
  refine ⟨answered_settle (answered_respond ..), hok, hreason, hcard, hoff, ?_, ?_⟩
  · simp only [deckWritten, deck_deckWrite, deck_frameTake]
    rfl
  · simp only [deckWritten, store_deckWrite, store_frameTake]

/-- R106: what the step of a DECK_LOAD leaves that a supply cut ends. -/
theorem exec_deckLoad_cut {s : State} {rq : Request} {slot cut : Nat} {bytes : List Byte} (sigOk : Bool)
    (howns : Owns rq.sess.val s.toChip) (hslot : slot < 2)
    (hadmit : deckAdmit slot (Byte.nats bytes).length (frameTake rq.sess.val s.toChip) = .ok) :
    ∃ t, exec (.deckLoad rq slot bytes sigOk (some cut)) s = .next t ∧ getF (deckOkReg slot) 0 t.toChip = 0 ∧
      t.deck = { s.deck with flash := s.deck.flash.setIfInBounds slot ((Byte.nats bytes).take cut) } ∧ t.store = s.store := by
  have hrow : deckLoadRow rq slot (Byte.nats bytes) sigOk (some cut) s.toChip =
      deckWrite slot (Byte.nats bytes) (some cut) (frameTake rq.sess.val s.toChip) := by
    simp only [deckLoadRow]
    rw [onFrame_of_serves howns.1, if_pos ⟨here_of_serves howns.1 _, isDeclarer_of_owns howns, hadmit⟩]
  refine ⟨_, run_next (deckLoadRow rq slot (Byte.nats bytes) sigOk (some cut)) s, ?_⟩
  dsimp only
  rw [hrow, getF_settle_of_upd (updField_deckOkReg hslot), getF_deckWrite, settle_deck, settle_store, deck_deckWrite,
    store_deckWrite, deck_frameTake, store_frameTake]
  exact ⟨rfl, rfl, rfl⟩

/-! ### DECK_ACTIVATE, R105 -/

theorem phase_respond (type : Nat) (rq : Request) (st : Status) (data : List Nat) (c : Chip) :
    (respond type rq st data c).pwr.phase = c.pwr.phase :=
  part_of_heardView (·.pwr.phase) (fun _ => rfl) (heardView_respond ..)

theorem deck_respond (type : Nat) (rq : Request) (st : Status) (data : List Nat) (c : Chip) :
    (respond type rq st data c).deck = c.deck :=
  part_of_heardView (·.deck) (fun _ => rfl) (heardView_respond ..)

theorem activateSlot_respond (type : Nat) (rq : Request) (st : Status) (data : List Nat) (c : Chip) :
    activateSlot (respond type rq st data c) = activateSlot c := by
  simp only [activateSlot, deckRunSlot, phase_respond, deck_respond, getF_respond]

/-- What an ordinary save leaves: power state, fuses, decks, host and the status of the last command. -/
def savedView (c : Chip) : PwrState × List (Nat × Nat) × DeckState × HostState × Status :=
  (c.pwr, c.fregs, c.deck, c.hst, c.reply)

theorem savedView_saveStart (c : Chip) : savedView (saveStart c) = savedView c := by
  unfold saveStart
  split <;> rfl

theorem savedView_saveEnd_ok (c : Chip) : savedView (saveEnd true c) = savedView c := by
  unfold saveEnd
  split <;> rfl

theorem savedView_deckActivate (c : Chip) : savedView (deckActivate c) = savedView c := by
  have hset : ∀ v c, savedView (setF Reg.UPD_DECK_STAT_PREF 0 v c) = savedView c := fun v c => by
    simp only [savedView, setF_pwr, setF_fregs (f := Reg.UPD_DECK_STAT_PREF) (by decide), setF_deck, setF_hst, setF_reply]
  simp only [deckActivate]
  rw [hset]
  split
  · rw [savedView_saveEnd_ok, savedView_saveStart]
    rfl
  · rfl

theorem getF_pref_deckActivate {c : Chip} {slot : Nat} (h : activateSlot c = some slot) :
    getF Reg.UPD_DECK_STAT_PREF 0 (deckActivate c) = slot % 2 := by
  simp only [deckActivate, h]
  exact getF_setF_same ..

/-- A restart keeps what the decks' slots hold, and the last response. -/
theorem restart_kept (cause : Nat) (c : Chip) : (restart cause c).deck.flash = c.deck.flash ∧
    (restart cause c).hst.resp = c.hst.resp ∧ (restart cause c).reply = c.reply := by
  obtain ⟨m, t, e⟩ := tagLogicReset_frame (hslReset c)
  simp [restart, logicReset, e]

/-- R48, R53, R77: the reset of a running device. -/
theorem restarted_of_logicDieReset {cause : Nat} {s c d : Chip} (h : LogicDieReset cause c d) (hrun : s.pwr.phase = .run)
    (hphase : c.pwr.phase = s.pwr.phase) (hfirst : c.pwr.firstCause = s.pwr.firstCause) : Restarted cause s d where
  gates := h.gates
  trump := h.trump
  phase := by rcases h.down with e | e | e <;> simp [e]
  first := by rw [h.first, hphase, hrun, hfirst]; rfl

/-- What the step of a DECK_ACTIVATE leaves that is not refused. -/
theorem exec_deckActivate {s : State} {rq : Request} {slot : Nat} (howns : Owns rq.sess.val s.toChip)
    (hslot : activateSlot (frameTake rq.sess.val s.toChip) = some slot)
    (hok : activateRefused (frameTake rq.sess.val s.toChip) = .ok) :
    ∃ t, exec (.deckActivate rq) s = .next t ∧ Answered 0x20 rq .ok [] t.toChip ∧ Restarted 10 s.toChip t.toChip ∧
      getF Reg.UPD_DECK_STAT_PREF 0 t.toChip = slot % 2 ∧ t.deck.flash = s.deck.flash ∧ t.fregs = s.fregs := by
  obtain ⟨c, hc⟩ : ∃ c, c = respond 0x20 rq .ok [] (frameTake rq.sess.val s.toChip) := ⟨_, rfl⟩
  have hrow : restartCmd rq .bare activateRefused deckActivate s.toChip = restart 10 (deckActivate c) := by
    rw [restartCmd_of_ok howns _ hok, hc]
  have hview : heardView c = heardView s.toChip := by rw [hc, heardView_respond, heardView_frameTake]
  have hsaved := savedView_deckActivate c
  simp only [savedView, Prod.mk.injEq] at hsaved
  obtain ⟨hpwr, hfregs, hdeck, hhst, hreply⟩ := hsaved
  have hfuses : c.fregs = s.fregs := by
    obtain ⟨h, seq, e, -⟩ := respond_eq 0x20 rq .ok [] (frameTake rq.sess.val s.toChip)
    rw [hc, e]
    exact fregs_frameTake ..
  obtain ⟨hflash, hresp, hst⟩ := restart_kept 10 (deckActivate c)
  have hreset := logicDieReset_settle (logicDieReset_restart 10 (deckActivate c))
  refine ⟨_, run_next (restartCmd rq .bare activateRefused deckActivate) s, ?_⟩
  dsimp only
  rw [hrow]
  refine ⟨answered_settle (answered_congr (hst.trans hreply) (hresp.trans (by rw [hhst])) (hc ▸ answered_respond ..)),
    restarted_of_logicDieReset hreset howns.1.1 ?_ ?_, ?_, ?_, ?_⟩
  · rw [hpwr]
    exact part_of_heardView (·.pwr.phase) (fun _ => rfl) hview
  · rw [hpwr]
    exact part_of_heardView (·.pwr.firstCause) (fun _ => rfl) hview
  · rw [getF_of_bregs rfl (settle_bregs _), getF_of_bregs rfl (bregs_restart ..)]
    exact getF_pref_deckActivate (by rw [hc, activateSlot_respond, hslot])
  · rw [settle_deck, hflash, hdeck]
    exact congrArg (·.flash) (part_of_heardView (·.deck) (fun _ => rfl) hview)
  · rw [hreset.kept.1, hfregs, hfuses]

/-- A DECK_ACTIVATE that is refused is answered; the power die stays as it is. -/
theorem exec_deckActivate_busy {s : State} {rq : Request} (howns : Owns rq.sess.val s.toChip)
    (hbusy : activateRefused (frameTake rq.sess.val s.toChip) = .busy) (hs : Settled s.toChip) :
    exec (.deckActivate rq) s =
      .next { s with toChip := (respond 0x20 rq .busy [] (frameTake rq.sess.val s.toChip)) } := by
  have hrow : restartCmd rq .bare activateRefused deckActivate s.toChip =
      respond 0x20 rq .busy [] (frameTake rq.sess.val s.toChip) := by
    rw [restartCmd_of_refused howns _ (by rw [hbusy]; decide), hbusy]
  have hdie : dieView (respond 0x20 rq .busy [] (frameTake rq.sess.val s.toChip)) = dieView s.toChip :=
    part_of_heardView dieView (fun _ => rfl) ((heardView_respond ..).trans (heardView_frameTake ..))
  exact (run_kept hs (by rw [hrow, hdie])).trans (by rw [hrow])

/-! ### The boot header, R502 -/

theorem noRegs_hdrShow (c : Chip) : noRegs (hdrShow c) = noRegs c :=
  foldl_keeps noRegs _ (fun c s => by simp only [noRegs_setF]) _ c

theorem upd_hdrShow (c : Chip) : (hdrShow c).upd = c.upd := congrArg (·.upd) (noRegs_hdrShow c)

theorem newestHdr_congr {c d : Chip} (h : d.upd = c.upd) : newestHdr d = newestHdr c := by simp only [newestHdr, h]

theorem imgFormed_congr {c d : Chip} (h : d.upd = c.upd) (k : Nat) : imgFormed k d = imgFormed k c := by
  have hbytes : imgBytes k d = imgBytes k c := by rw [imgBytes, imgBytes, h]
  unfold imgFormed
  rw [hbytes]

theorem bootHdr_congr {c d : Chip} (h : d.upd = c.upd) : bootHdr d = bootHdr c := by
  unfold bootHdr
  rw [newestHdr_congr h, imgFormed_congr h, imgFormed_congr h]

/-- The header that is written is the one in force, with the next SEQ: the older copy, or an invalid one, took it. -/
theorem newestHdr_hdrWrite {f : BootHeader → BootHeader} (hf : ∀ h, (f h).seq = h.seq) (c : Chip) :
    newestHdr (hdrWrite f c) = some { f (bootHdr c) with seq := (bootHdr c).seq + 1 } := by
  rw [hdrWrite, newestHdr_congr (upd_hdrShow _)]
  simp only [hf]
  rcases h0 : c.upd.hdr[0] with _ | a <;> rcases h1 : c.upd.hdr[1] with _ | b
  · simp [newestHdr, h1]
  · simp [newestHdr, bootHdr, h0, h1]
  · simp [newestHdr, bootHdr, h0, h1]
  · by_cases hlt : a.seq < b.seq
    · simp [newestHdr, bootHdr, h0, h1, hlt]
    · simp [newestHdr, bootHdr, h0, h1, hlt]

/-! ### DECK_COMMIT, R99 and R503 -/

/-- R503: BARE_HOST as a DECK_COMMIT writes it. -/
def bareHost (c : Chip) : List Nat :=
  match cardPayload 0x00A0 0 c with
  | some p => p.take 36
  | none => hostDefaults

theorem bareHost_congr {c d : Chip} (h : d.deck = c.deck) : bareHost d = bareHost c := by
  unfold bareHost
  rw [show cardPayload 0x00A0 0 d = cardPayload 0x00A0 0 c by simp only [cardPayload, h]]

/-- R99: the floor that a DECK_COMMIT raises. -/
def floorRaised (c : Chip) : Chip :=
  let f := max c.store.floor (getF Reg.UPD_DECK_SERIAL_SERIAL 0 c)
  setF Reg.UPD_DECK_FLOOR_FLOOR 0 f { c with store := { c.store with floor := f } }

theorem deckCommit_eq (c : Chip) :
    deckCommit c = (hdrWrite (fun h => { h with bare := bareHost c }) (floorRaised c), .ok) := rfl

theorem floorRaised_kept (c : Chip) : (floorRaised c).upd = c.upd ∧ (floorRaised c).deck = c.deck ∧
    (floorRaised c).backup = c.backup ∧
    (floorRaised c).store = { c.store with floor := max c.store.floor (getF Reg.UPD_DECK_SERIAL_SERIAL 0 c) } := by
  simp [floorRaised]

/-- A header that is written shows nothing outside UPD_FW_SLOT, and leaves the other chapters' parts. -/
theorem hdrWrite_kept (f : BootHeader → BootHeader) (c : Chip) : (hdrWrite f c).deck = c.deck ∧
    (hdrWrite f c).backup = c.backup ∧ (hdrWrite f c).store = c.store ∧
    getF Reg.UPD_DECK_FLOOR_FLOOR 0 (hdrWrite f c) = getF Reg.UPD_DECK_FLOOR_FLOOR 0 c := by
  have hshown : ∀ c, getF Reg.UPD_DECK_FLOOR_FLOOR 0 (hdrShow c) = getF Reg.UPD_DECK_FLOOR_FLOOR 0 c := fun c => by
    refine foldl_keeps_mem (getF Reg.UPD_DECK_FLOOR_FLOOR 0) _ _ (fun k hk c => ?_) c
    have hlt : k < 2 := List.mem_range.mp hk
    have hstate : fkey Reg.UPD_DECK_FLOOR_FLOOR 0 ≠ fkey Reg.UPD_FW_SLOT_STATE k := by
      simp only [fkey, Reg.UPD_DECK_FLOOR_FLOOR, Reg.UPD_FW_SLOT_STATE]
      omega
    have htries : fkey Reg.UPD_DECK_FLOOR_FLOOR 0 ≠ fkey Reg.UPD_FW_SLOT_TRIES k := by
      simp only [fkey, Reg.UPD_DECK_FLOOR_FLOOR, Reg.UPD_FW_SLOT_TRIES]
      omega
    dsimp only
    rw [getF_setF_of_key hstate, getF_setF_of_key htries]
  obtain ⟨u, e⟩ : ∃ u, hdrWrite f c = hdrShow { c with upd := u } := ⟨_, rfl⟩
  have hview := noRegs_hdrShow { c with upd := u }
  rw [e, hshown]
  exact ⟨congrArg (·.deck) hview, congrArg (·.backup) hview, congrArg (·.store) hview, getF_withRegs _ _ rfl rfl rfl⟩

/-- R503: the header that a DECK_COMMIT writes is the one in force with the next SEQ and BARE_HOST. -/
theorem newestHdr_deckCommit (c : Chip) : ∃ h, newestHdr (deckCommit c).1 = some h ∧ h.seq = (bootHdr c).seq + 1 ∧
    h.pref = (bootHdr c).pref ∧ h.bare = bareHost c := by
  have hboot : bootHdr (floorRaised c) = bootHdr c := bootHdr_congr (floorRaised_kept c).1
  rw [deckCommit_eq, newestHdr_hdrWrite (f := fun h => { h with bare := bareHost c }) (fun _ => rfl), hboot]
  exact ⟨_, rfl, rfl, rfl, rfl⟩

/-- R99: the floor that a DECK_COMMIT raises and shows. -/
theorem deckCommit_kept (c : Chip) : (deckCommit c).1.deck = c.deck ∧ (deckCommit c).1.backup = c.backup ∧
    (deckCommit c).1.store = { c.store with floor := max c.store.floor (getF Reg.UPD_DECK_SERIAL_SERIAL 0 c) } ∧
    getF Reg.UPD_DECK_FLOOR_FLOOR 0 (deckCommit c).1 = (deckCommit c).1.store.floor % 2 ^ 32 := by
  obtain ⟨-, hdeck, hbackup, hstore⟩ := floorRaised_kept c
  obtain ⟨hdeck', hbackup', hstore', hfloor⟩ := hdrWrite_kept (fun h => { h with bare := bareHost c }) (floorRaised c)
  rw [deckCommit_eq]
  dsimp only
  refine ⟨hdeck'.trans hdeck, hbackup'.trans hbackup, hstore'.trans hstore, ?_⟩
  rw [hfloor, hstore', hstore]
  exact getF_setF_same ..

/-- What the step of a DECK_COMMIT leaves. -/
theorem exec_deckCommit {s : State} {rq : Request} (howns : Owns rq.sess.val s.toChip) :
    ∃ t h, exec (.deckCommit rq) s = .next t ∧ Answered 0x20 rq .ok [] t.toChip ∧
      t.store = { s.store with floor := max s.store.floor (getF Reg.UPD_DECK_SERIAL_SERIAL 0 s.toChip) } ∧
      getF Reg.UPD_DECK_FLOOR_FLOOR 0 t.toChip = t.store.floor % 2 ^ 32 ∧
      newestHdr t.toChip = some h ∧ h.seq = (bootHdr s.toChip).seq + 1 ∧ h.pref = (bootHdr s.toChip).pref ∧
      h.bare = bareHost s.toChip ∧ t.deck = s.deck ∧ t.backup = s.backup := by
  obtain ⟨c, hc⟩ : ∃ c, c = frameTake rq.sess.val s.toChip := ⟨_, rfl⟩
  have hview : heardView c = heardView s.toChip := by rw [hc, heardView_frameTake]
  have hserial : getF Reg.UPD_DECK_SERIAL_SERIAL 0 c = getF Reg.UPD_DECK_SERIAL_SERIAL 0 s.toChip := by
    rw [hc, getF_frameTake (by decide) rq.sess.isLt]
  have hrow : statusCmd rq true .run deckCommit s.toChip = respond 0x20 rq .ok [] (deckCommit c).1 := by
    rw [statusCmd_of_owns howns, ← hc]
    rfl
  have hanswer : heardView (respond 0x20 rq .ok [] (deckCommit c).1) = heardView (deckCommit c).1 := heardView_respond ..
  obtain ⟨hdeck, hbackup, hstore, hfloor⟩ := deckCommit_kept c
  obtain ⟨h, hnew, hseq, hpref, hbare⟩ := newestHdr_deckCommit c
  have hboot : bootHdr c = bootHdr s.toChip := bootHdr_congr (part_of_heardView (·.upd) (fun _ => rfl) hview)
  refine ⟨_, h, run_next (statusCmd rq true .run deckCommit) s, ?_⟩
  dsimp only
  rw [hrow, settle_store, settle_deck, settle_backup, getF_settle_of_upd (by decide), getF_respond,
    newestHdr_congr (settle_upd _), newestHdr_congr (part_of_heardView (·.upd) (fun _ => rfl) hanswer),
    part_of_heardView (·.store) (fun _ => rfl) hanswer, part_of_heardView (·.deck) (fun _ => rfl) hanswer,
    part_of_heardView (·.backup) (fun _ => rfl) hanswer]
  refine ⟨answered_settle (answered_respond ..), ?_, hfloor, hnew, by rw [hseq, hboot], by rw [hpref, hboot],
    hbare.trans (bareHost_congr (part_of_heardView (·.deck) (fun _ => rfl) hview)),
    hdeck.trans (part_of_heardView (·.deck) (fun _ => rfl) hview),
    hbackup.trans (part_of_heardView (·.backup) (fun _ => rfl) hview)⟩
  rw [hstore, hserial, part_of_heardView (·.store) (fun _ => rfl) hview]

/-! ### The obligation -/

/-- Settles O13: each command acts on the device that has taken its frame, and is answered after it; the slot's record reads the
check's result, the reset after DECK_ACTIVATE keeps PREF, and the header with the next SEQ is the newest. -/
theorem decksLoadActivateAndCommit : Obligations.DecksLoadActivateAndCommit := by
  refine ⟨fun s rq slot bytes sigOk howns hslot hlo hhi hother => ?_,
    fun s rq howns => ⟨fun slot h hok => exec_deckActivate howns h hok, exec_deckActivate_busy howns, exec_deckCommit howns⟩⟩
  have hadmit : deckAdmit slot (Byte.nats bytes).length (frameTake rq.sess.val s.toChip) = .ok := by
    refine deckAdmit_ok hslot ?_ ?_ ((phase_frameTake ..).trans howns.1.1) ?_
    · simpa [Byte.nats] using hlo
    · simpa [Byte.nats] using hhi
    · rwa [getF_frameTake (by decide) rq.sess.isLt]
  refine ⟨fun d hcheck => ?_, fun r hcheck => ?_, fun cut => ?_⟩
  · obtain ⟨t, hexec, hanswer, hok, hreason, -, -, hdeck, hstore⟩ :=
      exec_deckLoad howns hslot (deckLoad_of_accepted hadmit hcheck)
    obtain ⟨hsame, hkept⟩ := flash_written hslot s.deck.flash (Byte.nats bytes)
    exact ⟨t, hexec, hanswer, hok, hreason, by rw [hdeck, hsame], by rw [hdeck], by rw [hdeck], by rw [hdeck, hkept], hstore⟩
  · obtain ⟨t, hexec, hanswer, hok, hreason, hcard, hoff, hdeck, hstore⟩ :=
      exec_deckLoad howns hslot (deckLoad_of_rejected hadmit hcheck)
    have hsame := (flash_written hslot s.deck.flash (Byte.nats bytes)).1
    exact ⟨t, hexec, hanswer, hok, hreason, hcard, hoff, by rw [hdeck, hsame], by rw [hdeck], hstore⟩
  · obtain ⟨t, hexec, hok, hdeck, hstore⟩ := exec_deckLoad_cut (cut := cut) sigOk howns hslot hadmit
    have hsame := (flash_written hslot s.deck.flash ((Byte.nats bytes).take cut)).1
    exact ⟨t, hexec, by rw [hdeck, hsame], hok, by rw [hdeck], hstore⟩

end Sys2Proof.Machine
end


section
/-!
Link tricks (chapter 05, R111-R113): a trick of hands without work, and what an engine without work in service stands for.
-/

namespace Sys2Proof.Machine
open Sys2Proof Sys2Proof.Safety

/-! ### A trick without work -/

/-- R120: a running device deals all link hands. -/
theorem linkCandidates_of_runs {c : Chip} (hrun : c.pwr.phase = .run) (hpll : c.pwr.linkPll = true) (hpause : c.upd.pause = false)
    (hstate : getF Reg.PWR_STATE_STATE 0 c ≠ 3) : linkCandidates c = List.range 32 := by
  simp [linkCandidates, hrun, hpll, hpause, hstate]

theorem linksIdle_of_runs {c : Chip} (h : linkCandidates c = List.range 32) : linksIdle c = c := by
  rw [linksIdle_eq, h]
  refine foldl_keeps_mem id _ _ (fun n hn d => ?_) c
  exact if_pos (List.contains_iff_mem.mpr hn)

/-- No link hand has work, in service or waiting. -/
def NoLinkWork (c : Chip) : Prop := ∀ h, (linkHand h c).work = [] ∧ (linkHand h c).serving = none

theorem linkFinish_of_noLinkWork {c : Chip} (hnone : NoLinkWork c) (finished : BitVec 32) (h : Nat) : linkFinish finished h c = c := by
  rw [linkFinish, (hnone h).2]

theorem linkWait_of_noLinkWork {c : Chip} (hnone : NoLinkWork c) (h : Nat) : linkWait h c = c := by
  simp [linkWait, (hnone h).1]

theorem pickLink_of_noLinkWork {c : Chip} (hnone : NoLinkWork c) (cand : List Nat) : pickLink c cand = none := by
  unfold pickLink
  induction cand with
  | nil => rfl
  | cons h cand ih => simpa [(hnone h).1] using ih

theorem dealLinks_of_noLinkWork {c : Chip} (hnone : NoLinkWork c) (engines cand : List Nat) : dealLinks c engines cand = c := by
  cases engines with
  | nil => rfl
  | cons e es => rw [dealLinks, pickLink_of_noLinkWork hnone]

/-- The trick edge counts. -/
def edgeCounted (c : Chip) : Chip := { c with dlr := { c.dlr with edges := c.dlr.edges + 1 } }

/-- Without work a trick changes no hand: one that shows an engine goes on showing it. -/
theorem leTrick_of_noLinkWork {c : Chip} (hrun : c.pwr.phase = .run) (hpll : c.pwr.linkPll = true)
    (hcand : linkCandidates c = List.range 32) (hnone : NoLinkWork c) (finished : BitVec 32) :
    leTrick finished [] c = edgeCounted c := by
  have hfinish : (List.range 32).foldl (fun d h => linkFinish finished h d) c = c :=
    List.foldl_fixed' (linkFinish_of_noLinkWork hnone finished) _
  have hnext : NoLinkWork (edgeCounted c) := hnone
  have hwait : (List.range 32).foldl (fun d h => linkWait h d) (edgeCounted c) = edgeCounted c :=
    List.foldl_fixed' (linkWait_of_noLinkWork hnext) _
  have hidle : ¬(c.pwr.phase ≠ .run ∨ (!c.pwr.linkPll) = true) := by simp [hrun, hpll]
  rw [leTrick, if_neg hidle]
  dsimp only [List.foldl_nil]
  rw [linksIdle_of_runs hcand, hfinish, ← edgeCounted, dealLinks_of_noLinkWork hnext, hwait]

/-! ### The obligation -/

/-- A running device in which two link hands without work both show LE0. -/
def sharedEngine : Chip :=
  { State.reset.toChip with
    pwr := { State.reset.pwr with phase := .run }
    dlr := { State.reset.dlr with
      links := (State.reset.dlr.links.set 0 { engine := some 0 }).set 1 { engine := some 0 } } }

theorem settled_sharedEngine : Settled sharedEngine := settled_congr settled_reset rfl rfl rfl rfl rfl rfl

theorem noLinkWork_sharedEngine : NoLinkWork sharedEngine := by
  intro h
  rcases Nat.lt_or_ge h 32 with hh | hh
  · have hall : ∀ k : Fin 32, (linkHand k.val sharedEngine).work = [] ∧ (linkHand k.val sharedEngine).serving = none := by decide
    exact hall ⟨h, hh⟩
  · simp [linkHand, hh]

/-- Refutes O15: `sharedEngine` is settled and runs, no work is in service or arrives, and the trick leaves LE0 with both hands,
since a hand gives up its engine with the work in service alone. -/
theorem not_linkTrickDealsByClassAndAge : ¬ Obligations.LinkTrickDealsByClassAndAge := by
  intro h
  have hstate : getF Reg.PWR_STATE_STATE 0 sharedEngine ≠ 3 := by decide
  obtain ⟨t, hexec, -, -, hone, -⟩ := h { toChip := sharedEngine } 0 [] rfl rfl rfl hstate settled_sharedEngine
  have hrow : leTrick 0 [] sharedEngine = edgeCounted sharedEngine :=
    leTrick_of_noLinkWork rfl rfl (linkCandidates_of_runs rfl rfl rfl hstate) noLinkWork_sharedEngine 0
  have hlinks : t.dlr.links = sharedEngine.dlr.links := by
    have ht := Host.Outcome.next.inj ((run_next (leTrick 0 []) { toChip := sharedEngine }).symm.trans hexec)
    rw [← ht, settle_dlr, hrow]
    rfl
  have hboth := (hone 0 1 (by decide) (by decide) (by decide) (by rw [hlinks]; rfl)).1
  rw [hlinks] at hboth
  exact hboth rfl

end Sys2Proof.Machine
end


section
/-!
Crypto requests and tricks (chapter 05, R114-R118): what a request, a trick, a window's end and a completion leave.
-/

namespace Sys2Proof.Machine
open Sys2Proof Sys2Proof.Safety

/-! ### What the Dealer's rows leave -/

/-- A part that the view without registers holds is alike where the views are. -/
theorem part_of_noRegs {β : Type} (g : Chip → β) (hg : ∀ c, g (noRegs c) = g c) {c d : Chip} (h : noRegs d = noRegs c) :
    g d = g c := by rw [← hg d, h, hg]

/-- What every step of a fold keeps, the fold keeps. -/
theorem foldl_keeps_over {α β : Type} (g : Chip → β) (f : Chip → α → Chip) (h : ∀ c a, g (f c a) = g c) (l : List α) (c : Chip) :
    g (l.foldl f c) = g c := by
  induction l generalizing c with
  | nil => rfl
  | cons a l ih => rw [List.foldl_cons, ih, h]

/-- A fold whose steps leave its start as it is. -/
theorem foldl_of_fixed {α β : Type} {f : β → α → β} {b : β} {l : List α} (h : ∀ a ∈ l, f b a = b) : l.foldl f b = b := by
  induction l with
  | nil => rfl
  | cons a l ih =>
    rw [List.foldl_cons, h a List.mem_cons_self]
    exact ih fun x hx => h x (List.mem_cons_of_mem a hx)

/-- The device without registers and without the Dealer's state. -/
def dealtView (c : Chip) : Chip := { noRegs c with dlr := {} }

theorem dealtView_of_noRegs {c d : Chip} (h : noRegs d = noRegs c) : dealtView d = dealtView c :=
  congrArg (fun d : Chip => { d with dlr := {} }) h

theorem dealtView_setF (f : Fld) (i v : Nat) (c : Chip) : dealtView (setF f i v c) = dealtView c :=
  dealtView_of_noRegs (noRegs_setF f i v c)

theorem dealtView_withDlr (c : Chip) (x : DealerState) : dealtView { c with dlr := x } = dealtView c := rfl

theorem part_of_dealtView {β : Type} (g : Chip → β) (hg : ∀ c, g (dealtView c) = g c) {c d : Chip}
    (h : dealtView d = dealtView c) : g d = g c := by rw [← hg d, h, hg]

theorem noRegs_flagF (f : Fld) (i k : Nat) (g : Fld) (j : Nat) (c : Chip) : noRegs (flagF f i k g j c) = noRegs c := by
  simp only [flagF, flagBit, addSat, setBitF, noRegs_setF]

/-- The registers of a hand lie below the load switches. -/
theorem shownKey_hand {f : Fld} {hand : Nat} (hbase : f.base = 0x20100 ∧ f.stride = 4 ∧ f.lsb < 32) (hh : hand < 160) :
    shownKey (fkey f hand) = false := by
  obtain ⟨hb, hs, hl⟩ := hbase
  refine shownKey_of_lt ?_
  simp only [fkey, hb, hs]
  omega

/-! ### A request, R117, R118 -/

/-- A request that is admitted holds its hand; the hand's registers are the only others that change. -/
theorem noRegs_ceAdmit (hand cls no : Nat) (c : Chip) : noRegs (ceAdmit hand cls no c) =
    noRegs { c with dlr := { c.dlr with reqs := c.dlr.reqs ++ [{ hand := hand, cls := cls, no := no }] } } := by
  simp only [ceAdmit, noRegs_setF]

theorem dlr_ceAdmit (hand cls no : Nat) (c : Chip) :
    (ceAdmit hand cls no c).dlr = { c.dlr with reqs := c.dlr.reqs ++ [{ hand := hand, cls := cls, no := no }] } :=
  part_of_noRegs (·.dlr) (fun _ => rfl) (noRegs_ceAdmit hand cls no c)

theorem dealtView_ceAdmit (hand cls no : Nat) (c : Chip) : dealtView (ceAdmit hand cls no c) = dealtView c :=
  (dealtView_of_noRegs (noRegs_ceAdmit hand cls no c)).trans rfl

theorem dealtView_ceOver (bay : Nat) (c : Chip) : dealtView (ceOver bay c) = dealtView c := by
  unfold ceOver
  split
  · rfl
  · exact (dealtView_of_noRegs (noRegs_flagF _ _ _ _ _ _)).trans rfl

/-- R118: the bay's set is marked as over its budget, whether the mark is new or not. -/
theorem above_ceOver (bay : Fin 16) (c : Chip) : (ceOver bay.val c).dlr.above[bay] = true := by
  unfold ceOver
  split
  · next h => simpa using h
  · simp

theorem reqs_ceOver (bay : Nat) (c : Chip) : (ceOver bay c).dlr.reqs = c.dlr.reqs := by
  unfold ceOver
  split
  · rfl
  · simp

theorem ceSession_of_free {hand cls : Nat} {c : Chip} (h : ∀ r ∈ c.dlr.reqs, r.hand ≠ hand) :
    ceSession hand cls c = (ceAdmit hand cls c.dlr.issued (ceNext c), .ok) := by
  have hfree : ceHeld hand c = false := by simpa [ceHeld] using h
  simp [ceSession, hfree]

theorem ceSession_of_held {hand cls : Nat} {c : Chip} (h : ∃ r ∈ c.dlr.reqs, r.hand = hand) : ceSession hand cls c = (c, .busy) := by
  have hheld : ceHeld hand c = true := by simpa [ceHeld] using h
  simp [ceSession, hheld]

theorem ceShared_of_free {cls h : Nat} {c : Chip} (hfree : freeCryptoHand c = some h) :
    ceShared cls c = (ceAdmit h cls c.dlr.issued (ceNext c), .ok) := by
  rw [ceShared, hfree]

theorem ceShared_of_queue {cls : Nat} {c : Chip} (hfree : freeCryptoHand c = none) (hroom : c.dlr.queue.length < 64) :
    ceShared cls c = (ceNext { c with dlr := { c.dlr with queue := c.dlr.queue ++ [(cls, c.dlr.issued)] } }, .ok) := by
  rw [ceShared, hfree]
  exact if_pos hroom

theorem ceShared_of_full {cls : Nat} {c : Chip} (hfree : freeCryptoHand c = none) (hfull : 64 ≤ c.dlr.queue.length) :
    ceShared cls c = (flagF Reg.DLR_STAT_CE_QFULL 0 0 Reg.DLR_STAT_EVT_CNT 0 c, .busy) := by
  rw [ceShared, hfree]
  exact if_neg (Nat.not_lt.mpr hfull)

theorem ceVehicle_of_within {bay : Fin 16} {c : Chip} (h : c.dlr.budget[bay] < 640) :
    ceVehicle bay.val c = ceSession (96 + 3 * bay.val) 3 c := by
  have hb : c.dlr.budget[bay.val]?.getD 0 = c.dlr.budget[bay] := by simp
  rw [ceVehicle, hb, if_neg (Nat.not_le.mpr h)]

theorem ceVehicle_of_over {bay : Fin 16} {h : Nat} {c : Chip} (hover : 640 ≤ c.dlr.budget[bay]) (hfree : freeCryptoHand c = some h) :
    ceVehicle bay.val c = (ceOver bay.val (ceAdmit h 4 c.dlr.issued (ceNext c)), .ok) := by
  have hb : c.dlr.budget[bay.val]?.getD 0 = c.dlr.budget[bay] := by simp
  rw [ceVehicle, hb, if_pos hover, ceShared_of_free hfree]
  rfl

theorem ceRequest_of_run {src : CeSource} {c d : Chip} {e : Status} (hrun : c.pwr.phase = .run) (h : ceIssue src c = (d, e)) :
    ceRequest src c = answered e d := by
  rw [ceRequest, if_neg (by simp [hrun]), h]
  rfl

/-- What the step of a request leaves, whatever it answers. -/
theorem exec_ceRequest {s : State} {src : CeSource} {d : Chip} {e : Status} (hrun : s.pwr.phase = .run)
    (h : ceIssue src s.toChip = (d, e)) (hview : dealtView d = dealtView s.toChip) :
    ∃ t, exec (.ceRequest src) s = .next t ∧ t.reply = e ∧ t.dlr = d.dlr ∧ t.backup = s.backup ∧ t.store = s.store ∧
      ∀ f i, shownKey (fkey f i) = false → getF f i t.toChip = getF f i d := by
  refine ⟨_, run_next (ceRequest src) s, ?_⟩
  dsimp only
  rw [ceRequest_of_run hrun h, settle_reply, settle_dlr, settle_backup, settle_store]
  have hbackup : d.backup = s.backup := part_of_dealtView (·.backup) (fun _ => rfl) hview
  have hstore : d.store = s.store := part_of_dealtView (·.store) (fun _ => rfl) hview
  exact ⟨rfl, rfl, hbackup, hstore,
    fun f i hk => (getF_settle hk _).trans (getF_answered f i e d)⟩

/-- The step of a request of a settled device that leaves its power die. -/
theorem exec_ceRequest_settled {s : State} {src : CeSource} {d : Chip} {e : Status} (hs : Settled s.toChip)
    (hrun : s.pwr.phase = .run) (h : ceIssue src s.toChip = (d, e)) (hdie : dieView d = dieView s.toChip) :
    exec (.ceRequest src) s = .next { s with toChip := answered e d } :=
  run_row hs (ceRequest_of_run hrun h) hdie

/-- A request that is admitted reads ready on its hand. -/
theorem getF_state_ceAdmit (hand cls no : Nat) (c : Chip) : getF Reg.DLR_HAND_STATE hand (ceAdmit hand cls no c) = 1 :=
  getF_setF_same ..

/-- R117: the step of a request that takes a hand. -/
theorem exec_ceRequest_admitted {s : State} {src : CeSource} {hand cls : Nat} (hrun : s.pwr.phase = .run) (hh : hand < 160)
    (h : ceIssue src s.toChip = (ceAdmit hand cls s.dlr.issued (ceNext s.toChip), .ok)) :
    ∃ t, exec (.ceRequest src) s = .next t ∧ t.reply = .ok ∧ t.dlr.queue = s.dlr.queue ∧
      t.dlr.reqs = s.dlr.reqs ++ [{ hand := hand, cls := cls, no := s.dlr.issued }] ∧ t.dlr.issued = s.dlr.issued + 1 ∧
      getF Reg.DLR_HAND_STATE hand t.toChip = 1 ∧ t.backup = s.backup ∧ t.store = s.store := by
  obtain ⟨t, hexec, hreply, hdlr, hbackup, hstore, hregs⟩ := exec_ceRequest hrun h (dealtView_ceAdmit ..)
  rw [dlr_ceAdmit] at hdlr
  refine ⟨t, hexec, hreply, by rw [hdlr]; rfl, by rw [hdlr]; rfl, by rw [hdlr]; rfl, ?_, hbackup, hstore⟩
  rw [hregs _ _ (shownKey_hand (by decide) hh)]
  exact getF_state_ceAdmit ..

theorem freeCryptoHand_bounds {h : Nat} {c : Chip} (hfree : freeCryptoHand c = some h) : 144 ≤ h ∧ h < 160 := by
  have hm := List.mem_of_find?_eq_some hfree
  simp only [List.mem_map, List.mem_range] at hm
  omega


/-- R118: the step of a vehicle's request beyond its set's budget. -/
theorem exec_ceRequest_over {s : State} {bay : Fin 16} {h : Nat} (hrun : s.pwr.phase = .run)
    (hover : 640 ≤ s.dlr.budget[bay]) (hfree : freeCryptoHand s.toChip = some h) :
    ∃ t, exec (.ceRequest (.vehicle bay)) s = .next t ∧ t.reply = .ok ∧ t.dlr.above[bay] = true ∧
      t.dlr.reqs = s.dlr.reqs ++ [{ hand := h, cls := 4, no := s.dlr.issued }] ∧ t.store = s.store := by
  obtain ⟨t, hexec, hreply, hdlr, -, hstore, -⟩ := exec_ceRequest hrun (src := .vehicle bay) (ceVehicle_of_over hover hfree)
    (by rw [dealtView_ceOver, dealtView_ceAdmit]; rfl)
  refine ⟨t, hexec, hreply, ?_, ?_, hstore⟩
  · simp only [hdlr, above_ceOver]
  · rw [hdlr, reqs_ceOver, dlr_ceAdmit]
    rfl

/-- R117: the step of a request that finds the queue full. -/
theorem exec_ceRequest_full {s : State} (hrun : s.pwr.phase = .run) (hfree : freeCryptoHand s.toChip = none)
    (hfull : 64 ≤ s.dlr.queue.length) :
    ∃ t, exec (.ceRequest .host) s = .next t ∧ t.reply = .busy ∧ getF Reg.DLR_STAT_CE_QFULL 0 t.toChip = 1 ∧
      t.dlr = s.dlr ∧ t.backup = s.backup := by
  obtain ⟨t, hexec, hreply, hdlr, hbackup, -, hregs⟩ := exec_ceRequest hrun (src := .host) (ceShared_of_full hfree hfull)
    (dealtView_of_noRegs (noRegs_flagF ..))
  refine ⟨t, hexec, hreply, ?_, hdlr.trans (flagF_dlr ..), hbackup⟩
  rw [hregs _ _ (by decide), flagF_of_one_bit rfl (by decide), getF_setF_of_key (by decide), getF_setF_same]
  rfl

/-! ### The choice of a CE, R114, R115 -/

/-- The request chosen among those of class `k` without a CE: the one issued first. -/
def ceEarlier (k : Nat) (best : Option CeReq) (r : CeReq) : Option CeReq :=
  if r.cls ≠ k ∨ r.engine.isSome then best
  else match best with
    | none => some r
    | some b => if r.no < b.no then some r else some b

theorem ceFirst_eq (k : Nat) (c : Chip) : ceFirst k c = c.dlr.reqs.foldl (ceEarlier k) none := rfl

/-- A chosen request has no CE. -/
theorem engine_of_ceFirst {k : Nat} {c : Chip} {r : CeReq} (h : ceFirst k c = some r) : r.engine = none := by
  rw [ceFirst_eq] at h
  have hfold : ∀ (l : List CeReq) (best : Option CeReq), (∀ b, best = some b → b.engine = none) →
      l.foldl (ceEarlier k) best = some r → r.engine = none := by
    intro l
    induction l with
    | nil => exact fun best hbest hr => hbest r hr
    | cons q l ih =>
      intro best hbest hr
      refine ih (ceEarlier k best q) (fun b hb => ?_) hr
      unfold ceEarlier at hb
      split at hb
      · exact hbest b hb
      · next hq =>
        have hqe : q.engine = none := by simpa using (not_or.mp hq).2
        split at hb
        · injection hb with hb
          exact hb ▸ hqe
        · split at hb <;> injection hb with hb
          · exact hb ▸ hqe
          · exact hbest b (by rw [hb])
  exact hfold _ none (fun b hb => by cases hb) h

/-- Nothing, or a request issued no earlier than `r`, has been chosen so far. -/
def NoneBefore (r : CeReq) (best : Option CeReq) : Prop := ∀ b, best = some b → b = r ∨ r.no < b.no

theorem ceEarlier_self {k : Nat} {r : CeReq} {best : Option CeReq} (hcls : r.cls = k) (hfree : r.engine = none)
    (h : NoneBefore r best) : ceEarlier k best r = some r := by
  have hgo : ¬(r.cls ≠ k ∨ r.engine.isSome = true) := by simp [hcls, hfree]
  cases best with
  | none => exact if_neg hgo
  | some b =>
    refine (if_neg hgo).trans ?_
    rcases h b rfl with rfl | hlt
    · exact if_neg (Nat.lt_irrefl _)
    · exact if_pos hlt

theorem ceEarlier_stays {k : Nat} {q r : CeReq} (h : q.cls = k → q = r ∨ r.no < q.no) : ceEarlier k (some r) q = some r := by
  unfold ceEarlier
  split
  · rfl
  · next hc =>
    rcases h (by simpa using (not_or.mp hc).1) with rfl | hlt
    · exact if_neg (Nat.lt_irrefl _)
    · exact if_neg (Nat.lt_asymm hlt)

theorem noneBefore_ceEarlier {k : Nat} {q r : CeReq} {best : Option CeReq} (h : NoneBefore r best)
    (hq : q.cls = k → q = r ∨ r.no < q.no) : NoneBefore r (ceEarlier k best q) := by
  unfold ceEarlier
  split
  · exact h
  · next hc =>
    have hself : NoneBefore r (some q) := fun b hb => Option.some.inj hb ▸ hq (by simpa using (not_or.mp hc).1)
    cases best with
    | none => exact hself
    | some b =>
      dsimp only
      split
      · exact hself
      · exact h

/-- Of the requests of a class the one that was issued before every other is chosen. -/
theorem ceFirst_of_earliest {k : Nat} {c : Chip} {r : CeReq} (hmem : r ∈ c.dlr.reqs) (hcls : r.cls = k) (hfree : r.engine = none)
    (hleast : ∀ q ∈ c.dlr.reqs, q.cls = k → q = r ∨ r.no < q.no) : ceFirst k c = some r := by
  have hfold : ∀ (l : List CeReq) best, NoneBefore r best → (r ∈ l ∨ best = some r) →
      (∀ q ∈ l, q.cls = k → q = r ∨ r.no < q.no) → l.foldl (ceEarlier k) best = some r := by
    intro l
    induction l with
    | nil => exact fun best _ hr _ => hr.resolve_left List.not_mem_nil
    | cons q l ih =>
      intro best hbest hr hl
      have hq := hl q List.mem_cons_self
      refine ih _ (noneBefore_ceEarlier hbest hq) ?_ fun x hx => hl x (List.mem_cons_of_mem q hx)
      rcases hr with hr | rfl
      · rcases List.mem_cons.mp hr with rfl | hr
        · exact .inr (ceEarlier_self hcls hfree hbest)
        · exact .inl hr
      · exact .inr (ceEarlier_stays hq)
  exact hfold _ none nofun (.inl hmem) hleast

/-! ### A trick, R114 -/

/-- The registers of the hands whose work is saved show it. -/
def ceShowSaved (c : Chip) : Chip :=
  c.dlr.reqs.foldl (fun c r => if r.engine.isSome then setF Reg.DLR_HAND_STATE r.hand 4 c else c) c

def CeReq.unserved (r : CeReq) : CeReq := { r with engine := none }

/-- No CE serves a request. -/
def ceTakeBack (c : Chip) : Chip := { c with dlr := { c.dlr with reqs := c.dlr.reqs.map CeReq.unserved } }

/-- The work of every bay beyond its session-start set's budget changes class. -/
def ceBudgets (c : Chip) : Chip := (List.range 16).foldl (fun c b => ceBudgetBay b c) c

theorem ceTrick_of_runs {c : Chip} (h : ceRuns c = true) :
    ceTrick c = ceCount (ceDeal 1 (ceDeal 0 (ceBudgets (ceTakeBack (ceShowSaved c))))) := by
  rw [ceTrick, if_neg (by simp [h])]
  rfl

theorem ceShowSaved_keeps {β : Type} (g : Chip → β) (h : ∀ hand c, g (setF Reg.DLR_HAND_STATE hand 4 c) = g c) (c : Chip) :
    g (ceShowSaved c) = g c :=
  foldl_keeps_over g _ (fun d r => by
    split
    · exact h _ d
    · rfl) _ c

theorem noRegs_ceShowSaved (c : Chip) : noRegs (ceShowSaved c) = noRegs c := ceShowSaved_keeps noRegs (fun _ c => noRegs_setF _ _ _ c) c

theorem pwrRegs_ceShowSaved (c : Chip) : pwrRegs (ceShowSaved c) = pwrRegs c :=
  ceShowSaved_keeps pwrRegs (fun _ c => pwrRegs_setF (by decide) _ _ c) c

/-- R118: within its budget a session-start set goes on as it is. -/
theorem ceBudgets_of_within {c : Chip} (h : ∀ b : Fin 16, c.dlr.budget[b] < 640) : ceBudgets c = c := by
  refine foldl_of_fixed fun b hb => ?_
  have hlt := List.mem_range.mp hb
  have hbudget : c.dlr.budget[b]?.getD 0 < 640 := by
    rw [Vector.getElem?_eq_getElem hlt]
    exact h ⟨b, hlt⟩
  unfold ceBudgetBay
  split
  · rfl
  · exact if_pos hbudget

/-- The window of a CE after a trick of class `k`. -/
def CeWindow.take (k : Nat) (w : CeWindow) : CeWindow :=
  { tricks := w.tricks + 1, given := w.given.setIfInBounds (k - 1) (w.given[k - 1]?.getD 0 + 1) }

def ceWindow (e : Nat) (c : Chip) : CeWindow := (c.dlr.windows[e]?.getD {}).current

def ceWindowPut (e : Nat) (w : CeWindow) (c : Chip) : Chip :=
  { c with dlr := { c.dlr with windows := c.dlr.windows.setIfInBounds e w } }

theorem ceDeal_of_class {e k : Nat} {c : Chip} {r : CeReq} (hclass : ceClass e c = some k) (hfirst : ceFirst k c = some r) :
    ceDeal e c = ceServe e r (ceWindowPut e ((ceWindow e c).take k) c) := by
  have hsame : ceFirst k (ceWindowPut e ((ceWindow e c).take k) c) = some r := hfirst
  simp only [ceDeal, hclass]
  simp only [ceWindowPut, ceWindow, CeWindow.take] at hsame ⊢
  rw [hsame]

/-- R114: class 1 is served first while its ante is owed. -/
theorem ceClass_of_first {e : Nat} {c : Chip} (hpending : cePending c 1 = true) (hante : (ceWindow e c).given[0] < 4) :
    ceClass e c = some 1 := by
  have hgiven : (ceWindow e c).given[1 - 1]?.getD 0 < ceAnte 1 := hante
  have hgo : (cePending c 1 && decide ((ceWindow e c).given[1 - 1]?.getD 0 < ceAnte 1)) = true := by
    rw [hpending, decide_eq_true hgiven]
    rfl
  have hfind : [1, 2, 3, 4].find? (fun k => cePending c k && decide ((ceWindow e c).given[k - 1]?.getD 0 < ceAnte k)) = some 1 :=
    List.find?_cons_of_pos hgo
  unfold ceClass
  dsimp only
  split
  · next k hk => exact hk.symm.trans hfind
  · next hk => cases hk.symm.trans hfind

/-- A CE is idle in a trick, or serves a request that no CE served before. -/
theorem ceDeal_cases (e : Nat) (c : Chip) : ∃ w, ceDeal e c = ceWindowPut e w c ∨
    ∃ r, r.engine = none ∧ ceDeal e c = ceServe e r (ceWindowPut e w c) := by
  cases hclass : ceClass e c with
  | none =>
    refine ⟨{ ceWindow e c with tricks := (ceWindow e c).tricks + 1 }, .inl ?_⟩
    simp only [ceDeal, hclass]
    rfl
  | some k =>
    refine ⟨(ceWindow e c).take k, ?_⟩
    cases hfirst : ceFirst k c with
    | none =>
      refine .inl ?_
      have hsame : ceFirst k (ceWindowPut e ((ceWindow e c).take k) c) = none := hfirst
      simp only [ceDeal, hclass]
      simp only [ceWindowPut, ceWindow, CeWindow.take] at hsame ⊢
      rw [hsame]
    | some r => exact .inr ⟨r, engine_of_ceFirst hfirst, ceDeal_of_class hclass hfirst⟩

/-- CE `e` serves request `r`. -/
def ceMark (e : Nat) (r : CeReq) (q : CeReq) : CeReq := if q = r then { q with engine := some e, served := true } else q

/-- What serving a request leaves of the Dealer. -/
theorem dlr_ceServe (e : Nat) (r : CeReq) (c : Chip) : (ceServe e r c).dlr.reqs = c.dlr.reqs.map (ceMark e r) ∧
    (ceServe e r c).dlr.windows = c.dlr.windows := by
  unfold ceServe
  dsimp only
  split
  · simp [ceMark]
  · split <;> simp [ceMark]

theorem dealtView_ceServe (e : Nat) (r : CeReq) (c : Chip) : dealtView (ceServe e r c) = dealtView c := by
  unfold ceServe
  dsimp only
  split
  · simp only [dealtView_setF, dealtView_withDlr]
  · split <;> simp only [dealtView_setF, dealtView_withDlr]

theorem dealtView_ceDeal (e : Nat) (c : Chip) : dealtView (ceDeal e c) = dealtView c := by
  obtain ⟨w, h | ⟨r, -, h⟩⟩ := ceDeal_cases e c
  · rw [h]
    rfl
  · rw [h, dealtView_ceServe]
    rfl

/-- A request that a CE serves stays as it is when the next CE is dealt. -/
theorem mem_reqs_ceDeal {e : Nat} {c : Chip} {q : CeReq} (hq : q ∈ c.dlr.reqs) (hserved : q.engine.isSome = true) :
    q ∈ (ceDeal e c).dlr.reqs := by
  obtain ⟨w, h | ⟨r, hr, h⟩⟩ := ceDeal_cases e c
  · rw [h]
    exact hq
  · rw [h, (dlr_ceServe ..).1]
    have hne : q ≠ r := fun he => by simp [he, hr] at hserved
    exact List.mem_map.mpr ⟨q, hq, if_neg hne⟩

theorem hand_ceMark (e : Nat) (r q : CeReq) : (ceMark e r q).hand = q.hand := by
  unfold ceMark
  split <;> rfl

theorem hands_ceDeal (e : Nat) (c : Chip) : (ceDeal e c).dlr.reqs.map (·.hand) = c.dlr.reqs.map (·.hand) := by
  obtain ⟨w, h | ⟨r, -, h⟩⟩ := ceDeal_cases e c
  · rw [h]
    rfl
  · rw [h, (dlr_ceServe ..).1, List.map_map]
    exact List.map_congr_left fun q _ => hand_ceMark e r q

theorem windows_ceDeal_ne {e k : Nat} (hk : k ≠ e) (c : Chip) : (ceDeal e c).dlr.windows[k]? = c.dlr.windows[k]? := by
  obtain ⟨w, h | ⟨r, -, h⟩⟩ := ceDeal_cases e c
  · rw [h]
    exact Vector.getElem?_setIfInBounds_ne (Ne.symm hk)
  · rw [h, (dlr_ceServe ..).2]
    exact Vector.getElem?_setIfInBounds_ne (Ne.symm hk)

/-- A trick of a request's wait. -/
def CeReq.counted (r : CeReq) : CeReq := if r.engine.isNone ∧ !r.served then { r with waited := r.waited + 1 } else r

theorem hand_counted (r : CeReq) : r.counted.hand = r.hand := by
  unfold CeReq.counted
  split <;> rfl

/-- R119: the counts of a trick's end. -/
theorem ceCount_kept (c : Chip) : dealtView (ceCount c) = dealtView c ∧ (ceCount c).dlr.windows = c.dlr.windows ∧
    (ceCount c).dlr.reqs = c.dlr.reqs.map CeReq.counted := by
  have hfold : ∀ (β : Type) (g : Chip → β), (∀ f i v c, g (setF f i v c) = g c) → g (c.dlr.reqs.foldl (fun c r =>
      if r.engine.isNone then addSat Reg.DLR_HAND_WAIT r.hand 255 1 c else c) c) = g c := fun β g hg =>
    foldl_keeps_over g _ (fun d r => by
      split
      · exact hg _ _ _ d
      · rfl) _ c
  have hdlr := hfold _ (·.dlr) setF_dlr
  exact ⟨hfold _ dealtView dealtView_setF, congrArg (·.windows) hdlr, congrArg (fun d => d.reqs.map CeReq.counted) hdlr⟩

/-! ### A trick of class 1 -/

theorem dlr_ceTakeBack (c : Chip) : (ceTakeBack (ceShowSaved c)).dlr = { c.dlr with reqs := c.dlr.reqs.map CeReq.unserved } :=
  congrArg (fun d : DealerState => { d with reqs := d.reqs.map CeReq.unserved })
    (part_of_noRegs (·.dlr) (fun _ => rfl) (noRegs_ceShowSaved c))

theorem dealtView_ceTakeBack (c : Chip) : dealtView (ceTakeBack (ceShowSaved c)) = dealtView c :=
  show dealtView (ceShowSaved c) = _ from dealtView_of_noRegs (noRegs_ceShowSaved c)

theorem ceRuns_of_run {c d : Chip} (hrun : c.pwr.phase = .run) (hstate : getF Reg.PWR_STATE_STATE 0 c ≠ 3)
    (hview : dealtView d = dealtView c) (hregs : pwrRegs d = pwrRegs c) : ceRuns d = true := by
  have hpwr : d.pwr = c.pwr := part_of_dealtView (·.pwr) (fun _ => rfl) hview
  have hsame := getF_of_pwrRegs hregs (f := Reg.PWR_STATE_STATE) (i := 0) (by decide)
  simp [ceRuns, hpwr, hrun, hsame, hstate]

/-- A trick in which CE0 owes class 1 its ante: it serves the request of class 1 issued first. -/
structure ClassOneTrick (r : CeReq) (c : Chip) : Prop where
  run : c.pwr.phase = .run
  awake : getF Reg.PWR_STATE_STATE 0 c ≠ 3
  mem : r ∈ c.dlr.reqs
  cls : r.cls = 1
  first : ∀ q ∈ c.dlr.reqs, q.cls = 1 → q ≠ r → r.no < q.no
  within : ∀ b : Fin 16, c.dlr.budget[b] < 640
  owed : (ceWindow 0 c).given[0] < 4

section
variable {c : Chip} {r : CeReq} (h : ClassOneTrick r c)
include h

theorem ClassOneTrick.chosen : ceFirst 1 (ceTakeBack (ceShowSaved c)) = some r.unserved := by
  refine ceFirst_of_earliest ?_ h.cls rfl ?_ <;> rw [dlr_ceTakeBack]
  · exact List.mem_map_of_mem h.mem
  · intro q hq hcls
    obtain ⟨p, hp, rfl⟩ := List.mem_map.mp hq
    by_cases he : p = r
    · exact .inl (by rw [he])
    · exact .inr (h.first p hp hcls he)

theorem ClassOneTrick.trick : ceTrick c = ceCount (ceDeal 1 (ceServe 0 r.unserved
    (ceWindowPut 0 ((ceWindow 0 c).take 1) (ceTakeBack (ceShowSaved c))))) := by
  have hbudgets : ceBudgets (ceTakeBack (ceShowSaved c)) = ceTakeBack (ceShowSaved c) :=
    ceBudgets_of_within (by simpa only [dlr_ceTakeBack] using h.within)
  have hwindow : ceWindow 0 (ceTakeBack (ceShowSaved c)) = ceWindow 0 c := by
    simp only [ceWindow, dlr_ceTakeBack]
  have hruns := ceRuns_of_run h.run h.awake (dealtView_ceTakeBack c) (pwrRegs_ceShowSaved c)
  have hclass : ceClass 0 (ceTakeBack (ceShowSaved c)) = some 1 :=
    ceClass_of_first (by simp [cePending, ceServes, hruns, h.chosen]) (by rw [hwindow]; exact h.owed)
  rw [ceTrick_of_runs (ceRuns_of_run h.run h.awake rfl rfl), hbudgets, ceDeal_of_class hclass h.chosen, hwindow]

theorem ClassOneTrick.serves : { r with engine := some 0, served := true } ∈ (ceTrick c).dlr.reqs := by
  rw [h.trick, (ceCount_kept _).2.2]
  refine List.mem_map.mpr ⟨_, mem_reqs_ceDeal ?_ rfl, if_neg (by simp)⟩
  rw [(dlr_ceServe ..).1]
  refine List.mem_map.mpr ⟨r.unserved, ?_, if_pos rfl⟩
  show _ ∈ (ceTakeBack (ceShowSaved c)).dlr.reqs
  rw [dlr_ceTakeBack]
  exact List.mem_map_of_mem h.mem

theorem ClassOneTrick.window : (ceTrick c).dlr.windows[0] = (ceWindow 0 c).take 1 := by
  have h? : (ceTrick c).dlr.windows[0]? = some ((ceWindow 0 c).take 1) := by
    rw [h.trick, (ceCount_kept _).2.1, windows_ceDeal_ne (by decide), (dlr_ceServe ..).2]
    exact Vector.getElem?_setIfInBounds_self_of_lt (by decide)
  simpa using h?

theorem ClassOneTrick.hands : (ceTrick c).dlr.reqs.map (·.hand) = c.dlr.reqs.map (·.hand) := by
  rw [h.trick, (ceCount_kept _).2.2, List.map_map, (funext hand_counted : (·.hand) ∘ CeReq.counted = (·.hand)), hands_ceDeal,
    (dlr_ceServe ..).1, List.map_map, (funext (hand_ceMark 0 r.unserved) : (·.hand) ∘ ceMark 0 r.unserved = (·.hand))]
  show (ceTakeBack (ceShowSaved c)).dlr.reqs.map (·.hand) = _
  rw [dlr_ceTakeBack, List.map_map]
  rfl

theorem ClassOneTrick.view : dealtView (ceTrick c) = dealtView c := by
  rw [h.trick, (ceCount_kept _).1, dealtView_ceDeal, dealtView_ceServe]
  exact dealtView_ceTakeBack c

end

/-- R114, R115: the step of such a trick. -/
theorem exec_ceTrickEdge_first {s : State} {r : CeReq} (h : ClassOneTrick r s.toChip) :
    ∃ t, exec .ceTrickEdge s = .next t ∧ { r with engine := some 0, served := true } ∈ t.dlr.reqs ∧
      (t.dlr.windows[0]).tricks = ((s.dlr.windows[0]).current).tricks + 1 ∧
      (t.dlr.windows[0]).given[0] = ((s.dlr.windows[0]).current).given[0] + 1 ∧
      t.dlr.reqs.map (·.hand) = s.dlr.reqs.map (·.hand) ∧ t.backup = s.backup ∧ t.store = s.store := by
  have hw : (settle (ceTrick s.toChip)).dlr.windows[0] = (s.dlr.windows[0].current).take 1 := by
    simp only [settle_dlr, h.window]
    rfl
  refine ⟨_, run_next ceTrick s, ?_⟩
  dsimp only
  refine ⟨?_, congrArg CeWindow.tricks hw, ?_, ?_, ?_, ?_⟩
  · rw [settle_dlr]
    exact h.serves
  · rw [congrArg (fun w : CeWindow => w.given[0]) hw]
    simp [CeWindow.take]
  · rw [settle_dlr, h.hands]
  · rw [settle_backup, part_of_dealtView (·.backup) (fun _ => rfl) h.view]
  · rw [settle_store, part_of_dealtView (·.store) (fun _ => rfl) h.view]

/-! ### Completion, R117 -/

/-- The hand of an operation that completes shows idle. -/
def ceFreed (hand : Nat) (c : Chip) : Chip :=
  setF Reg.DLR_HAND_STATE hand 0 (setF Reg.DLR_HAND_CLASS hand 0 (setF Reg.DLR_HAND_WAIT hand 0
    { c with dlr := { c.dlr with reqs := c.dlr.reqs.filter fun r => r.hand != hand } }))

theorem noRegs_ceFreed (hand : Nat) (c : Chip) : noRegs (ceFreed hand c) =
    noRegs { c with dlr := { c.dlr with reqs := c.dlr.reqs.filter fun r => r.hand != hand } } := by
  simp only [ceFreed, noRegs_setF]

theorem dlr_ceFreed (hand : Nat) (c : Chip) :
    (ceFreed hand c).dlr = { c.dlr with reqs := c.dlr.reqs.filter fun r => r.hand != hand } :=
  part_of_noRegs (·.dlr) (fun _ => rfl) (noRegs_ceFreed hand c)

theorem dealtView_ceFreed (hand : Nat) (c : Chip) : dealtView (ceFreed hand c) = dealtView c :=
  (dealtView_of_noRegs (noRegs_ceFreed hand c)).trans rfl

/-- The hand of an operation that completes shows idle, and the requests `ks` wait. -/
def ceTurned (hand : Nat) (ks : List (Nat × Nat)) (c : Chip) : Chip :=
  { ceFreed hand c with dlr := { (ceFreed hand c).dlr with queue := ks } }

theorem dlr_ceTurned (hand : Nat) (ks : List (Nat × Nat)) (c : Chip) : (ceTurned hand ks c).dlr =
    { c.dlr with reqs := c.dlr.reqs.filter fun r => r.hand != hand, queue := ks } := by
  rw [ceTurned, dlr_ceFreed]

theorem dealtView_ceTurned (hand : Nat) (ks : List (Nat × Nat)) (c : Chip) :
    dealtView (ceTurned hand ks c) = dealtView c :=
  (dealtView_withDlr ..).trans (dealtView_ceFreed ..)

/-- A session hand is free again; DLR_CE_MAX alone may rise. -/
theorem ceDone_of_session {hand : Nat} {c : Chip} (hheld : ∃ r ∈ c.dlr.reqs, r.hand = hand) (hlt : hand < 144) :
    noRegs (ceDone hand c) = noRegs (ceFreed hand c) := by
  unfold ceDone
  split
  · next hnone => simp only [List.find?_eq_none, beq_iff_eq] at hnone; exact absurd hheld (by simpa using hnone)
  · dsimp only
    rw [if_pos hlt]
    split
    · exact noRegs_setF _ _ _ _
    · rfl

/-- A crypto hand goes to the oldest request that waits. -/
theorem ceDone_of_crypto {hand : Nat} {c : Chip} {k : Nat × Nat} {ks : List (Nat × Nat)}
    (hheld : ∃ r ∈ c.dlr.reqs, r.hand = hand) (hge : 144 ≤ hand) (hqueue : c.dlr.queue = k :: ks) :
    ceDone hand c = ceAdmit hand k.1 k.2 (ceTurned hand ks c) := by
  have hq : (ceFreed hand c).dlr.queue = k :: ks := by rw [dlr_ceFreed, ← hqueue]
  simp only [ceTurned, ceFreed] at hq ⊢
  unfold ceDone
  split
  · next hnone => simp only [List.find?_eq_none, beq_iff_eq] at hnone; exact absurd hheld (by simpa using hnone)
  · dsimp only
    rw [if_neg (Nat.not_lt.mpr hge), hq]

/-- Without a reading that waits for the hand, an operation's completion frees the hand alone. -/
theorem ceRequestDone_of_noReading {hand : Nat} {c : Chip} (hheld : ∃ r ∈ c.dlr.reqs, r.hand = hand)
    (hksr : ∀ k ∈ c.bil.ksr, k.hand ≠ hand) (hbil : (ceDone hand c).bil = c.bil) : ceRequestDone hand c = ceDone hand c := by
  have hnone : ∀ d : Chip, d.bil = c.bil → ksrIssue hand d = d ∧ ksrRelease hand d = d := fun d hd => by
    have hany : (d.bil.ksr.any fun k => k.hand == hand) = false := by simpa [hd] using hksr
    have hfind : (d.bil.ksr.find? fun k => k.hand == hand && k.sent) = none := by
      rw [List.find?_eq_none]
      intro k hk
      have hne := hksr k (hd ▸ hk)
      simp [hne]
    exact ⟨if_pos (.inl (by simp [hany])), by rw [ksrRelease, hfind]⟩
  unfold ceRequestDone
  split
  · next h => simp only [List.find?_eq_none, beq_iff_eq] at h; exact absurd hheld (by simpa using h)
  · dsimp only
    split
    · rw [(hnone _ hbil).2, (hnone _ hbil).1]
    · rw [(hnone _ hbil).1]

/-- R117: the step of a completion on a session hand. -/
theorem exec_ceRequestDone_session {s : State} {hand : Nat} (hheld : ∃ r ∈ s.dlr.reqs, r.hand = hand)
    (hksr : ∀ k ∈ s.bil.ksr, k.hand ≠ hand) (hlt : hand < 144) : ∃ t, exec (.ceRequestDone hand) s = .next t ∧
      t.dlr.reqs = s.dlr.reqs.filter (fun r => r.hand != hand) ∧ t.dlr.queue = s.dlr.queue ∧ t.store = s.store := by
  have hview := (ceDone_of_session hheld hlt).trans (noRegs_ceFreed ..)
  have hbil : (ceDone hand s.toChip).bil = s.bil := (part_of_noRegs (·.bil) (fun _ => rfl) hview).trans rfl
  have hrow := ceRequestDone_of_noReading hheld hksr hbil
  refine ⟨_, run_next (ceRequestDone hand) s, ?_⟩
  dsimp only
  rw [settle_dlr, settle_store, hrow]
  rw [part_of_noRegs (·.dlr) (fun _ => rfl) hview, part_of_noRegs (·.store) (fun _ => rfl) hview]
  exact ⟨rfl, rfl, rfl⟩

/-- R117: the step of a completion on a crypto hand for which a request waits. -/
theorem exec_ceRequestDone_crypto {s : State} {hand : Nat} {k : Nat × Nat} {ks : List (Nat × Nat)}
    (hheld : ∃ r ∈ s.dlr.reqs, r.hand = hand) (hksr : ∀ k ∈ s.bil.ksr, k.hand ≠ hand) (hge : 144 ≤ hand)
    (hqueue : s.dlr.queue = k :: ks) : ∃ t, exec (.ceRequestDone hand) s = .next t ∧
      t.dlr.reqs = s.dlr.reqs.filter (fun r => r.hand != hand) ++ [{ hand := hand, cls := k.1, no := k.2 }] ∧
      t.dlr.queue = ks ∧ t.store = s.store := by
  have hdone := ceDone_of_crypto hheld hge hqueue
  have hview : dealtView (ceDone hand s.toChip) = dealtView s.toChip := by
    rw [hdone, dealtView_ceAdmit, dealtView_ceTurned]
  have hrow := ceRequestDone_of_noReading hheld hksr (part_of_dealtView (·.bil) (fun _ => rfl) hview)
  refine ⟨_, run_next (ceRequestDone hand) s, ?_⟩
  dsimp only
  rw [settle_dlr, settle_store, hrow, part_of_dealtView (·.store) (fun _ => rfl) hview, hdone, dlr_ceAdmit, dlr_ceTurned]
  exact ⟨rfl, rfl, rfl⟩

/-! ### A set beyond its budget, R118 -/

/-- Request `r` on hand `h` in class 4. -/
def ceMoved (r : CeReq) (h : Nat) (q : CeReq) : CeReq := if q = r then { q with hand := h, cls := 4 } else q

theorem noRegs_ceMove (r : CeReq) (h : Nat) (c : Chip) :
    noRegs (ceMove r h c) = noRegs { c with dlr := { c.dlr with reqs := c.dlr.reqs.map (ceMoved r h) } } := by
  unfold ceMove
  dsimp only
  split <;> simp only [noRegs_setF] <;> rfl

theorem getF_budget_ceMove (r : CeReq) (h : Nat) (c : Chip) :
    getF Reg.DLR_STAT_CE_BUDGET 0 (ceMove r h c) = getF Reg.DLR_STAT_CE_BUDGET 0 c := by
  unfold ceMove
  dsimp only
  split <;> simp (disch := decide) only [getF_setF_of_lsb] <;> rfl

theorem ceBudget_of_over {bay : Fin 16} {c : Chip} {r : CeReq} (hover : 640 ≤ c.dlr.budget[bay])
    (hwork : ceSetWork bay.val c = some r) :
    ceBudget bay c = ceMove r ((freeCryptoHand c).getD r.hand) (ceOver bay.val c) := by
  have hb : c.dlr.budget[bay.val]?.getD 0 = c.dlr.budget[bay] := by simp
  rw [ceBudget, ceBudgetBay, hwork]
  dsimp only
  rw [hb, if_neg (Nat.not_lt.mpr hover)]

theorem getF_budget_ceOver {bay : Fin 16} {c : Chip} (h : c.dlr.above[bay] = false) :
    getF Reg.DLR_STAT_CE_BUDGET 0 (ceOver bay.val c) = 1 := by
  have hnot : ¬c.dlr.above[bay.val]?.getD false = true := by simpa using h
  rw [ceOver, if_neg hnot, flagF_of_one_bit rfl (by decide), getF_setF_of_key (by decide), getF_setF_same]
  rfl

/-- R118: the step in which a bay's set is found beyond its budget. -/
theorem exec_ceBudgetExceeded {s : State} {bay : Fin 16} {r : CeReq} (hover : 640 ≤ s.dlr.budget[bay])
    (hfirst : s.dlr.above[bay] = false) (hwork : ceSetWork bay.val s.toChip = some r) :
    ∃ t, exec (.ceBudgetExceeded bay) s = .next t ∧ t.dlr.above[bay] = true ∧
      getF Reg.DLR_STAT_CE_BUDGET 0 t.toChip = 1 ∧
      t.dlr.reqs = s.dlr.reqs.map (ceMoved r ((freeCryptoHand s.toChip).getD r.hand)) ∧
      t.backup = s.backup ∧ t.store = s.store := by
  have hrow := ceBudget_of_over hover hwork
  have hmove := noRegs_ceMove r ((freeCryptoHand s.toChip).getD r.hand) (ceOver bay.val s.toChip)
  have hdlr := part_of_noRegs (·.dlr) (fun _ => rfl) hmove
  have hview : dealtView (ceBudget bay s.toChip) = dealtView s.toChip := by
    rw [hrow, dealtView_of_noRegs hmove]
    exact dealtView_ceOver ..
  refine ⟨_, run_next (ceBudget bay) s, ?_⟩
  dsimp only
  refine ⟨?_, ?_, ?_, ?_, ?_⟩
  · simp only [settle_dlr, hrow, hdlr, above_ceOver]
  · rw [getF_settle (by decide), hrow, getF_budget_ceMove, getF_budget_ceOver hfirst]
  · rw [settle_dlr, hrow, hdlr]
    exact congrArg (List.map _) (reqs_ceOver ..)
  · rw [settle_backup, part_of_dealtView (·.backup) (fun _ => rfl) hview]
  · rw [settle_store, part_of_dealtView (·.store) (fun _ => rfl) hview]

/-! ### The obligation -/

/-- Settles O16. -/
theorem cryptoRequestsAndTricks : Obligations.CryptoRequestsAndTricks := by
  refine ⟨fun s hrun => ⟨fun bay slot hfree => ?_, fun bay hin hfree => ?_, fun bay h hover hfree => ?_,
    fun bay hin hheld hs => ?_, fun h hfree => ?_, fun hfree hroom hs => ?_, fun hfree hfull => ?_,
    fun r hmem hcls hstate hfirst hin howed => ?_⟩, fun s hs => run_kept hs rfl,
    fun s hand hheld hksr => ⟨exec_ceRequestDone_session hheld hksr, fun k ks => exec_ceRequestDone_crypto hheld hksr⟩,
    fun s bay r hover hfirst hwork => exec_ceBudgetExceeded hover hfirst hwork⟩
  · exact exec_ceRequest_admitted hrun (by omega) (ceSession_of_free hfree)
  · obtain ⟨t, hexec, hreply, hqueue, hreqs, -, -, -, hstore⟩ := exec_ceRequest_admitted hrun (src := .vehicle bay)
      (hand := 96 + 3 * bay.val) (by omega) ((ceVehicle_of_within hin).trans (ceSession_of_free hfree))
    exact ⟨t, hexec, hreply, hqueue, hreqs, hstore⟩
  · exact exec_ceRequest_over hrun hover hfree
  · exact exec_ceRequest_settled hs hrun ((ceVehicle_of_within hin).trans (ceSession_of_held hheld)) rfl
  · obtain ⟨t, hexec, hreply, hqueue, hreqs, -, -, hbackup, hstore⟩ := exec_ceRequest_admitted hrun (src := .host)
      (freeCryptoHand_bounds hfree).2 (ceShared_of_free hfree)
    exact ⟨t, hexec, hreply, hqueue, hreqs, hbackup, hstore⟩
  · exact exec_ceRequest_settled (src := .other) hs hrun (ceShared_of_queue hfree hroom) rfl
  · exact exec_ceRequest_full hrun hfree hfull
  · exact exec_ceTrickEdge_first ⟨hrun, hstate, hmem, hcls, hfirst, hin, howed⟩

end Sys2Proof.Machine
end


section
/-!
The interconnect's arbiters, overruns and commits (chapter 05, R110, R121-R129): what a cycle, an overrun and a commit leave.
-/

namespace Sys2Proof.Machine
open Sys2Proof Sys2Proof.Safety

/-! ### Arbiters, R126-R129 -/

/-- The requests an arbiter state holds. -/
def ArbState.members (a : ArbState) : List ArbReq := a.waiting ++ a.forwarded

/-- `b` holds requests of `a` only, at the same time. -/
structure ArbWithin (a b : ArbState) : Prop where
  now : b.now = a.now
  members : ∀ r ∈ b.members, r ∈ a.members

theorem ArbWithin.refl (a : ArbState) : ArbWithin a a := ⟨rfl, fun _ h => h⟩

theorem ArbWithin.trans {a b d : ArbState} (h : ArbWithin a b) (k : ArbWithin b d) : ArbWithin a d :=
  ⟨k.now.trans h.now, fun r hr => h.members r (k.members r hr)⟩

theorem arbWithin_foldl {α : Type} {f : ArbState → α → ArbState} (h : ∀ a x, ArbWithin a (f a x)) (l : List α) (a : ArbState) :
    ArbWithin a (l.foldl f a) := by
  induction l generalizing a with
  | nil => exact .refl a
  | cons x l ih => exact (h a x).trans (ih _)

/-- The greatest age of a list's requests is that of a request in it. -/
theorem mem_of_arbOldest {weight : Nat → Nat} {now : Nat} {rs : List ArbReq} {o : Option ArbReq} {r : ArbReq}
    (h : rs.foldl (fun (best : Option ArbReq) r => match best with
      | none => some r
      | some b => if arbBefore weight now r b then some r else some b) o = some r) : o = some r ∨ r ∈ rs := by
  induction rs generalizing o with
  | nil => exact .inl h
  | cons q rs ih =>
    rcases ih h with hq | hmem
    · cases o with
      | none => exact .inr (List.mem_cons.mpr (.inl (Option.some.inj hq).symm))
      | some b =>
        dsimp only at hq
        split at hq
        · exact .inr (List.mem_cons.mpr (.inl (Option.some.inj hq).symm))
        · exact .inl hq
    · exact .inr (List.mem_cons_of_mem q hmem)

/-- An arbiter chooses one of its requests. -/
theorem mem_of_arbPick {weight : Nat → Nat} {now : Nat} {t t' : ArbTurn} {rs : List ArbReq} {r : ArbReq}
    (h : arbPick weight now t rs = some (r, t')) : r ∈ rs := by
  simp only [arbPick] at h
  split at h
  · obtain ⟨q, hq, he⟩ := Option.map_eq_some_iff.mp h
    obtain ⟨rfl, -⟩ := Prod.mk.inj he
    rcases mem_of_arbOldest hq with hnone | hmem
    · cases hnone
    · exact List.mem_of_mem_filter hmem
  · obtain ⟨q, hq, he⟩ := Option.map_eq_some_iff.mp h
    obtain ⟨rfl, -⟩ := Prod.mk.inj he
    exact List.mem_of_mem_filter (List.mem_of_mem_filter (List.mem_of_find?_eq_some hq))

theorem arbWithin_arbGrant (weight : Nat → Nat) (a : ArbState) (t : Nat) : ArbWithin a (arbGrant weight t a) := by
  simp only [arbGrant]
  split
  · exact .refl a
  · refine ⟨rfl, fun r hr => ?_⟩
    rcases List.mem_append.mp hr with hw | hf
    · exact List.mem_append_left _ hw
    · exact List.mem_append_right _ (List.mem_of_mem_erase hf)

theorem arbWithin_arbForward (weight : Nat → Nat) (a : ArbState) (k : Nat) : ArbWithin a (arbForward weight k a) := by
  simp only [arbForward]
  split
  · exact .refl a
  · next q turn hpick =>
    refine ⟨rfl, fun r hr => ?_⟩
    rcases List.mem_append.mp hr with hw | hf
    · exact List.mem_append_left _ (List.mem_of_mem_erase hw)
    · rcases List.mem_append.mp hf with hf | hq
      · exact List.mem_append_right _ hf
      · rw [List.mem_singleton.mp hq]
        exact List.mem_append_left _ (List.mem_of_mem_filter (mem_of_arbPick hpick))

/-- The requests of `c` whose age has reached the saturation age. -/
def arbRipeNow (c : Chip) (r : ArbReq) : Bool := arbRipe (getF Reg.DLR_ARB_SAT 0 c) c.dlr.arb.time r

/-- R127: an unsaturated request whose age has reached SAT. -/
def ArbRipe (c : Chip) (r : ArbReq) : Prop := r.saturated = false ∧
  getF Reg.DLR_ARB_SAT 0 c ≤ (c.dlr.arb.now / 4 + 65536 - r.ticket % 65536) % 65536

theorem arbRipeNow_iff (c : Chip) (r : ArbReq) : arbRipeNow c r = true ↔ ArbRipe c r := by
  rw [arbRipeNow, arbRipe, Bool.and_eq_true, Bool.not_eq_true', decide_eq_true_eq]
  rfl

/-- R127: a ripe request is marked saturated. -/
def arbAged (c : Chip) (r : ArbReq) : ArbReq := if arbRipeNow c r then { r with saturated := true } else r

/-- R127: the arbiters with their ripe requests marked. -/
def arbMarked (c : Chip) : ArbState :=
  { c.dlr.arb with waiting := c.dlr.arb.waiting.map (arbAged c), forwarded := c.dlr.arb.forwarded.map (arbAged c) }

/-- The requests that become saturated. -/
def arbRipeCount (c : Chip) : Nat := (c.dlr.arb.members.filter (arbRipeNow c)).length

theorem arbMark_eq (c : Chip) : arbMark c = (List.range (arbRipeCount c)).foldl
    (fun c _ => flagF Reg.DLR_STAT_ARB_SAT 0 0 Reg.DLR_STAT_EVT_CNT 0 c) (arbPut (arbMarked c) c) := rfl

theorem arbRipeNow_arbAged (c : Chip) (r : ArbReq) : arbRipeNow c (arbAged c r) = false := by
  cases h : arbRipeNow c r with
  | false => rw [arbAged, h]; exact h
  | true => rw [arbAged, h]; rfl

theorem arbRipeNow_of_mem_arbMarked {c : Chip} {r : ArbReq} (h : r ∈ (arbMarked c).members) : arbRipeNow c r = false := by
  simp only [arbMarked, ArbState.members, ← List.map_append, List.mem_map] at h
  obtain ⟨q, -, rfl⟩ := h
  exact arbRipeNow_arbAged c q

theorem noRegs_arbMark (c : Chip) : noRegs (arbMark c) = noRegs (arbPut (arbMarked c) c) := by
  rw [arbMark_eq]
  exact foldl_keeps noRegs _ (fun c _ => noRegs_flagF ..) _ _

/-- A cycle without new requests marks the ripe ones, and its arbiters choose among what is there. -/
theorem arbCycle_nil (c : Chip) : ∃ a, arbCycle [] c = arbPut { a with now := a.now + 1 } (arbMark c) ∧
    ArbWithin (arbMarked c) a := by
  have harb : (arbMark c).dlr.arb = arbMarked c := part_of_noRegs (·.dlr.arb) (fun _ => rfl) (noRegs_arbMark c)
  refine ⟨_, rfl, ?_⟩
  rw [← harb]
  exact (arbWithin_foldl (arbWithin_arbGrant _) _ _).trans (arbWithin_foldl (arbWithin_arbForward _) _ _)

theorem getF_arbSat_arbMark {c : Chip} (h : ∃ r ∈ c.dlr.arb.members, arbRipeNow c r = true) :
    getF Reg.DLR_STAT_ARB_SAT 0 (arbMark c) = 1 := by
  obtain ⟨r, hmem, hripe⟩ := h
  have hpos : 0 < arbRipeCount c := List.length_pos_of_mem (List.mem_filter.mpr ⟨hmem, hripe⟩)
  obtain ⟨n, hn⟩ := Nat.exists_eq_succ_of_ne_zero hpos.ne'
  rw [arbMark_eq, hn, List.range_succ, List.foldl_append, List.foldl_cons, List.foldl_nil, flagF_of_one_bit rfl (by decide),
    getF_setF_of_key (by decide), getF_setF_same]
  rfl

theorem arbMark_of_none {c : Chip} (h : ∀ r ∈ c.dlr.arb.members, arbRipeNow c r = false) :
    arbMark c = arbPut (arbMarked c) c := by
  have hzero : arbRipeCount c = 0 :=
    List.length_eq_zero_iff.mpr (List.filter_eq_nil_iff.mpr fun r hr => by simp [h r hr])
  rw [arbMark_eq, hzero]
  rfl

theorem arbTraffic_once {c : Chip} (h : c.logicUp = true) (issues : List ArbIssue) :
    arbTraffic [(1, issues)] c = arbCycle issues c := by
  rw [arbTraffic, if_neg (by simp [h])]
  rfl

/-- R127: one cycle without new requests. -/
theorem exec_arbSaturate_nil {s : State} (hs : Settled s.toChip) (hup : s.logicUp = true) :
    ∃ t, exec (.arbSaturate [(1, [])]) s = .next t ∧ t.dlr.arb.now = s.dlr.arb.now + 1 ∧
      ((∃ r ∈ s.dlr.arb.members, ArbRipe s.toChip r) → getF Reg.DLR_STAT_ARB_SAT 0 t.toChip = 1) ∧
      ((∀ r ∈ s.dlr.arb.members, ¬ ArbRipe s.toChip r) → t.regs = s.regs) ∧
      (∀ r ∈ t.dlr.arb.members, ¬ ArbRipe s.toChip r) ∧ t.backup = s.backup ∧ t.bil = s.bil ∧ t.store = s.store := by
  simp only [← arbRipeNow_iff, Bool.not_eq_true]
  obtain ⟨a, hcycle, hin⟩ := arbCycle_nil s.toChip
  have hview : noRegs (arbPut { a with now := a.now + 1 } (arbMark s.toChip)) =
      noRegs (arbPut { a with now := a.now + 1 } s.toChip) := congrArg (arbPut _) (noRegs_arbMark s.toChip)
  have hrow := (arbTraffic_once hup []).trans hcycle
  refine ⟨_, run_row hs hrow ((part_of_noRegs dieView (fun _ => rfl) hview).trans rfl), ?_⟩
  dsimp only
  refine ⟨congrArg (· + 1) hin.now, fun h => ?_, fun h => ?_, fun r hr => ?_, ?_, ?_, ?_⟩
  · exact getF_arbSat_arbMark h
  · rw [arbMark_of_none h]
    rfl
  · exact arbRipeNow_of_mem_arbMarked (hin.members r hr)
  · exact (part_of_noRegs (·.backup) (fun _ => rfl) hview).trans rfl
  · exact (part_of_noRegs (·.bil) (fun _ => rfl) hview).trans rfl
  · exact (part_of_noRegs (·.store) (fun _ => rfl) hview).trans rfl

/-- R129: an RT master with four requests outstanding holds back the next one. -/
theorem arbIssue_of_four {i : ArbIssue} {a : ArbState} (hclass : masterClass i.master.val = 0)
    (hfour : 4 ≤ (a.members.filter fun r => r.master == i.master.val).length) : arbIssue i a = a := if_pos ⟨hclass, hfour⟩

theorem exec_arbSaturate_four {s : State} {i : ArbIssue} (hup : s.logicUp = true) (hclass : masterClass i.master.val = 0)
    (hfour : 4 ≤ (s.dlr.arb.members.filter fun r => r.master == i.master.val).length) :
    exec (.arbSaturate [(1, [i])]) s = exec (.arbSaturate [(1, [])]) s := by
  have hcycle : arbTraffic [(1, [i])] s.toChip = arbTraffic [(1, [])] s.toChip := by
    rw [arbTraffic_once hup, arbTraffic_once hup, arbCycle, List.foldl_cons, arbIssue_of_four hclass hfour]
    rfl
  calc exec (.arbSaturate [(1, [i])]) s
    _ = .next { toChip := settle (arbTraffic [(1, [i])] s.toChip), pending := s.pending } := run_next _ s
    _ = exec (.arbSaturate [(1, [])]) s := by
      rw [hcycle]
      exact (run_next _ s).symm

/-! ### An overrun, R110 -/

theorem getF_elemPut (f : Fld) (i e : Nat) (x : ElemState) (c : Chip) : getF f i (elemPut e x c) = getF f i c :=
  getF_withRegs f i rfl rfl rfl

theorem elemGet_elemPut {e : Nat} (he : e < 64) (x : ElemState) (c : Chip) : elemGet e (elemPut e x c) = x := by
  simp [elemGet, elemPut, he]

theorem elemGet_val (e : Fin 64) (c : Chip) : elemGet e.val c = c.mtr[e] := by simp [elemGet]

/-- An overrun is flagged and counted. -/
def overrunCounted (c : Chip) : Chip :=
  addSat Reg.DLR_ME_OVR_COUNT 0 0xFFFFFFFF 1 (flagF Reg.DLR_STAT_ME_OVR 0 0 Reg.DLR_STAT_EVT_CNT 0 c)

theorem noRegs_overrunCounted (c : Chip) : noRegs (overrunCounted c) = noRegs c := by
  rw [overrunCounted, addSat, noRegs_setF, noRegs_flagF]

/-- R110: the element's work in hand is overrun. -/
def ElemState.overran (x : ElemState) : ElemState := { x with overrun := x.overrun || x.pending.isSome }

theorem slotOverrun_eq (e : Fin 64) (c : Chip) : slotOverrun e c = elemPut e.val (c.mtr[e]).overran (overrunCounted c) := by
  have hmtr : (overrunCounted c).mtr = c.mtr := part_of_noRegs (·.mtr) (fun _ => rfl) (noRegs_overrunCounted c)
  rw [← hmtr, ← elemGet_val]
  rfl

/-- R110: the step of an overrun. -/
theorem exec_meSlotOverrun (s : State) (e : Fin 64) : ∃ t, exec (.meSlotOverrun e) s = .next t ∧
    getF Reg.DLR_STAT_ME_OVR 0 t.toChip = 1 ∧
    getF Reg.DLR_ME_OVR_COUNT 0 t.toChip = min (getF Reg.DLR_ME_OVR_COUNT 0 s.toChip + 1) 0xFFFFFFFF ∧
    t.mtr[e] = (s.mtr[e]).overran ∧ t.store = s.store ∧ t.backup = s.backup := by
  have hview := noRegs_overrunCounted s.toChip
  refine ⟨_, run_next (slotOverrun e) s, ?_⟩
  dsimp only
  refine ⟨?_, ?_, ?_, ?_, ?_⟩
  · rw [getF_settle (by decide), slotOverrun_eq, getF_elemPut, overrunCounted, addSat, getF_setF_of_key (by decide),
      flagF_of_one_bit rfl (by decide), getF_setF_of_key (by decide), getF_setF_same]
    rfl
  · rw [getF_settle (by decide), slotOverrun_eq, getF_elemPut, overrunCounted, getF_addSat_same _ _ _ (by decide),
      flagF_of_one_bit rfl (by decide), getF_setF_of_key (by decide), getF_setF_of_key (by decide)]
  · rw [← elemGet_val, elemGet, settle_mtr, slotOverrun_eq]
    exact elemGet_elemPut e.isLt ..
  · rw [settle_store, slotOverrun_eq]
    exact (part_of_noRegs (·.store) (fun _ => rfl) hview :)
  · rw [settle_backup, slotOverrun_eq]
    exact (part_of_noRegs (·.backup) (fun _ => rfl) hview :)

/-! ### Commits, R121-R124 -/

/-- The commit group's bit of PENDING lies below the load switches. -/
theorem shownKey_pending {g : Nat} (h : g < 112) : shownKey (fkey Reg.DLR_PEND_PENDING (g / 32)) = false := by
  refine shownKey_of_lt ?_
  simp only [fkey, Reg.DLR_PEND_PENDING]
  omega

theorem pendingGroup_settle {g : Nat} (h : g < 112) (c : Chip) : pendingGroup g (settle c) = pendingGroup g c := by
  rw [pendingGroup, getF_settle (shownKey_pending h), pendingGroup]

/-- R122: group `g`'s shadow content is its staging copy. -/
def commitStaged (g : Nat) (c : Chip) : Chip :=
  { c with dlr := { c.dlr with
      staged := (g, (c.dlr.shadow.filter fun e => e.1 == g).map fun e => (e.2.1, e.2.2)) ::
        c.dlr.staged.filter fun e => e.1 != g } }

theorem dlrCommit_eq (who : Writer) (g : Nat) (go : Bool) : dlrCommit who g go = asWriter who (dlrCommitWrite g go) := by
  funext c
  unfold dlrCommit asWriter
  cases writerStatus who c <;> rfl

theorem dlrCommitWrite_of_ok {g : Nat} {c : Chip} (hg : g < 112) (hconf : groupConfigured g c = true)
    (hfree : pendingGroup g c = false) :
    dlrCommitWrite g true c = (setBitF Reg.DLR_PEND_PENDING (g / 32) (g % 32) true (commitStaged g c), .ok) := by
  rw [dlrCommitWrite, if_pos rfl, commitGroup, if_neg (by simp [hconf, hg]), if_neg (by simp [hfree])]
  rfl

theorem dlrCommitWrite_of_pending {g : Nat} {c : Chip} (hg : g < 112) (hconf : groupConfigured g c = true)
    (hpend : pendingGroup g c = true) : dlrCommitWrite g true c = (c, .busy) := by
  rw [dlrCommitWrite, if_pos rfl, commitGroup, if_neg (by simp [hconf, hg]), if_pos hpend]

theorem dlrCommitWrite_of_unconfigured {g : Nat} {c : Chip} (h : 112 ≤ g ∨ groupConfigured g c = false) :
    dlrCommitWrite g true c = (c, .range) := by rw [dlrCommitWrite, if_pos rfl, commitGroup, if_pos h]

/-- R122: the step of a commit that is accepted. -/
theorem exec_dlrCommit_ok {s : State} {who : Writer} {g : Nat} (hw : writerStatus who s.toChip = .ok) (hg : g < 112)
    (hconf : groupConfigured g s.toChip = true) (hfree : pendingGroup g s.toChip = false) :
    ∃ t, exec (.dlrCommit who g true) s = .next t ∧ t.reply = .ok ∧ pendingGroup g t.toChip = true ∧
      t.dlr = (commitStaged g s.toChip).dlr ∧ t.backup = s.backup := by
  obtain ⟨t, hrun, hreply, hrow⟩ := run_asWriter_accepted hw (dlrCommitWrite_of_ok hg hconf hfree)
  have hview : noRegs (setBitF Reg.DLR_PEND_PENDING (g / 32) (g % 32) true (commitStaged g s.toChip)) =
      noRegs (commitStaged g s.toChip) := by rw [setBitF, noRegs_setF]
  refine ⟨t, (congrArg s.run (dlrCommit_eq who g true)).trans hrun, hreply, ?_, ?_, ?_⟩
  · rw [hrow, pendingGroup_settle hg, pendingGroup, getF_answered]
    exact testBit_setBitF (Nat.mod_lt _ (by decide)) _
  · rw [hrow, settle_dlr]
    exact (part_of_noRegs (·.dlr) (fun _ => rfl) hview :)
  · rw [hrow, settle_backup]
    exact (part_of_noRegs (·.backup) (fun _ => rfl) hview).trans rfl

theorem exec_dlrCommit_refused {s : State} {who : Writer} {g : Nat} {e : Status} (hw : writerStatus who s.toChip = .ok)
    (hs : Settled s.toChip) (h : dlrCommitWrite g true s.toChip = (s.toChip, e)) :
    exec (.dlrCommit who g true) s = .next { s with reply := e } :=
  (congrArg s.run (dlrCommit_eq who g true)).trans (run_asWriter_refused hw hs h)

/-! ### A commit at its boundary, R122, R190 -/

theorem testBit_setBitF_false {f : Fld} {i k : Nat} (hk : k < f.width) (c : Chip) :
    (getF f i (setBitF f i k false c)).testBit k = false := by
  rw [setBitF, getF_setF_same, Nat.testBit_mod_two_pow, decide_eq_true hk, Bool.true_and]
  cases h : (getF f i c).testBit k
  · simp [h]
  · simp [h, Nat.testBit_xor, Nat.testBit_two_pow_self]

/-- The staging copy of group `g` is done with, PENDING clears, and DLR_CMT_LAST records the group (R122). -/
def commitRecorded (g : Nat) (c : Chip) : Chip :=
  let c := { c with dlr := { c.dlr with staged := c.dlr.staged.filter fun e => e.1 != g } }
  let c := setBitF Reg.DLR_PEND_PENDING (g / 32) (g % 32) false c
  setF Reg.DLR_CMT_LAST_GROUP 0 g
    (setF Reg.DLR_CMT_LAST_APPLIED_CNT 0 ((getF Reg.DLR_CMT_LAST_APPLIED_CNT 0 c + 1) % 65536) c)

/-- The device without what a commit of a pulse number writes outside its registers. -/
def commitDone (g : Nat) (c : Chip) : Chip :=
  { c with dlr := { c.dlr with staged := c.dlr.staged.filter fun e => e.1 != g } }

theorem noRegs_commitRecorded (g : Nat) (c : Chip) : noRegs (commitRecorded g c) = noRegs (commitDone g c) := by
  simp only [commitRecorded, setBitF, noRegs_setF]
  rfl

theorem getF_commitDone (f : Fld) (i g : Nat) (c : Chip) : getF f i (commitDone g c) = getF f i c :=
  getF_withRegs f i rfl rfl rfl

theorem pendingGroup_commitRecorded (g : Nat) (c : Chip) : pendingGroup g (commitRecorded g c) = false := by
  have hkey : ∀ f : Fld, f.base = 0x20024 → f.stride = 0 → f.lsb < 32 → fkey Reg.DLR_PEND_PENDING (g / 32) ≠ fkey f 0 := by
    intro f hb hst hl
    simp only [fkey, Reg.DLR_PEND_PENDING, hb, hst]
    omega
  rw [pendingGroup, commitRecorded, getF_setF_of_key (hkey _ rfl rfl (by decide)), getF_setF_of_key (hkey _ rfl rfl (by decide))]
  exact testBit_setBitF_false (Nat.mod_lt _ (by decide)) _

theorem getF_group_commitRecorded {g : Nat} (h : g < 112) (c : Chip) :
    getF Reg.DLR_CMT_LAST_GROUP 0 (commitRecorded g c) = g := by
  rw [commitRecorded, getF_setF_same]
  exact Nat.mod_eq_of_lt (lt_trans h (by decide))

theorem getF_applied_commitRecorded (g : Nat) (c : Chip) :
    getF Reg.DLR_CMT_LAST_APPLIED_CNT 0 (commitRecorded g c) = (getF Reg.DLR_CMT_LAST_APPLIED_CNT 0 c + 1) % 65536 := by
  have hkey : fkey Reg.DLR_CMT_LAST_APPLIED_CNT 0 ≠ fkey Reg.DLR_PEND_PENDING (g / 32) := by
    simp only [fkey, Reg.DLR_PEND_PENDING, Reg.DLR_CMT_LAST_APPLIED_CNT]
    omega
  rw [commitRecorded, getF_setF_of_key (by decide), getF_setF_same, setBitF, getF_setF_of_key hkey]
  exact (Nat.mod_eq_of_lt (Nat.mod_lt _ (by decide))).trans rfl

theorem getF_cptN_commitRecorded (g e : Nat) (c : Chip) :
    getF Reg.MTR_CPT_CFG_N e (commitRecorded g c) = getF Reg.MTR_CPT_CFG_N e c := by
  rw [commitRecorded, getF_setF_of_lsb (by decide), getF_setF_of_lsb (by decide), setBitF, getF_setF_of_lsb (by decide)]
  exact getF_commitDone ..

theorem getF_cptN_putReg {g n : Nat} (c : Chip) :
    getF Reg.MTR_CPT_CFG_N g (putReg (fkey Reg.MTR_CPT_CFG_N g) n 0 c) = n := by
  show mapGet (mapPut c.regs _ (n ^^^ 0)) _ ^^^ 0 = n
  rw [mapGet_put_same, Nat.xor_zero, Nat.xor_zero]

theorem getF_applied_putReg (g n : Nat) (c : Chip) :
    getF Reg.DLR_CMT_LAST_APPLIED_CNT 0 (putReg (fkey Reg.MTR_CPT_CFG_N g) n 0 c) = getF Reg.DLR_CMT_LAST_APPLIED_CNT 0 c := by
  have hkey : fkey Reg.DLR_CMT_LAST_APPLIED_CNT 0 ≠ fkey Reg.MTR_CPT_CFG_N g := by
    simp only [fkey, Reg.DLR_CMT_LAST_APPLIED_CNT, Reg.MTR_CPT_CFG_N]
    omega
  exact congrArg (· ^^^ 0) (mapGet_put_ne c.regs _ _ _ hkey)

/-- A staging copy that holds a pulse number alone. -/
def StagedPulses (g n : Nat) (c : Chip) : Prop :=
  c.dlr.staged.find? (fun e => e.1 == g) = some (g, [(fkey Reg.MTR_CPT_CFG_N g, n)])

theorem commitTake_of_pulses {g n : Nat} {c : Chip} (h : StagedPulses g n c) :
    commitTake g c = commitRecorded g (putReg (fkey Reg.MTR_CPT_CFG_N g) n 0 c) := by
  rw [commitTake, h]
  rfl

theorem cptNew_of_pulses {g n : Nat} {c : Chip} (h : StagedPulses g n c) :
    cptNew g c = (n != getF Reg.MTR_CPT_CFG_N g c) := by
  rw [cptNew, h]
  simp

/-- R190: a new pulse number starts the count of cycles anew. -/
def pulsesRestarted (new : Bool) (g : Nat) (c : Chip) : Chip :=
  if new then elemPut g { elemGet g c with cptCount := 0 } c else c

/-- R154: SLEW of every stream of group `g`. -/
def slewsShown (g : Nat) (c : Chip) : Chip :=
  (List.range 96).foldl (fun c s => if streamOn s c ∧ getF Reg.SNS_CFG_HOME_GROUP s c = g then slewShow s c else c) c

theorem elemCommit_of_pulses {g n : Nat} {c : Chip} (h : StagedPulses g n c) : elemCommit g c =
    slewsShown g (pulsesRestarted (n != getF Reg.MTR_CPT_CFG_N g c) g
      (commitRecorded g (putReg (fkey Reg.MTR_CPT_CFG_N g) n 0 c))) := by
  rw [elemCommit, cptNew_of_pulses h, commitTake_of_pulses h]
  rfl

theorem noRegs_slewsShown (g : Nat) (c : Chip) : noRegs (slewsShown g c) = noRegs c :=
  foldl_keeps noRegs _ (fun c s => by split <;> simp only [slewShow, noRegs_setF]) _ c

theorem getF_slewsShown {f : Fld} (h : f.lsb % 32 ≠ Reg.SNS_SSTAT_SLEW.lsb % 32) (i g : Nat) (c : Chip) :
    getF f i (slewsShown g c) = getF f i c :=
  foldl_keeps (getF f i) _ (fun c s => by split <;> simp only [slewShow, getF_setF_of_lsb h]) _ c

theorem getF_pulsesRestarted (f : Fld) (i : Nat) (new : Bool) (g : Nat) (c : Chip) :
    getF f i (pulsesRestarted new g c) = getF f i c := by
  cases new
  · rfl
  · exact getF_elemPut ..

theorem elemGet_pulsesRestarted {g : Nat} (h : g < 64) (new : Bool) (c : Chip) :
    (elemGet g (pulsesRestarted new g c)).cptCount = if new then 0 else (elemGet g c).cptCount := by
  cases new
  · rfl
  · exact congrArg ElemState.cptCount (elemGet_elemPut h _ c)

/-- The device without registers and metrology elements. -/
def sansElems (c : Chip) : Chip := { noRegs c with mtr := Vector.replicate 64 {} }

theorem sansElems_of_noRegs {c d : Chip} (h : noRegs d = noRegs c) : sansElems d = sansElems c := by
  rw [sansElems, h, sansElems]

theorem sansElems_pulsesRestarted (new : Bool) (g : Nat) (c : Chip) : sansElems (pulsesRestarted new g c) = sansElems c := by
  cases new <;> rfl

theorem sansElems_elemCommit {g n : Nat} {c : Chip} (h : StagedPulses g n c) :
    sansElems (elemCommit g c) = sansElems (commitDone g c) := by
  rw [elemCommit_of_pulses h, sansElems_of_noRegs (noRegs_slewsShown ..), sansElems_pulsesRestarted,
    sansElems_of_noRegs (noRegs_commitRecorded ..)]
  rfl

/-- A field that SLEW does not share a place with reads after an element's commit as it is recorded. -/
theorem getF_elemCommit {f : Fld} {g n : Nat} {c : Chip} (h : StagedPulses g n c) (hslew : f.lsb % 32 ≠ Reg.SNS_SSTAT_SLEW.lsb % 32)
    (i : Nat) : getF f i (elemCommit g c) = getF f i (commitRecorded g (putReg (fkey Reg.MTR_CPT_CFG_N g) n 0 c)) := by
  rw [elemCommit_of_pulses h, getF_slewsShown hslew, getF_pulsesRestarted]

theorem cptCount_elemCommit {g n : Nat} {c : Chip} (hg : g < 64) (h : StagedPulses g n c) :
    (elemGet g (elemCommit g c)).cptCount = if n != getF Reg.MTR_CPT_CFG_N g c then 0 else (elemGet g c).cptCount := by
  have hrec : elemGet g (commitRecorded g (putReg (fkey Reg.MTR_CPT_CFG_N g) n 0 c)) = elemGet g c :=
    (part_of_noRegs (elemGet g) (fun _ => rfl) (noRegs_commitRecorded ..)).trans rfl
  rw [elemCommit_of_pulses h, part_of_noRegs (elemGet g) (fun _ => rfl) (noRegs_slewsShown ..), elemGet_pulsesRestarted hg, hrec]

/-- R122, R190: the step in which an element's new pulse number takes effect. -/
theorem exec_commitApplied_pulses {s : State} {g n : Nat} (hg : g < 64) (hpend : pendingGroup g s.toChip = true)
    (hstaged : StagedPulses g n s.toChip) :
    ∃ t, exec (.commitApplied g) s = .next t ∧ getF Reg.MTR_CPT_CFG_N g t.toChip = n ∧
      (n ≠ getF Reg.MTR_CPT_CFG_N g s.toChip → (elemGet g t.toChip).cptCount = 0) ∧
      (n = getF Reg.MTR_CPT_CFG_N g s.toChip → (elemGet g t.toChip).cptCount = (elemGet g s.toChip).cptCount) ∧
      pendingGroup g t.toChip = false ∧
      t.dlr.staged = s.dlr.staged.filter (fun e => e.1 != g) ∧ getF Reg.DLR_CMT_LAST_GROUP 0 t.toChip = g ∧
      getF Reg.DLR_CMT_LAST_APPLIED_CNT 0 t.toChip = (getF Reg.DLR_CMT_LAST_APPLIED_CNT 0 s.toChip + 1) % 65536 ∧
      t.backup = s.backup ∧ t.store = s.store := by
  have hlow : g < 112 := lt_trans hg (by decide)
  have hrow : commitApplied g s.toChip = elemCommit g s.toChip := by
    rw [commitApplied, if_neg (by simp [hpend]), if_pos hg]
  have hview := sansElems_elemCommit hstaged
  have hkept : ∀ {β : Type} (p : Chip → β), (∀ c, p (sansElems c) = p c) →
      p (elemCommit g s.toChip) = p (commitDone g s.toChip) := fun p hp => by rw [← hp, hview, hp]
  have hcount : (elemGet g (settle (commitApplied g s.toChip))).cptCount =
      if n != getF Reg.MTR_CPT_CFG_N g s.toChip then 0 else (elemGet g s.toChip).cptCount := by
    rw [elemGet, settle_mtr, hrow]
    exact cptCount_elemCommit hg hstaged
  refine ⟨_, run_next (commitApplied g) s, ?_⟩
  dsimp only
  refine ⟨?_, fun hne => ?_, fun heq => ?_, ?_, ?_, ?_, ?_, ?_, ?_⟩
  · have hkey : shownKey (fkey Reg.MTR_CPT_CFG_N g) = false := by
      refine shownKey_of_lt ?_
      simp only [fkey, Reg.MTR_CPT_CFG_N]
      omega
    rw [getF_settle hkey, hrow, getF_elemCommit hstaged (by decide), getF_cptN_commitRecorded, getF_cptN_putReg]
  · rw [hcount, if_pos (by simpa using hne)]
  · rw [hcount, if_neg (by simp [← heq])]
  · rw [pendingGroup_settle hlow, hrow, pendingGroup, getF_elemCommit hstaged (by decide)]
    exact pendingGroup_commitRecorded g _
  · rw [settle_dlr, hrow]
    exact hkept (·.dlr.staged) fun _ => rfl
  · rw [getF_settle (by decide), hrow, getF_elemCommit hstaged (by decide), getF_group_commitRecorded hlow]
  · rw [getF_settle (by decide), hrow, getF_elemCommit hstaged (by decide), getF_applied_commitRecorded,
      getF_applied_putReg]
  · rw [settle_backup, hrow]
    exact hkept (·.backup) fun _ => rfl
  · rw [settle_store, hrow]
    exact hkept (·.store) fun _ => rfl

/-! ### The obligation -/

/-- Settles O17. -/
theorem commitsTakeEffectWhole : Obligations.CommitsTakeEffectWhole := by
  refine ⟨fun s hs hup => ⟨?_, fun i => exec_arbSaturate_four hup⟩, exec_meSlotOverrun, fun s who g hw => ⟨?_, ?_, ?_⟩,
    fun s g n hg hpend hstaged _ => exec_commitApplied_pulses hg hpend hstaged⟩
  · exact exec_arbSaturate_nil hs hup
  · intro hg hconf hfree
    obtain ⟨t, hexec, hreply, hpend, hdlr, hbackup⟩ := exec_dlrCommit_ok hw hg hconf hfree
    exact ⟨t, hexec, hreply, hpend, by rw [hdlr]; rfl, by rw [hdlr]; rfl, hbackup⟩
  · exact fun hs hg hconf hpend => exec_dlrCommit_refused hw hs (dlrCommitWrite_of_pending hg hconf hpend)
  · exact fun hs h => exec_dlrCommit_refused hw hs (dlrCommitWrite_of_unconfigured h)

end Sys2Proof.Machine
end


section
/-!
Vehicle-link frames and messages (chapter 11, R113, R299, R300, R302): the class-1 work of a frame, and what firmware takes from SLAC and
high-level communication.
-/

namespace Sys2Proof.Machine
open Sys2Proof Sys2Proof.Safety

/-! ### Frames, R113, R299 -/

theorem linkHand_linkPut {h : Nat} (hh : h < 32) (x : LinkHand) (c : Chip) : linkHand h (linkPut h x c) = x := by
  simp [linkHand, linkPut, hh]

theorem noRegs_linkShow (h : Nat) (c : Chip) : noRegs (linkShow h c) = noRegs c := by
  unfold linkShow
  dsimp only
  split <;> simp only [noRegs_setF]

/-- A field outside the hand's STATE, CLASS and WAIT reads after the hand's show what it read before. -/
theorem getF_linkShow {f : Fld} {i : Nat} (h : Nat) (hkey : ∀ j < 160, ∀ g ∈ [Reg.DLR_HAND_STATE, Reg.DLR_HAND_CLASS, Reg.DLR_HAND_WAIT],
    fkey f i ≠ fkey g j) (hh : h < 32) (c : Chip) : getF f i (linkShow h c) = getF f i c := by
  have hk := hkey (64 + h) (by omega)
  unfold linkShow
  dsimp only
  split <;> rw [getF_setF_of_key (hk _ (by simp)), getF_setF_of_key (hk _ (by simp)), getF_setF_of_key (hk _ (by simp))]

/-- A field of the vehicle links is none of a hand's. -/
theorem fkey_ne_hand {f : Fld} {i : Nat} (hlink : 0x140000 ≤ f.base) :
    ∀ j < 160, ∀ g ∈ [Reg.DLR_HAND_STATE, Reg.DLR_HAND_CLASS, Reg.DLR_HAND_WAIT], fkey f i ≠ fkey g j := by
  intro j hj g hg
  have hbase : g.base = 0x20100 ∧ g.stride = 4 ∧ g.lsb < 32 := by
    simp only [List.mem_cons, List.not_mem_nil, or_false] at hg
    rcases hg with rfl | rfl | rfl <;> decide
  simp only [fkey, hbase.1, hbase.2.1]
  have hprod : f.base * 32 ≤ (f.base + f.stride * i) * 32 := Nat.mul_le_mul_right _ (Nat.le_add_right _ _)
  omega

/-- Class-1 work of link hand `n` whose frame ends at LCLK cycle `lclk`. -/
def frameWork (lclk : Nat) (payload : List Nat) (c : Chip) : LinkWork :=
  { cls := 1, event := 6400 * c.dlr.edges + lclk, payload := payload }

/-- The hand has the work. -/
def workQueued (n : Nat) (w : LinkWork) (c : Chip) : Chip :=
  linkPut n { linkHand n c with work := (linkHand n c).work ++ [w] } c

theorem linkWork_of_candidate {n : Nat} {lclk : Nat} {payload : List Nat} {c : Chip} (h : n ∈ linkCandidates c) :
    linkWork n 1 lclk payload c = linkShow n (workQueued n (frameWork lclk payload c) c) := by
  rw [linkWork, if_neg (by simp [h])]
  rfl

/-- R298: the links run, in the words of the power states. -/
theorem linkCandidates_of_linksRun {c : Chip} (h : linksRun c = true) (hstate : getF Reg.PWR_STATE_STATE 0 c ≠ 3) :
    linkCandidates c = List.range 32 := by
  simp only [linksRun, Bool.and_eq_true, beq_iff_eq, Bool.not_eq_true'] at h
  obtain ⟨⟨⟨⟨hphase, -⟩, hpll⟩, hpause⟩, -⟩ := h
  exact linkCandidates_of_runs hphase hpll hpause hstate

/-- A link that takes frames. -/
structure FrameSeen (n : Nat) (c : Chip) : Prop where
  runs : linksRun c = true
  configured : getF Reg.BAY_CFG_TYPE n c ≠ 0
  path : pathFailed n c = false
  lt : n < 16

section
variable {n : Nat} {c : Chip} (h : FrameSeen n c)
include h

theorem FrameSeen.notDeaf : ¬((!linksRun c) = true ∨ getF Reg.BAY_CFG_TYPE n c = 0 ∨ pathFailed n c = true) := by
  simp [h.runs, h.configured, h.path]

theorem FrameSeen.linkWork_eq (hstate : getF Reg.PWR_STATE_STATE 0 c ≠ 3) (lclk : Nat) (payload : List Nat) :
    linkWork n 1 lclk payload c = linkShow n (workQueued n (frameWork lclk payload c) c) := by
  refine linkWork_of_candidate ?_
  rw [linkCandidates_of_linksRun h.runs hstate]
  exact List.mem_range.mpr (lt_trans h.lt (by decide))

theorem vehicleFrame_of_standby (hstate : getF Reg.PWR_STATE_STATE 0 c = 3) (crcOk tone : Bool) (src lclk : Nat)
    (payload : List Nat) : vehicleFrame n crcOk tone src lclk payload c = standbyWakeFrom 0 c := by
  rw [vehicleFrame, if_neg h.notDeaf, if_pos hstate]

theorem vehicleFrame_of_tone (hstate : getF Reg.PWR_STATE_STATE 0 c ≠ 3) (crcOk : Bool) (src lclk : Nat)
    (payload : List Nat) : vehicleFrame n crcOk true src lclk payload c = c := by
  rw [vehicleFrame, if_neg h.notDeaf, if_neg hstate, if_pos rfl]

theorem vehicleFrame_of_bad (hstate : getF Reg.PWR_STATE_STATE 0 c ≠ 3) (src lclk : Nat) (payload : List Nat) :
    vehicleFrame n false false src lclk payload c =
      addSat Reg.LNK_VCNT_ERR n 65535 1 (linkShow n (workQueued n (frameWork lclk payload c) c)) := by
  rw [vehicleFrame, if_neg h.notDeaf, if_neg hstate, if_neg (by decide)]
  dsimp only
  rw [if_pos (by decide), h.linkWork_eq hstate]

end

/-- A field of the vehicle links reads after a frame's work is queued what it read before. -/
theorem getF_workShown {f : Fld} (hlink : 0x140000 ≤ f.base) {n : Nat} (hn : n < 16) (i : Nat) (w : LinkWork) (c : Chip) :
    getF f i (linkShow n (workQueued n w c)) = getF f i c := by
  rw [getF_linkShow n (fkey_ne_hand hlink) (by omega), workQueued, getF_linkPut]

theorem noRegs_workShown (n : Nat) (w : LinkWork) (c : Chip) :
    noRegs (linkShow n (workQueued n w c)) = noRegs (workQueued n w c) := noRegs_linkShow ..

theorem matchedPeer_workShown {n : Nat} (hn : n < 16) (mac : Nat) (w : LinkWork) (c : Chip) :
    matchedPeer n mac (linkShow n (workQueued n w c)) = matchedPeer n mac c := by
  simp only [matchedPeer, vState, getF_workShown (f := Reg.LNK_VSTAT_STATE) (by decide) hn,
    getF_workShown (f := Reg.LNK_VPEER_LO_MAC_LO) (by decide) hn, getF_workShown (f := Reg.LNK_VPEER_HI_MAC_HI) (by decide) hn]

/-- The last valid frame of the matched station came now. -/
def frameStamped (n : Nat) (c : Chip) : Chip := vlinkPut n { vlink n c with frameAt := c.backup.ms } c

theorem vehicleFrame_of_matched {n : Nat} {c : Chip} (h : FrameSeen n c) (hstate : getF Reg.PWR_STATE_STATE 0 c ≠ 3) {src : Nat}
    (hpeer : matchedPeer n src c = true) (lclk : Nat) (payload : List Nat) : vehicleFrame n true false src lclk payload c =
      addSat Reg.LNK_VCNT_RX n 65535 1 (frameStamped n (linkShow n (workQueued n (frameWork lclk payload c) c))) := by
  rw [vehicleFrame, if_neg h.notDeaf, if_neg hstate, if_neg (by decide)]
  dsimp only
  rw [if_neg (by decide), h.linkWork_eq hstate, if_pos (by rw [matchedPeer_workShown h.lt, hpeer])]
  rfl

theorem vlink_vlinkPut {n : Nat} (hn : n < 16) (x : VLinkState) (c : Chip) : vlink n (vlinkPut n x c) = x := by
  simp [vlink, vlinkPut, hn]

theorem vlink_settle (n : Nat) (c : Chip) : vlink n (settle c) = vlink n c := by rw [vlink, settle_lnk, vlink]

theorem linkHand_settle (n : Nat) (c : Chip) : linkHand n (settle c) = linkHand n c := by rw [linkHand, settle_dlr, linkHand]

theorem bayGet_settle (n : Nat) (c : Chip) : bayGet n (settle c) = bayGet n c := bayGet_congr (settle_bay c) n

/-- A vehicle link's registers lie below the load switches. -/
theorem getF_settle_vlink {f : Fld} {n : Nat} (hn : n < 16) (hbase : f.base ≤ 0x150000) (hs : f.stride = 32) (hl : f.lsb < 32)
    (c : Chip) : getF f n (settle c) = getF f n c := by
  refine getF_settle (shownKey_of_lt ?_) c
  simp only [fkey, hs]
  omega

theorem vState_settle {n : Nat} (hn : n < 16) (c : Chip) : vState n (settle c) = vState n c :=
  getF_settle_vlink hn (by decide) rfl (by decide) c

/-- R113, R299: the step of a frame whose check fails. -/
theorem exec_vehicleFrame_bad {s : State} {n : Fin 16} (h : FrameSeen n.val s.toChip) (hstate : getF Reg.PWR_STATE_STATE 0 s.toChip ≠ 3)
    (src : BitVec 48) (lclk : Fin 6400) (payload : List Nat) :
    ∃ t, exec (.vehicleFrame n false ⟨false, src, lclk, payload⟩) s = .next t ∧
      getF Reg.LNK_VCNT_ERR n.val t.toChip = min (getF Reg.LNK_VCNT_ERR n.val s.toChip + 1) 65535 ∧
      (linkHand n.val t.toChip).work = (linkHand n.val s.toChip).work ++ [frameWork lclk payload s.toChip] ∧ t.lnk = s.lnk ∧
      t.backup = s.backup := by
  have hrow := vehicleFrame_of_bad h hstate src.toNat lclk.val payload
  have hview : noRegs (vehicleFrame n.val false false src.toNat lclk.val payload s.toChip) =
      noRegs (workQueued n.val (frameWork lclk payload s.toChip) s.toChip) := by
    rw [hrow, addSat, noRegs_setF, noRegs_workShown]
  refine ⟨_, run_next _ s, ?_⟩
  dsimp only
  refine ⟨?_, ?_, ?_, ?_⟩
  · rw [getF_settle_vlink n.isLt (by decide) rfl (by decide), hrow, getF_addSat_same _ _ _ (by decide),
      getF_workShown (by decide) n.isLt]
  · rw [linkHand_settle, part_of_noRegs (linkHand n.val) (fun _ => rfl) hview, workQueued, linkHand_linkPut (by omega)]
  · rw [settle_lnk]
    exact (part_of_noRegs (·.lnk) (fun _ => rfl) hview).trans rfl
  · rw [settle_backup]
    exact (part_of_noRegs (·.backup) (fun _ => rfl) hview).trans rfl

/-- R113, R299: the step of a valid frame of the matched station. -/
theorem exec_vehicleFrame_matched {s : State} {n : Fin 16} (h : FrameSeen n.val s.toChip)
    (hstate : getF Reg.PWR_STATE_STATE 0 s.toChip ≠ 3) {src : BitVec 48} (hpeer : matchedPeer n.val src.toNat s.toChip = true)
    (lclk : Fin 6400) (payload : List Nat) :
    ∃ t, exec (.vehicleFrame n true ⟨false, src, lclk, payload⟩) s = .next t ∧
      getF Reg.LNK_VCNT_RX n.val t.toChip = min (getF Reg.LNK_VCNT_RX n.val s.toChip + 1) 65535 ∧
      (vlink n.val t.toChip).frameAt = s.backup.ms ∧
      (linkHand n.val t.toChip).work = (linkHand n.val s.toChip).work ++ [frameWork lclk payload s.toChip] ∧
      t.backup = s.backup := by
  have hrow := vehicleFrame_of_matched h hstate hpeer lclk.val payload
  have hwork := noRegs_workShown n.val (frameWork lclk payload s.toChip) s.toChip
  have hview : noRegs (vehicleFrame n.val true false src.toNat lclk.val payload s.toChip) =
      noRegs (frameStamped n.val (linkShow n.val (workQueued n.val (frameWork lclk payload s.toChip) s.toChip))) := by
    rw [hrow, addSat, noRegs_setF]
  have hms := (part_of_noRegs (·.backup) (fun _ => rfl) hwork).trans (rfl : _ = s.backup)
  refine ⟨_, run_next _ s, ?_⟩
  dsimp only
  refine ⟨?_, ?_, ?_, ?_⟩
  · rw [getF_settle_vlink n.isLt (by decide) rfl (by decide), hrow, getF_addSat_same _ _ _ (by decide), frameStamped,
      getF_vlinkPut, getF_workShown (by decide) n.isLt]
  · rw [vlink_settle, part_of_noRegs (vlink n.val) (fun _ => rfl) hview, frameStamped, vlink_vlinkPut n.isLt]
    exact congrArg BackupState.ms hms
  · rw [linkHand_settle, part_of_noRegs (linkHand n.val) (fun _ => rfl) hview]
    exact congrArg LinkHand.work ((part_of_noRegs (linkHand n.val) (fun _ => rfl) hwork).trans (linkHand_linkPut (by omega) ..))
  · rw [settle_backup]
    exact (part_of_noRegs (·.backup) (fun _ => rfl) hview).trans hms

theorem exec_vehicleFrame_tone {s : State} {n : Fin 16} (h : FrameSeen n.val s.toChip)
    (hstate : getF Reg.PWR_STATE_STATE 0 s.toChip ≠ 3) (hs : Settled s.toChip) (crcOk : Bool) (src : BitVec 48) (lclk : Fin 6400)
    (payload : List Nat) : exec (.vehicleFrame n crcOk ⟨true, src, lclk, payload⟩) s = .next s :=
  run_row hs (vehicleFrame_of_tone h hstate ..) rfl

/-- R66, R299: the step of a frame's preamble in STANDBY. -/
theorem exec_vehicleFrame_standby {s : State} {n : Fin 16} (h : FrameSeen n.val s.toChip)
    (hstate : getF Reg.PWR_STATE_STATE 0 s.toChip = 3) (hwake : (regWord 0x10008 s.toChip).testBit 0 = true) (crcOk : Bool)
    (f : VehicleMpdu) : ∃ t, exec (.vehicleFrame n crcOk f) s = .next t ∧
      getF Reg.PWR_STATE_STATE 0 t.toChip = 1 ∧ getF Reg.PWR_STATE_WAKE_SRC 0 t.toChip = 0 ∧ t.lnk = s.lnk := by
  have hrun : s.pwr.phase = .run := by
    have := h.runs
    simp only [linksRun, Bool.and_eq_true, beq_iff_eq] at this
    obtain ⟨⟨⟨⟨hphase, -⟩, -⟩, -⟩, -⟩ := this
    exact hphase
  have hrow := (vehicleFrame_of_standby h hstate crcOk f.tone f.src.toNat f.lclk.val f.payload).trans
    (standbyWakeFrom_of_enabled (by simp [inStandby, hrun, hstate]) hwake)
  refine ⟨_, run_next _ s, ?_⟩
  dsimp only
  rw [getF_settle (by decide), getF_settle (by decide), settle_lnk, hrow]
  dsimp only
  rw [if_neg (by decide), enterRun, getF_setF_same, getF_setF_of_key (by decide), getF_withPwr, getF_setF_same]
  exact ⟨rfl, rfl, by simp [sessResume]⟩

/-! ### Messages, R300, R302 -/

/-- The device without its registers and what its vehicle links hold. -/
def sansLinks (c : Chip) : Chip := { noRegs c with lnk := { c.lnk with vehicle := Vector.replicate 16 {} } }

/-- A part that the view holds is alike where the views are. -/
theorem part_of_sansLinks {β : Type} (g : Chip → β) (hg : ∀ c, g (sansLinks c) = g c) {c d : Chip}
    (h : sansLinks d = sansLinks c) : g d = g c := by rw [← hg d, h, hg]

/-- The frame that firmware takes leaves its link's queue, and nothing else changes. -/
theorem frameTaken_cases (n : Nat) (c : Chip) : ((vlink n c).rxq = [] ∧ frameTaken n c = c) ∨
    frameTaken n c = vlinkPut n { vlink n c with rxq := (vlink n c).rxq.tail } c := by
  unfold frameTaken
  split
  · next h => exact .inl ⟨h, rfl⟩
  · next h => exact .inr (by rw [h]; rfl)

theorem vlink_frameTaken {n : Nat} (hn : n < 16) (c : Chip) :
    vlink n (frameTaken n c) = { vlink n c with rxq := (vlink n c).rxq.tail } := by
  rcases frameTaken_cases n c with ⟨hq, e⟩ | e <;> rw [e]
  · rw [hq, List.tail_nil, ← hq]
  · exact vlink_vlinkPut hn ..

theorem sansLinks_frameTaken (n : Nat) (c : Chip) : sansLinks (frameTaken n c) = sansLinks c := by
  rcases frameTaken_cases n c with ⟨-, e⟩ | e <;> rw [e]
  rfl

theorem getF_frameTaken (f : Fld) (i n : Nat) (c : Chip) : getF f i (frameTaken n c) = getF f i c := by
  rcases frameTaken_cases n c with ⟨-, e⟩ | e <;> rw [e]
  exact getF_vlinkPut ..

theorem protoChoose_frameTaken (m : Nat) (offered : List (Fin 4)) (tls : Bool) (n : Nat) (c : Chip) :
    protoChoose m offered tls (frameTaken n c) = protoChoose m offered tls c := by
  rcases frameTaken_cases n c with ⟨-, e⟩ | e <;> rw [e]
  rfl

/-- A bay whose firmware processes messages. -/
structure HlcServed (n : Nat) (c : Chip) : Prop where
  bay : bayRuns n c = true
  links : vlinksRun c = true
  live : hlcLive n c = true

theorem hlcMessage_of_served {n : Nat} {c : Chip} (h : HlcServed n c) (m : HlcMsg) :
    hlcMessage n m c = hlcDo n m (frameTaken n c) := if_neg (by simp [h.bay, h.links, h.live])

/-- The step of a message that is processed. -/
theorem exec_hlcMessage {s : State} {n : Fin 16} (h : HlcServed n.val s.toChip) {m : HlcMsg} {d : Chip}
    (hrow : hlcDo n.val m (frameTaken n.val s.toChip) = d) : ∃ t, exec (.hlcMessage n m) s = .next t ∧ t.toChip = settle d := by
  have hmessage : hlcMessage n.val m s.toChip = d := (hlcMessage_of_served h m).trans hrow
  exact ⟨_, run_next (hlcMessage n.val m) s, by dsimp only; rw [hmessage]⟩

/-! ### SLAC, R300 -/

/-- R300: a message of the run that the link has answered takes effect. -/
theorem slacOf_of_run {n src run : Nat} {f : SlacRun → Chip → Chip} {c : Chip} {r : SlacRun} (hstate : vState n c = 2)
    (hrun : (vlink n c).run = some r) (hsrc : r.src = src) (hid : r.id = run) : slacOf n src run f c = f r c := by
  rw [slacOf, hrun]
  exact if_pos ⟨hstate, hsrc, hid⟩

/-- R300: the mean of each carrier group over the soundings of a run, to the nearest decibel. -/
def SlacRun.means (r : SlacRun) : List Nat := r.sum.map fun a => (2 * a + r.got) / (2 * r.got)

theorem slacReport_of_got {n : Nat} {r : SlacRun} (hgot : 0 < r.got) (hnone : r.report = none) (c : Chip) :
    slacReport n r c = vlinkPut n
      { vlink n c with run := some { r with report := some r.means }, sent := some (.attenReport r.src r.id r.means) } c := by
  rw [slacReport, if_neg (by simp [hgot.ne', hnone])]
  rfl

/-- The rounded mean of a report's carrier groups. -/
def attenMean (groups : List Nat) : Nat := (2 * groups.foldl (· + ·) 0 + groups.length) / (2 * max 1 groups.length)

/-- The link with the match of run `r` under `key`. -/
def VLinkState.matched (v : VLinkState) (r : SlacRun) (key : BitVec 128) (ms : Nat) : VLinkState :=
  { v with matchAt := ms, frameAt := ms, nmk := some key, run := none, sent := some (.slacMatch r.src r.id key) }

/-- A membership key is drawn (R299). -/
def keyDrawn (c : Chip) : Chip := { c with lnk := { c.lnk with draws := c.lnk.draws + 1 } }

theorem slacMatch_eq (n : Nat) (groups : List Nat) (r : SlacRun) (c : Chip) : slacMatch n groups r c =
    setF Reg.LNK_VSTAT_STATE n 3 (setF Reg.LNK_VSTAT_ATTEN n (min 255 (attenMean groups))
      (setF Reg.LNK_VPEER_LO_MAC_LO n (r.src % 2 ^ 32) (setF Reg.LNK_VPEER_HI_MAC_HI n (r.src / 2 ^ 32)
        (vlinkPut n ((vlink n c).matched r (Config.memberKey c.lnk.draws) c.backup.ms) (keyDrawn c))))) := rfl

theorem noRegs_slacMatch (n : Nat) (groups : List Nat) (r : SlacRun) (c : Chip) : noRegs (slacMatch n groups r c) =
    noRegs (vlinkPut n ((vlink n c).matched r (Config.memberKey c.lnk.draws) c.backup.ms) (keyDrawn c)) := by
  rw [slacMatch_eq]
  simp only [noRegs_setF]

theorem vState_slacMatch (n : Nat) (groups : List Nat) (r : SlacRun) (c : Chip) : vState n (slacMatch n groups r c) = 3 := by
  rw [vState, slacMatch_eq, getF_setF_same]
  rfl

theorem getF_atten_slacMatch (n : Nat) (groups : List Nat) (r : SlacRun) (c : Chip) :
    getF Reg.LNK_VSTAT_ATTEN n (slacMatch n groups r c) = min 255 (attenMean groups) := by
  rw [slacMatch_eq, getF_setF_of_lsb (by decide), getF_setF_same]
  exact Nat.mod_eq_of_lt (lt_of_le_of_lt (Nat.min_le_left ..) (by decide))

theorem peer_slacMatch (n : Nat) (groups : List Nat) {r : SlacRun} (hsrc : r.src < 2 ^ 48) (c : Chip) :
    getF Reg.LNK_VPEER_LO_MAC_LO n (slacMatch n groups r c) +
      2 ^ 32 * getF Reg.LNK_VPEER_HI_MAC_HI n (slacMatch n groups r c) = r.src := by
  have hkey : fkey Reg.LNK_VPEER_HI_MAC_HI n ≠ fkey Reg.LNK_VPEER_LO_MAC_LO n := by
    simp only [fkey, Reg.LNK_VPEER_HI_MAC_HI, Reg.LNK_VPEER_LO_MAC_LO]
    omega
  have hlo : getF Reg.LNK_VPEER_LO_MAC_LO n (slacMatch n groups r c) = r.src % 2 ^ 32 % 2 ^ 32 := by
    rw [slacMatch_eq, getF_setF_of_lsb (by decide), getF_setF_of_lsb (by decide), getF_setF_same]
    rfl
  have hhi : getF Reg.LNK_VPEER_HI_MAC_HI n (slacMatch n groups r c) = r.src / 2 ^ 32 % 2 ^ 16 := by
    rw [slacMatch_eq, getF_setF_of_lsb (by decide), getF_setF_of_lsb (by decide), getF_setF_of_key hkey, getF_setF_same]
    rfl
  rw [hlo, hhi]
  omega

section
variable {s : State} {n : Fin 16} (h : HlcServed n.val s.toChip) {r : SlacRun}
include h

theorem exec_slacStart (hstate : vState n.val s.toChip = 2) (hrun : (vlink n.val s.toChip).run = some r) {run : BitVec 64}
    {src : BitVec 48} (sounds : BitVec 8) (hsrc : r.src = src.toNat) (hid : r.id = run.toNat) :
    ∃ t, exec (.hlcMessage n (.slacStart run src sounds)) s = .next t ∧
      (vlink n.val t.toChip).run = some { src := r.src, id := r.id, sounds := sounds.toNat } ∧ t.bay = s.bay ∧
      t.backup = s.backup := by
  have htaken := vlink_frameTaken n.isLt s.toChip
  have hview := sansLinks_frameTaken n.val s.toChip
  have hrow := slacOf_of_run (f := fun r c => vlinkPut n.val { vlink n.val c with
      run := some { src := r.src, id := r.id, sounds := sounds.toNat } } c) (c := frameTaken n.val s.toChip) (r := r)
    ((getF_frameTaken ..).trans hstate) (by rw [htaken]; exact hrun) hsrc hid
  obtain ⟨t, hexec, ht⟩ := exec_hlcMessage h (m := .slacStart run src sounds) hrow
  refine ⟨t, hexec, ?_, ?_, ?_⟩
  · rw [ht, vlink_settle, vlink_vlinkPut n.isLt]
  · rw [ht, settle_bay]
    exact part_of_sansLinks (·.bay) (fun _ => rfl) hview
  · rw [ht, settle_backup]
    exact part_of_sansLinks (·.backup) (fun _ => rfl) hview

theorem exec_slacSoundsEnd (hstate : vState n.val s.toChip = 2) (hrun : (vlink n.val s.toChip).run = some r)
    (hgot : 0 < r.got) (hnone : r.report = none) :
    ∃ t, exec (.hlcMessage n .slacSoundsEnd) s = .next t ∧
      (vlink n.val t.toChip).run = some { r with report := some r.means } ∧
      (vlink n.val t.toChip).sent = some (.attenReport r.src r.id r.means) ∧ t.bay = s.bay ∧ t.backup = s.backup := by
  have htaken := vlink_frameTaken n.isLt s.toChip
  have hview := sansLinks_frameTaken n.val s.toChip
  have hrow : hlcDo n.val .slacSoundsEnd (frameTaken n.val s.toChip) = slacReport n.val r (frameTaken n.val s.toChip) := by
    have hr : (vlink n.val (frameTaken n.val s.toChip)).run = some r := by rw [htaken]; exact hrun
    simp only [hlcDo, hr]
    exact if_pos ((getF_frameTaken ..).trans hstate)
  rw [slacReport_of_got hgot hnone] at hrow
  obtain ⟨t, hexec, ht⟩ := exec_hlcMessage h hrow
  refine ⟨t, hexec, ?_, ?_, ?_, ?_⟩
  · rw [ht, vlink_settle, vlink_vlinkPut n.isLt]
  · rw [ht, vlink_settle, vlink_vlinkPut n.isLt]
  · rw [ht, settle_bay]
    exact part_of_sansLinks (·.bay) (fun _ => rfl) hview
  · rw [ht, settle_backup]
    exact part_of_sansLinks (·.backup) (fun _ => rfl) hview

theorem exec_slacMatch (hstate : vState n.val s.toChip = 2) (hrun : (vlink n.val s.toChip).run = some r) {run : BitVec 64}
    {mac : BitVec 48} {groups : List Nat} (hsrc : r.src = mac.toNat) (hid : r.id = run.toNat)
    (hreport : r.report = some groups) :
    ∃ t, exec (.hlcMessage n (.slacMatch run mac)) s = .next t ∧ vState n.val t.toChip = 3 ∧
      getF Reg.LNK_VSTAT_ATTEN n.val t.toChip = min 255 (attenMean groups) ∧
      getF Reg.LNK_VPEER_LO_MAC_LO n.val t.toChip + 2 ^ 32 * getF Reg.LNK_VPEER_HI_MAC_HI n.val t.toChip = mac.toNat ∧
      (vlink n.val t.toChip).nmk = some (Config.memberKey s.lnk.draws) ∧ t.lnk.draws = s.lnk.draws + 1 ∧
      (vlink n.val t.toChip).matchAt = s.backup.ms ∧ t.bay = s.bay ∧ t.backup = s.backup := by
  have htaken := vlink_frameTaken n.isLt s.toChip
  have hview := sansLinks_frameTaken n.val s.toChip
  have hdraws : (frameTaken n.val s.toChip).lnk.draws = s.lnk.draws := part_of_sansLinks (·.lnk.draws) (fun _ => rfl) hview
  have hbackup : (frameTaken n.val s.toChip).backup = s.backup := part_of_sansLinks (·.backup) (fun _ => rfl) hview
  have hrow : hlcDo n.val (.slacMatch run mac) (frameTaken n.val s.toChip) = slacMatch n.val groups r (frameTaken n.val s.toChip) := by
    simp only [hlcDo]
    rw [slacOf_of_run ((getF_frameTaken ..).trans hstate) (by rw [htaken]; exact hrun) hsrc hid, hreport]
  have hmatch := noRegs_slacMatch n.val groups r (frameTaken n.val s.toChip)
  have hlink : vlink n.val (slacMatch n.val groups r (frameTaken n.val s.toChip)) =
      (vlink n.val (frameTaken n.val s.toChip)).matched r (Config.memberKey s.lnk.draws) s.backup.ms := by
    rw [part_of_noRegs (vlink n.val) (fun _ => rfl) hmatch, hdraws, hbackup, vlink_vlinkPut n.isLt]
  obtain ⟨t, hexec, ht⟩ := exec_hlcMessage h hrow
  refine ⟨t, hexec, ?_, ?_, ?_, ?_, ?_, ?_, ?_, ?_⟩
  · rw [ht, vState_settle n.isLt, vState_slacMatch]
  · rw [ht, getF_settle_vlink n.isLt (by decide) rfl (by decide), getF_atten_slacMatch]
  · rw [ht, getF_settle_vlink (f := Reg.LNK_VPEER_LO_MAC_LO) n.isLt (by decide) rfl (by decide),
      getF_settle_vlink (f := Reg.LNK_VPEER_HI_MAC_HI) n.isLt (by decide) rfl (by decide),
      peer_slacMatch _ _ (by rw [hsrc]; exact mac.isLt), hsrc]
  · rw [ht, vlink_settle, hlink, VLinkState.matched]
  · rw [ht, settle_lnk, part_of_noRegs (·.lnk.draws) (fun _ => rfl) hmatch]
    exact congrArg (· + 1) hdraws
  · rw [ht, vlink_settle, hlink, VLinkState.matched]
  · rw [ht, settle_bay, part_of_noRegs (·.bay) (fun _ => rfl) hmatch]
    exact (part_of_sansLinks (·.bay) (fun _ => rfl) hview :)
  · rw [ht, settle_backup, part_of_noRegs (·.backup) (fun _ => rfl) hmatch]
    exact hbackup

end

/-! ### High-level communication, R302, R303 -/

theorem protoChoose_lt {n : Nat} {offered : List (Fin 4)} {tls : Bool} {c : Chip} {k : Nat}
    (h : protoChoose n offered tls c = some k) : k < 4 := by
  have hmem := List.mem_of_find?_eq_some h
  simp only [List.mem_cons, List.not_mem_nil, or_false] at hmem
  omega

theorem bayGet_hlcPut {n : Nat} (hn : n < 16) (x : HlcState) (c : Chip) : bayGet n (hlcPut n x c) = { bayGet n c with hlc := x } :=
  bayGet_bayPut_same hn ..

/-- R302: the session starts with protocol `k`. -/
theorem hlcSetup_of_chosen {n : Nat} {offered : List (Fin 4)} {tls : Bool} (pnc : Bool) {c : Chip} {k : Nat}
    (hk : protoChoose n offered tls c = some k) (hstate : vState n c = 3) : ∃ p, hlcSetup n offered tls pnc c =
      setF Reg.LNK_VSTAT_STATE n 4 (setF Reg.LNK_VSTAT_PROTO n k (setF Reg.LNK_VSTAT_TLS n tls.toNat
        (setF Reg.LNK_VSTAT_PNC n p (hlcPut n { (bayGet n c).hlc with up := true }
          (vlinkPut n { vlink n c with sent := some (.protocolChosen k) } c))))) := by
  rw [hlcSetup, hk]
  dsimp only
  rw [if_neg (by simp [hstate])]
  exact ⟨_, rfl⟩

theorem hlcSetup_of_none {n : Nat} {offered : List (Fin 4)} {tls : Bool} (pnc : Bool) {c : Chip}
    (h : protoChoose n offered tls c = none) : hlcSetup n offered tls pnc c = c := by rw [hlcSetup, h]

/-- The request is passed under its number, and waits for its answer. -/
def certAsked (n : Nat) (c : Chip) : Chip :=
  { c with lnk := { c.lnk with reqNo := c.lnk.reqNo % (2 ^ 32 - 1) + 1, certs := c.lnk.certs ++ [(c.lnk.reqNo % (2 ^ 32 - 1) + 1, n)] } }

theorem certRequest_eq (n : Nat) (msg : List Nat) (c : Chip) : certRequest n msg c =
    eventRec 0x14 0xFFFF 1 n (Byte.le 4 (c.lnk.reqNo % (2 ^ 32 - 1) + 1) ++ msg) (certAsked n c) := rfl

theorem getF_pushEvents (f : Fld) (i s : Nat) (c : Chip) : getF f i (pushEvents s c).1 = getF f i c := by
  unfold pushEvents
  dsimp only
  split
  · rfl
  · exact getF_withRegs f i rfl rfl rfl

/-- R466: what is pushed to the sessions leaves SEQ. -/
theorem getF_evtSeq_pushAll (c : Chip) : getF Reg.HST_EVTSEQ_SEQ 0 (pushAll c) = getF Reg.HST_EVTSEQ_SEQ 0 c := by
  refine foldl_keeps (getF Reg.HST_EVTSEQ_SEQ 0) _ (fun c s => ?_) _ c
  dsimp only
  split
  · rw [flagF, flagBit, addSat, getF_setF_of_key (by decide), setBitF, getF_setF_of_key (by decide), getF_pushEvents]
  · exact getF_pushEvents ..

/-- R466: a record takes the next number. -/
theorem getF_evtSeq_eventRec (b r k i : Nat) (x : List Nat) (c : Chip) :
    getF Reg.HST_EVTSEQ_SEQ 0 (eventRec b r k i x c) = (getF Reg.HST_EVTSEQ_SEQ 0 c + 1) % 2 ^ 32 := by
  rw [eventRec, getF_evtSeq_pushAll, getF_setF_same]
  rfl

/-- R303: the failure of high-level communication with its flag `f`. -/
theorem hlcFail_some (n : Nat) (f : Fld) (c : Chip) : hlcFail n (some f) c =
    let d := flagF f n 0 Reg.LNK_STAT_EVT_CNT 0 c
    setF Reg.LNK_VSTAT_STATE n 5 (hlcPut n { (bayGet n d).hlc with failed := true, up := false, power := false }
      (vlinkPut n { vlink n d with nmk := none, run := none } d)) := rfl

theorem hlcFailed_of_flag {n : Nat} (hn : n < 16) (f : Fld) (c : Chip) : HlcFailed n (hlcFail n (some f) c) := by
  refine ⟨?_, ?_, ?_, ?_⟩
  · rw [vState, hlcFail_some, getF_setF_same]
    rfl
  all_goals simp [hlcFail_some, bayGet, vlink, hlcPut, bayPut, vlinkPut, hn]

theorem noRegs_hlcFail (n : Nat) (f : Fld) (c : Chip) : noRegs (hlcFail n (some f) c) =
    noRegs (hlcPut n { (bayGet n c).hlc with failed := true, up := false, power := false }
      (vlinkPut n { vlink n c with nmk := none, run := none } c)) := by
  have hflag := noRegs_flagF f n 0 Reg.LNK_STAT_EVT_CNT 0 c
  rw [hlcFail_some, noRegs_setF, part_of_noRegs (bayGet n) (fun _ => rfl) hflag, part_of_noRegs (vlink n) (fun _ => rfl) hflag]
  exact congrArg (fun d => hlcPut n _ (vlinkPut n _ d)) hflag

theorem getF_tlsFail_hlcFail (n : Nat) (c : Chip) : getF Reg.LNK_VEVT_TLS_FAIL n (hlcFail n (some Reg.LNK_VEVT_TLS_FAIL) c) = 1 := by
  have hkey : fkey Reg.LNK_STAT_EVT_CNT 0 ≠ fkey Reg.LNK_VEVT_TLS_FAIL n := by
    simp only [fkey, Reg.LNK_STAT_EVT_CNT, Reg.LNK_VEVT_TLS_FAIL]
    omega
  rw [hlcFail_some]
  dsimp only
  rw [getF_setF_of_lsb (by decide), getF_hlcPut, getF_vlinkPut, flagF_of_one_bit rfl hkey, getF_setF_of_lsb (by decide), getF_setF_same]
  rfl

section
variable {s : State} {n : Fin 16} (h : HlcServed n.val s.toChip)
include h

theorem exec_hlcSetup_chosen (hstate : vState n.val s.toChip = 3) {offered : List (Fin 4)} {tls : Bool} (pnc : Bool) {k : Nat}
    (hk : protoChoose n.val offered tls s.toChip = some k) :
    ∃ t, exec (.hlcMessage n (.setup offered tls pnc)) s = .next t ∧ vState n.val t.toChip = 4 ∧
      getF Reg.LNK_VSTAT_PROTO n.val t.toChip = k ∧ getF Reg.LNK_VSTAT_TLS n.val t.toChip = tls.toNat ∧
      (bayGet n.val t.toChip).hlc.up = true ∧ t.backup = s.backup := by
  have hview := sansLinks_frameTaken n.val s.toChip
  obtain ⟨p, hrow⟩ := hlcSetup_of_chosen pnc ((protoChoose_frameTaken ..).trans hk)
    ((getF_frameTaken ..).trans hstate)
  obtain ⟨t, hexec, ht⟩ := exec_hlcMessage h (m := .setup offered tls pnc) hrow
  refine ⟨t, hexec, ?_, ?_, ?_, ?_, ?_⟩
  · rw [ht, vState_settle n.isLt, vState, getF_setF_same]
    rfl
  · rw [ht, getF_settle_vlink n.isLt (by decide) rfl (by decide), getF_setF_of_lsb (by decide), getF_setF_same]
    exact Nat.mod_eq_of_lt (protoChoose_lt hk)
  · rw [ht, getF_settle_vlink n.isLt (by decide) rfl (by decide), getF_setF_of_lsb (by decide), getF_setF_of_lsb (by decide),
      getF_setF_same]
    cases tls <;> rfl
  · rw [ht, bayGet_settle]
    simp only [bayGet, setF_bay]
    exact congrArg (fun b : BayState => b.hlc.up) (bayGet_hlcPut n.isLt ..)
  · rw [ht, settle_backup]
    simp only [setF_backup]
    exact (part_of_sansLinks (·.backup) (fun _ => rfl) hview :)

theorem exec_hlcSetup_none (hstate : vState n.val s.toChip = 3) {offered : List (Fin 4)} {tls : Bool} (pnc : Bool)
    (hk : protoChoose n.val offered tls s.toChip = none) :
    ∃ t, exec (.hlcMessage n (.setup offered tls pnc)) s = .next t ∧ vState n.val t.toChip = 3 ∧ t.bay = s.bay := by
  have hrow := hlcSetup_of_none pnc ((protoChoose_frameTaken n.val offered tls n.val s.toChip).trans hk)
  obtain ⟨t, hexec, ht⟩ := exec_hlcMessage h (m := .setup offered tls pnc) hrow
  refine ⟨t, hexec, ?_, ?_⟩
  · rw [ht, vState_settle n.isLt, vState, getF_frameTaken]
    exact hstate
  · rw [ht, settle_bay]
    exact part_of_sansLinks (·.bay) (fun _ => rfl) (sansLinks_frameTaken ..)

/-- What the vehicle asks for. -/
def HlcState.asked (x : HlcState) (vp vm vr ir pr : BitVec 16) : HlcState :=
  { x with vPresent := vp.toNat, vMax := vm.toNat, vReq := vr.toNat, iReq := ir.toNat, pReq := pr.toNat }

theorem exec_hlcTarget (hstate : vState n.val s.toChip = 4) (vp vm vr ir pr : BitVec 16) :
    ∃ t, exec (.hlcMessage n (.target vp vm vr ir pr)) s = .next t ∧
      (bayGet n.val t.toChip).hlc = (bayGet n.val s.toChip).hlc.asked vp vm vr ir pr ∧
      (vlink n.val t.toChip).rxq = (vlink n.val s.toChip).rxq.tail ∧ t.store = s.store ∧ t.backup = s.backup := by
  have hview := sansLinks_frameTaken n.val s.toChip
  have hbay : bayGet n.val (frameTaken n.val s.toChip) = bayGet n.val s.toChip :=
    part_of_sansLinks (bayGet n.val) (fun _ => rfl) hview
  have hrow : hlcDo n.val (.target vp vm vr ir pr) (frameTaken n.val s.toChip) =
      hlcPut n.val ((bayGet n.val s.toChip).hlc.asked vp vm vr ir pr) (frameTaken n.val s.toChip) := by
    rw [← hbay]
    exact if_pos ((getF_frameTaken ..).trans hstate)
  obtain ⟨t, hexec, ht⟩ := exec_hlcMessage h hrow
  refine ⟨t, hexec, ?_, ?_, ?_, ?_⟩
  · rw [ht, bayGet_settle, bayGet_hlcPut n.isLt]
  · rw [ht, vlink_settle]
    exact congrArg VLinkState.rxq (vlink_frameTaken n.isLt s.toChip)
  · rw [ht, settle_store]
    exact (part_of_sansLinks (·.store) (fun _ => rfl) hview :)
  · rw [ht, settle_backup]
    exact (part_of_sansLinks (·.backup) (fun _ => rfl) hview :)

theorem exec_hlcCertRequest (hstate : vState n.val s.toChip = 4) (msg : List Byte) :
    ∃ t, exec (.hlcMessage n (.certRequest msg)) s = .next t ∧
      t.lnk.reqNo = s.lnk.reqNo % (2 ^ 32 - 1) + 1 ∧ t.lnk.certs = s.lnk.certs ++ [(t.lnk.reqNo, n.val)] ∧
      getF Reg.HST_EVTSEQ_SEQ 0 t.toChip = (getF Reg.HST_EVTSEQ_SEQ 0 s.toChip + 1) % 2 ^ 32 ∧ t.bay = s.bay := by
  have hview := sansLinks_frameTaken n.val s.toChip
  have hno : (frameTaken n.val s.toChip).lnk.reqNo = s.lnk.reqNo := part_of_sansLinks (·.lnk.reqNo) (fun _ => rfl) hview
  have hcerts : (frameTaken n.val s.toChip).lnk.certs = s.lnk.certs := part_of_sansLinks (·.lnk.certs) (fun _ => rfl) hview
  have hbay : (frameTaken n.val s.toChip).bay = s.bay := part_of_sansLinks (·.bay) (fun _ => rfl) hview
  have hrow : hlcDo n.val (.certRequest msg) (frameTaken n.val s.toChip) = _ :=
    (if_pos ((getF_frameTaken ..).trans hstate)).trans (certRequest_eq n.val (Byte.nats msg) (frameTaken n.val s.toChip))
  obtain ⟨t, hexec, ht⟩ := exec_hlcMessage h hrow
  refine ⟨t, hexec, ?_⟩
  rw [ht, settle_lnk, settle_bay, getF_settle (by decide), eventRec_lnk, eventRec_bay, getF_evtSeq_eventRec]
  refine ⟨?_, ?_, ?_, hbay⟩
  · rw [certAsked, hno]
  · rw [certAsked, hno, hcerts]
  · exact congrArg (fun x => (x + 1) % 2 ^ 32) (getF_frameTaken Reg.HST_EVTSEQ_SEQ 0 n.val s.toChip)

theorem exec_hlcTlsFail : ∃ t, exec (.hlcMessage n .tlsFail) s = .next t ∧ HlcFailed n.val t.toChip ∧
    getF Reg.LNK_VEVT_TLS_FAIL n.val t.toChip = 1 ∧ t.backup = s.backup := by
  have hrow : hlcDo n.val .tlsFail (frameTaken n.val s.toChip) =
      hlcFail n.val (some Reg.LNK_VEVT_TLS_FAIL) (frameTaken n.val s.toChip) := rfl
  obtain ⟨t, hexec, ht⟩ := exec_hlcMessage h hrow
  refine ⟨t, hexec, ?_, ?_, ?_⟩
  · rw [ht]
    exact hlcFailed_settle n.isLt (hlcFailed_of_flag n.isLt ..)
  · rw [ht, getF_settle_vlink n.isLt (by decide) rfl (by decide), getF_tlsFail_hlcFail]
  · rw [ht, settle_backup, part_of_noRegs (·.backup) (fun _ => rfl) (noRegs_hlcFail ..)]
    exact (part_of_sansLinks (·.backup) (fun _ => rfl) (sansLinks_frameTaken n.val s.toChip) :)

end

/-! ### The obligation -/

/-- Settles O34. -/
theorem vehicleMessagesAreTaken : Obligations.VehicleMessagesAreTaken := by
  refine ⟨fun s n src lclk payload hruns htype hpath => ?_, fun s n hbay hlinks hlive => ?_, fun s id hs => run_row hs rfl rfl⟩
  · have h : FrameSeen n.val s.toChip := ⟨hruns, htype, hpath, n.isLt⟩
    exact ⟨fun hstate => ⟨exec_vehicleFrame_bad h hstate src lclk payload,
        fun hpeer => exec_vehicleFrame_matched h hstate hpeer lclk payload,
        fun crcOk hs => exec_vehicleFrame_tone h hstate hs crcOk src lclk payload⟩,
      fun hstate hwake crcOk _ => exec_vehicleFrame_standby h hstate hwake crcOk _⟩
  · have h : HlcServed n.val s.toChip := ⟨hbay, hlinks, hlive⟩
    exact ⟨fun r hstate hrun => ⟨fun run src sounds => exec_slacStart h hstate hrun sounds, exec_slacSoundsEnd h hstate hrun,
        fun run mac groups => exec_slacMatch h hstate hrun⟩,
      fun hstate offered tls pnc k hk => exec_hlcSetup_chosen h hstate pnc hk,
      fun hstate offered tls pnc hk => exec_hlcSetup_none h hstate pnc hk, exec_hlcTarget h, exec_hlcCertRequest h,
      exec_hlcTlsFail h⟩

end Sys2Proof.Machine
end


section
/-!
The slots of a metrology trick (chapter 07, R109, R171-R186): what the end of a slot leaves, and the placing of a forced boundary.
-/

namespace Sys2Proof.Machine
open Sys2Proof Sys2Proof.Safety

/-! ### What the steps of a trick leave -/

/-- What the steps of a metrology trick leave of the device, the registers at the keys of `W` apart. -/
structure TrickKept (W : Nat → Prop) (c d : Chip) : Prop where
  reg : ∀ f i, ¬W (fkey f i) → getF f i d = getF f i c
  ms : d.backup.ms = c.backup.ms
  die : dieView d = dieView c
  period : d.store.period = c.store.period
  prtN : d.sns.prtN = c.sns.prtN
  metN : d.sns.metN = c.sns.metN

namespace TrickKept
variable {W : Nat → Prop}

theorem refl (c : Chip) : TrickKept W c c := ⟨fun _ _ _ => rfl, rfl, rfl, rfl, rfl, rfl⟩

theorem trans {a b c : Chip} (h : TrickKept W a b) (k : TrickKept W b c) : TrickKept W a c where
  reg f i hw := (k.reg f i hw).trans (h.reg f i hw)
  ms := k.ms.trans h.ms
  die := k.die.trans h.die
  period := k.period.trans h.period
  prtN := k.prtN.trans h.prtN
  metN := k.metN.trans h.metN

theorem mono {V : Nat → Prop} (hV : ∀ k, W k → V k) {c d : Chip} (h : TrickKept W c d) : TrickKept V c d :=
  ⟨fun f i hw => h.reg f i fun hk => hw (hV _ hk), h.ms, h.die, h.period, h.prtN, h.metN⟩

theorem setF {f : Fld} {i : Nat} (h : W (fkey f i)) (v : Nat) (c : Chip) : TrickKept W c (Machine.setF f i v c) where
  reg g j hg := getF_setF_of_key (fun hk => hg (by rw [hk]; exact h)) v c
  ms := by rw [setF_backup]
  die := dieView_setF ..
  period := by rw [setF_store]
  prtN := by rw [setF_sns]
  metN := by rw [setF_sns]

theorem flagF {f g : Fld} {i j : Nat} (k : Nat) (hf : W (fkey f i)) (hg : W (fkey g j)) (c : Chip) :
    TrickKept W c (flagF f i k g j c) := (setF hf _ c).trans (setF hg _ _)

theorem tamper (code info : Nat) (c : Chip) : TrickKept W c (tamper code info c) where
  reg f i _ := getF_withRegs f i (tamper_regs ..) (tamper_bregs ..) (tamper_fregs ..)
  ms := tamper_ms ..
  die := by simp only [dieView, tamper_hsl, tamper_lsw, tamper_pwr, tamper_prt]
  period := by unfold Machine.tamper; split <;> rfl
  prtN := by rw [tamper_sns]
  metN := by rw [tamper_sns]

theorem elemPut (e : Nat) (x : ElemState) (c : Chip) : TrickKept W c (elemPut e x c) :=
  ⟨fun f i _ => getF_elemPut f i e x c, rfl, rfl, rfl, rfl, rfl⟩

theorem foldl {α : Type} {f : Chip → α → Chip} {l : List α} (h : ∀ x ∈ l, ∀ c, TrickKept W c (f c x)) (c : Chip) :
    TrickKept W c (l.foldl f c) := by
  induction l generalizing c with
  | nil => exact refl c
  | cons x l ih => exact (h x List.mem_cons_self c).trans (ih (fun y hy => h y (List.mem_cons_of_mem x hy)) _)

end TrickKept

/-! ### What an element's own steps leave -/

theorem elemGet_elemPut_ne {j k : Nat} (h : j ≠ k) (x : ElemState) (c : Chip) : elemGet j (elemPut k x c) = elemGet j c := by
  simp only [elemGet, elemPut]
  rw [Vector.getElem?_setIfInBounds_ne (fun e => h e.symm)]

theorem elemGet_of_le {k : Nat} (h : 64 ≤ k) (c : Chip) : elemGet k c = {} := by
  rw [elemGet, Vector.getElem?_eq_none (by omega)]
  rfl

theorem elemGet_congr {c d : Chip} (h : d.mtr = c.mtr) (k : Nat) : elemGet k d = elemGet k c := by rw [elemGet, h, elemGet]

/-- The registers that the end of a slot writes: flags, their counts and the life counters. -/
def SlotKey (k : Nat) : Prop := 0x80000 * 32 ≤ k ∧ (k / 32 % 1024 = 0x10 ∨ k / 32 % 1024 = 0x78)

/-- A field of MTRn_STAT or MTRn_LIFE. -/
abbrev SlotField (f : Fld) : Prop := (f.base = 0x80010 ∨ f.base = 0x80078) ∧ f.stride = 1024 ∧ f.lsb < 32

theorem slotKey_of_slotField {f : Fld} (h : SlotField f) (i : Nat) : SlotKey (fkey f i) := by
  obtain ⟨hb, hs, hl⟩ := h
  simp only [SlotKey, fkey, hs]
  omega

/-- What the books of an element's cycle leave of it. -/
structure ElemSame (x y : ElemState) : Prop where
  cycles : y.cycles = x.cycles
  pub : y.pub = x.pub
  pending : y.pending = x.pending

/-- What element `e`'s own books leave of the device. -/
structure SlotNoted (e : Nat) (c d : Chip) : Prop where
  kept : TrickKept SlotKey c d
  others : ∀ k, k ≠ e → elemGet k d = elemGet k c
  own : ElemSame (elemGet e c) (elemGet e d)
  bil : d.bil = c.bil

namespace SlotNoted
variable {e : Nat}

theorem refl (c : Chip) : SlotNoted e c c := ⟨.refl c, fun _ _ => rfl, ⟨rfl, rfl, rfl⟩, rfl⟩

theorem trans {a b c : Chip} (h : SlotNoted e a b) (k : SlotNoted e b c) : SlotNoted e a c where
  kept := h.kept.trans k.kept
  others j hj := (k.others j hj).trans (h.others j hj)
  own := ⟨k.own.cycles.trans h.own.cycles, k.own.pub.trans h.own.pub, k.own.pending.trans h.own.pending⟩
  bil := k.bil.trans h.bil

/-- A step that leaves every element. -/
theorem of_mtr {c d : Chip} (hkept : TrickKept SlotKey c d) (hmtr : d.mtr = c.mtr) (hbil : d.bil = c.bil) : SlotNoted e c d :=
  ⟨hkept, fun k _ => elemGet_congr hmtr k, by rw [elemGet_congr hmtr]; exact ⟨rfl, rfl, rfl⟩, hbil⟩

theorem setF {f : Fld} (h : SlotField f) (i v : Nat) (c : Chip) :
    SlotNoted e c (setF f i v c) := of_mtr (.setF (slotKey_of_slotField h i) v c) (setF_mtr ..) (setF_bil ..)

theorem addSat {f : Fld} (h : SlotField f) (i m n : Nat) (c : Chip) :
    SlotNoted e c (addSat f i m n c) := setF h i _ c

theorem flag {f : Fld} (h : SlotField f) (i : Nat) (c : Chip) :
    SlotNoted e c (flagF f i 0 Reg.MTR_STAT_EVT_CNT i c) := (setF h i _ c).trans (setF (f := Reg.MTR_STAT_EVT_CNT) (by decide) i _ _)

theorem tamper (code info : Nat) (c : Chip) : SlotNoted e c (tamper code info c) :=
  of_mtr (.tamper code info c) (tamper_mtr ..) (tamper_bil ..)

/-- The element's own state is put back with its books changed. -/
theorem put {x : ElemState} {c d : Chip} (h : SlotNoted e c d) (hx : ElemSame (elemGet e c) x := by exact ⟨rfl, rfl, rfl⟩) :
    SlotNoted e c (elemPut e x d) where
  kept := h.kept.trans (.elemPut e x d)
  others k hk := (elemGet_elemPut_ne hk x d).trans (h.others k hk)
  own := by
    rcases Nat.lt_or_ge e 64 with he | he
    · rw [elemGet_elemPut he]
      exact hx
    · rw [elemGet_of_le he, elemGet_of_le he]
      exact ⟨rfl, rfl, rfl⟩
  bil := h.bil

theorem ite {p : Prop} [Decidable p] {c d d' : Chip} (h : SlotNoted e c d) (h' : SlotNoted e c d') :
    SlotNoted e c (if p then d else d') := by split <;> assumption

end SlotNoted

/-! ### The books of a cycle, R174, R184, R186 -/

theorem slotNoted_vmissStep (e : Nat) (s : Sums) (c : Chip) : SlotNoted e c (vmissStep e s c) := by
  have hflag : ∀ d, SlotNoted e d
      (addSat Reg.MTR_LIFE_VMISS_EP e 65535 1 (flagF Reg.MTR_STAT_VMISS_EV e 0 Reg.MTR_STAT_EVT_CNT e d)) := fun d =>
    (SlotNoted.flag (by decide) e d).trans (.addSat (by decide) e 65535 1 _)
  unfold vmissStep
  refine .ite (.refl c) (.ite ?_ (.ite (.put (.put (.refl c))) (.put (.refl c))))
  exact ((SlotNoted.put (.put (.refl c))).trans (hflag _)).trans (.ite (.tamper ..) (.refl _))

theorem slotNoted_reverseStep (e : Nat) (en : CycleEnergy) (nl : Bool) (c : Chip) : SlotNoted e c (reverseStep e en nl c) := by
  have hflag : ∀ d, SlotNoted e d
      (addSat Reg.MTR_LIFE_REV_EP e 65535 1 (flagF Reg.MTR_STAT_REV e 0 Reg.MTR_STAT_EVT_CNT e d)) := fun d =>
    (SlotNoted.flag (by decide) e d).trans (.addSat (by decide) e 65535 1 _)
  unfold reverseStep
  refine .ite (.refl c) (.ite (.ite (.put (.refl c)) ?_) (.put (.refl c)))
  exact ((SlotNoted.put (.refl c)).trans (hflag _)).trans (.ite (.tamper ..) (.refl _))

theorem slotNoted_checkStep (e : Nat) (ep : Int) (s : Sums) (c : Chip) : SlotNoted e c (checkStep e ep s c) := by
  unfold checkStep
  exact .ite (.refl c) (.ite (.put (.refl c)) (.put (.refl c)))

/-! ### The end of a cycle, R171-R173 -/

/-- What the end of a cycle does to its element: one more cycle, which waits to be published. -/
structure ElemEnded (x y : ElemState) : Prop where
  cycles : y.cycles = x.cycles + 1
  pub : ∃ s, y.pub = x.pub ++ [s]
  pending : y.pending = x.pending

theorem carry_same (k amount : Nat) (x : ElemState) : ElemSame x (carry k amount x) := ⟨rfl, rfl, rfl⟩

theorem ElemSame.trans {x y z : ElemState} (h : ElemSame x y) (k : ElemSame y z) : ElemSame x z :=
  ⟨k.cycles.trans h.cycles, k.pub.trans h.pub, k.pending.trans h.pending⟩

theorem accumulate_same (acc : Nat) (en : CycleEnergy) (x : ElemState) : ElemSame x (accumulate acc en x) := by
  unfold accumulate
  split
  · exact ((carry_same ..).trans (carry_same ..)).trans (carry_same ..)
  · exact ((carry_same ..).trans (carry_same ..)).trans (carry_same ..)

/-- A cycle's end puts the element with the cycle ended, and writes its books. -/
theorem cycleEnd_noted (e : Nat) (forced : Bool) (tau : Nat) (endAt : Int) (s : Sums) (c : Chip) :
    ∃ x, ElemEnded (elemGet e c) x ∧ SlotNoted e (elemPut e x c) (cycleEnd e forced tau endAt s c) := by
  have hbooks : ∀ (en : CycleEnergy) (nl : Bool) (c : Chip),
      SlotNoted e c (checkStep e en.ep s (reverseStep e en nl (vmissStep e s c))) := fun en nl c =>
    ((slotNoted_vmissStep e s c).trans (slotNoted_reverseStep ..)).trans (slotNoted_checkStep ..)
  have hflag : ∀ (p : Bool) (c : Chip),
      SlotNoted e c (if p then flagF Reg.MTR_STAT_FORCED e 0 Reg.MTR_STAT_EVT_CNT e c else c) := fun p c =>
    .ite (.flag (by decide) e c) (.refl c)
  have hacc : ∀ (nl : Bool) (acc : Nat) (en : CycleEnergy),
      ElemSame (elemGet e c) (if nl then elemGet e c else accumulate acc en (elemGet e c)) := fun nl acc en => by
    split
    · exact ⟨rfl, rfl, rfl⟩
    · exact accumulate_same ..
  unfold cycleEnd
  dsimp only
  refine ⟨_, ?_, (hflag _ _).trans (hbooks _ _ _)⟩
  exact ⟨congrArg (· + 1) (hacc _ _ _).cycles, ⟨_, congrArg (· ++ [_]) (hacc _ _ _).pub⟩, (hacc _ _ _).pending⟩

/-! ### The end of a slot, R109, R171-R173, R185 -/

/-- What the ends of slots leave: cycles that wait to be published stay first in line. -/
structure SlotStep (c d : Chip) : Prop where
  kept : TrickKept SlotKey c d
  pub : ∀ k, (elemGet k c).pub <+: (elemGet k d).pub

namespace SlotStep

theorem refl (c : Chip) : SlotStep c c := ⟨.refl c, fun _ => ⟨[], List.append_nil _⟩⟩

theorem trans {a b c : Chip} (h : SlotStep a b) (k : SlotStep b c) : SlotStep a c :=
  ⟨h.kept.trans k.kept, fun j => (h.pub j).trans (k.pub j)⟩

theorem of_noted {e : Nat} {c d : Chip} (h : SlotNoted e c d) : SlotStep c d where
  kept := h.kept
  pub k := by
    by_cases hk : k = e
    · rw [hk, h.own.pub]
    · rw [h.others k hk]

/-- An element's state is put back, the cycles that wait first in line. -/
theorem put {e : Nat} {x : ElemState} {c d : Chip} (h : SlotStep c d)
    (hx : (elemGet e d).pub <+: x.pub := by exact ⟨[], List.append_nil _⟩) : SlotStep c (elemPut e x d) := by
  refine h.trans ⟨.elemPut e x d, fun k => ?_⟩
  by_cases hk : k = e
  · subst hk
    rcases Nat.lt_or_ge k 64 with hlt | hge
    · rw [elemGet_elemPut hlt]
      exact hx
    · rw [elemGet_of_le hge, elemGet_of_le hge]
  · rw [elemGet_elemPut_ne hk]

theorem ite {p : Prop} [Decidable p] {c d d' : Chip} (h : SlotStep c d) (h' : SlotStep c d') :
    SlotStep c (if p then d else d') := by split <;> assumption

theorem foldl {α : Type} {f : Chip → α → Chip} (h : ∀ c x, SlotStep c (f c x)) (l : List α) (c : Chip) :
    SlotStep c (l.foldl f c) := by
  induction l generalizing c with
  | nil => exact refl c
  | cons x l ih => exact (h c x).trans (ih _)

end SlotStep

theorem slotStep_cycleEnd (e : Nat) (forced : Bool) (tau : Nat) (endAt : Int) (s : Sums) (c : Chip) :
    SlotStep c (cycleEnd e forced tau endAt s c) := by
  obtain ⟨x, hended, hnoted⟩ := cycleEnd_noted e forced tau endAt s c
  obtain ⟨snap, hpub⟩ := hended.pub
  exact (SlotStep.put (.refl c) (by rw [hpub]; exact ⟨_, rfl⟩)).trans (.of_noted hnoted)

theorem slotStep_splitAt (e : Nat) (forced : Bool) (off : Nat) (x : Sample) (c : Chip) : SlotStep c (splitAt e forced off x c) :=
  .put (slotStep_cycleEnd ..)

theorem slotStep_restartCycle (e : Nat) (x : Sample) (c : Chip) : SlotStep c (restartCycle e x c) :=
  .put (.ite (slotStep_cycleEnd ..) (.refl c))

theorem slotStep_joinCycle (e : Nat) (x : Sample) (c : Chip) : SlotStep c (joinCycle e x c) := by
  unfold joinCycle
  exact .ite (.put (.refl c)) (.put (.refl c))

theorem slotStep_applyBoundary (b : Boundary) (e : Nat) (x : Sample) (c : Chip) : SlotStep c (applyBoundary b e x c) := by
  cases b with
  | none => exact slotStep_joinCycle ..
  | crossing off => exact slotStep_splitAt ..
  | ignored => exact .put (slotStep_joinCycle ..)
  | forced off => exact .put (.refl c)
  | restart => exact slotStep_restartCycle ..

theorem slotStep_dcSample (e : Nat) (x : Sample) (c : Chip) : SlotStep c (dcSample e x c) := by
  unfold dcSample
  refine .ite (.refl c) (.ite (.put ?_) (.put (.refl c)))
  exact (SlotStep.put (.refl c)).trans (slotStep_cycleEnd ..)

theorem slotNoted_countInvalid (e : Nat) (x : Sample) (c : Chip) : SlotNoted e c (countInvalid e x c) := by
  unfold countInvalid
  exact .ite (.put (.refl c)) ((SlotNoted.put (.refl c)).trans (.flag (by decide) e _))

theorem slotStep_slotTake (e : Nat) (c : Chip) : SlotStep c (slotTake e c) :=
  (SlotStep.put (.refl c)).trans (.of_noted (slotNoted_countInvalid ..))

theorem slotStep_placeForced (e : Nat) (c : Chip) : SlotStep c (placeForced e c) := by
  unfold placeForced
  split
  · refine (slotStep_splitAt ..).trans (.foldl (fun c k => ?_) _ _)
    split
    · exact slotStep_splitAt ..
    · exact .refl c
  · exact .refl c

theorem slotStep_elemTrick (e : Nat) (c : Chip) : SlotStep c (elemTrick e c) := by
  have hserve : ∀ (x : Sample) (ys : List (Nat × Sample)) (d : Chip), SlotStep c d → SlotStep c
      (if elemKind e d = 2 then ys.foldl (fun c ky => dcSample ky.1 ky.2 c) (dcSample e x d)
      else placeForced e (ys.foldl (fun c ky => applyBoundary (boundaryOf e x d) ky.1 ky.2 c)
        (applyBoundary (boundaryOf e x d) e x d))) := fun x ys d h => by
    refine h.trans (.ite ?_ (.trans ?_ (slotStep_placeForced ..)))
    · exact (slotStep_dcSample ..).trans (.foldl (fun c ky => slotStep_dcSample ky.1 ky.2 c) ys _)
    · exact (slotStep_applyBoundary ..).trans (.foldl (fun c ky => slotStep_applyBoundary _ ky.1 ky.2 c) ys _)
  unfold elemTrick
  refine .ite (.refl c) (hserve _ _ _ ?_)
  exact (slotStep_slotTake e c).trans (.foldl (α := Nat × Sample) (fun c ky => slotStep_slotTake ky.1 c) _ _)

/-- An element without a sample in its slot has none to take. -/
theorem elemTrick_of_none {e : Nat} {c : Chip} (h : (elemGet e c).pending = none) : elemTrick e c = c :=
  if_pos (.inr (by rw [h]; rfl))

/-! ### A forced boundary, R171, R185 -/

/-- What the boundary in a sample's interval rests on. -/
structure SameTiming (e : Nat) (c d : Chip) : Prop where
  running : (elemGet e d).running = (elemGet e c).running
  age : (elemGet e d).age = (elemGet e c).age
  first : (elemGet e d).first = (elemGet e c).first
  freerun : (elemGet e d).freerun = (elemGet e c).freerun
  armed : (elemGet e d).armed = (elemGet e c).armed
  prev : (elemGet e d).prev = (elemGet e c).prev
  sums : (elemGet e d).sums = (elemGet e c).sums
  dead : (elemGet e d).dead = (elemGet e c).dead
  hz : elemHz e d = elemHz e c

theorem SameTiming.forcedDue_eq {e : Nat} {c d : Chip} (h : SameTiming e c d) : forcedDue e d = forcedDue e c := by
  simp only [forcedDue, h.running, h.age, h.freerun, h.hz]

theorem SameTiming.boundaryOf_eq {e : Nat} {c d : Chip} (h : SameTiming e c d) (x : Sample) : boundaryOf e x d = boundaryOf e x c := by
  simp only [boundaryOf, crossing, h.forcedDue_eq, h.running, h.age, h.first, h.freerun, h.armed, h.prev, h.sums, h.dead]

theorem forcedDue_of_boundaryOf {e off : Nat} {x : Sample} {c : Chip} (h : boundaryOf e x c = .forced off) :
    forcedDue e c = some off := by
  cases hdue : forcedDue e c with
  | some f =>
    simp only [boundaryOf, hdue] at h
    split at h
    · split at h <;> cases h
    · split at h
      · cases h
      · split at h
        · split at h
          · cases h
          · exact congrArg some (Boundary.forced.inj h)
        · exact congrArg some (Boundary.forced.inj h)
  | none =>
    simp only [boundaryOf, hdue] at h
    split at h
    · split at h <;> cases h
    · split at h
      · cases h
      · split at h
        · split at h <;> cases h
        · cases h

theorem getF_flagF_incomp {f : Fld} (hf : f.lsb % 32 ≠ 1 ∧ f.lsb % 32 ≠ 24) (i e : Nat) (c : Chip) :
    getF f i (flagF Reg.MTR_STAT_INCOMP e 0 Reg.MTR_STAT_EVT_CNT e c) = getF f i c :=
  getF_flagF_of_lsb hf.1 hf.2 ..

/-- The element that a slot's end leaves to its sample. -/
def slotOpen (e : Nat) (c : Chip) : ElemState :=
  { elemGet e c with pending := none, upTo := some (slotSample e c).at_ }

theorem slotTake_cases {e : Nat} (he : e < 64) (c : Chip) : ∃ n, ∃ d, slotTake e c = d ∧
    elemGet e d = { slotOpen e c with overrun := false, invTotal := n } ∧ (∀ k, k ≠ e → elemGet k d = elemGet k c) ∧
    d.bil = c.bil ∧ d.backup.ms = c.backup.ms ∧
    ∀ f i, f.lsb % 32 ≠ 1 ∧ f.lsb % 32 ≠ 24 → getF f i d = getF f i c := by
  have hopen : elemGet e (elemPut e (slotOpen e c) c) = slotOpen e c := elemGet_elemPut he _ c
  have hothers : ∀ x k, k ≠ e → elemGet k (elemPut e x (elemPut e (slotOpen e c) c)) = elemGet k c := fun x k hk => by
    rw [elemGet_elemPut_ne hk, elemGet_elemPut_ne hk]
  rw [slotTake, countInvalid]
  dsimp only
  rw [← slotOpen, hopen]
  split
  · exact ⟨(slotOpen e c).invTotal, _, rfl, elemGet_elemPut he .., hothers _, rfl, rfl, fun f i _ => getF_elemPut ..⟩
  · refine ⟨_, _, rfl, (elemGet_congr (flagF_mtr ..) e).trans (elemGet_elemPut he ..), fun k hk => ?_, ?_, ?_, fun f i hf => ?_⟩
    · rw [elemGet_congr (flagF_mtr ..), hothers _ k hk]
    · rw [flagF_bil]
      rfl
    · rw [flagF_backup]
      rfl
    · rw [getF_flagF_incomp hf, getF_elemPut, getF_elemPut]

/-- The sample in whose interval a forced boundary falls is held until the boundary is placed. -/
def slotHeld (e : Nat) (c : Chip) : Chip :=
  elemPut e { elemGet e (slotTake e c) with held := some (slotSample e c) } (slotTake e c)

/-- The end of a slot leaves what its boundary rests on. -/
theorem sameTiming_slotTake {e : Nat} (he : e < 64) (c : Chip) : SameTiming e c (slotTake e c) := by
  obtain ⟨n, d, htake, hown, -, -, -, hreg⟩ := slotTake_cases he c
  rw [htake]
  have hhz : elemHz e d = elemHz e c := by
    simp only [elemHz, elemV, streamHz, hreg Reg.MTR_CFG_VSTREAM _ (by decide), hreg Reg.SNS_CFG_NOM60 _ (by decide)]
    rfl
  constructor
  case hz => exact hhz
  all_goals rw [hown, slotOpen]

theorem sameTiming_slotHeld {e : Nat} (he : e < 64) (c : Chip) : SameTiming e (slotTake e c) (slotHeld e c) := by
  have hown : elemGet e (slotHeld e c) = { elemGet e (slotTake e c) with held := some (slotSample e c) } := elemGet_elemPut he _ _
  constructor
  case hz => rfl
  all_goals rw [hown]

theorem checkersOf_slotHeld {e : Nat} (he : e < 64) (c : Chip) : checkersOf e (slotHeld e c) = checkersOf e c := by
  obtain ⟨n, d, htake, -, -, -, -, hreg⟩ := slotTake_cases he c
  refine List.filter_congr fun k _ => ?_
  simp only [elemKind, slotHeld, getF_elemPut, htake, hreg Reg.MTR_CFG_KIND _ (by decide), hreg Reg.MTR_CFG_CHECKS _ (by decide)]

/-- R171: the forced boundary in the interval of the sample in the slot is placed. -/
theorem elemTrick_of_forced {e : Nat} (he : e < 64) {off : Nat} {c : Chip} (hkind : elemKind e c = 1)
    (hpend : (elemGet e c).pending.isSome = true) (hforced : boundaryOf e (slotSample e c) c = .forced off)
    (hcheck : checkersOf e c = []) : elemTrick e c = splitAt e true off (slotSample e c) (slotHeld e c) := by
  have htiming := sameTiming_slotTake he c
  have hheld : (elemGet e (slotHeld e c)).held = some (slotSample e c) := congrArg ElemState.held (elemGet_elemPut he _ _)
  have hdue : forcedDue e (slotHeld e c) = some off :=
    ((sameTiming_slotHeld he c).forcedDue_eq.trans htiming.forcedDue_eq).trans (forcedDue_of_boundaryOf hforced)
  have hkind' : elemKind e (slotTake e c) = 1 := by
    obtain ⟨n, d, htake, -, -, -, -, hreg⟩ := slotTake_cases he c
    rw [htake, elemKind, hreg Reg.MTR_CFG_KIND _ (by decide)]
    exact hkind
  have hbilling : ¬((!elemBilling e c) = true ∨ (elemGet e c).pending.isNone = true) := by
    rw [elemKind] at hkind
    simp [elemBilling, hkind, Option.isSome_iff_ne_none.mp hpend]
  have hplace : placeForced e (slotHeld e c) = splitAt e true off (slotSample e c) (slotHeld e c) := by
    rw [placeForced, hheld, hdue]
    dsimp only
    rw [checkersOf_slotHeld he, hcheck]
    rfl
  rw [elemTrick, if_neg hbilling]
  dsimp only
  rw [hcheck, List.map_nil, List.foldl_nil, if_neg (by rw [hkind']; decide), htiming.boundaryOf_eq, hforced, ← hplace]
  rfl

/-- What a forced boundary does to the element: a cycle more ends and waits, and the next one free-runs. -/
structure ElemForced (off : Nat) (x y : ElemState) : Prop where
  freerun : y.freerun = true
  held : y.held = none
  pending : y.pending = none
  cycles : y.cycles = x.cycles + 1
  pub : y.pub.length = x.pub.length + 1
  age : y.age = perT - off

theorem elemForced_elemTrick {e : Nat} (he : e < 64) {off : Nat} {c : Chip} (hkind : elemKind e c = 1)
    (hpend : (elemGet e c).pending.isSome = true) (hforced : boundaryOf e (slotSample e c) c = .forced off)
    (hcheck : checkersOf e c = []) :
    ElemForced off (elemGet e c) (elemGet e (elemTrick e c)) ∧ (∀ k, k ≠ e → elemGet k (elemTrick e c) = elemGet k c) ∧
      (elemTrick e c).backup.ms = c.backup.ms ∧ (elemTrick e c).bil = c.bil := by
  obtain ⟨n, d, htake, hown, hothers, hbil, hms, -⟩ := slotTake_cases he c
  have hheld : elemGet e (slotHeld e c) = { elemGet e (slotTake e c) with held := some (slotSample e c) } := elemGet_elemPut he _ _
  have hrest : ∀ k, k ≠ e → elemGet k (slotHeld e c) = elemGet k c := fun k hk => by
    rw [slotHeld, elemGet_elemPut_ne hk, htake, hothers k hk]
  obtain ⟨x, hended, hnoted⟩ := cycleEnd_noted e true ((elemGet e (slotHeld e c)).age + off) (boundaryAt (slotSample e c) off)
    (addPart (slotSample e c) (partOf off) (elemGet e (slotHeld e c)).sums) (slotHeld e c)
  obtain ⟨snap, hpub⟩ := hended.pub
  have hown' := hnoted.own
  rw [elemGet_elemPut he] at hown'
  rw [hheld, htake, hown] at hended hpub
  rw [elemTrick_of_forced he hkind hpend hforced hcheck, splitAt]
  rw [elemGet_elemPut he]
  refine ⟨⟨rfl, rfl, ?_, ?_, ?_, rfl⟩, fun k hk => ?_, ?_, ?_⟩
  · exact hown'.pending.trans hended.pending
  · exact hown'.cycles.trans hended.cycles
  · exact (congrArg List.length (hown'.pub.trans hpub)).trans (by rw [List.length_append, slotOpen]; rfl)
  · rw [elemGet_elemPut_ne hk, hnoted.others k hk, elemGet_elemPut_ne hk, hrest k hk]
  · exact hnoted.kept.ms.trans ((congrArg (fun d : Chip => d.backup.ms) htake).trans hms)
  · exact hnoted.bil.trans ((congrArg Chip.bil htake).trans hbil)

/-- R171: the step of a slot's end in which a forced boundary is placed. -/
theorem run_elemTrick_forced {s : State} {e : Fin 64} {off : Nat} (hkind : elemKind e.val s.toChip = 1)
    (hpend : (s.mtr[e]).pending.isSome = true) (hforced : boundaryOf e.val (slotSample e.val s.toChip) s.toChip = .forced off)
    (hcheck : checkersOf e.val s.toChip = []) (hs : Settled s.toChip) {f : Chip → Chip} (hrow : f s.toChip = elemTrick e.val s.toChip) :
    ∃ t, s.run f = .next t ∧ (t.mtr[e]).freerun = true ∧ (t.mtr[e]).held = none ∧ (t.mtr[e]).pending = none ∧
      (t.mtr[e]).cycles = (s.mtr[e]).cycles + 1 ∧ (t.mtr[e]).pub.length = (s.mtr[e]).pub.length + 1 ∧
      (t.mtr[e]).age = perT - off ∧ (∀ k : Fin 64, k ≠ e → t.mtr[k] = s.mtr[k]) ∧ t.backup.ms = s.backup.ms ∧ t.bil = s.bil := by
  rw [← elemGet_val] at hpend
  obtain ⟨hown, hothers, hms, hbil⟩ := elemForced_elemTrick e.isLt hkind hpend hforced hcheck
  refine ⟨_, run_row hs hrow (slotStep_elemTrick ..).kept.die, ?_⟩
  have hget : ∀ k : Fin 64, (elemTrick e.val s.toChip).mtr[k] = elemGet k.val (elemTrick e.val s.toChip) := fun k =>
    (elemGet_val k _).symm
  dsimp only
  rw [hget e, ← elemGet_val]
  refine ⟨hown.freerun, hown.held, hown.pending, hown.cycles, hown.pub, hown.age, fun k hk => ?_, hms, hbil⟩
  rw [hget k, hothers k.val (fun h => hk (Fin.ext h)), elemGet_val]

end Sys2Proof.Machine
end


section
/-!
Metrology tricks (chapter 07, R109, R187): what publishing a cycle, the sensing paths and the next deal leave, and the trick as a whole.
-/

namespace Sys2Proof.Machine
open Sys2Proof Sys2Proof.Safety

/-! ### The registers of a trick -/

/-- The registers that a trick writes besides the snapshot groups: the slots' flags and counters, those of the Dealer's hands and the
sensing paths (CIC_ORDER, at bit 23, apart), and those of the capture unit. -/
def EdgeKey (k : Nat) : Prop := SlotKey k ∨ (k < 0x80000 * 32 ∧ k % 32 ≠ 23) ∨ 0x1c0000 * 32 ≤ k

/-- The registers that a trick writes in which the elements of `own` publish; the settings of an element stand in its first word. -/
def TrickKey (own : Nat → Prop) (k : Nat) : Prop :=
  EdgeKey k ∨ (0x80000 * 32 ≤ k ∧ 4 ≤ k / 32 % 1024 ∧ own (k / 32768 - 512))

/-- A field of one of 96 streams or fewer units, below the metrology registers. -/
abbrev SenseField (f : Fld) : Prop := f.base + f.stride * 95 < 0x80000 ∧ f.lsb < 32 ∧ f.lsb ≠ 23

theorem edgeKey_of_senseField {f : Fld} (h : SenseField f) {i : Nat} (hi : i < 96) : EdgeKey (fkey f i) := by
  obtain ⟨hb, hl, hne⟩ := h
  have hprod : f.stride * i ≤ f.stride * 95 := Nat.mul_le_mul_left _ (by omega)
  refine .inr (.inl ⟨?_, ?_⟩) <;> simp only [fkey] <;> omega

/-- A field of an element's registers behind its settings. -/
abbrev MeterField (f : Fld) : Prop := 0x80004 ≤ f.base ∧ f.base < 0x80400 ∧ f.stride = 1024 ∧ f.lsb < 32

theorem trickKey_of_meterField {f : Fld} (h : MeterField f) (e : Nat) {own : Nat → Prop} (hown : own e) :
    TrickKey own (fkey f e) := by
  obtain ⟨hb, hb', hs, hl⟩ := h
  have hpage : fkey f e / 32768 - 512 = e := by simp only [fkey, hs]; omega
  refine .inr ⟨?_, ?_, by rw [hpage]; exact hown⟩ <;> simp only [fkey, hs] <;> omega

/-- What a trick leaves of an element's own snapshot group while the others publish. -/
theorem not_trickKey_meter {f : Fld} (h : MeterField f ∧ f.base ≠ 0x80010 ∧ f.base ≠ 0x80078) {e : Nat}
    (he : e < 64) : ¬TrickKey (· ≠ e) (fkey f e) := by
  obtain ⟨⟨hb, hb', hs, hl⟩, h10, h78⟩ := h
  have hpage : fkey f e / 32768 - 512 = e := by simp only [fkey, hs]; omega
  rintro (hedge | ⟨-, -, hk⟩)
  · simp only [EdgeKey, SlotKey, fkey, hs] at hedge
    omega
  · exact hk hpage

theorem not_trickKey_kind (own : Nat → Prop) {e : Nat} (he : e < 64) : ¬TrickKey own (fkey Reg.MTR_CFG_KIND e) := by
  rintro ((⟨-, hk⟩ | ⟨hk, -⟩ | hk) | ⟨-, hk, -⟩) <;> simp only [fkey, Reg.MTR_CFG_KIND] at hk <;> omega

theorem not_trickKey_order (own : Nat → Prop) {s : Nat} (hs : s < 96) : ¬TrickKey own (fkey Reg.SNS_CFG_CIC_ORDER s) := by
  rintro ((⟨hk, -⟩ | ⟨-, hk⟩ | hk) | ⟨hk, -⟩) <;> simp only [fkey, Reg.SNS_CFG_CIC_ORDER] at hk <;> omega

/-! ### Publishing, R187, R189, R194, R228 -/

namespace TrickKept
variable {W : Nat → Prop} {c d : Chip}

theorem set {f : Fld} {i v : Nat} (h : TrickKept W c d) (hk : W (fkey f i)) : TrickKept W c (Machine.setF f i v d) :=
  h.trans (.setF hk v d)

end TrickKept

/-- What the ledger unit leaves: every register and every element. -/
structure LedgerStep (c d : Chip) : Prop where
  kept : TrickKept (fun _ => False) c d
  mtr : d.mtr = c.mtr

namespace LedgerStep
variable {a c d : Chip}

theorem refl (c : Chip) : LedgerStep c c := ⟨.refl c, rfl⟩

theorem trans (h : LedgerStep a c) (g : LedgerStep c d) : LedgerStep a d := ⟨h.kept.trans g.kept, g.mtr.trans h.mtr⟩

theorem withBil (c : Chip) (b : LedgerState) : LedgerStep c { c with bil := b } :=
  ⟨⟨fun f i _ => getF_withRegs f i rfl rfl rfl, rfl, rfl, rfl, rfl, rfl⟩, rfl⟩

theorem tamper (code info : Nat) (c : Chip) : LedgerStep c (tamper code info c) := ⟨.tamper code info c, tamper_mtr ..⟩

theorem ite {p : Prop} [Decidable p] {d' : Chip} (h : LedgerStep c d) (h' : LedgerStep c d') :
    LedgerStep c (if p then d else d') := by split <;> assumption

end LedgerStep

theorem ledgerStep_bankTake (k : Nat) (t : Take) (c : Chip) : LedgerStep c (bankTake k t c) :=
  ⟨⟨fun f i _ => getF_withRegs f i rfl rfl rfl, rfl, rfl, rfl, rfl, rfl⟩, rfl⟩

theorem ledgerStep_noteReading (tariff : Nat) (t : Take) (c : Chip) : LedgerStep c (noteReading tariff t (applyTake tariff t c)) :=
  (LedgerStep.withBil c _).trans (.ite (.refl _) (.withBil _ _))

theorem ledgerStep_attributeTake (t : Take) (c : Chip) : LedgerStep c (attributeTake t c) := by
  unfold attributeTake
  split
  · exact .ite (.withBil c _) (ledgerStep_noteReading ..)
  · exact ledgerStep_noteReading ..

theorem ledgerStep_ledgerTake (e : Nat) (s : CycleSnap) (c : Chip) : LedgerStep c (ledgerTake e s c) := by
  unfold ledgerTake
  refine .ite (.refl c) ?_
  split
  · exact .withBil c _
  · exact ((LedgerStep.withBil c _).trans (ledgerStep_bankTake ..)).trans (ledgerStep_attributeTake ..)

theorem ledgerStep_neutralStep (e : Nat) (c : Chip) : LedgerStep c (neutralStep e c) := by
  unfold neutralStep
  exact .ite (.refl c) ((LedgerStep.withBil c _).trans (.ite (.tamper ..) (.refl _)))

/-- What publishing a cycle of element `k` leaves. -/
structure PubStep (k : Nat) (c d : Chip) : Prop where
  kept : TrickKept (TrickKey (· = k)) c d
  others : ∀ j, j ≠ k → elemGet j d = elemGet j c

namespace PubStep
variable {k : Nat} {a c d : Chip}

theorem refl (c : Chip) : PubStep k c c := ⟨.refl c, fun _ _ => rfl⟩

theorem trans (h : PubStep k a c) (g : PubStep k c d) : PubStep k a d :=
  ⟨h.kept.trans g.kept, fun j hj => (g.others j hj).trans (h.others j hj)⟩

theorem set {f : Fld} {v : Nat} (h : PubStep k c d) (hf : MeterField f := by decide) : PubStep k c (setF f k v d) :=
  ⟨h.kept.set (trickKey_of_meterField hf k rfl), fun j hj => (elemGet_congr (setF_mtr ..) j).trans (h.others j hj)⟩

theorem put {x : ElemState} (h : PubStep k c d) : PubStep k c (elemPut k x d) :=
  ⟨h.kept.trans (.elemPut k x d), fun j hj => (elemGet_elemPut_ne hj x d).trans (h.others j hj)⟩

end PubStep

theorem pubStep_cptLatch (e : Nat) (c : Chip) : PubStep e c (cptLatch e c) := by
  unfold cptLatch
  dsimp only
  split
  · exact .refl c
  · exact .put (.refl c)

theorem pubStep_publishCycle (e : Nat) (s : CycleSnap) (c : Chip) : PubStep e c (publishCycle e s c) := by
  unfold publishCycle
  dsimp only
  repeat refine .set ?_
  refine .put ?_
  repeat refine .set ?_
  exact .refl c

theorem pubStep_publishElem (e : Nat) (c : Chip) : PubStep e c (publishElem c e) := by
  unfold publishElem
  split
  · exact .refl c
  · have hpub := fun s rest => (PubStep.put (x := { elemGet e (cptLatch e c) with pub := rest }) (pubStep_cptLatch e c)).trans
      (pubStep_publishCycle e s _)
    have hledger := fun d s => (ledgerStep_ledgerTake e s d).trans (ledgerStep_neutralStep e _)
    exact (hpub _ _).trans ⟨(hledger _ _).kept.mono fun _ => False.elim, fun j _ => elemGet_congr (hledger _ _).mtr j⟩

/-- Fields of one element's registers at different places are different fields. -/
theorem getF_setF_of_meter {f g : Fld} (h : f.stride = 1024 ∧ g.stride = 1024 ∧ g.base * 32 + g.lsb ≠ f.base * 32 + f.lsb)
    (e v : Nat) (c : Chip) : getF g e (setF f e v c) = getF g e c := by
  obtain ⟨hf, hg, hne⟩ := h
  refine getF_setF_of_key (fun hk => hne ?_) v c
  simp only [fkey, hf, hg] at hk
  omega

theorem getF_seq_publishCycle (e : Nat) (s : CycleSnap) (c : Chip) :
    getF Reg.MTR_SEQ_SEQ e (publishCycle e s c) = (getF Reg.MTR_SEQ_SEQ e c + 1) % 2 ^ 32 := by
  simp (disch := decide) only [publishCycle, setPair, getF_setF_of_meter, getF_elemPut, getF_setF_same]
  exact Nat.mod_mod ..

theorem getF_vrms_publishCycle (e : Nat) (s : CycleSnap) (c : Chip) :
    getF Reg.MTR_VRMS_VRMS e (publishCycle e s c) = s.vrms % 2 ^ 32 := by
  simp (disch := decide) only [publishCycle, setPair, getF_setF_of_meter, getF_elemPut, getF_setF_same]
  rfl

theorem getF_freq_publishCycle (e : Nat) (s : CycleSnap) (c : Chip) :
    getF Reg.MTR_FREQ_FREQ e (publishCycle e s c) = s.freq % 2 ^ 17 := by
  simp (disch := decide) only [publishCycle, setPair, getF_setF_of_meter, getF_elemPut, getF_setF_same]
  rfl

theorem getF_energy_publishCycle (e : Nat) (s : CycleSnap) (c : Chip) :
    getF Reg.MTR_EA_IMP_LO_TOTAL e (publishCycle e s c) = s.totals[0] % 2 ^ 32 := by
  simp (disch := decide) only [publishCycle, setPair, getF_setF_of_meter, getF_elemPut, getF_setF_same]
  exact Nat.mod_mod ..

/-! ### The sensing paths and the next deal, R109, R149-R154 -/

namespace TrickKept
variable {c d : Chip}

theorem ite {W : Nat → Prop} {d' : Chip} {p : Prop} [Decidable p] (h : TrickKept W c d) (h' : TrickKept W c d') :
    TrickKept W c (if p then d else d') := by split <;> assumption

theorem sense {f : Fld} {i v : Nat} (h : TrickKept EdgeKey c d) (hi : i < 96) (hf : SenseField f := by decide) :
    TrickKept EdgeKey c (Machine.setF f i v d) := h.set (edgeKey_of_senseField hf hi)

theorem stream (h : TrickKept EdgeKey c d) (s : Nat) (x : StreamState) : TrickKept EdgeKey c (streamPut s x d) :=
  h.trans ⟨fun f i _ => getF_withRegs f i rfl rfl rfl, rfl, rfl, rfl, rfl, rfl⟩

/-- The edges' registers are among those of a trick. -/
theorem ofEdge (h : TrickKept EdgeKey c d) (own : Nat → Prop) : TrickKept (TrickKey own) c d := h.mono fun _ => .inl

end TrickKept

theorem edgeKept_slewStep {s : Nat} (hs : s < 96) (c : Chip) : TrickKept EdgeKey c (slewStep s c) := by
  unfold slewStep slewShow
  exact .sense (.ite (.refl c) (.sense (.refl c) hs)) hs

theorem edgeKept_overrange {s : Nat} (hs : s < 96) (c : Chip) : TrickKept EdgeKey c (overrange s c) := by
  unfold overrange setBitF addSat
  exact .sense (.sense (.sense (.sense (.refl c) (by omega)) (by omega)) hs) hs

theorem edgeKept_metDeliver {s : Nat} (hs : s < 96) (c : Chip) : TrickKept EdgeKey c (metDeliver s c) := by
  have hout : ∀ (p : Bool) (d : Chip), TrickKept EdgeKey d (if p then overrange s d else setF Reg.SNS_SSTAT_OVR s 0 d) :=
    fun p d => .ite (edgeKept_overrange hs d) (.sense (.refl d) hs)
  unfold metDeliver
  refine .ite (.refl c) ?_
  exact (((TrickKept.stream (.refl c) s _).sense (f := Reg.SNS_DENS_ONES) hs).trans (hout _ _)).trans (edgeKept_slewStep hs _)

/-- The next metrology sample is at hand. -/
def metNext (c : Chip) : Chip := { c with sns := { c.sns with metN := c.sns.metN + 1 } }

theorem edgeKept_sensingEdge (c : Chip) : TrickKept EdgeKey (metNext c) (sensingEdge c) :=
  .sense (TrickKept.foldl (fun s hs d => edgeKept_metDeliver (List.mem_range.mp hs) d) (metNext c)) (by decide)

theorem edgeKept_showStream {s : Nat} (hs : s < 96) (c : Chip) : TrickKept EdgeKey c (showStream s c) := by
  unfold showStream setBitF lossAny
  exact .sense (.sense (.sense (.sense (.refl c) (by omega)) hs) hs) (by decide)

theorem edgeKept_sensingRecover (c : Chip) : TrickKept EdgeKey c (sensingRecover c) := by
  refine TrickKept.foldl (fun s hs d => ?_) c
  unfold recoverAt
  exact .ite ((TrickKept.stream (.refl d) s _).trans (edgeKept_showStream (List.mem_range.mp hs) _)) (.refl d)

theorem edgeKey_capture {f : Fld} (h : f.base = 0x1c0054) (i : Nat) : EdgeKey (fkey f i) := by
  refine .inr (.inr ?_)
  simp only [fkey, h]
  omega

theorem edgeKept_withMem (c : Chip) (m : MemState) : TrickKept EdgeKey c { c with mem := m } :=
  ⟨fun f i _ => getF_withRegs f i rfl rfl rfl, rfl, rfl, rfl, rfl, rfl⟩

theorem edgeKept_capPut (ch k : Nat) (v : Int) (c : Chip) : TrickKept EdgeKey c (capPut ch k v c) := by
  unfold capPut wordPut
  exact .ite (edgeKept_withMem c _) (edgeKept_withMem c _)

theorem edgeKept_captureTick (prot : Bool) (c : Chip) : TrickKept EdgeKey c (captureTick prot c) := by
  unfold captureTick
  split
  · exact .refl c
  · refine .ite (.refl c) ((TrickKept.trans ?_ (edgeKept_withMem _ _)).set (edgeKey_capture rfl 0) |>.set (edgeKey_capture rfl 0))
    refine TrickKept.foldl (fun q _ d => ?_) c
    exact (edgeKept_capPut ..).trans (.ite (.refl _) (.setF (edgeKey_capture rfl 0) _ _))

/-- What the next deal leaves of the registers. -/
theorem edgeKept_meServe (c : Chip) : TrickKept EdgeKey c (meServe c) := by
  unfold meServe
  refine .ite (.refl c) (TrickKept.foldl (fun h hh d => ?_) c)
  have hlt : h < 96 := lt_trans (List.mem_range.mp hh) (by decide)
  exact .sense (.ite (.sense (.refl d) hlt) (.refl d)) hlt

theorem edgeKept_elemDeliver (now : Int) (c : Chip) (e : Nat) : TrickKept EdgeKey c (elemDeliver now c e) := by
  unfold elemDeliver
  exact .ite (.refl c) (.elemPut e _ c)

theorem edgeKept_meDeal (frac : BitVec 16) (c : Chip) : TrickKept EdgeKey c (meDeal frac c) := by
  unfold meDeal
  exact .ite ((edgeKept_meServe c).trans (TrickKept.foldl (fun e _ d => edgeKept_elemDeliver _ d e) _)) (.refl c)

theorem elemConfigured_of_kept {own : Nat → Prop} {c d : Chip} (h : TrickKept (TrickKey own) c d) {e : Nat} (he : e < 64) :
    elemConfigured e d = elemConfigured e c := by rw [elemConfigured, h.reg _ _ (not_trickKey_kind own he), elemConfigured]

theorem maxOrder_of_kept {own : Nat → Prop} {c d : Chip} (h : TrickKept (TrickKey own) c d) : maxOrder d = maxOrder c :=
  List.foldl_ext _ _ _ fun m s hs => by
    simp only [streamOrder, h.reg _ _ (not_trickKey_order own (List.mem_range.mp hs))]

/-- A configured element has its sample in the slot once it is delivered, and no other delivery takes it. -/
theorem pending_elemDeliver {e : Nat} (he : e < 64) (now : Int) {l : List Nat} {c : Chip} (hconf : elemConfigured e c = true)
    (h : e ∈ l ∨ (elemGet e c).pending.isSome = true) : (elemGet e (l.foldl (elemDeliver now) c)).pending.isSome = true := by
  induction l generalizing c with
  | nil => exact h.resolve_left (List.not_mem_nil)
  | cons k l ih =>
    have hstep := (edgeKept_elemDeliver now c k).ofEdge fun _ => True
    refine ih ((elemConfigured_of_kept hstep he).trans hconf) ?_
    by_cases hk : k = e
    · subst hk
      refine .inr ?_
      rw [elemDeliver, if_neg (by simp [hconf]), elemGet_elemPut he]
      rfl
    · refine h.imp (fun hmem => (List.mem_cons.mp hmem).resolve_left fun h => hk h.symm) fun hpend => ?_
      rw [elemDeliver]
      split
      · exact hpend
      · rw [elemGet_elemPut_ne fun h => hk h.symm]
        exact hpend

theorem pending_meDeal {e : Nat} (he : e < 64) (frac : BitVec 16) {c : Chip} (hserves : edgeServes c = true)
    (hconf : elemConfigured e c = true) : (elemGet e (meDeal frac c)).pending.isSome = true := by
  have hserve := (edgeKept_meServe c).ofEdge fun _ => True
  rw [meDeal, if_pos hserves]
  exact pending_elemDeliver he _ ((elemConfigured_of_kept hserve he).trans hconf) (.inl (List.mem_range.mpr he))

/-! ### The end of a trick, R109, R187 -/

/-- The slots of every element end. -/
def slotsEnded (c : Chip) : Chip := (List.range 64).foldl (fun c e => elemTrick e c) c

theorem slotStep_slotsEnded (c : Chip) : SlotStep c (slotsEnded c) := .foldl (fun c e => slotStep_elemTrick e c) _ _

theorem slotsEnded_of_none {c : Chip} (h : ∀ k, (elemGet k c).pending = none) : slotsEnded c = c :=
  List.foldl_fixed' (fun k => elemTrick_of_none (h k)) _

/-- What the publishing of the other elements leaves. -/
structure PubOthers (e : Nat) (c d : Chip) : Prop where
  kept : TrickKept (TrickKey (· ≠ e)) c d
  own : elemGet e d = elemGet e c

theorem pubOthers_publishElem {e k : Nat} (h : k ≠ e) (c : Chip) : PubOthers e c (publishElem c k) := by
  have hstep := pubStep_publishElem k c
  refine ⟨hstep.kept.mono fun key hk => ?_, hstep.others e fun he => h he.symm⟩
  exact hk.imp id fun ⟨hlow, hword, hpage⟩ => ⟨hlow, hword, hpage ▸ h⟩

theorem pubOthers_foldl {e : Nat} {l : List Nat} (h : e ∉ l) (c : Chip) : PubOthers e c (l.foldl publishElem c) := by
  induction l generalizing c with
  | nil => exact ⟨.refl c, rfl⟩
  | cons k l ih =>
    have hhead := pubOthers_publishElem (fun hk => h (List.mem_cons.mpr (.inl hk.symm))) c
    have htail := ih (fun hl => h (List.mem_cons_of_mem k hl)) (publishElem c k)
    exact ⟨hhead.kept.trans htail.kept, htail.own.trans hhead.own⟩

/-- The oldest completed cycle of every element is published. -/
def cyclesPublished (c : Chip) : Chip := (List.range 64).foldl publishElem c

theorem meEnd_eq (c : Chip) : meEnd c = cyclesPublished (slotsEnded c) := rfl

/-- The publishing of element `e` stands between those of the others. -/
theorem cyclesPublished_at {e : Nat} (he : e < 64) (c : Chip) :
    ∃ d, PubOthers e c d ∧ PubOthers e (publishElem d e) (cyclesPublished c) := by
  obtain ⟨l₁, l₂, hl⟩ := List.append_of_mem (List.mem_range.mpr he)
  have hnodup : (l₁ ++ e :: l₂).Nodup := hl ▸ List.nodup_range
  obtain ⟨-, htail, hdis⟩ := List.nodup_append.mp hnodup
  refine ⟨l₁.foldl publishElem c, pubOthers_foldl (fun h => hdis e h e List.mem_cons_self rfl) c, ?_⟩
  rw [cyclesPublished, hl, List.foldl_append, List.foldl_cons]
  exact pubOthers_foldl (List.nodup_cons.mp htail).1 _

theorem trickKept_cyclesPublished (c : Chip) : TrickKept (TrickKey fun _ => True) c (cyclesPublished c) :=
  TrickKept.foldl (fun e _ d => (pubStep_publishElem e d).kept.mono fun _ hk => hk.imp id fun ⟨hlow, hword, _⟩ =>
    ⟨hlow, hword, trivial⟩) c

theorem slotKey_edge (own : Nat → Prop) {c d : Chip} (h : TrickKept SlotKey c d) : TrickKept (TrickKey own) c d :=
  h.mono fun _ hk => .inl (.inl hk)

theorem trickKept_meEnd (c : Chip) : TrickKept (TrickKey fun _ => True) c (meEnd c) :=
  (slotKey_edge _ (slotStep_slotsEnded c).kept).trans (trickKept_cyclesPublished _)

/-- Element `e`'s snapshot group shows cycle `x`, and SEQ has risen. -/
structure Published (e : Nat) (x : CycleSnap) (c d : Chip) : Prop where
  seq : getF Reg.MTR_SEQ_SEQ e d = (getF Reg.MTR_SEQ_SEQ e c + 1) % 2 ^ 32
  vrms : getF Reg.MTR_VRMS_VRMS e d = x.vrms % 2 ^ 32
  freq : getF Reg.MTR_FREQ_FREQ e d = x.freq % 2 ^ 17
  energy : getF Reg.MTR_EA_IMP_LO_TOTAL e d = x.totals[0] % 2 ^ 32

theorem Published.after {e : Nat} (he : e < 64) {x : CycleSnap} {c d d' : Chip} (h : Published e x c d)
    (hkept : TrickKept (TrickKey (· ≠ e)) d d') : Published e x c d' where
  seq := (hkept.reg _ _ (not_trickKey_meter (by decide) he)).trans h.seq
  vrms := (hkept.reg _ _ (not_trickKey_meter (by decide) he)).trans h.vrms
  freq := (hkept.reg _ _ (not_trickKey_meter (by decide) he)).trans h.freq
  energy := (hkept.reg _ _ (not_trickKey_meter (by decide) he)).trans h.energy

theorem Published.before {e : Nat} (he : e < 64) {x : CycleSnap} {b c d : Chip} (h : Published e x c d)
    (hkept : TrickKept (TrickKey (· ≠ e)) b c) : Published e x b d :=
  ⟨h.seq.trans (by rw [hkept.reg _ _ (not_trickKey_meter (by decide) he)]), h.vrms, h.freq, h.energy⟩

theorem getF_cptLatch (f : Fld) (i e : Nat) (c : Chip) : getF f i (cptLatch e c) = getF f i c := by
  unfold cptLatch
  dsimp only
  split
  · rfl
  · exact getF_elemPut ..

theorem published_publishElem {e : Nat} {x : CycleSnap} {rest : List CycleSnap} {c : Chip}
    (h : (elemGet e c).pub = x :: rest) : Published e x c (publishElem c e) := by
  have hledger := fun d => ((ledgerStep_ledgerTake e x d).trans (ledgerStep_neutralStep e _)).kept
  rw [publishElem, h]
  dsimp only
  constructor <;> rw [(hledger _).reg _ _ not_false]
  · rw [getF_seq_publishCycle, getF_elemPut, getF_cptLatch]
  · exact getF_vrms_publishCycle ..
  · exact getF_freq_publishCycle ..
  · exact getF_energy_publishCycle ..

theorem publishElem_of_nil {e : Nat} {c : Chip} (h : (elemGet e c).pub = []) : publishElem c e = c := by
  rw [publishElem, h]

/-- The oldest cycle that waits at the trick's end is published. -/
theorem published_meEnd {e : Nat} (he : e < 64) {x : CycleSnap} {rest : List CycleSnap} {c : Chip}
    (h : (elemGet e c).pub = x :: rest) : Published e x c (meEnd c) := by
  have hslots := slotStep_slotsEnded c
  obtain ⟨more, hmore⟩ := h ▸ hslots.pub e
  obtain ⟨d, hbefore, hafter⟩ := cyclesPublished_at he (slotsEnded c)
  have hpub : (elemGet e d).pub = x :: (rest ++ more) := by rw [hbefore.own, ← hmore, List.cons_append]
  exact ((published_publishElem hpub).before he ((slotKey_edge _ hslots.kept).trans hbefore.kept)).after he hafter.kept

/-- Without a sample in any slot, an element with no cycle to publish keeps its SEQ. -/
theorem getF_seq_meEnd {e : Nat} (he : e < 64) {c : Chip} (hpub : (elemGet e c).pub = [])
    (hnone : ∀ k, (elemGet k c).pending = none) : getF Reg.MTR_SEQ_SEQ e (meEnd c) = getF Reg.MTR_SEQ_SEQ e c := by
  obtain ⟨d, hbefore, hafter⟩ := cyclesPublished_at he c
  rw [publishElem_of_nil (by rw [hbefore.own, hpub])] at hafter
  rw [meEnd_eq, slotsEnded_of_none hnone]
  exact (hbefore.kept.trans hafter.kept).reg _ _ (not_trickKey_meter (by decide) he)

/-! ### The trick -/

/-- What follows the end of the trick in progress: the next sample of every stream and its deal. -/
def meBegin (frac : BitVec 16) (c : Chip) : Chip :=
  meDeal frac (sensingRecover (captureTick false (sensingEdge c)))

theorem meTrick_of_due {frac : BitVec 16} {c : Chip} (hrun : c.pwr.phase = .run) (hclock : c.pwr.mclkFault = false)
    (hdue : c.sns.prtN = 40 * (c.sns.metN + 1)) : meTrick frac c = meBegin frac (meEnd c) := by
  rw [meTrick, if_neg (by simp [hrun]), if_neg (by simp [hclock]), if_neg (by simp [metDue, hdue])]
  rfl

theorem edgeKept_sensed (c : Chip) : TrickKept EdgeKey (metNext c) (sensingRecover (captureTick false (sensingEdge c))) :=
  ((edgeKept_sensingEdge c).trans (edgeKept_captureTick ..)).trans (edgeKept_sensingRecover _)

theorem edgeKept_meBegin (frac : BitVec 16) (c : Chip) : TrickKept EdgeKey (metNext c) (meBegin frac c) :=
  (edgeKept_sensed c).trans (edgeKept_meDeal ..)

theorem getF_metNext (f : Fld) (i : Nat) (c : Chip) : getF f i (metNext c) = getF f i c := getF_withRegs f i rfl rfl rfl

theorem latch_of_dieView {c d : Chip} (h : dieView d = dieView c) : d.hsl.latch = c.hsl.latch := congrArg (fun v => v.1.latch) h

/-- The next sample is all that changes outside the registers' keys of an edge. -/
theorem metNext_kept (c : Chip) : (metNext c).sns.metN = c.sns.metN + 1 ∧ (metNext c).sns.prtN = c.sns.prtN ∧
    (metNext c).backup = c.backup ∧ dieView (metNext c) = dieView c ∧ (metNext c).store = c.store := ⟨rfl, rfl, rfl, rfl, rfl⟩

theorem Published.begun {e : Nat} (he : e < 64) {x : CycleSnap} {c d : Chip} (h : Published e x c d) (frac : BitVec 16) :
    Published e x c (meBegin frac d) :=
  Published.after he ⟨(getF_metNext ..).trans h.seq, (getF_metNext ..).trans h.vrms, (getF_metNext ..).trans h.freq,
    (getF_metNext ..).trans h.energy⟩ ((edgeKept_meBegin frac d).ofEdge _)

/-- From the first trick edge on a configured element has a sample in its slot after every edge. -/
theorem pending_meBegin {e : Nat} (he : e < 64) (frac : BitVec 16) {c : Chip} (horder : maxOrder c ≤ c.sns.metN + 1)
    (hconf : elemConfigured e c = true) : (elemGet e (meBegin frac c)).pending.isSome = true := by
  have hkept := edgeKept_sensed c
  have htrick := hkept.ofEdge fun _ => True
  refine pending_meDeal he frac ?_ ((elemConfigured_of_kept htrick he).trans hconf)
  rw [edgeServes, maxOrder_of_kept htrick, hkept.metN]
  exact decide_eq_true horder

/-- An element's registers lie below the load switches. -/
theorem getF_settle_meter {f : Fld} (h : MeterField f) {e : Nat} (he : e < 64) (c : Chip) :
    getF f e (settle c) = getF f e c := by
  obtain ⟨-, hb, hs, hl⟩ := h
  refine getF_settle (shownKey_of_lt ?_) c
  simp only [fkey, hs]
  omega

/-- The step of a command whose row leaves `d`. -/
theorem run_settles {s : State} {f : Chip → Chip} {d : Chip} (h : f s.toChip = d) : ∃ t, s.run f = .next t ∧ t.toChip = settle d :=
  ⟨_, run_next f s, by dsimp only; rw [h]⟩

theorem mtr_of_settles {c d : Chip} (h : d = settle c) (e : Fin 64) : d.mtr[e] = elemGet e.val c := by
  rw [← elemGet_val, h, elemGet, settle_mtr, elemGet]

/-- R109, R187: the step of an ME trick edge. -/
theorem exec_meTrickEdge {s : State} (frac : BitVec 16) (hrun : s.pwr.phase = .run) (hclock : s.pwr.mclkFault = false)
    (hdue : s.sns.prtN = 40 * (s.sns.metN + 1)) :
    ∃ t, exec (.meTrickEdge frac) s = .next t ∧ t.sns.metN = s.sns.metN + 1 ∧ t.sns.prtN = s.sns.prtN ∧
      (∀ (e : Fin 64) (x : CycleSnap) (rest : List CycleSnap), (s.mtr[e]).pub = x :: rest → Published e.val x s.toChip t.toChip) ∧
      (∀ e : Fin 64, maxOrder s.toChip ≤ s.sns.metN + 1 → elemConfigured e.val s.toChip = true →
        (t.mtr[e]).pending.isSome = true) ∧
      (∀ e : Fin 64, (s.mtr[e]).pub = [] → (∀ k : Fin 64, (s.mtr[k]).pending = none) →
        getF Reg.MTR_SEQ_SEQ e.val t.toChip = getF Reg.MTR_SEQ_SEQ e.val s.toChip) ∧
      t.backup.ms = s.backup.ms ∧ t.hsl.latch = s.hsl.latch ∧ t.store.period = s.store.period := by
  have hrow := meTrick_of_due (frac := frac) hrun hclock hdue
  have hend := trickKept_meEnd s.toChip
  have hbegin := edgeKept_meBegin frac (meEnd s.toChip)
  obtain ⟨hmetN, hprtN, hbackup, hdie, hstore⟩ := metNext_kept (meEnd s.toChip)
  obtain ⟨t, hexec, ht⟩ := run_settles hrow
  refine ⟨t, hexec, ?_, ?_, fun e x rest hpub => ?_, fun e horder hconf => ?_, fun e hpub hnone => ?_, ?_, ?_, ?_⟩
  · rw [ht, settle_sns, hbegin.metN, hmetN, hend.metN]
  · rw [ht, settle_sns, hbegin.prtN, hprtN, hend.prtN]
  · have hshown := (published_meEnd e.isLt ((congrArg ElemState.pub (elemGet_val ..)).trans hpub)).begun e.isLt frac
    rw [ht]
    exact ⟨(getF_settle_meter (by decide) e.isLt _).trans hshown.seq, (getF_settle_meter (by decide) e.isLt _).trans hshown.vrms,
      (getF_settle_meter (by decide) e.isLt _).trans hshown.freq, (getF_settle_meter (by decide) e.isLt _).trans hshown.energy⟩
  · rw [mtr_of_settles ht]
    refine pending_meBegin e.isLt frac ?_ ((elemConfigured_of_kept hend e.isLt).trans hconf)
    rw [maxOrder_of_kept hend, hend.metN]
    exact horder
  · have hall : ∀ k, (elemGet k s.toChip).pending = none := fun k => by
      rcases Nat.lt_or_ge k 64 with hk | hk
      · exact (congrArg ElemState.pending (elemGet_val ⟨k, hk⟩ s.toChip)).trans (hnone ⟨k, hk⟩)
      · rw [elemGet_of_le hk]
    rw [ht, getF_settle_meter (by decide) e.isLt,
      (hbegin.ofEdge _).reg _ _ (not_trickKey_meter (f := Reg.MTR_SEQ_SEQ) (by decide) e.isLt), getF_metNext,
      getF_seq_meEnd e.isLt ((congrArg ElemState.pub (elemGet_val ..)).trans hpub) hall]
  · rw [ht, settle_backup, hbegin.ms, hbackup, hend.ms]
  · rw [ht, settle_hsl_latch]
    exact latch_of_dieView ((hbegin.die.trans hdie).trans hend.die)
  · rw [ht, settle_store, hbegin.period, hstore, hend.period]

end Sys2Proof.Machine
end


section
/-!
Check windows, counter latches and writes of N (chapter 07, R186, R189, R190), and the statement on metrology as a whole.
-/

namespace Sys2Proof.Machine
open Sys2Proof Sys2Proof.Safety

/-! ### Check windows, R186 -/

/-- An element's state put back, as the update of its place. -/
theorem elemPut_eq (e : Fin 64) (x : ElemState) (c : Chip) : elemPut e.val x c = { c with mtr := c.mtr.set e.val x } := by
  have hset : c.mtr.setIfInBounds e.val x = c.mtr.set e.val x := by
    simp [Vector.setIfInBounds, Vector.set, Array.setIfInBounds]
  rw [elemPut, hset]

/-- The window is done with. -/
def windowTaken (e : Fin 64) (c : Chip) : Chip := elemPut e.val { (c.mtr[e]) with winDone := none } c

/-- DEV of a window, in 0.01 %. -/
def windowDev (w : CheckWin) : Int := max (-32767) (min 32767 (divNear (10000 * (w.ec - w.eb)) w.eb.natAbs))

/-- The window's comparison is the element's next result. -/
def ElemState.compared (w : CheckWin) (x : ElemState) : ElemState :=
  { x with winDone := none, chkWin := (x.chkWin + 1) % 65536, chkDev := windowDev w }

def windowCompared (e : Fin 64) (w : CheckWin) (c : Chip) : Chip := elemPut e.val ((c.mtr[e]).compared w) (windowTaken e c)

/-- The deviation is flagged and recorded. -/
def deviationFlagged (e : Fin 64) (c : Chip) : Chip :=
  eventF Reg.MTR_STAT_CHK_DEV e.val e.val [] (flagF Reg.MTR_STAT_CHK_DEV e.val 0 Reg.MTR_STAT_EVT_CNT e.val c)

/-- The check element's energy lies outside the tolerance of the billing element's. -/
abbrev Deviates (e : Fin 64) (w : CheckWin) (c : Chip) : Prop :=
  getF Reg.MTR_CHKCFG_CHK_TOL e.val c * w.eb.natAbs < 10000 * (w.ec - w.eb).natAbs

theorem clampDev (d : Int) :
    (if 32767 < d then 32767 else if d < -32767 then -32767 else d) = max (-32767) (min 32767 d) := by
  split
  · omega
  · split <;> omega

theorem checkCompare_of_spoiled {e : Fin 64} {w : CheckWin} {c : Chip} (h : (c.mtr[e]).winDone = some w)
    (hspoiled : w.inv = true ∨ w.eb = 0) : checkCompare e.val c = windowTaken e c := by
  rw [checkCompare, elemGet_val, h]
  dsimp only
  exact if_pos (hspoiled.imp id .inr)

theorem checkCompare_of_whole {e : Fin 64} {w : CheckWin} {c : Chip} (h : (c.mtr[e]).winDone = some w)
    (hinv : w.inv = false) (heb : w.eb ≠ 0)
    (hcreep : 125 * 10 * getF Reg.MTR_LIM_CREEP e.val c * w.wb * powerDen ≤ w.eb.natAbs) : checkCompare e.val c =
      if Deviates e w c then deviationFlagged e (windowCompared e w c) else windowCompared e w c := by
  have hlarge : ¬(w.eb.natAbs < 125 * 10 * getF Reg.MTR_LIM_CREEP e.val (windowTaken e c) * w.wb * powerDen) := by
    rw [windowTaken, getF_elemPut]
    exact Nat.not_lt.mpr hcreep
  rw [checkCompare, elemGet_val, h]
  dsimp only
  rw [← windowTaken, if_neg (by simp [hinv, heb, hlarge]), clampDev, getF_elemPut, windowTaken, getF_elemPut]
  rfl

theorem elemGet_windowCompared (e : Fin 64) (w : CheckWin) (c : Chip) :
    elemGet e.val (windowCompared e w c) = (c.mtr[e]).compared w := elemGet_elemPut e.isLt ..

theorem elemGet_windowCompared_ne {e : Fin 64} {k : Nat} (h : k ≠ e.val) (w : CheckWin) (c : Chip) :
    elemGet k (windowCompared e w c) = elemGet k c := by
  rw [windowCompared, elemGet_elemPut_ne h, windowTaken, elemGet_elemPut_ne h]

theorem getF_windowCompared (f : Fld) (i : Nat) (e : Fin 64) (w : CheckWin) (c : Chip) :
    getF f i (windowCompared e w c) = getF f i c := by rw [windowCompared, windowTaken, getF_elemPut, getF_elemPut]

/-- R466: a record leaves every register below the host's. -/
theorem getF_eventRec {f : Fld} {i : Nat} (h : fkey f i < 0x1b0000 * 32) (b r k j : Nat) (x : List Nat) (c : Chip) :
    getF f i (eventRec b r k j x c) = getF f i c := by
  have hne : ∀ g : Fld, 0x1b0000 ≤ g.base → fkey f i ≠ fkey g 0 := fun g hg hk => by
    simp only [fkey] at hk h
    omega
  have hpush : ∀ c, getF f i (pushAll c) = getF f i c := fun c => by
    refine foldl_keeps (getF f i) _ (fun c s => ?_) _ c
    dsimp only
    split
    · rw [flagF, flagBit, addSat, getF_setF_of_key (hne _ (by decide)), setBitF, getF_setF_of_key (hne _ (by decide)),
        getF_pushEvents]
    · exact getF_pushEvents ..
  rw [eventRec, hpush, getF_setF_of_key (hne _ (by decide))]
  exact getF_withRegs f i rfl rfl rfl

theorem getF_chkDev_deviationFlagged (e : Fin 64) (c : Chip) :
    getF Reg.MTR_STAT_CHK_DEV e.val (deviationFlagged e c) = 1 := by
  have hlow : fkey Reg.MTR_STAT_CHK_DEV e.val < 0x1b0000 * 32 := by
    simp only [fkey, Reg.MTR_STAT_CHK_DEV]
    omega
  have hkey : fkey Reg.MTR_STAT_EVT_CNT e.val ≠ fkey Reg.MTR_STAT_CHK_DEV e.val := by
    simp only [fkey, Reg.MTR_STAT_CHK_DEV, Reg.MTR_STAT_EVT_CNT]
    omega
  rw [deviationFlagged, eventF, eventBit, getF_eventRec hlow, flagF_of_one_bit rfl hkey, getF_setF_of_lsb (by decide),
    getF_setF_same]
  rfl

theorem getF_evtSeq_deviationFlagged (e : Fin 64) (c : Chip) :
    getF Reg.HST_EVTSEQ_SEQ 0 (deviationFlagged e c) = (getF Reg.HST_EVTSEQ_SEQ 0 c + 1) % 2 ^ 32 := by
  rw [deviationFlagged, eventF, eventBit, getF_evtSeq_eventRec, getF_flagF_of_lsb (by decide) (by decide)]

/-- R186: the step of a window that is spoiled. -/
theorem exec_checkWindowEnd_spoiled {s : State} {e : Fin 64} {w : CheckWin} (h : (s.mtr[e]).winDone = some w)
    (hspoiled : w.inv = true ∨ w.eb = 0) (hs : Settled s.toChip) : exec (.checkWindowEnd e) s =
      .next { s with mtr := s.mtr.set e.val { (s.mtr[e]) with winDone := none } } :=
  run_row hs ((checkCompare_of_spoiled h hspoiled).trans (elemPut_eq ..)) rfl

/-- R186: the step of a window that is compared. -/
theorem exec_checkWindowEnd_whole {s : State} {e : Fin 64} {w : CheckWin} (h : (s.mtr[e]).winDone = some w)
    (hinv : w.inv = false) (heb : w.eb ≠ 0)
    (hcreep : 125 * 10 * getF Reg.MTR_LIM_CREEP e.val s.toChip * w.wb * powerDen ≤ w.eb.natAbs) :
    ∃ t, exec (.checkWindowEnd e) s = .next t ∧ t.mtr[e] = (s.mtr[e]).compared w ∧
      (Deviates e w s.toChip → getF Reg.MTR_STAT_CHK_DEV e.val t.toChip = 1 ∧
        getF Reg.HST_EVTSEQ_SEQ 0 t.toChip = (getF Reg.HST_EVTSEQ_SEQ 0 s.toChip + 1) % 2 ^ 32) ∧
      (∀ k : Fin 64, k ≠ e → t.mtr[k] = s.mtr[k]) ∧ t.backup = s.backup ∧ t.store = s.store := by
  have hrow := checkCompare_of_whole h hinv heb hcreep
  obtain ⟨t, hexec, ht⟩ := run_settles hrow
  have hget : ∀ k : Fin 64, t.mtr[k] = elemGet k.val (windowCompared e w s.toChip) := fun k => by
    rw [mtr_of_settles ht]
    split
    · exact elemGet_congr (by rw [deviationFlagged, eventF_mtr, flagF_mtr]) _
    · rfl
  refine ⟨t, hexec, ?_, fun hdev => ?_, fun k hk => ?_, ?_, ?_⟩
  · rw [hget, elemGet_windowCompared]
  · rw [ht, if_pos hdev, getF_settle_meter (by decide) e.isLt, getF_settle (by decide), getF_chkDev_deviationFlagged,
      getF_evtSeq_deviationFlagged, getF_windowCompared]
    exact ⟨rfl, rfl⟩
  · rw [hget, elemGet_windowCompared_ne (fun hv => hk (Fin.ext hv)), elemGet_val]
  · rw [ht, settle_backup]
    split
    · rw [deviationFlagged, eventF_backup, flagF_backup]
      rfl
    · rfl
  · rw [ht, settle_store]
    split
    · rw [deviationFlagged, eventF_store, flagF_store]
      rfl
    · rfl

/-! ### The compatibility counters, R189 -/

/-- The counters that latch from `totals`. -/
def ElemState.latched (u : Nat) (totals : Vector Nat 8) (x : ElemState) : ElemState :=
  { x with
    cptDue := none, cptSeq := (x.cptSeq + 1) % 2 ^ 32
    cpt := #v[totals[0] / u % 2 ^ 32, totals[1] / u % 2 ^ 32, (totals[2] + totals[4]) / u % 2 ^ 32,
      (totals[3] + totals[5]) / u % 2 ^ 32, (totals[6] + totals[7]) / u % 2 ^ 32] }

theorem cptLatch_of_due {e : Fin 64} {totals : Vector Nat 8} {c : Chip} (h : (c.mtr[e]).cptDue = some totals) :
    cptLatch e.val c = elemPut e.val ((c.mtr[e]).latched (max 1 (getF Reg.MTR_CPT_CFG_UNIT e.val c)) totals) c := by
  rw [cptLatch, elemGet_val, h]
  rfl

/-- R189: the step of a latch. -/
theorem exec_cptLatch {s : State} {e : Fin 64} {totals : Vector Nat 8} (h : (s.mtr[e]).cptDue = some totals)
    (hs : Settled s.toChip) : exec (.cptLatch e) s = .next { s with
      mtr := s.mtr.set e.val ((s.mtr[e]).latched (max 1 (getF Reg.MTR_CPT_CFG_UNIT e.val s.toChip)) totals) } :=
  run_row hs ((cptLatch_of_due h).trans (elemPut_eq ..)) rfl

/-! ### Writes of N, R190 -/

theorem cptCfgWrite_eq (who : Writer) {e : Nat} (he : e < 64) (n : Nat) : cptCfgWrite who e n = asWriter who (cptWrite e n) := by
  funext c
  unfold cptCfgWrite asWriter
  cases writerStatus who c
  case ok => exact if_neg (Nat.not_le.mpr he)
  all_goals rfl

/-- The field's new value stands in the group's shadow. -/
def shadowed (g key v : Nat) (c : Chip) : Chip :=
  { c with dlr := { c.dlr with shadow := (g, key, v) :: c.dlr.shadow.filter fun e => e.2.1 != key } }

theorem shadowOf_of_shadowed {g key v : Nat} {c d : Chip} (h : d.dlr = (shadowed g key v c).dlr) : shadowOf key d = some v := by
  rw [shadowOf, h, shadowed, List.find?_cons_of_pos (by simp)]
  rfl

theorem cptWrite_of_free {e n : Nat} {c : Chip} (hfree : pendingGroup e c = false) (hlow : 1 ≤ n) (hhigh : n ≤ 4000)
    (hcard : cardU16 0x0011 e 0x16 0 c ≠ 0) : cptWrite e n c = (shadowed e (fkey Reg.MTR_CPT_CFG_N e) n c, .ok) := by
  rw [cptWrite, if_neg (by simp [hfree]), if_neg (by omega), shadowWrite, if_neg (by simp [hfree])]
  rfl

theorem cptWrite_of_pending {e n : Nat} {c : Chip} (hkind : elemKind e c ≠ 0) (hpend : pendingGroup e c = true) :
    cptWrite e n c = (c, .busy) := if_pos ⟨hkind, hpend⟩

theorem cptWrite_of_range {e n : Nat} {c : Chip} (hfree : pendingGroup e c = false) (h : n = 0 ∨ 4000 < n) :
    cptWrite e n c = (c, .range) := by
  rw [cptWrite, if_neg (by simp [hfree]), if_pos (h.imp id .inl)]

/-- R190: the step of a write of N that is accepted. -/
theorem exec_cptCfgWrite_ok {s : State} {who : Writer} {e n : Nat} (hw : writerStatus who s.toChip = .ok) (he : e < 64)
    (hwrite : cptWrite e n s.toChip = (shadowed e (fkey Reg.MTR_CPT_CFG_N e) n s.toChip, .ok)) :
    ∃ t, exec (.cptCfgWrite who e n) s = .next t ∧ t.reply = .ok ∧
      shadowOf (fkey Reg.MTR_CPT_CFG_N e) t.toChip = some n ∧ t.mtr = s.mtr ∧
      getF Reg.MTR_CPT_CFG_N e t.toChip = getF Reg.MTR_CPT_CFG_N e s.toChip ∧ t.backup = s.backup ∧ t.store = s.store := by
  obtain ⟨t, hrun, hreply, ht⟩ := run_asWriter_accepted hw hwrite
  refine ⟨t, (congrArg s.run (cptCfgWrite_eq who he n)).trans hrun, hreply, ?_, ?_, ?_, ?_, ?_⟩
  · exact shadowOf_of_shadowed (c := s.toChip) (by rw [ht, settle_dlr]; rfl)
  · rw [ht, settle_mtr]
    rfl
  · rw [ht, getF_settle_meter (by decide) he, getF_answered]
    exact getF_withRegs _ _ rfl rfl rfl
  · rw [ht, settle_backup]
    rfl
  · rw [ht, settle_store]
    rfl

theorem exec_cptCfgWrite_refused {s : State} {who : Writer} {e n : Nat} {x : Status} (hw : writerStatus who s.toChip = .ok)
    (he : e < 64) (hs : Settled s.toChip) (hwrite : cptWrite e n s.toChip = (s.toChip, x)) :
    exec (.cptCfgWrite who e n) s = .next { s with reply := x } :=
  (congrArg s.run (cptCfgWrite_eq who he n)).trans (run_asWriter_refused hw hs hwrite)

/-! ### The obligation -/

/-- Settles O20. -/
theorem cyclesPublishAndAreChecked : Obligations.CyclesPublishAndAreChecked := by
  refine ⟨fun s frac hrun hclock hdue => ?_, fun s e off hkind hpend hforced hcheck hs => ⟨fun hlocked => ?_, fun hfree => ?_⟩,
    fun s e w hdone => ⟨exec_checkWindowEnd_spoiled hdone, fun hinv heb hcreep => ?_⟩, fun s e totals => exec_cptLatch,
    fun s who e n hw he => ⟨fun hfree hlow hhigh hcard => ?_, fun hkind hpend hs => ?_, fun hfree hrange hs => ?_⟩⟩
  · obtain ⟨t, hexec, hmetN, hprtN, hpub, hpend, hseq, hrest⟩ := exec_meTrickEdge frac hrun hclock hdue
    refine ⟨t, hexec, hmetN, hprtN, fun e x rest hx => ?_, hpend, hseq, hrest⟩
    have hshown := hpub e x rest hx
    exact ⟨hshown.seq, hshown.vrms, hshown.freq, hshown.energy⟩
  · exact run_elemTrick_forced hkind hpend hforced hcheck hs (f := cycleTimeout e)
      (if_neg (by rw [elemGet_val, hlocked]; decide))
  · exact run_elemTrick_forced hkind hpend hforced hcheck hs (f := freerunBoundary e) (if_pos (by rw [elemGet_val, hfree]))
  · obtain ⟨t, hexec, hown, hdev, hothers, hbackup, hstore⟩ := exec_checkWindowEnd_whole hdone hinv heb hcreep
    exact ⟨t, hexec, by rw [hown]; rfl, by rw [hown]; rfl, by rw [hown]; rfl, hdev, hothers, hbackup, hstore⟩
  · exact exec_cptCfgWrite_ok hw he (cptWrite_of_free hfree hlow hhigh hcard)
  · exact exec_cptCfgWrite_refused hw he hs (cptWrite_of_pending hkind hpend)
  · exact exec_cptCfgWrite_refused hw he hs (cptWrite_of_range hfree hrange)

end Sys2Proof.Machine
end

section
/-!
The protection output (chapter 06, R141, R147): what it leaves of the device, and the bits it counts into the loss windows.
-/

namespace Sys2Proof.Machine
open Sys2Proof Sys2Proof.Safety

/-! ### What the protection unit leaves, R278-R287 -/

/-- The device without its registers, the instances' states and the flits on their way, and the relays of the insulation monitors. -/
def unitView (c : Chip) : Chip × (Nat → Bool) := (blindView c, fun n => (insGet n c).inj)

theorem part_of_unitView {β : Type} (g : Chip → β) (hg : ∀ c, g (blindView c) = g c) {c d : Chip} (h : unitView d = unitView c) :
    g d = g c := by
  rw [← hg d, ← hg c]
  exact congrArg (fun v => g v.1) h

theorem lswInput_of_unitView {c d : Chip} (h : unitView d = unitView c) (x : LswChan) : lswInput x d = lswInput x c := by
  have hhsl : d.hsl = c.hsl := part_of_unitView Chip.hsl (fun _ => rfl) h
  have hlsw : d.lsw = c.lsw := part_of_unitView Chip.lsw (fun _ => rfl) h
  have hrelay : (insGet x.src d).inj = (insGet x.src c).inj := congrArg (fun v => v.2 x.src) h
  simp only [insGet] at hrelay
  simp only [lswInput, lsinHigh, hslBay, hhsl, hlsw, hrelay]

/-- Of the protection unit's state a settled power die reads the relays alone. -/
theorem settled_of_unitView {c d : Chip} (hs : Settled c) (h : unitView d = unitView c) : Settled d := by
  have hhsl : d.hsl = c.hsl := part_of_unitView Chip.hsl (fun _ => rfl) h
  have hlsw : d.lsw = c.lsw := part_of_unitView Chip.lsw (fun _ => rfl) h
  have hpwr : d.pwr = c.pwr := part_of_unitView Chip.pwr (fun _ => rfl) h
  obtain ⟨hgates, houts, htests⟩ := hs
  refine ⟨?_, fun k hk => ?_, fun k hk => ?_⟩
  · rw [gatesSafe_iff] at hgates ⊢
    exact fun n hn => (gateOk_congr hhsl n).trans (hgates n hn)
  · rw [lsw_congr hlsw, houts k hk]
    simp only [lswWanted, lswInput_of_unitView h, Chip.powered, hpwr, hlsw]
  · rw [lsw_congr hlsw, lswInput_of_unitView h]
    exact htests k hk

theorem unitView_protPut (n : Nat) (x : ProtInst) (c : Chip) : unitView (protPut n x c) = unitView c := rfl

theorem unitView_insPut {n : Nat} {x : InsState} {c : Chip} (h : x.inj = (insGet n c).inj) :
    unitView (insPut n x c) = unitView c := by
  refine Prod.ext rfl (funext fun m => ?_)
  show (insGet m (insPut n x c)).inj = (insGet m c).inj
  by_cases hm : m = n
  · subst hm
    rcases Nat.lt_or_ge m 16 with hlt | hge
    · rw [insGet_insPut_same hlt, h]
    · simp [insGet, insPut, Nat.not_lt.mpr hge]
  · rw [insGet_insPut_ne hm]

theorem unitView_tripSend (n : Nat) (kinds : BitVec 6) (c : Chip) : unitView (tripSend n kinds c) = unitView c := by
  unfold tripSend
  exact view_ite rfl rfl

theorem unitView_blindStep (n : Nat) (c : Chip) : unitView (blindStep n c) = unitView c := by
  unfold blindStep
  exact view_ite rfl ((unitView_tripSend ..).trans rfl)

theorem unitView_residualStep (n : Nat) (c : Chip) : unitView (residualStep n c).1 = unitView c := by
  unfold residualStep
  split
  · rfl
  · exact unitView_protPut ..

theorem unitView_setCap (n : Nat) (c : Chip) : unitView (setCap n c) = unitView c := unitView_protPut ..

theorem unitView_stage1 (n : Nat) (c : Chip) : unitView (stage1 n c) = unitView c := by
  unfold stage1
  refine view_ite (unitView_protPut ..) (view_ite (unitView_setCap n c) ?_)
  refine (foldl_keeps unitView _ (fun d b => ?_) _ _).trans (unitView_protPut ..)
  exact view_ite (unitView_setCap b d) rfl

theorem unitView_overcurrentStep (n : Nat) (c : Chip) : unitView (overcurrentStep n c).1 = unitView c := by
  simp only [overcurrentStep]
  exact view_ite (unitView_stage1 ..) rfl

theorem unitView_insulationStep (n : Nat) (c : Chip) : unitView (insulationStep n c) = unitView c := by
  unfold insulationStep
  split
  · exact view_ite rfl (view_ite (unitView_insPut rfl) (unitView_insPut rfl))
  · rfl

theorem unitView_protStep (n : Nat) (c : Chip) : unitView (protStep n c) = unitView c := by
  have hresidual : ∀ d, unitView (if n < 16 then residualStep n d else (d, 0)).1 = unitView d := fun d => by
    split
    · exact unitView_residualStep n d
    · rfl
  have hinsulation : ∀ d, unitView (if n < 16 then insulationStep n d else d) = unitView d := fun d =>
    view_ite (unitView_insulationStep n d) rfl
  have hsteps : ∀ d, unitView (if n < 16 then insulationStep n (overcurrentStep n d).1 else (overcurrentStep n d).1) = unitView d :=
    fun d => (hinsulation _).trans (unitView_overcurrentStep n d)
  have hall := (hsteps _).trans ((hresidual _).trans (unitView_blindStep n c))
  unfold protStep
  exact view_ite rfl (view_ite hall ((unitView_tripSend ..).trans hall))

theorem unitView_protectionUnit (c : Chip) : unitView (protectionUnit c) = unitView c := by
  unfold protectionUnit
  exact view_ite rfl (foldl_keeps unitView _ (fun c n => unitView_protStep n c) _ c)

/-! ### What a capture leaves, R489 -/

/-- The device without its registers and memories. -/
def captureView (c : Chip) : Chip := { noRegs c with mem := {} }

theorem captureView_setF (f : Fld) (i v : Nat) (c : Chip) : captureView (setF f i v c) = captureView c :=
  congrArg (fun d : Chip => { d with mem := {} }) (noRegs_setF f i v c)

theorem captureView_capPut (ch k : Nat) (v : Int) (c : Chip) : captureView (capPut ch k v c) = captureView c := by
  unfold capPut wordPut
  exact view_ite rfl rfl

theorem captureView_captureTick (prot : Bool) (c : Chip) : captureView (captureTick prot c) = captureView c := by
  unfold captureTick
  split
  · rfl
  · refine view_ite rfl ?_
    rw [captureView_setF, captureView_setF]
    exact foldl_keeps_over captureView _ (fun c q => view_ite (captureView_capPut ..)
      ((captureView_setF ..).trans (captureView_capPut ..))) _ c

/-! ### The output of a stream, R139, R147 -/

/-- The loss window takes its bits until it is full. -/
theorem winBits_capture (whole order : Nat) (bit : Nat → Bool) (l : List Nat) (j : Nat) (x : StreamState) :
    ((j :: l).foldl (fun x j => captureBit whole order x (bit j)) x).winBits = min (x.winBits + (l.length + 1)) 256 := by
  induction l generalizing j x with
  | nil => rfl
  | cons i l ih =>
    rw [List.foldl_cons, ih]
    simp only [captureBit, List.length_cons]
    omega

theorem winBits_protectionStream (n : Nat) (bits : BitVec 64) (s : Nat) (c : Chip) (x : StreamState) :
    (protectionStream n bits s c x).winBits = min (x.winBits + 64) 256 := by
  have hcapture := winBits_capture (getF Reg.SNS_DLY_REAL s c / 64) (streamOrder s c) bits.getLsbD
    ((List.range 63).map Nat.succ) 0 x
  rw [List.length_map, List.length_range, ← List.range_succ_eq_map] at hcapture
  unfold protectionStream
  dsimp only
  split <;> exact hcapture

theorem sensingProtection_stream (bits : Vector (BitVec 64) 96) (k : Fin 96) (c : Chip) :
    (sensingProtection bits c).sns.streams[k] =
      if streamOn k.val c then protectionStream (c.sns.prtN + 1) bits[k] k.val c c.sns.streams[k] else c.sns.streams[k] := by
  simp [sensingProtection]

/-! ### The step -/

theorem dieView_sensingProtection (bits : Vector (BitVec 64) 96) (c : Chip) : dieView (sensingProtection bits c) = dieView c := by
  simp only [dieView, sensingProtection]

theorem protectionOutput_of_run {bits : Vector (BitVec 64) 96} {c : Chip} (hrun : c.pwr.phase = .run)
    (hclock : c.pwr.mclkFault = false) :
    protectionOutput bits c = captureTick true (protectionUnit (sensingProtection bits c)) := by
  rw [protectionOutput, if_neg (by simp [hrun, hclock])]

/-- R141: the step of a protection output. -/
theorem exec_protectionOutput {s : State} (bits : Vector (BitVec 64) 96) (hs : Settled s.toChip) (hrun : s.pwr.phase = .run)
    (hclock : s.pwr.mclkFault = false) : ∃ t, exec (.protectionOutput bits) s = .next t ∧
      t.sns = (sensingProtection bits s.toChip).sns ∧ t.bil = s.bil ∧ t.mtr = s.mtr := by
  have hsensed : Settled (sensingProtection bits s.toChip) := settled_of_dieView hs (dieView_sensingProtection ..)
  have hunit := unitView_protectionUnit (sensingProtection bits s.toChip)
  have hkept : ∀ {β : Type} (g : Chip → β), (∀ c, g (blindView c) = g c) → (∀ c, g (captureView c) = g c) →
      g (protectionOutput bits s.toChip) = g (sensingProtection bits s.toChip) := fun g hblind hcap => by
    rw [protectionOutput_of_run hrun hclock, ← hcap, captureView_captureTick, hcap, part_of_unitView g hblind hunit]
  have hbil : (sensingProtection bits s.toChip).bil = s.bil := by simp only [sensingProtection]
  have hmtr : (sensingProtection bits s.toChip).mtr = s.mtr := by simp only [sensingProtection]
  have hset := settled_of_dieView (settled_of_unitView hsensed hunit) (edgeKept_captureTick true _).die
  rw [← protectionOutput_of_run hrun hclock] at hset
  exact ⟨_, run_settled hset, hkept Chip.sns (fun _ => rfl) (fun _ => rfl), (hkept Chip.bil (fun _ => rfl) (fun _ => rfl)).trans hbil,
    (hkept Chip.mtr (fun _ => rfl) (fun _ => rfl)).trans hmtr⟩

end Sys2Proof.Machine
end

section
/-!
Loss windows, declared losses and the recovery of a stream (chapter 06, R147-R150), and the statement on them as a whole.
-/

namespace Sys2Proof.Machine
open Sys2Proof Sys2Proof.Safety

/-! ### A stream's state -/

theorem streamPut_eq (k : Fin 96) (x : StreamState) (c : Chip) :
    streamPut k.val x c = { c with sns := { c.sns with streams := c.sns.streams.set k.val x } } := by
  have hset : c.sns.streams.setIfInBounds k.val x = c.sns.streams.set k.val x := by
    simp [Vector.setIfInBounds, Vector.set, Array.setIfInBounds]
  rw [streamPut, hset]

theorem stream_val (k : Fin 96) (c : Chip) : c.sns.streams[k.val]?.getD {} = c.sns.streams[k] := by simp

theorem stream_streamPut_same (k : Fin 96) (x : StreamState) (c : Chip) : (streamPut k.val x c).sns.streams[k] = x := by
  simp [streamPut]

theorem stream_streamPut_ne {j k : Fin 96} (h : j ≠ k) (x : StreamState) (c : Chip) :
    (streamPut k.val x c).sns.streams[j] = c.sns.streams[j] := by
  rw [← stream_val, ← stream_val j c, streamPut, Vector.getElem?_setIfInBounds_ne (fun hv => h (Fin.ext hv.symm))]

theorem stream_congr {c d : Chip} (h : d.sns = c.sns) (k : Fin 96) : d.sns.streams[k] = c.sns.streams[k] := by rw [h]

/-- Where a view of the streams' places is kept, the stream's state is. -/
theorem stream_of_getElem? {c d : Chip} {k : Fin 96} (h : d.sns.streams[k.val]? = c.sns.streams[k.val]?) :
    d.sns.streams[k] = c.sns.streams[k] := by rw [← stream_val, h, stream_val]

theorem getF_streamPut (f : Fld) (i s : Nat) (x : StreamState) (c : Chip) : getF f i (streamPut s x c) = getF f i c :=
  getF_withRegs f i rfl rfl rfl

/-- The sensing registers lie below the load switches and the host. -/
theorem shownKey_sense {f : Fld} {i : Nat} (hf : f.base < 0x42000 ∧ f.stride ≤ 32 ∧ f.lsb < 32) (hi : i < 96) :
    shownKey (fkey f i) = false := by
  obtain ⟨hb, hs, hl⟩ := hf
  have hoff : f.stride * i ≤ 32 * 96 := Nat.mul_le_mul hs (Nat.le_of_lt hi)
  refine shownKey_of_lt ?_
  simp only [fkey]
  omega

/-! ### What a stream shows -/

theorem getF_showStream_of_lsb {f : Fld} (h : f.lsb % 32 ≠ 0 ∧ f.lsb % 32 ≠ 2) (i s : Nat) (c : Chip) :
    getF f i (showStream s c) = getF f i c := by
  rw [showStream, lossAny, getF_setF_of_lsb h.1, getF_setF_of_lsb h.2, getF_setF_of_lsb h.1, setBitF, getF_setF_of_lsb h.1]

/-- SNS_LOSS is apart from what follows the stream. -/
theorem getF_loss_showStream (s : Nat) (c : Chip) :
    getF Reg.SNS_LOSS_LOSS (s / 32) (showStream s c) = getF Reg.SNS_LOSS_LOSS (s / 32) c := by
  rw [showStream, lossAny, getF_setF_of_key (by simp only [fkey, Reg.SNS_LOSS_LOSS, Reg.SNS_STAT_LOSS_ANY]; omega),
    getF_setF_of_lsb (by decide), getF_setF_of_key (by simp only [fkey, Reg.SNS_LOSS_LOSS, Reg.SNS_SSTAT_LOST]; omega), setBitF,
    getF_setF_of_key (by simp only [fkey, Reg.SNS_LOSS_LOSS, Reg.SNS_LOST_LOST]; omega)]

theorem noRegs_showStream (s : Nat) (c : Chip) : noRegs (showStream s c) = noRegs c := by
  simp only [showStream, lossAny, setBitF, noRegs_setF]

theorem part_of_showStream {β : Type} (g : Chip → β) (hg : ∀ c, g (noRegs c) = g c) (s : Nat) (c : Chip) :
    g (showStream s c) = g c := part_of_noRegs g hg (noRegs_showStream s c)

theorem getF_lost_showStream (k : Fin 96) (c : Chip) :
    getF Reg.SNS_SSTAT_LOST k.val (showStream k.val c) = ((c.sns.streams[k]).lost).toNat := by
  rw [showStream, lossAny, getF_setF_of_key (by simp only [fkey, Reg.SNS_SSTAT_LOST, Reg.SNS_STAT_LOSS_ANY]; omega),
    getF_setF_of_lsb (by decide), getF_setF_same, stream_val]
  cases (c.sns.streams[k]).lost <;> rfl

theorem getF_settle_showStream (k : Fin 96) (c : Chip) : getF Reg.SNS_SSTAT_SETTLE k.val (showStream k.val c) =
    ((c.sns.streams[k]).met.settle || (c.sns.streams[k]).prt.settle).toNat := by
  rw [showStream, lossAny, getF_setF_of_lsb (by decide), getF_setF_same, stream_val]
  cases (c.sns.streams[k]).met.settle <;> cases (c.sns.streams[k]).prt.settle <;> rfl

/-! ### A declaration of loss, R150 -/

/-- The losses are counted in one word, SNS_FLAG_EVT. -/
theorem getF_lossCounted {f : Fld} {i : Nat} (h : fkey f i / 32 ≠ 0x40030) (s : Nat) (c : Chip) :
    getF f i (lossCounted s c) = getF f i c := by
  have hword : ∀ g : Fld, fkey g 0 / 32 = 0x40030 → fkey f i ≠ fkey g 0 := fun g hg hk => h (hk ▸ hg)
  unfold lossCounted addSat
  split <;> exact getF_setF_of_key (hword _ (by decide)) ..

theorem getF_lossBilled (f : Fld) (i s : Nat) (c : Chip) : getF f i (lossBilled s c) = getF f i c := by
  unfold lossBilled
  split
  · exact getF_withRegs f i (tamper_regs ..) (tamper_bregs ..) (tamper_fregs ..)
  · rfl

/-- A declaration of loss shows at bits 0, 2 and 16 of the sensing registers, in SNS_FLAG_EVT and in the host's block. -/
theorem getF_declareLost {f : Fld} {i : Nat} (hlsb : (f.lsb % 32 ≠ 0 ∧ f.lsb % 32 ≠ 2) ∧ f.lsb % 32 ≠ 16)
    (hword : fkey f i / 32 ≠ 0x40030) (hhost : fkey f i < 0x1b0000 * 32) (s cause : Nat) (c : Chip) :
    getF f i (declareLost s cause c) = getF f i c := by
  obtain ⟨hshow, hcause⟩ := hlsb
  rw [declareLost_eq]
  split
  · rfl
  · split
    · simp only [lossAgain]
      split
      · rw [getF_setF_of_lsb hcause, getF_streamPut]
      · exact getF_streamPut ..
    · rw [getF_showStream_of_lsb hshow, getF_lossBilled, lossNew, eventBit, getF_eventRec hhost, addSat, getF_setF_of_lsb hcause,
        getF_setF_of_lsb hcause, getF_lossCounted hword, setBitF, getF_setF_of_lsb hshow.1, getF_streamPut]

/-- What the declaration of a stream that is not lost records. -/
structure LossDeclared (k : Fin 96) (cause : Nat) (c d : Chip) : Prop where
  lost : (d.sns.streams[k]).lost = true
  shown : getF Reg.SNS_SSTAT_LOST k.val d = 1
  cause : getF Reg.SNS_SSTAT_CAUSE k.val d = cause
  flag : (getF Reg.SNS_LOSS_LOSS (k.val / 32) d).testBit (k.val % 32) = true
  count : getF Reg.SNS_LOSSCNT_LOSS k.val d = min (getF Reg.SNS_LOSSCNT_LOSS k.val c + 1) 65535

theorem lost_lossNew (k : Fin 96) (cause : Nat) (c : Chip) :
    ((lossBilled k.val (lossNew k.val cause c)).sns.streams[k]).lost = true := by
  have hlost : streamLost k.val (lossBilled k.val (lossNew k.val cause c)) = true := by
    rw [streamLost_congr (lossBilled_sns ..), streamLost_lossNew k.isLt]
  rwa [streamLost, stream_val] at hlost

theorem lossDeclared_lossNew (k : Fin 96) {cause : Nat} (hcause : cause < 16) (c : Chip) :
    LossDeclared k cause c (showStream k.val (lossBilled k.val (lossNew k.val cause c))) := by
  refine ⟨?_, ?_, ?_, ?_, ?_⟩
  · rw [stream_congr (showStream_sns ..), lost_lossNew]
  · rw [getF_lost_showStream, lost_lossNew]
    rfl
  · rw [getF_showStream_of_lsb (by decide), getF_lossBilled, lossNew, eventBit,
      getF_eventRec (by simp only [fkey, Reg.SNS_SSTAT_CAUSE]; omega), addSat, getF_setF_ne _ _ _ _ _ _ (.inl (by decide)),
      getF_setF_same]
    exact Nat.mod_eq_of_lt hcause
  · rw [getF_loss_showStream, getF_lossBilled, lossNew, eventBit,
      getF_eventRec (by simp only [fkey, Reg.SNS_LOSS_LOSS]; omega), addSat, getF_setF_of_lsb (by decide),
      getF_setF_of_lsb (by decide), getF_lossCounted (by simp only [fkey, Reg.SNS_LOSS_LOSS]; omega)]
    exact testBit_setBitF (Nat.mod_lt _ (by decide)) _
  · rw [getF_showStream_of_lsb (by decide), getF_lossBilled, lossNew, eventBit,
      getF_eventRec (by simp only [fkey, Reg.SNS_LOSSCNT_LOSS]; omega), getF_addSat_same _ _ _ (by decide),
      getF_setF_ne _ _ _ _ _ _ (.inl (by decide)), getF_lossCounted (by simp only [fkey, Reg.SNS_LOSSCNT_LOSS]; omega), setBitF,
      getF_setF_of_lsb (by decide), getF_streamPut]

theorem lossDeclared_declareLost {k : Fin 96} {cause : Nat} (hcause : cause < 16) {c : Chip} (hon : streamOn k.val c = true)
    (hnew : (c.sns.streams[k]).lost = false) : LossDeclared k cause c (declareLost k.val cause c) := by
  rw [declareLost_eq, if_neg (by simp [hon]), stream_val, if_neg (by rw [hnew]; decide)]
  exact lossDeclared_lossNew k hcause c

theorem stream_declareLost_ne {j k : Fin 96} (h : j ≠ k) (cause : Nat) (c : Chip) :
    (declareLost k.val cause c).sns.streams[j] = c.sns.streams[j] :=
  stream_of_getElem? ((lossKeeps_other fun hv => h (Fin.ext hv)).declareLost cause c)

theorem part_of_declareLost {β : Type} (g : Chip → β) (hg : ∀ c, g (lossView c) = g c) (s cause : Nat) (c : Chip) :
    g (declareLost s cause c) = g c := by
  rw [← hg, (lossKeeps_lossView s).declareLost, hg]

/-! ### The end of a loss window, R147 -/

/-- The window holds fewer than 8 ones or fewer than 8 zeros. -/
def StreamState.windowBad (x : StreamState) : Bool := x.winOnes < 8 || x.winBits < x.winOnes + 8

theorem StreamState.windowBad_iff (x : StreamState) : x.windowBad = true ↔ x.winOnes < 8 ∨ x.winBits < x.winOnes + 8 := by
  simp [windowBad]

/-- The next window begins. -/
def StreamState.nextWindow (x : StreamState) : StreamState := { x with winOnes := 0, winBits := 0 }

/-- What the end of a full window does. -/
theorem lossWindow_of_full {k : Fin 96} {c : Chip} (hon : streamOn k.val c = true) (hfull : 256 ≤ (c.sns.streams[k]).winBits) :
    lossWindow k c =
      let x := (c.sns.streams[k]).nextWindow
      if (c.sns.streams[k]).windowBad then
        if x.lost then streamPut k.val { x with good := 0 } c
        else if x.recovery then showStream k.val (streamPut k.val { x with lost := true, good := 0, recovery := false } c)
        else if 1 ≤ x.bad then declareLost k.val 1 (streamPut k.val { x with bad := 0 } c)
        else streamPut k.val { x with bad := 1 } c
      else if x.lost then streamPut k.val { x with good := if c.pwr.mclkFault then 0 else min (x.good + 1) 512, bad := 0 } c
      else streamPut k.val { x with bad := 0 } c := by
  have hopen : ¬((!streamOn k.val c) = true ∨ (c.sns.streams[k]).winBits < 256) := by
    rw [hon]
    exact fun h => h.elim (by decide) (Nat.not_lt.mpr hfull)
  simp only [streamPut_eq]
  exact if_neg hopen

/-- R147: the step of a window that leaves the stream's declaration as it is. -/
theorem exec_lossWindowEnd_counted {s : State} {k : Fin 96} {x : StreamState} (hs : Settled s.toChip)
    (hrow : lossWindow k s.toChip = streamPut k.val x s.toChip) : exec (.lossWindowEnd k) s =
      .next { s with sns := { s.sns with streams := s.sns.streams.set k.val x } } :=
  run_row hs (hrow.trans (streamPut_eq ..)) rfl

/-- R147, R150: the step of a window that declares the stream lost. -/
theorem exec_lossWindowEnd_declared {s : State} {k : Fin 96} {x : StreamState} (hs : Settled s.toChip)
    (hon : streamOn k.val s.toChip = true) (hnew : x.lost = false)
    (hrow : lossWindow k s.toChip = declareLost k.val 1 (streamPut k.val x s.toChip)) :
    ∃ t, exec (.lossWindowEnd k) s = .next t ∧ LossDeclared k 1 s.toChip t.toChip ∧
      (∀ j : Fin 96, j ≠ k → t.sns.streams[j] = s.sns.streams[j]) ∧ t.bil = s.bil := by
  have hrole : streamOn k.val (streamPut k.val x s.toChip) = true := (streamOn_congr (getF_streamPut ..)).trans hon
  have hdeclared := lossDeclared_declareLost (cause := 1) (by decide) hrole (by rw [stream_streamPut_same]; exact hnew)
  refine ⟨_, run_row hs hrow (part_of_declareLost dieView (fun _ => rfl) ..), ⟨hdeclared.lost, hdeclared.shown, hdeclared.cause,
    hdeclared.flag, ?_⟩, fun j hj => ?_, part_of_declareLost Chip.bil (fun _ => rfl) ..⟩
  · rw [hdeclared.count, getF_streamPut]
  · exact (stream_declareLost_ne hj ..).trans (stream_streamPut_ne hj ..)

/-! ### A fault of MCK, R148 -/

/-- The fault is flagged. -/
def mckFlagged (g : Nat) (c : Chip) : Chip := flagF Reg.SNS_STAT_MCK_FAULT 0 g Reg.SNS_STAT_EVT_CNT 0 c

/-- The streams of a group are declared lost. -/
def groupLost (g : Nat) (c : Chip) : Chip := (List.range 16).foldl (fun c j => declareLost (16 * g + j) 2 c) c

theorem mckFault_of_on {g : Fin 6} {c : Chip} (h : getF Reg.SNS_GRP_MCK_ON g.val c ≠ 0) :
    mckFault g c = groupLost g.val (mckFlagged g.val c) := if_neg h

theorem testBit_mckFlagged {g : Nat} (hg : g < 6) (c : Chip) :
    (getF Reg.SNS_STAT_MCK_FAULT 0 (mckFlagged g c)).testBit g = true := by
  rw [mckFlagged, flagF, flagBit, addSat, getF_setF_of_lsb (by decide)]
  exact testBit_setBitF hg c

theorem getF_mckFault_groupLost (g : Nat) (c : Chip) :
    getF Reg.SNS_STAT_MCK_FAULT 0 (groupLost g c) = getF Reg.SNS_STAT_MCK_FAULT 0 c :=
  foldl_keeps _ _ (fun d _ => getF_declareLost (by decide) (by decide) (by decide) _ _ d) _ c

theorem part_of_groupLost {β : Type} (g : Chip → β) (hg : ∀ c, g (lossView c) = g c) (n : Nat) (c : Chip) :
    g (groupLost n c) = g c := foldl_keeps g _ (fun c _ => part_of_declareLost g hg _ _ c) _ c

/-- Every configured stream of the group is lost. -/
theorem lost_groupLost {k : Fin 96} {c : Chip} (hon : streamOn k.val c = true) :
    ((groupLost (k.val / 16) c).sns.streams[k]).lost = true := by
  have hplace : 16 * (k.val / 16) + k.val % 16 = k.val := Nat.div_add_mod ..
  obtain ⟨d, hd, hfold⟩ := foldl_at (fun c => (c.sns.streams[k.val]?, streamRole k.val c))
    (fun c j => declareLost (16 * (k.val / 16) + j) 2 c) (k.val % 16)
    (fun c m hm => Prod.ext ((lossKeeps_other (by omega)).declareLost 2 c) ((lossKeeps_streamRole _ _).declareLost 2 c))
    (List.range 16) List.nodup_range (List.mem_range.mpr (Nat.mod_lt _ (by decide))) c
  simp only [Prod.mk.injEq, hplace] at hd hfold
  have hlost := streamLost_declareLost k.isLt 2 ((streamOn_congr hd.2).trans hon)
  rw [streamLost, ← hfold.1, stream_val] at hlost
  exact hlost

theorem stream_groupLost_ne {g : Nat} {k : Fin 96} (h : k.val / 16 ≠ g) (c : Chip) :
    (groupLost g c).sns.streams[k] = c.sns.streams[k] :=
  stream_of_getElem? (foldl_keeps_mem (fun c => c.sns.streams[k.val]?) _ _ (fun j hj d => by
    have hj16 := List.mem_range.mp hj
    exact (lossKeeps_other (by omega)).declareLost 2 d) c)

/-- R148: the step of an MCK fault. -/
theorem exec_mckFault {s : State} {g : Fin 6} (hs : Settled s.toChip) (h : getF Reg.SNS_GRP_MCK_ON g.val s.toChip ≠ 0) :
    ∃ t, exec (.mckFault g) s = .next t ∧ (getF Reg.SNS_STAT_MCK_FAULT 0 t.toChip).testBit g.val = true ∧
      (∀ k : Fin 96, k.val / 16 = g.val → streamOn k.val s.toChip = true → (t.sns.streams[k]).lost = true) ∧
      (∀ k : Fin 96, k.val / 16 ≠ g.val → t.sns.streams[k] = s.sns.streams[k]) ∧ t.bil = s.bil := by
  have hflagged : ∀ {β : Type} (v : Chip → β), (∀ c, v (noRegs c) = v c) → v (mckFlagged g.val s.toChip) = v s.toChip :=
    fun v hv => part_of_noRegs v hv (noRegs_flagF ..)
  refine ⟨_, run_row hs (mckFault_of_on h) ?_, ?_, fun k hk hon => ?_, fun k hk => ?_, ?_⟩
  · exact (part_of_groupLost dieView (fun _ => rfl) ..).trans (hflagged dieView fun _ => rfl)
  · exact (congrArg (·.testBit g.val) (getF_mckFault_groupLost ..)).trans (testBit_mckFlagged g.isLt _)
  · have hrole : streamOn k.val (mckFlagged g.val s.toChip) = true :=
      (streamOn_congr (getF_flagF_of_lsb (by decide) (by decide) ..)).trans hon
    have hlost := lost_groupLost hrole
    rw [hk] at hlost
    exact hlost
  · exact (stream_groupLost_ne hk _).trans (stream_congr (hflagged Chip.sns fun _ => rfl) k)
  · exact (part_of_groupLost Chip.bil (fun _ => rfl) ..).trans (hflagged Chip.bil fun _ => rfl)

/-! ### Recovery, R149 -/

/-- A stream at its recovery point. -/
def StreamState.recovered (s : Nat) (c : Chip) (x : StreamState) : StreamState :=
  { x with
    lost := false, good := 0, recovery := true
    met := settlePath (setlMet s c) (streamK s c) x.met
    prt := settlePath (setlPrt s c) (streamK s c) x.prt }

theorem recoverStream_of_good {k : Fin 96} {c : Chip} (hlost : (c.sns.streams[k]).lost = true)
    (hgood : 512 ≤ (c.sns.streams[k]).good) (hpoint : c.sns.prtN = 40 * c.sns.metN) :
    recoverStream k c = showStream k.val (streamPut k.val ((c.sns.streams[k]).recovered k.val c) c) := by
  rw [recoverStream, recoverAt, stream_val]
  exact if_pos ⟨hlost, hgood, by simp [metBoundary, hpoint]⟩

/-- R149: the step of a recovery. -/
theorem exec_streamRecovery {s : State} {k : Fin 96} (hs : Settled s.toChip) (hlost : (s.sns.streams[k]).lost = true)
    (hgood : 512 ≤ (s.sns.streams[k]).good) (hpoint : s.sns.prtN = 40 * s.sns.metN) :
    ∃ t, exec (.streamRecovery k) s = .next t ∧ t.sns.streams[k] = (s.sns.streams[k]).recovered k.val s.toChip ∧
      getF Reg.SNS_SSTAT_LOST k.val t.toChip = 0 ∧ getF Reg.SNS_SSTAT_SETTLE k.val t.toChip = 1 ∧
      (∀ j : Fin 96, j ≠ k → t.sns.streams[j] = s.sns.streams[j]) ∧
      t.backup = s.backup ∧ t.store = s.store ∧ t.bil = s.bil := by
  refine ⟨_, run_row hs (recoverStream_of_good hlost hgood hpoint) (part_of_showStream dieView (fun _ => rfl) ..), ?_, ?_, ?_,
    fun j hj => ?_, ?_, ?_, ?_⟩
  · exact (stream_congr (showStream_sns ..) k).trans (stream_streamPut_same ..)
  · exact (getF_lost_showStream ..).trans (by rw [stream_streamPut_same]; rfl)
  · exact (getF_settle_showStream ..).trans (by rw [stream_streamPut_same]; rfl)
  · exact (stream_congr (showStream_sns ..) j).trans (stream_streamPut_ne hj ..)
  · exact part_of_showStream Chip.backup (fun _ => rfl) ..
  · exact part_of_showStream Chip.store (fun _ => rfl) ..
  · exact part_of_showStream Chip.bil (fun _ => rfl) ..

/-! ### The obligation -/

/-- Settles O18. -/
theorem streamsAreLostAndRecover : Obligations.StreamsAreLostAndRecover := by
  refine ⟨fun s bits hs hrun hclock => ?_, fun s k hon hs hfull => ⟨fun hones hzeros hlost => ?_, fun hbad hlost hrec hfirst => ?_,
    fun hbad hlost hrec hnext => ?_⟩, fun s k hs hlost hgood hpoint => ?_, fun s g hs h => exec_mckFault hs h⟩
  · obtain ⟨t, hexec, hsns, hbil, hmtr⟩ := exec_protectionOutput bits hs hrun hclock
    have hstream : ∀ k : Fin 96, t.sns.streams[k] = _ := fun k =>
      (stream_congr hsns k).trans (sensingProtection_stream bits k s.toChip)
    refine ⟨t, hexec, by rw [hsns, sensingProtection], by rw [hsns, sensingProtection], fun k hoff => ?_, fun k hon => ?_, hbil, hmtr⟩
    · rw [hstream, if_neg (by simp [hoff])]
    · rw [hstream, if_pos hon]
      exact ⟨rfl, winBits_protectionStream ..⟩
  · have hgood : (s.sns.streams[k]).windowBad = false := by
      rw [← Bool.not_eq_true, StreamState.windowBad_iff]
      omega
    refine exec_lossWindowEnd_counted hs ((lossWindow_of_full hon hfull).trans ?_)
    simp only [hgood, StreamState.nextWindow, hlost, Bool.false_eq_true, if_false]
  · refine exec_lossWindowEnd_counted hs ((lossWindow_of_full hon hfull).trans ?_)
    simp only [(StreamState.windowBad_iff _).mpr hbad, StreamState.nextWindow, hlost, hrec, hfirst, Nat.le_zero_eq, one_ne_zero,
      Bool.false_eq_true, if_true, if_false]
  · obtain ⟨t, hexec, h, hothers, hbil⟩ := exec_lossWindowEnd_declared (x := { (s.sns.streams[k]).nextWindow with bad := 0 }) hs hon
      hlost ((lossWindow_of_full hon hfull).trans (by
        simp only [(StreamState.windowBad_iff _).mpr hbad, StreamState.nextWindow, hlost, hrec, hnext, Bool.false_eq_true, if_true,
          if_false]))
    exact ⟨t, hexec, h.lost, h.shown, h.cause, h.flag, h.count, hothers, hbil⟩
  · obtain ⟨t, hexec, hown, hshown, hsettle, hrest⟩ := exec_streamRecovery hs hlost hgood hpoint
    refine ⟨t, hexec, ?_, ?_, ?_, ?_, ?_, ?_, hshown, hsettle, hrest⟩ <;> rw [hown] <;> rfl

end Sys2Proof.Machine
end

section
/-!
Settling, the pre-roll of the integrators and writes of a stream's delay (chapter 06, R153-R158), and the statement on them as a
whole.
-/

namespace Sys2Proof.Machine
open Sys2Proof Sys2Proof.Safety

/-! ### Settling, R158 -/

/-- The settling of a path whose length has run out ends. -/
def StreamState.pathSettled (path : SensePath) (x : StreamState) : StreamState :=
  match path with
  | .metrology => if x.met.left = 0 then { x with met := { x.met with settle := false } } else x
  | .protection => if x.prt.left = 0 then { x with prt := { x.prt with settle := false } } else x

/-- A stream's recovery ends with the settling of its second path. -/
def StreamState.recoveryEnded (x : StreamState) : StreamState :=
  if x.met.settle || x.prt.settle then x else { x with recovery := false }

theorem StreamState.recoveryEnded_paths (x : StreamState) : x.recoveryEnded.met = x.met ∧ x.recoveryEnded.prt = x.prt := by
  unfold recoveryEnded
  split <;> exact ⟨rfl, rfl⟩

theorem StreamState.recovery_recoveryEnded {x : StreamState} (hmet : x.met.settle = false) (hprt : x.prt.settle = false) :
    x.recoveryEnded.recovery = false := by rw [recoveryEnded, if_neg (by simp [hmet, hprt])]

theorem settleDone_eq (k : Fin 96) (path : SensePath) (c : Chip) :
    settleDone k path c = showStream k.val (streamPut k.val ((c.sns.streams[k]).pathSettled path).recoveryEnded c) := by
  rw [streamPut_eq]
  cases path <;> rfl

/-- R158: the step of the end of a settling. -/
theorem exec_settleEnd (s : State) (k : Fin 96) (path : SensePath) : ∃ t, exec (.settleEnd k path) s = .next t ∧
    t.sns.streams[k] = ((s.sns.streams[k]).pathSettled path).recoveryEnded ∧
    getF Reg.SNS_SSTAT_SETTLE k.val t.toChip = ((t.sns.streams[k]).met.settle || (t.sns.streams[k]).prt.settle).toNat ∧
    (∀ j : Fin 96, j ≠ k → t.sns.streams[j] = s.sns.streams[j]) ∧ t.backup = s.backup ∧ t.store = s.store := by
  obtain ⟨t, hexec, ht⟩ := run_settles (settleDone_eq k path s.toChip)
  have hsns : t.sns = (streamPut k.val ((s.sns.streams[k]).pathSettled path).recoveryEnded s.toChip).sns := by
    rw [ht, settle_sns, showStream_sns]
  have hown := (stream_congr hsns k).trans (stream_streamPut_same ..)
  refine ⟨t, hexec, hown, ?_, fun j hj => (stream_congr hsns j).trans (stream_streamPut_ne hj ..), ?_, ?_⟩
  · rw [hown, ht, getF_settle (shownKey_sense (by decide) k.isLt), getF_settle_showStream, stream_streamPut_same]
  · rw [ht, settle_backup, part_of_showStream Chip.backup (fun _ => rfl)]
    rfl
  · rw [ht, settle_store, part_of_showStream Chip.store (fun _ => rfl)]
    rfl

/-! ### The pre-roll, R157 -/

/-- The integrators of both paths start where their pre-rolls have run out. -/
def StreamState.integStarted (x : StreamState) : StreamState :=
  { x with
    met := { x.met with integ := integStart 1024 x.met.integ }
    prt := { x.prt with integ := integStart 40960 x.prt.integ } }

theorem prerollDone_eq (k : Fin 96) (c : Chip) : prerollDone k c = streamPut k.val (c.sns.streams[k]).integStarted c := by
  rw [streamPut_eq]
  rfl

theorem integStart_of_pre {len n : Nat} {sum : Int} {g : Integ} (h : g.pre = some (n, sum)) : integStart len g =
    if n < len then g else { x := divNear (sum * 2 ^ Config.integGuard) len, b := 0, y := 0, pre := none } := by
  rw [integStart, h]

/-- R157: the step of the end of a pre-roll. -/
theorem exec_integPrerollEnd (s : State) (k : Fin 96) : ∃ t, exec (.integPrerollEnd k) s = .next t ∧
    t.sns.streams[k] = (s.sns.streams[k]).integStarted ∧ t.backup = s.backup ∧ t.store = s.store := by
  obtain ⟨t, hexec, ht⟩ := run_settles (prerollDone_eq k s.toChip)
  refine ⟨t, hexec, ?_, ?_, ?_⟩
  · exact (stream_congr (by rw [ht, settle_sns]) k).trans (stream_streamPut_same k _ s.toChip)
  · rw [ht, settle_backup]
    rfl
  · rw [ht, settle_store]
    rfl

/-! ### Delay writes, R153 -/

theorem snsDly_eq (who : Writer) {k : Nat} (hk : k < 96) (v : Nat) : snsDly who k v = asWriter who (dlyWrite k v) := by
  funext c
  unfold snsDly asWriter
  cases writerStatus who c
  case ok => exact if_neg (Nat.not_le.mpr hk)
  all_goals rfl

/-- A delay within the deck's trim. -/
structure DelayAllowed (k v : Nat) (c : Chip) : Prop where
  low : cardU16 0x0010 k 0x10 0 c - cardU16 0x0010 k 0x12 0 c ≤ v
  high : v ≤ cardU16 0x0010 k 0x10 0 c + cardU16 0x0010 k 0x12 0 c
  top : v ≤ 16383

theorem dlyWrite_of_allowed {k v : Nat} {c : Chip} (hseal : sealed c = false ∨ streamBilled k c = false)
    (hfree : pendingGroup (getF Reg.SNS_CFG_HOME_GROUP k c) c = false) (h : DelayAllowed k v c) :
    dlyWrite k v c = (shadowed (getF Reg.SNS_CFG_HOME_GROUP k c) (fkey Reg.SNS_DLY_DLY k) v c, .ok) := by
  obtain ⟨hlow, hhigh, htop⟩ := h
  have hopen : ¬((sealed c : Prop) ∧ (streamBilled k c : Prop)) := fun ⟨hs, hb⟩ =>
    hseal.elim (fun h => absurd hs (by rw [h]; decide)) fun h => absurd hb (by rw [h]; decide)
  rw [dlyWrite, if_neg hopen, if_neg (by simp [hfree]), if_neg (by omega), shadowWrite, if_neg (by simp [hfree])]
  rfl

/-- A write under the seal is refused, flagged and recorded. -/
def sealRefused (c : Chip) : Chip := flagF Reg.SNS_STAT_SEAL_REF 0 0 Reg.SNS_STAT_EVT_CNT 0 (tamper 10 0 c)

theorem dlyWrite_of_sealed {k : Nat} (v : Nat) {c : Chip} (hseal : sealed c = true) (hbilled : streamBilled k c = true) :
    dlyWrite k v c = (sealRefused c, .sealed) := if_pos ⟨hseal, hbilled⟩

theorem tamper_of_nothing_due (code info : Nat) {c : Chip} (h : c.bil.due = []) :
    tamper code info c = tamperPut code info (wallMs c / 1000) c.backup.ms c := by
  rw [tamper, h]
  rfl

theorem getF_sealRef_sealRefused (c : Chip) : getF Reg.SNS_STAT_SEAL_REF 0 (sealRefused c) = 1 := by
  rw [sealRefused, flagF_of_one_bit rfl (by decide), getF_setF_of_lsb (by decide), getF_setF_same]
  rfl

/-- R226: the first occurrence of TC10 counts 1, each later one adds one. -/
theorem count_tamperPut_code10 (info wall mt : Nat) (c : Chip) : ((tamperPut 10 info wall mt c).store.tamper[9]).count =
    if (c.store.tamper[9]).count = 0 then 1 else min ((c.store.tamper[9]).count + 1) 0xFFFFFFFF := by
  have hcount := count_tamperPut (code := 10) (by decide) info wall mt c
  simp only [Nat.reduceSub, Nat.reduceLT, Vector.getElem?_eq_getElem, Option.getD_some] at hcount
  rw [hcount]
  split <;> omega

/-- R153: the step of a write within the trim. -/
theorem exec_snsDlyWrite_ok {s : State} {who : Writer} {k v : Nat} (hw : writerStatus who s.toChip = .ok) (hk : k < 96)
    (hseal : sealed s.toChip = false ∨ streamBilled k s.toChip = false)
    (hfree : pendingGroup (getF Reg.SNS_CFG_HOME_GROUP k s.toChip) s.toChip = false) (h : DelayAllowed k v s.toChip) :
    ∃ t, exec (.snsDlyWrite who k v) s = .next t ∧ t.reply = .ok ∧ shadowOf (fkey Reg.SNS_DLY_DLY k) t.toChip = some v ∧
      getF Reg.SNS_DLY_DLY k t.toChip = getF Reg.SNS_DLY_DLY k s.toChip ∧ t.backup = s.backup ∧ t.store = s.store := by
  obtain ⟨t, hrun, hreply, ht⟩ := run_asWriter_accepted hw (dlyWrite_of_allowed hseal hfree h)
  refine ⟨t, (congrArg s.run (snsDly_eq who hk v)).trans hrun, hreply, ?_, ?_, ?_, ?_⟩
  · exact shadowOf_of_shadowed (c := s.toChip) (by rw [ht, settle_dlr]; rfl)
  · rw [ht, getF_settle (shownKey_sense (by decide) hk), getF_answered]
    exact getF_withRegs _ _ rfl rfl rfl
  · rw [ht, settle_backup]
    rfl
  · rw [ht, settle_store]
    rfl

/-- R153: the step of a write under the seal. -/
theorem exec_snsDlyWrite_sealed {s : State} {who : Writer} {k : Nat} (v : Nat) (hw : writerStatus who s.toChip = .ok) (hk : k < 96)
    (hseal : sealed s.toChip = true) (hbilled : streamBilled k s.toChip = true) (hdue : s.bil.due = []) :
    ∃ t, exec (.snsDlyWrite who k v) s = .next t ∧ t.reply = .sealed ∧ getF Reg.SNS_STAT_SEAL_REF 0 t.toChip = 1 ∧
      (t.store.tamper[9]).count = (if (s.store.tamper[9]).count = 0 then 1 else min ((s.store.tamper[9]).count + 1) 0xFFFFFFFF) ∧
      t.dlr = s.dlr ∧ t.backup = s.backup := by
  have hrow : snsDly who k v s.toChip = answered .sealed (sealRefused s.toChip) :=
    (congrFun (snsDly_eq who hk v) s.toChip).trans (asWriter_of_ok hw (dlyWrite_of_sealed v hseal hbilled))
  have hstore : (sealRefused s.toChip).store = (tamperPut 10 0 (wallMs s.toChip / 1000) s.backup.ms s.toChip).store := by
    rw [sealRefused, flagF_store, tamper_of_nothing_due 10 0 hdue]
  have hbackup : (sealRefused s.toChip).backup = s.backup := by
    rw [sealRefused, flagF_backup, tamper_of_nothing_due 10 0 hdue]
    rfl
  obtain ⟨t, hexec, ht⟩ := run_settles hrow
  refine ⟨t, hexec, ?_, ?_, ?_, ?_, ?_⟩
  · rw [ht, settle_reply]
    rfl
  · rw [ht, getF_settle (by decide), getF_answered, getF_sealRef_sealRefused]
  · rw [ht, settle_store, ← count_tamperPut_code10 0 (wallMs s.toChip / 1000) s.backup.ms, ← hstore]
    rfl
  · rw [ht, settle_dlr]
    exact (flagF_dlr ..).trans (tamper_dlr ..)
  · rw [ht, settle_backup]
    exact hbackup

/-! ### The obligation -/

/-- Settles O19. -/
theorem settlingAndDelayWrites : Obligations.SettlingAndDelayWrites := by
  refine ⟨fun s k hleft => ?_, fun s k hleft => ?_, fun s k n m sum sum' hmet hprt => ?_, fun s who k v hw hk =>
    ⟨fun hseal hfree hlow hhigh htop => exec_snsDlyWrite_ok hw hk hseal hfree ⟨hlow, hhigh, htop⟩,
      exec_snsDlyWrite_sealed v hw hk⟩⟩
  · obtain ⟨t, hexec, hown, hshown, hothers, hbackup, hstore⟩ := exec_settleEnd s k .metrology
    obtain ⟨hmet, hprt⟩ := StreamState.recoveryEnded_paths ((s.sns.streams[k]).pathSettled .metrology)
    rw [← hown] at hmet hprt
    simp only [StreamState.pathSettled, if_pos hleft] at hmet hprt hown
    refine ⟨t, hexec, hmet, hprt, fun hsettled => ⟨?_, ?_⟩, hothers, hbackup, hstore⟩
    · rw [hown]
      exact StreamState.recovery_recoveryEnded rfl hsettled
    · rw [hshown, hmet, hprt, hsettled]
      rfl
  · obtain ⟨t, hexec, hown, -, hothers, hbackup, hstore⟩ := exec_settleEnd s k .protection
    obtain ⟨hmet, hprt⟩ := StreamState.recoveryEnded_paths ((s.sns.streams[k]).pathSettled .protection)
    rw [← hown] at hmet hprt
    simp only [StreamState.pathSettled, if_pos hleft] at hmet hprt
    exact ⟨t, hexec, hprt, hmet, hothers, hbackup, hstore⟩
  · obtain ⟨t, hexec, hown, hbackup, hstore⟩ := exec_integPrerollEnd s k
    refine ⟨t, hexec, ?_, ?_, by rw [hown]; rfl, hbackup, hstore⟩
    · rw [hown]
      exact integStart_of_pre hmet
    · rw [hown]
      exact integStart_of_pre hprt

end Sys2Proof.Machine
end

section
/-!
The actions of a boundary (chapter 08, R199-R221): what publishing, the start of a save and the return to STANDBY leave, and the flags of BIL_STAT.
-/

namespace Sys2Proof.Machine
open Sys2Proof Sys2Proof.Safety

/-! ### What publishing, late tamper records and the start of a save leave -/

/-- The device without its registers, its tamper records, the working copies and the ledgers' part in publishing and saving. -/
def bookView (c : Chip) : Chip :=
  { noRegs c with
    store := { c.store with tamper := ({} : LegalStore).tamper, copies := ({} : LegalStore).copies }
    bil := { c.bil with seq := 0, save := none, saveRetry := false }
    backup := { c.backup with late := [] } }

/-- A part that the view holds is alike where the views are. -/
theorem part_of_bookView {β : Type} (g : Chip → β) (hg : ∀ c, g (bookView c) = g c) {c d : Chip} (h : bookView d = bookView c) :
    g d = g c := by rw [← hg d, h, hg]

theorem bookView_of_noRegs {c d : Chip} (h : noRegs d = noRegs c) : bookView d = bookView c :=
  congrArg (fun e : Chip => { e with
    store := { e.store with tamper := ({} : LegalStore).tamper, copies := ({} : LegalStore).copies }
    bil := { e.bil with seq := 0, save := none, saveRetry := false }
    backup := { e.backup with late := [] } }) h

theorem bookView_flagF (f : Fld) (i k : Nat) (g : Fld) (j : Nat) (c : Chip) : bookView (flagF f i k g j c) = bookView c :=
  bookView_of_noRegs (noRegs_flagF ..)

theorem bookView_publishBilling (c : Chip) : bookView (publishBilling c) = bookView c :=
  (bookView_of_noRegs (noRegs_publishBilling c)).trans rfl

/-- A view that ignores the tamper records and the occurrences kept is kept when these are recorded. -/
theorem lateTamper_keeps {β : Type} (v : Chip → β) (hput : ∀ code info wall mt c, v (tamperPut code info wall mt c) = v c)
    (hlate : ∀ (c : Chip) l, v { c with backup := { c.backup with late := l } } = v c) (c : Chip) : v (lateTamper c) = v c := by
  unfold lateTamper
  rw [foldl_keeps_over v _ fun c x => hput ..]
  exact hlate c []

theorem bookView_lateTamper (c : Chip) : bookView (lateTamper c) = bookView c :=
  lateTamper_keeps bookView (fun _ _ _ _ _ => rfl) (fun _ _ => rfl) c

theorem bookView_saveStart (c : Chip) : bookView (saveStart c) = bookView c := by
  unfold saveStart
  split <;> rfl

/-! ### The oldest waiting boundary -/

/-- The oldest waiting boundary is taken out of the queue as done, and the cycles that waited are taken with it. -/
def dueTaken (d : Due) (rest : List Due) (c : Chip) : Chip :=
  { c with bil := { c.bil with due := rest, deferred := [], unsaved := c.bil.unsaved ++ [{ d with done := true }] } }

/-- The ledgers after the actions of the boundary `d`, the cycles that waited among them. -/
def dueDone (d : Due) (rest : List Due) (c : Chip) : Chip :=
  (dueActions d c).bil.deferred.foldl (fun c t => attributeTake t c) (dueTaken d rest (dueActions d c))

/-- The groups are published and a tamper event of the instant is recorded, before a save starts. -/
def duePublished (c : Chip) : Chip :=
  let d := publishBilling c
  if d.bil.due.isEmpty then lateTamper d else d

theorem runDue_of_due {d : Due} {rest : List Due} {c : Chip} (h : c.bil.due = d :: rest) :
    runDue c = saveStart (duePublished (dueDone d rest c)) := by
  unfold runDue
  rw [h]
  rfl

theorem bookView_duePublished (c : Chip) : bookView (duePublished c) = bookView c := by
  unfold duePublished
  dsimp only
  split
  · rw [bookView_lateTamper, bookView_publishBilling]
  · exact bookView_publishBilling c

theorem bookView_runDue {d : Due} {rest : List Due} {c : Chip} (h : c.bil.due = d :: rest) :
    bookView (runDue c) = bookView (dueDone d rest c) := by
  rw [runDue_of_due h, bookView_saveStart, bookView_duePublished]

theorem dueNow_cases (c : Chip) :
    dueNow c = c ∨ ∃ d rest, c.bil.due = d :: rest ∧ dueNow c = saveStart (duePublished (dueDone d rest c)) := by
  unfold dueNow
  split
  · next hready =>
    cases hdue : c.bil.due with
    | nil => exact .inl (by simp [dueReady, hdue] at hready)
    | cons d rest => exact .inr ⟨d, rest, rfl, runDue_of_due hdue⟩
  · exact .inl rfl

/-! ### The flags of BIL_STAT -/

/-- A flag of BIL_STAT that only its event sets and only a host clears, at bits 0 to 7. -/
abbrev BilFlag (f : Fld) : Prop := 0xA0000 * 32 ≤ fkey f 0 ∧ fkey f 0 < 0xA0000 * 32 + 8

section
variable {f : Fld} (hf : BilFlag f)
include hf

theorem getF_setF_above {g : Fld} {i : Nat} (h : 0xA0000 * 32 + 8 ≤ fkey g i) (v : Nat) (c : Chip) :
    getF f 0 (setF g i v c) = getF f 0 c := getF_setF_of_key (by have := hf.2; omega) v c

theorem getF_publishSet (s : Nat) (c : Chip) : getF f 0 (publishSet s c) = getF f 0 c := by
  have hset : ∀ (g : Fld) (i v : Nat) (c : Chip), setBase s ≤ g.base → getF f 0 (setF g i v c) = getF f 0 c :=
    fun g i v c hg => getF_setF_above hf (by simp only [fkey]; simp only [setBase] at hg; omega) v c
  unfold publishSet
  split
  · rfl
  · dsimp only
    rw [hset _ _ _ _ (Nat.le_add_right _ _),
      foldl_keeps (getF f 0) _ (fun c m => by
        rw [hset _ _ _ _ (Nat.le_add_right _ _), hset _ _ _ _ (Nat.le_add_right _ _), hset _ _ _ _ (Nat.le_add_right _ _),
          hset _ _ _ _ (Nat.le_add_right _ _)]),
      foldl_keeps (getF f 0) _ (fun c d => by rw [hset _ _ _ _ (Nat.le_add_right _ _), hset _ _ _ _ (Nat.le_add_right _ _)]),
      foldl_keeps (getF f 0) _ (fun c r => by rw [hset _ _ _ _ (Nat.le_add_right _ _), hset _ _ _ _ (Nat.le_refl _)])]

theorem getF_publishGlobals (c : Chip) : getF f 0 (publishGlobals c) = getF f 0 c := by
  have htamper : ∀ (k : Nat) (c : Chip), getF f 0 (publishTamper k c) = getF f 0 c := fun k c =>
    getF_publishTamper (fun w => by have := hf.2; simp only [Reg.tcWord, fkey] at this ⊢; omega) c
  unfold publishGlobals
  dsimp only
  rw [foldl_keeps (getF f 0) _ fun c k => htamper k c]
  simp (disch := decide) only [setPair, getF_setF_above hf]
  split <;> simp (disch := decide) only [runFields, getF_setF_above hf]
  all_goals exact getF_withRegs f 0 rfl rfl rfl

theorem getF_publishBilling (c : Chip) : getF f 0 (publishBilling c) = getF f 0 c := by
  rw [publishBilling, getF_publishGlobals hf]
  exact foldl_keeps (getF f 0) _ (fun c s => getF_publishSet hf s c) _ c

theorem getF_duePublished (c : Chip) : getF f 0 (duePublished c) = getF f 0 c := by
  have hlate : ∀ c, getF f 0 (lateTamper c) = getF f 0 c := fun c =>
    lateTamper_keeps (getF f 0) (fun _ _ _ _ _ => getF_withRegs f 0 rfl rfl rfl) (fun _ _ => getF_withRegs f 0 rfl rfl rfl) c
  unfold duePublished
  dsimp only
  split
  · rw [hlate, getF_publishBilling hf]
  · exact getF_publishBilling hf c

omit hf in
theorem getF_saveStart (f : Fld) (i : Nat) (c : Chip) : getF f i (saveStart c) = getF f i c := by
  unfold saveStart
  split
  · rfl
  · exact getF_withRegs f i rfl rfl rfl

end

/-! ### A wake by the billing timer and its end, R66 -/

theorem heardView_standbyWakeFrom (k : Nat) (c : Chip) : heardView (standbyWakeFrom k c) = heardView c := by
  have hsource : heardView (setF Reg.PWR_STATE_WAKE_SRC 0 k (sessResume c)) = heardView c :=
    (heardView_of_noRegs (noRegs_setF ..)).trans rfl
  unfold standbyWakeFrom
  split
  · dsimp only
    split
    · rw [heardView_of_noRegs (noRegs_setF ..)]
      exact hsource
    · rw [heardView_enterRun]
      exact hsource
  · rfl

/-- A wake writes registers of the power block alone. -/
theorem getF_standbyWakeFrom {f : Fld} {i : Nat} (h : 0x20000 * 32 ≤ fkey f i) (k : Nat) (c : Chip) :
    getF f i (standbyWakeFrom k c) = getF f i c := by
  have hset : ∀ (g : Fld) v c, fkey g 0 < 0x20000 * 32 → getF f i (setF g 0 v c) = getF f i c := fun g v c hg =>
    getF_setF_of_key (by omega) v c
  have hresume : getF f i (sessResume c) = getF f i c := getF_withRegs f i rfl rfl rfl
  unfold standbyWakeFrom
  split
  · dsimp only
    split
    · rw [hset _ _ _ (by decide), getF_withPwr, hset _ _ _ (by decide), hresume]
    · rw [enterRun, hset _ _ _ (by decide), getF_withPwr, hset _ _ _ (by decide), hresume]
  · rfl

/-- A return to STANDBY leaves the ledgers, the legal store, the backup domain and the elements. -/
theorem timerWakeDone_kept (c : Chip) : (timerWakeDone c).bil = c.bil ∧ (timerWakeDone c).store = c.store ∧
    (timerWakeDone c).backup = c.backup ∧ (timerWakeDone c).mtr = c.mtr := by
  unfold timerWakeDone
  split
  · have hcore := (standbyStopped_standbyStop
      (setF Reg.PWR_STATE_STATE 0 3 { c with pwr := { c.pwr with timerWake := false } })).core
    refine ⟨(part_of_coreView Chip.bil (fun _ => rfl) hcore).trans ?_, (part_of_coreView Chip.store (fun _ => rfl) hcore).trans ?_,
      (part_of_coreView Chip.backup (fun _ => rfl) hcore).trans ?_, (part_of_coreView Chip.mtr (fun _ => rfl) hcore).trans ?_⟩
    · exact setF_bil ..
    · exact setF_store ..
    · exact setF_backup ..
    · exact setF_mtr ..
  · exact ⟨rfl, rfl, rfl, rfl⟩

theorem timerWakeDone_of_awake {c : Chip} (h : c.pwr.timerWake = false) : timerWakeDone c = c := by
  simp [timerWakeDone, h]

section
variable {f : Fld} (hf : BilFlag f)
include hf

theorem getF_linksIdle (c : Chip) : getF f 0 (linksIdle c) = getF f 0 c := by
  rw [linksIdle_eq]
  refine foldl_keeps_mem (getF f 0) _ _ (fun h hh d => ?_) c
  have hlt := List.mem_range.mp hh
  have hkey := hf.1
  have hlow : ∀ g : Fld, g.base = 0x20100 ∧ g.stride = 4 ∧ g.lsb < 32 → fkey f 0 ≠ fkey g (64 + h) := fun g ⟨hb, hs, hl⟩ => by
    simp only [fkey, hb, hs] at hkey ⊢
    omega
  split
  · rfl
  · rw [handIdle, getF_setF_of_key (hlow _ (by decide)), getF_setF_of_key (hlow _ (by decide)),
      getF_setF_of_key (hlow _ (by decide))]
    exact getF_withRegs f 0 rfl rfl rfl

theorem getF_closeNetSessions (c : Chip) : getF f 0 (closeNetSessions c) = getF f 0 c := by
  have hbulk : ∀ s c, getF f 0 (bulkAbort s c) = getF f 0 c := fun s c => by
    simp only [bulkAbort]
    split
    · rw [flagF, flagBit, addSat, getF_setF_above hf (by decide), setBitF, getF_setF_above hf (by decide)]
      exact getF_withRegs f 0 rfl rfl rfl
    · rfl
  have hclose : ∀ s c, getF f 0 (sessClose s c) = getF f 0 c := fun s c => by
    rw [sessClose_eq]
    split
    · rfl
    · exact (getF_withRegs f 0 rfl rfl rfl).trans
        (sessLeft_keeps (getF f 0) hbulk (fun _ _ _ => getF_withRegs f 0 rfl rfl rfl) s c)
  refine foldl_keeps (getF f 0) _ (fun c s => ?_) _ c
  obtain ⟨l, e⟩ := endSession_eq s c
  rw [e]
  exact (getF_withRegs f 0 rfl rfl rfl).trans (hclose s c)

theorem getF_timerWakeDone (c : Chip) : getF f 0 (timerWakeDone c) = getF f 0 c := by
  have hpwr : fkey f 0 ≠ fkey Reg.PWR_STATE_STATE 0 := fun h => by
    have := hf.1
    rw [h] at this
    exact absurd this (by decide)
  have htransfer : ∀ t c, t < 2 → getF f 0 (transferEnd t .state c) = getF f 0 c := fun t c ht =>
    getF_transferEnd (fun h => by
      have := hf.2
      rw [h] at this
      simp only [fkey, Reg.MEM_TE_STAT_STATE] at this
      omega) _ c
  unfold timerWakeDone
  split
  · rw [standbyStop, htransfer _ _ (by decide), htransfer _ _ (by decide), getF_readerStop, displayStandby,
      getF_setF_above hf (by decide), getF_closeNetSessions hf, getF_linksIdle hf, getF_withPwr, getF_setF_of_key hpwr,
      getF_withPwr]
  · rfl

end

end Sys2Proof.Machine
end

section
/-!
Boundaries and their actions (chapter 08, R199, R204, R208-R210, R216).
-/

namespace Sys2Proof.Machine
open Sys2Proof Sys2Proof.Safety

/-! ### The end of a demand interval and of a period, R209, R210 -/

/-- What the ends of an interval and of a period leave, the energies of the interval aside. -/
def closingView (c : Chip) : (List Due × List Due × List Take × Nat) × BackupState × Vector ElemState 64 × Vector (Vector Nat 72) 17 :=
  ((c.bil.due, c.bil.unsaved, c.bil.deferred, c.bil.tariff), c.backup, c.mtr, c.bil.sets.map (·.reg))

theorem closingView_flagF (f : Fld) (i k : Nat) (g : Fld) (j : Nat) (c : Chip) : closingView (flagF f i k g j c) = closingView c := by
  simp only [closingView, flagF_bil, flagF_backup, flagF_mtr]

/-- Set `s` put back with its registers keeps every set's registers. -/
theorem regs_setIfInBounds {v : Vector RegSet 17} {s : Nat} {x : RegSet} (h : x.reg = (v[s]?.getD {}).reg) :
    (v.setIfInBounds s x).map (·.reg) = v.map (·.reg) := by
  ext k hk
  simp only [Vector.getElem_map, Vector.getElem_setIfInBounds]
  split
  · next hsk => simp only [← hsk, h, Vector.getElem?_eq_getElem (hsk ▸ hk), Option.getD_some]
  · rfl

/-- The energies of the interval start from zero. -/
def intervalBegun (c : Chip) : Chip := { c with bil := { c.bil with ivl := Vector.replicate 17 (0, 0) } }

theorem closingView_intervalBegun (c : Chip) : closingView (intervalBegun c) = closingView c := rfl
theorem ivl_intervalBegun (c : Chip) : (intervalBegun c).bil.ivl = Vector.replicate 17 (0, 0) := rfl
theorem store_intervalBegun (c : Chip) : (intervalBegun c).store = c.store := rfl

/-- A view that ignores a new maximum demand of a set is kept by the end of an interval in a direction. -/
theorem demandDir_keeps {β : Type} (v : Chip → β) (hv : ∀ (c : Chip) s (x : RegSet), x.reg = (setOf s c).reg →
    v { c with bil := { c.bil with sets := c.bil.sets.setIfInBounds s x } } = v c) (d : Due) (s k energy : Nat) (c : Chip) :
    v (demandDir d s k energy c) = v c := by
  simp only [demandDir]
  split
  · exact hv c s { setOf s c with md := _ } rfl
  · rfl

/-- R209: the demand of the interval is compared in each set and direction. -/
def demandsTaken (d : Due) (c : Chip) : Chip :=
  (List.range 17).foldl (fun c s =>
    demandDir d s 1 (c.bil.ivl[s]?.getD (0, 0)).2 (demandDir d s 0 (c.bil.ivl[s]?.getD (0, 0)).1 c)) c

theorem demandsTaken_keeps {β : Type} (v : Chip → β) (hv : ∀ (c : Chip) s (x : RegSet), x.reg = (setOf s c).reg →
    v { c with bil := { c.bil with sets := c.bil.sets.setIfInBounds s x } } = v c) (d : Due) (c : Chip) :
    v (demandsTaken d c) = v c := by
  unfold demandsTaken
  exact foldl_keeps v _ (fun c s => by rw [demandDir_keeps v hv, demandDir_keeps v hv]) _ c

theorem closingView_demandsTaken (d : Due) (c : Chip) : closingView (demandsTaken d c) = closingView c :=
  demandsTaken_keeps closingView (fun c s x hx => by simp only [closingView, regs_setIfInBounds (v := c.bil.sets) hx]) d c

theorem store_demandsTaken (d : Due) (c : Chip) : (demandsTaken d c).store = c.store :=
  demandsTaken_keeps Chip.store (fun _ _ _ _ => rfl) d c

/-- The actions of an interval that ends short: the flag, and its mark in the period's record. -/
def shortNoted (d : Due) (c : Chip) : Chip :=
  if d.short then
    flagF Reg.BIL_STAT_SHORT 0 0 Reg.BIL_STAT_EVT_CNT 0 { c with store := { c.store with perFlags := c.store.perFlags ||| 4 } }
  else c

theorem demandEnd_of_demand {d : Due} (h : d.demand = true) (c : Chip) :
    demandEnd d c = shortNoted d (intervalBegun (demandsTaken d c)) := by
  obtain ⟨e, hfold⟩ : ∃ e, e = demandsTaken d c := ⟨_, rfl⟩
  rw [← hfold]
  unfold demandEnd
  rw [if_neg (by simp [h]), ← demandsTaken, ← hfold]
  rfl

theorem closingView_shortNoted (d : Due) (c : Chip) : closingView (shortNoted d c) = closingView c := by
  unfold shortNoted
  split
  · exact closingView_flagF ..
  · rfl

theorem ivl_shortNoted (d : Due) (c : Chip) : (shortNoted d c).bil.ivl = c.bil.ivl := by
  unfold shortNoted
  split
  · rw [flagF_bil]
  · rfl

theorem store_shortNoted (d : Due) (c : Chip) : ∃ p, (shortNoted d c).store = { c.store with perFlags := p } := by
  unfold shortNoted
  split
  · exact ⟨_, flagF_store ..⟩
  · exact ⟨c.store.perFlags, rfl⟩

theorem closingView_demandEnd {d : Due} (h : d.demand = true) (c : Chip) : closingView (demandEnd d c) = closingView c := by
  rw [demandEnd_of_demand h, closingView_shortNoted, closingView_intervalBegun, closingView_demandsTaken]

theorem ivl_demandEnd {d : Due} (h : d.demand = true) (c : Chip) : (demandEnd d c).bil.ivl = Vector.replicate 17 (0, 0) := by
  rw [demandEnd_of_demand h, ivl_shortNoted, ivl_intervalBegun]

theorem store_demandEnd {d : Due} (h : d.demand = true) (c : Chip) :
    ∃ p, (demandEnd d c).store = { c.store with perFlags := p } := by
  obtain ⟨p, hp⟩ := store_shortNoted d (intervalBegun (demandsTaken d c))
  rw [store_intervalBegun, store_demandsTaken] at hp
  exact ⟨p, by rw [demandEnd_of_demand h, hp]⟩

theorem closingView_periodClose (d : Due) (c : Chip) :
    closingView (periodClose d c) = closingView c ∧ (periodClose d c).bil.ivl = c.bil.ivl := by
  unfold periodClose
  split
  · exact ⟨rfl, rfl⟩
  · dsimp only
    rw [closingView_flagF, flagF_bil]
    refine ⟨?_, rfl⟩
    simp only [closingView, Vector.map_map]
    rfl

/-- R210: the record of the period that ends at the instant of `d`. -/
def closedRecord (d : Due) (c : Chip) : PeriodRec :=
  { number := c.store.period, flags := c.store.perFlags ||| (if d.restore then 8 else 0)
    startWall := c.store.perStart, endWall := d.wall, endMt := d.mt, sets := c.bil.sets }

/-- R210: one period ends: its record is the newest of the ring, and the next period has begun. -/
def periodTurned (d : Due) (c : Chip) : Chip :=
  { c with
    store := { c.store with
      ring := (closedRecord d c :: c.store.ring).take 24
      period := periodAfter 1 c.store.period, perStart := d.wall
      perFlags := if c.bil.tariff = 0 then 16 else 0
      perIdx := c.store.perIdx.map (· + ((1 : Nat) : Int)) }
    bil := { c.bil with sets := c.bil.sets.map mdClear } }

theorem periodClose_of_none {d : Due} (h : d.periods = 0) (c : Chip) : periodClose d c = c := if_pos h

theorem periodClose_of_one {d : Due} (h : d.periods = 1) (c : Chip) :
    periodClose d c = flagF Reg.BIL_STAT_PERIOD 0 0 Reg.BIL_STAT_EVT_CNT 0 (periodTurned d c) := by
  unfold periodClose
  rw [if_neg (by omega), h]
  rfl

theorem periodAfter_one {n : Nat} (h : n < 0xFFFFFFFF) : periodAfter 1 n = n + 1 := by
  simp only [periodAfter, Nat.one_ne_zero, if_false, Nat.add_sub_cancel]
  rw [Nat.mod_eq_of_lt h]

/-! ### Boundary instants, R199, R204, R208, R216 -/

/-- Settling leaves the ledgers but for the readings, which note openings (R230). -/
theorem part_of_settledLedger {β : Type} (g : LedgerState → β) (hg : ∀ b, g (ledgerRest b) = g b) (c : Chip) :
    g (settle c).bil = g c.bil := by
  have hview := tripView_settle c
  simp only [tripView, Prod.mk.injEq] at hview
  obtain ⟨-, -, -, -, hledger⟩ := hview
  rw [← hg, hledger, hg]

theorem setTariff_eq (c : Chip) : ∃ p, setTariff c =
    { c with bil := { c.bil with tariff := (tariffNow c).1 }, store := { c.store with perFlags := p } } := by
  unfold setTariff
  dsimp only
  split
  · exact ⟨_, rfl⟩
  · exact ⟨c.store.perFlags, rfl⟩

/-- R208, R216: what is marked where the interval in progress ends on the grid. -/
theorem markBoundary_of_ends {c : Chip} (h : intervalIdx c ≠ c.bil.ivlIdx) : markBoundary c =
    boundary true true (wallMs (setTariff c)) c.bil.tariff (periodsDue (setTariff c)) (setTariff c) := by
  simp [markBoundary, h]

theorem due_boundary (demand ends : Bool) (wall old periods : Nat) (c : Chip) : (boundary demand ends wall old periods c).bil.due =
    c.bil.due ++ [{
      at_ := nowFine c, mt := c.backup.ms, wall := wall, wallOk := c.backup.wallValid, tariff := old
      demand := demand, short := c.bil.ivlShort || !ends, number := periodNow c, periods := periods }] := rfl

/-- R183: a cycle of a billing element that ends by the instant is outstanding. -/
theorem dueReady_of_outstanding {c : Chip} {d : Due} {rest : List Due} {e : Nat} (hdue : c.bil.due = d :: rest) (he : e < 64)
    (hbills : elemBilling e c = true) (hopen : elemPast d.at_ c e = false) : dueReady c = false := by
  simp only [dueReady, hdue, Bool.and_eq_false_iff, List.all_eq_false]
  exact .inr ⟨e, List.mem_range.mpr he, by simp [hbills, hopen]⟩

/-- A boundary that is marked stays so through changes of other parts. -/
theorem boundaryMarked_congr {a c d : Chip} (h : BoundaryMarked a c) (hbil : ledgerRest d.bil = ledgerRest c.bil)
    (hbackup : d.backup = c.backup) (hstore : d.store = c.store)
    (hactive : getF Reg.BIL_TARIFF_ACTIVE 0 d = getF Reg.BIL_TARIFF_ACTIVE 0 c) : BoundaryMarked a d := by
  have hpart : ∀ {β : Type} (g : LedgerState → β), (∀ b, g (ledgerRest b) = g b) → g d.bil = g c.bil := fun g hg => by
    rw [← hg, hbil, hg]
  obtain ⟨hdue, ⟨htariff, hshown⟩, ⟨hidx, hat⟩, hbank, hsets, hperiod, hring, hms⟩ := h
  refine ⟨?_, ⟨?_, ?_⟩, ⟨?_, ?_⟩, ?_, ?_, ?_, ?_, ?_⟩
  · rw [hpart (·.due) fun _ => rfl, hdue]
  · rw [hpart (·.tariff) fun _ => rfl, htariff]
  · rw [hactive, hshown]
  · rw [hpart (·.ivlIdx) fun _ => rfl, hidx]
  · rw [hpart (·.ivlAt) fun _ => rfl, hat]
  · rw [hbackup, hbank]
  · rw [hpart (·.sets) fun _ => rfl, hsets]
  · rw [hstore, hperiod]
  · rw [hstore, hring]
  · rw [hbackup, hms]

theorem boundaryMarked_markBoundary {c : Chip} (hdue : c.bil.due = []) (h : intervalIdx c ≠ c.bil.ivlIdx) :
    BoundaryMarked c (markBoundary c) := by
  obtain ⟨p, htariff⟩ := setTariff_eq c
  rw [markBoundary_of_ends h, htariff]
  refine ⟨?_, ⟨rfl, getF_withRegs _ _ rfl rfl rfl⟩, ⟨rfl, rfl⟩, rfl, rfl, rfl, rfl, rfl⟩
  rw [due_boundary, Bool.not_true, Bool.or_false]
  exact congrArg (· ++ [_]) hdue

/-- Marking changes the ledgers, the legal store and the backup domain alone. -/
theorem markBoundary_frame (c : Chip) : ∃ b st k, markBoundary c = { c with bil := b, store := st, backup := k } := by
  obtain ⟨p, htariff⟩ := setTariff_eq c
  simp only [markBoundary, htariff]
  split
  · exact ⟨_, _, _, rfl⟩
  · split
    · exact ⟨_, _, _, rfl⟩
    · split
      · exact ⟨_, _, _, rfl⟩
      · split
        · exact ⟨_, _, _, rfl⟩
        · exact ⟨_, _, c.backup, rfl⟩

/-- R66, R216: a boundary row's step where cycles that end before the instant are outstanding. -/
theorem exec_boundaryNow {s : State} (hrun : s.pwr.phase = .run) (hdue : s.bil.due = []) (hends : intervalIdx s.toChip ≠ s.bil.ivlIdx)
    {e : Nat} (he : e < 64) (hbills : elemBilling e s.toChip = true) (hopen : elemPast (nowFine s.toChip) s.toChip e = false) :
    ∃ t, s.run boundaryNow = .next t ∧ BoundaryMarked s.toChip t.toChip := by
  have hmarked := boundaryMarked_markBoundary hdue hends
  have hheard := heardView_standbyWakeFrom 7 (markBoundary s.toChip)
  obtain ⟨b, st, k, hframe⟩ := markBoundary_frame s.toChip
  have hnow : boundaryNow s.toChip = dueNow (standbyWakeFrom 7 (markBoundary s.toChip)) := by
    have hlength : (markBoundary s.toChip).bil.due.length ≠ s.bil.due.length := by
      rw [hmarked.due, hdue]
      exact Nat.one_ne_zero
    simp only [boundaryNow, hrun, ne_eq, not_true_eq_false, if_false, if_neg hlength]
  have hwoken : ∀ (f : Fld) i, 0x20000 * 32 ≤ fkey f i →
      getF f i (standbyWakeFrom 7 (markBoundary s.toChip)) = getF f i (markBoundary s.toChip) := fun f i hf =>
    getF_standbyWakeFrom hf 7 _
  generalize standbyWakeFrom 7 (markBoundary s.toChip) = w at hheard hnow hwoken
  have hkind : getF Reg.MTR_CFG_KIND e w = getF Reg.MTR_CFG_KIND e s.toChip := by
    rw [hwoken _ _ (by simp only [fkey, Reg.MTR_CFG_KIND]; omega), hframe]
    exact getF_withRegs _ _ rfl rfl rfl
  have hbil : w.bil = (markBoundary s.toChip).bil := part_of_heardView Chip.bil (fun _ => rfl) hheard
  have hmtr : w.mtr = s.mtr := (part_of_heardView Chip.mtr (fun _ => rfl) hheard).trans (by rw [hframe])
  have hnotReady : dueReady w = false := dueReady_of_outstanding (hbil ▸ hmarked.due) he
    (by rw [← hbills]; simp only [elemBilling, hkind]) (by rw [← hopen]; simp only [elemPast, elemGet, hmtr])
  rw [dueNow, if_neg (by simp [hnotReady])] at hnow
  obtain ⟨t, hexec, ht⟩ := run_settles hnow
  refine ⟨t, hexec, ?_⟩
  rw [ht]
  have hwaits := boundaryMarked_congr hmarked (by rw [hbil]) (part_of_heardView Chip.backup (fun _ => rfl) hheard)
    (part_of_heardView Chip.store (fun _ => rfl) hheard) (hwoken _ _ (by decide))
  exact boundaryMarked_congr hwaits (part_of_settledLedger ledgerRest (fun _ => rfl) w) (settle_backup w) (settle_store w) (getF_settle (by decide) w)

/-- R216: without a boundary that is ready nothing is done. -/
theorem boundaryActions_of_notReady {c : Chip} (hready : dueReady c = false) (hwake : c.pwr.timerWake = false) :
    boundaryActions c = c := by
  unfold boundaryActions
  split
  · rw [dueNow, if_neg (by simp [hready]), timerWakeDone_of_awake hwake]
  · rfl

theorem dueActions_kept {d : Due} (hdemand : d.demand = true) (c : Chip) :
    closingView (dueActions d c) = closingView c ∧ (dueActions d c).bil.ivl = Vector.replicate 17 (0, 0) := by
  obtain ⟨hview, hivl⟩ := closingView_periodClose d (demandEnd d c)
  exact ⟨hview.trans (closingView_demandEnd hdemand c), hivl.trans (ivl_demandEnd hdemand c)⟩

theorem dueActions_of_none {d : Due} (hperiods : d.periods = 0) (c : Chip) : dueActions d c = demandEnd d c :=
  periodClose_of_none hperiods _

theorem dueActions_of_one {d : Due} (hperiods : d.periods = 1) (c : Chip) : dueActions d c =
    flagF Reg.BIL_STAT_PERIOD 0 0 Reg.BIL_STAT_EVT_CNT 0 (periodTurned d (demandEnd d c)) := periodClose_of_one hperiods _

/-- What the actions of a boundary, the return to STANDBY and settling leave of the ledgers: the readings, the publishing and the
save apart, they are as the actions have made them. -/
theorem ledger_of_boundaryActions {β : Type} (g : LedgerState → β) (hrest : ∀ b, g (ledgerRest b) = g b)
    (hbook : ∀ c : Chip, g (bookView c).bil = g c.bil) {d : Due} {rest : List Due} {c : Chip} (hdue : c.bil.due = d :: rest) :
    g (settle (timerWakeDone (runDue c))).bil = g (dueDone d rest c).bil := by
  obtain ⟨hbil, -, -, -⟩ := timerWakeDone_kept (runDue c)
  rw [part_of_settledLedger g hrest, hbil]
  exact part_of_bookView (fun c => g c.bil) hbook (bookView_runDue hdue)

theorem part_of_boundaryActions {β : Type} (g : Chip → β) (hbook : ∀ c, g (bookView c) = g c)
    (hkept : ∀ c d : Chip, d.store = c.store → d.backup = c.backup → d.mtr = c.mtr → g d = g c)
    {d : Due} {rest : List Due} {c : Chip} (hdue : c.bil.due = d :: rest) :
    g (settle (timerWakeDone (runDue c))) = g (dueDone d rest c) := by
  obtain ⟨-, hstore, hbackup, hmtr⟩ := timerWakeDone_kept (runDue c)
  rw [hkept _ _ (settle_store _) (settle_backup _) (settle_mtr _), hkept _ _ hstore hbackup hmtr]
  exact part_of_bookView g hbook (bookView_runDue hdue)

theorem getF_boundaryActions {f : Fld} (hf : BilFlag f) {d : Due} {rest : List Due} {c : Chip} (hdue : c.bil.due = d :: rest) :
    getF f 0 (settle (timerWakeDone (runDue c))) = getF f 0 (dueDone d rest c) := by
  rw [getF_settle (shownKey_of_lt (by have := hf.2; omega)), getF_timerWakeDone hf, runDue_of_due hdue, getF_saveStart,
    getF_duePublished hf]

/-- Without cycles that waited the ledgers stand as the actions have left them. -/
theorem dueDone_of_none {d : Due} {rest : List Due} {c : Chip} (hdemand : d.demand = true) (hnone : c.bil.deferred = []) :
    dueDone d rest c = dueTaken d rest (dueActions d c) := by
  have hview := (dueActions_kept hdemand c).1
  simp only [closingView, Prod.mk.injEq] at hview
  obtain ⟨⟨-, -, hdeferred, -⟩, -⟩ := hview
  rw [dueDone, hdeferred, hnone]
  rfl

/-- Two vectors of sets with the same registers have them set by set. -/
theorem reg_of_map_eq {v w : Vector RegSet 17} (h : v.map (·.reg) = w.map (·.reg)) (k : Fin 17) : (v[k]).reg = (w[k]).reg := by
  have hk := congrArg (fun u => u[k.val]) h
  simpa only [Vector.getElem_map, Fin.getElem_fin] using hk

/-- R210: what the end of one period leaves of the legal store, after an interval that ended with it. -/
structure PeriodTurned (d : Due) (c e : Chip) : Prop where
  flag : getF Reg.BIL_STAT_PERIOD 0 e = 1
  start : e.store.perStart = d.wall
  number : e.store.period = periodAfter 1 c.store.period
  newest : ∃ r, e.store.ring.head? = some r ∧ r.number = c.store.period ∧ r.startWall = c.store.perStart ∧ r.endWall = d.wall ∧
    r.endMt = d.mt ∧ ∀ k : Fin 17, (r.sets[k]).reg = (c.bil.sets[k]).reg

theorem periodTurned_dueActions {d : Due} (hdemand : d.demand = true) (hperiods : d.periods = 1) (c : Chip) :
    PeriodTurned d c (dueActions d c) := by
  obtain ⟨p, hstore⟩ := store_demandEnd hdemand c
  have hview := closingView_demandEnd hdemand c
  simp only [closingView, Prod.mk.injEq] at hview
  obtain ⟨-, -, -, hregs⟩ := hview
  rw [dueActions_of_one hperiods]
  generalize demandEnd d c = e at hstore hregs
  have hperiod : e.store.period = c.store.period := by rw [hstore]
  have hstart : e.store.perStart = c.store.perStart := by rw [hstore]
  have hturned : (periodTurned d e).store.ring.head? = some (closedRecord d e) := rfl
  refine ⟨?_, ?_, ?_, closedRecord d e, ?_, hperiod, hstart, rfl, rfl, reg_of_map_eq hregs⟩
  · rw [flagF_of_one_bit rfl (by decide), getF_setF_of_key (by decide), getF_setF_same]
    rfl
  · rw [flagF_store]
    rfl
  · rw [flagF_store]
    exact congrArg (periodAfter 1) hperiod
  · rw [flagF_store, hturned]

/-- R209, R210, R216: the step that runs the actions of the oldest boundary, after which no cycle waits. -/
theorem exec_boundaryActions {s : State} {d : Due} {rest : List Due} (hrun : s.pwr.phase = .run) (hdue : s.bil.due = d :: rest)
    (hready : dueReady s.toChip = true) (hdemand : d.demand = true) (hnone : s.bil.deferred = []) :
    ∃ t, exec .boundaryActions s = .next t ∧ t.bil.due = rest ∧ t.bil.ivl = Vector.replicate 17 (0, 0) ∧
      t.bil.unsaved = s.bil.unsaved ++ [{ d with done := true }] ∧
      (d.periods = 0 → t.store.period = s.store.period ∧ t.store.ring = s.store.ring) ∧
      (d.periods = 1 → PeriodTurned d s.toChip t.toChip) ∧
      (∀ k : Fin 17, (t.bil.sets[k]).reg = (s.bil.sets[k]).reg) ∧ t.bil.tariff = s.bil.tariff ∧
      t.backup.ms = s.backup.ms ∧ t.mtr = s.mtr := by
  have hrow : boundaryActions s.toChip = timerWakeDone (runDue s.toChip) := by
    rw [boundaryActions, if_pos hrun, dueNow, if_pos hready]
  obtain ⟨t, hexec, ht⟩ := run_settles hrow
  have hdone := dueDone_of_none (rest := rest) hdemand hnone
  obtain ⟨hview, hivl⟩ := dueActions_kept hdemand s.toChip
  simp only [closingView, Prod.mk.injEq] at hview
  obtain ⟨⟨-, hunsaved, -, htariff⟩, hbackup, hmtr, hregs⟩ := hview
  have hledger : ∀ {β : Type} (g : LedgerState → β), (∀ b, g (ledgerRest b) = g b) → (∀ c : Chip, g (bookView c).bil = g c.bil) →
      g t.bil = g (dueTaken d rest (dueActions d s.toChip)).bil := fun g hrest hbook => by
    rw [ht, ledger_of_boundaryActions g hrest hbook hdue, hdone]
  have hpart : ∀ {β : Type} (g : Chip → β), (∀ c, g (bookView c) = g c) →
      (∀ c d : Chip, d.store = c.store → d.backup = c.backup → d.mtr = c.mtr → g d = g c) →
      g t.toChip = g (dueActions d s.toChip) := fun g hbook hkept => by
    rw [ht, part_of_boundaryActions g hbook hkept hdue, hdone]
    exact hkept _ _ rfl rfl rfl
  have hperiod := hpart (·.store.period) (fun _ => rfl) (fun _ _ h _ _ => by simp only [h])
  have hring := hpart (·.store.ring) (fun _ => rfl) (fun _ _ h _ _ => by simp only [h])
  have hstart := hpart (·.store.perStart) (fun _ => rfl) (fun _ _ h _ _ => by simp only [h])
  refine ⟨t, hexec, hledger (·.due) (fun _ => rfl) (fun _ => rfl), (hledger (·.ivl) (fun _ => rfl) (fun _ => rfl)).trans hivl,
    (hledger (·.unsaved) (fun _ => rfl) (fun _ => rfl)).trans (congrArg (· ++ _) hunsaved), fun hzero => ?_, fun hone => ?_,
    fun k => ?_, (hledger (·.tariff) (fun _ => rfl) (fun _ => rfl)).trans htariff, ?_, ?_⟩
  · obtain ⟨p, hstore⟩ := store_demandEnd hdemand s.toChip
    rw [dueActions_of_none hzero, hstore] at hperiod hring
    exact ⟨hperiod, hring⟩
  · obtain ⟨hflag, hbegan, hnumber, hnewest⟩ := periodTurned_dueActions hdemand hone s.toChip
    refine ⟨?_, hstart.trans hbegan, hperiod.trans hnumber, by rw [hring]; exact hnewest⟩
    rw [ht, getF_boundaryActions (by decide) hdue, hdone, ← hflag]
    exact getF_withRegs _ _ rfl rfl rfl
  · rw [hledger (·.sets) (fun _ => rfl) (fun _ => rfl)]
    exact reg_of_map_eq hregs k
  · exact (hpart (·.backup.ms) (fun _ => rfl) (fun _ _ _ h _ => by simp only [h])).trans (congrArg BackupState.ms hbackup)
  · exact (hpart (·.mtr) (fun _ => rfl) (fun _ _ _ _ h => h)).trans hmtr

/-! ### The obligation -/

/-- Settles O21: marking appends the boundary and the cycle that is outstanding keeps it from running; the actions run in their
order, and what follows them leaves what they have made. -/
theorem boundariesMarkAndRunWhatIsDue : Obligations.BoundariesMarkAndRunWhatIsDue := by
  refine ⟨fun s hrun hdue hends ⟨e, he, hbills, hopen⟩ => ?_, fun s d rest hrun hdue hready hdemand hnone => ?_,
    fun s hs _ hready hwake => run_row hs (boundaryActions_of_notReady hready hwake) rfl⟩
  · have hmarked := exec_boundaryNow hrun hdue hends he hbills hopen
    exact ⟨hmarked, hmarked, hmarked, hmarked⟩
  · obtain ⟨t, hexec, hrest, hivl, hunsaved, hnoPeriod, hturned, hkept⟩ := exec_boundaryActions hrun hdue hready hdemand hnone
    refine ⟨t, hexec, hrest, hivl, hunsaved, hnoPeriod, fun hone => ?_, hkept⟩
    obtain ⟨hflag, hstart, hnumber, hnewest⟩ := hturned hone
    exact ⟨hflag, hstart, fun hlt _ => hnumber.trans (periodAfter_one hlt), hnewest⟩

end Sys2Proof.Machine
end

section
/-!
Overrides and the signed commands (chapter 08, R204-R206, R211-R216).
-/

namespace Sys2Proof.Machine
open Sys2Proof Sys2Proof.Safety

/-! ### What boundaries leave of the orders and of the clock -/

/-- The overrides, the command counter and the tariff in force. -/
def orders (c : Chip) : Option Override × Option Override × Nat × Nat :=
  (c.store.override, c.store.pending, c.store.cmdCtr, c.bil.tariff)

theorem orders_of_noRegs {c d : Chip} (h : noRegs d = noRegs c) : orders d = orders c := part_of_noRegs orders (fun _ => rfl) h

theorem orders_flagF (f : Fld) (i k : Nat) (g : Fld) (j : Nat) (c : Chip) : orders (flagF f i k g j c) = orders c :=
  orders_of_noRegs (noRegs_flagF ..)

theorem orders_attributeTake (t : Take) (c : Chip) : orders (attributeTake t c) = orders c := by
  have hnote : ∀ tariff c, orders (noteReading tariff t c) = orders c := fun tariff c => by
    unfold noteReading
    split <;> rfl
  unfold attributeTake
  split
  · split
    · rfl
    · exact hnote _ _
  · exact hnote _ _

theorem orders_shortNoted (d : Due) (c : Chip) : orders (shortNoted d c) = orders c := by
  unfold shortNoted
  split
  · exact orders_flagF ..
  · rfl

theorem orders_demandEnd (d : Due) (c : Chip) : orders (demandEnd d c) = orders c := by
  by_cases h : d.demand = true
  · have htaken : orders (demandsTaken d c) = orders c := demandsTaken_keeps orders (fun _ _ _ _ => rfl) d c
    have hbegun : ∀ c, orders (intervalBegun c) = orders c := fun _ => rfl
    rw [demandEnd_of_demand h, orders_shortNoted, hbegun, htaken]
  · unfold demandEnd
    rw [if_pos (by simp [h])]

theorem orders_periodClose (d : Due) (c : Chip) : orders (periodClose d c) = orders c := by
  unfold periodClose
  split
  · rfl
  · dsimp only
    rw [orders_flagF]
    rfl

theorem orders_dueDone (d : Due) (rest : List Due) (c : Chip) : orders (dueDone d rest c) = orders c := by
  have htaken : orders (dueTaken d rest (dueActions d c)) = orders (dueActions d c) := rfl
  rw [dueDone, foldl_keeps_over orders _ fun c t => orders_attributeTake t c, htaken, dueActions, orders_periodClose, orders_demandEnd]

theorem orders_dueNow (c : Chip) : orders (dueNow c) = orders c := by
  rcases dueNow_cases c with e | ⟨d, rest, -, e⟩ <;> rw [e]
  rw [part_of_bookView orders (fun _ => rfl) (bookView_saveStart _), part_of_bookView orders (fun _ => rfl) (bookView_duePublished _),
    orders_dueDone]

theorem orders_setTariff (c : Chip) :
    orders (setTariff c) = (c.store.override, c.store.pending, c.store.cmdCtr, (tariffNow c).1) := by
  obtain ⟨p, e⟩ := setTariff_eq c
  rw [e]
  rfl

theorem orders_boundary (demand ends : Bool) (wall old periods : Nat) (c : Chip) :
    orders (boundary demand ends wall old periods c) = orders c := rfl

/-- R204, R216: marking settles the tariff anew. -/
theorem orders_markBoundary (c : Chip) :
    orders (markBoundary c) = (c.store.override, c.store.pending, c.store.cmdCtr, (tariffNow c).1) := by
  rw [← orders_setTariff]
  unfold markBoundary
  dsimp only
  split
  · exact orders_boundary ..
  · split
    · exact orders_boundary ..
    · split
      · exact orders_boundary ..
      · split <;> rfl

theorem orders_boundaryNow {c : Chip} (hrun : c.pwr.phase = .run) :
    orders (boundaryNow c) = (c.store.override, c.store.pending, c.store.cmdCtr, (tariffNow c).1) := by
  unfold boundaryNow
  rw [if_neg (by simp [hrun]), ← orders_markBoundary]
  dsimp only
  split
  · exact orders_dueNow _
  · rw [orders_dueNow]
    exact part_of_heardView orders (fun _ => rfl) (heardView_standbyWakeFrom 7 _)

/-- Meter time and wall time. -/
def clockView (c : Chip) : Nat × Int × Bool := (c.backup.ms, c.backup.wallOff, c.backup.wallValid)

theorem boundaryKeeps_clockView : BoundaryKeeps clockView where
  setF f i x c _ := by simp only [clockView, setF_backup]
  ledger _ _ _ := rfl
  banks _ _ _ _ := rfl

theorem clockView_boundaryNow (c : Chip) : clockView (boundaryNow c) = clockView c := by
  unfold boundaryNow
  split
  · rfl
  · dsimp only
    split
    · rw [boundaryKeeps_clockView.dueNow, boundaryKeeps_clockView.markBoundary]
    · rw [boundaryKeeps_clockView.dueNow, part_of_heardView clockView (fun _ => rfl) (heardView_standbyWakeFrom 7 _),
        boundaryKeeps_clockView.markBoundary]

theorem orders_settle (c : Chip) : orders (settle c) = orders c := by
  rw [orders, settle_store, part_of_settledLedger (·.tariff) fun _ => rfl, orders]

theorem clockView_settle (c : Chip) : clockView (settle c) = clockView c := by rw [clockView, settle_backup, clockView]

/-! ### Overrides and TIME_BEHIND, R204, R205, R213 -/

theorem tariffNow_of_override {c : Chip} {o : Override} (hvalid : c.backup.wallValid = true) (h : c.store.override = some o) :
    (tariffNow c).1 = o.tariff := by
  simp [tariffNow, hvalid, h]

/-- R203: the tariff of the schedule now; T1 without a TARIFF card. -/
def scheduleNow (c : Chip) : Nat := (tariffCard c).elim 1 fun p => scheduled p c.wall c

theorem tariffNow_of_schedule {c : Chip} (hvalid : c.backup.wallValid = true) (h : c.store.override = none) :
    (tariffNow c).1 = scheduleNow c := by
  cases hcard : tariffCard c <;> simp [tariffNow, scheduleNow, hvalid, h, hcard]

/-- The step of a row that marks what is due with the overrides changed. -/
theorem run_boundaryNow {s : State} {f : Chip → Chip} {d : Chip} (hf : f s.toChip = boundaryNow d) (hrun : d.pwr.phase = .run) :
    ∃ t, s.run f = .next t ∧ orders t.toChip = (d.store.override, d.store.pending, d.store.cmdCtr, (tariffNow d).1) ∧
      clockView t.toChip = clockView d := by
  obtain ⟨t, hexec, ht⟩ := run_settles hf
  exact ⟨t, hexec, by rw [ht, orders_settle, orders_boundaryNow hrun], by rw [ht, clockView_settle, clockView_boundaryNow]⟩

theorem exec_overrideStart {s : State} {o : Override} (hvalid : s.backup.wallValid = true) (hrun : s.pwr.phase = .run)
    (hpending : s.store.pending = some o) (hstart : (o.start : Int) ≤ s.wall) :
    ∃ t, exec .overrideStart s = .next t ∧ t.store.override = some o ∧ t.store.pending = none ∧ t.bil.tariff = o.tariff ∧
      t.backup.ms = s.backup.ms ∧ t.store.cmdCtr = s.store.cmdCtr := by
  have hrow : overrideBegin s.toChip = boundaryNow { s.toChip with store := { s.store with override := some o, pending := none } } := by
    unfold overrideBegin
    rw [hpending]
    exact if_pos ⟨hvalid, hrun, hstart⟩
  obtain ⟨t, hexec, horders, hclock⟩ := run_boundaryNow hrow hrun
  simp only [orders, clockView, Prod.mk.injEq] at horders hclock
  obtain ⟨hoverride, hnone, hctr, htariff⟩ := horders
  exact ⟨t, hexec, hoverride, hnone, htariff.trans (tariffNow_of_override hvalid rfl), hclock.1, hctr⟩

theorem exec_overrideEnd {s : State} {o : Override} (hvalid : s.backup.wallValid = true) (hrun : s.pwr.phase = .run)
    (hactive : s.store.override = some o) (hends : o.stop ≠ 0) (hstop : (o.stop : Int) ≤ s.wall) :
    ∃ t, exec .overrideEnd s = .next t ∧ t.store.override = none ∧ t.store.pending = s.store.pending ∧
      t.bil.tariff = scheduleNow s.toChip ∧ t.backup.ms = s.backup.ms ∧ t.store.cmdCtr = s.store.cmdCtr := by
  have hrow : overrideStop s.toChip = boundaryNow { s.toChip with store := { s.store with override := none } } := by
    unfold overrideStop
    rw [hactive]
    exact if_pos ⟨hends, hvalid, hrun, hstop⟩
  obtain ⟨t, hexec, horders, hclock⟩ := run_boundaryNow hrow hrun
  simp only [orders, clockView, Prod.mk.injEq] at horders hclock
  obtain ⟨hnone, hpending, hctr, htariff⟩ := horders
  exact ⟨t, hexec, hnone, hpending, htariff.trans (tariffNow_of_schedule hvalid rfl), hclock.1, hctr⟩

theorem exec_timeBehindClear {s : State} (hs : Settled s.toChip) (hvalid : s.backup.wallValid = true) (hbehind : s.bil.behind = true)
    (hin : beforePeriod s.toChip = false) :
    exec .timeBehindClear s = .next { s with bil := { s.bil with behind := false } } :=
  run_row hs (if_pos ⟨hbehind, hvalid, by simp [hin]⟩) rfl

/-! ### WALL_SET, R206, R212-R215 -/

/-- The clock, the command counter and the power block's registers. -/
def stepView (c : Chip) : (Nat × Int × Bool) × Nat × ((Nat → Nat) × (Nat → Nat) × (Nat → Nat)) :=
  (clockView c, c.store.cmdCtr, pwrRegs c)

theorem stepView_of_orders {c d : Chip} (hclock : clockView d = clockView c) (horders : orders d = orders c)
    (hregs : pwrRegs d = pwrRegs c) : stepView d = stepView c := by
  have hctr : d.store.cmdCtr = c.store.cmdCtr := congrArg (·.2.2.1) horders
  rw [stepView, hclock, hctr, hregs, stepView]

theorem stepView_dueNow (c : Chip) : stepView (dueNow c) = stepView c :=
  stepView_of_orders (boundaryKeeps_clockView.dueNow c) (orders_dueNow c) (boundaryKeeps_pwrRegs.dueNow c)

theorem stepView_markBoundary (c : Chip) : stepView (markBoundary c) = stepView c := by
  have hctr : (markBoundary c).store.cmdCtr = c.store.cmdCtr := congrArg (·.2.2.1) (orders_markBoundary c)
  rw [stepView, boundaryKeeps_clockView.markBoundary, hctr, boundaryKeeps_pwrRegs.markBoundary, stepView]

theorem stepView_setTariff (c : Chip) : stepView (setTariff c) = stepView c := by
  obtain ⟨p, e⟩ := setTariff_eq c
  rw [e]
  rfl

theorem stepView_behindCheck (c : Chip) : stepView (behindCheck c) = stepView c := by
  have hbegun : stepView (periodBegun c) = stepView c := by
    unfold periodBegun
    split <;> rfl
  rw [behindCheck_eq, ← hbegun]
  dsimp only
  split <;> rfl

theorem stepView_stepTamper (new : Nat) (c : Chip) : stepView (stepTamper new c) = stepView c := by
  have htamper : ∀ code, stepView (tamper code 0 c) = stepView c := fun code => by
    unfold tamper
    split <;> rfl
  unfold stepTamper
  dsimp only
  split
  · exact htamper 4
  · split
    · exact htamper 5
    · rfl

/-- R212, R213: a step gives wall time its value, and the tariff and TIME_BEHIND follow it. -/
def stepBegun (new : Nat) (c : Chip) : Chip :=
  setTariff (behindCheck (putWall new (if c.backup.wallValid then stepTamper new c else c)))

theorem stepTake_eq (new : Nat) (c : Chip) : stepTake new c =
    let e := stepBegun new c
    let n := periodsDue e
    let changed := e.bil.tariff != c.bil.tariff
    flagF Reg.BIL_STAT_STEP 0 0 Reg.BIL_STAT_EVT_CNT 0
      (if (!c.backup.wallValid || significant new c) || n != 0 || (changed && e.bil.ivlAt != e.backup.ms) then
        boundary true false (if c.backup.wallValid then wallMs c else new) c.bil.tariff n e
      else if changed then retariff e else e) := rfl

/-- R212-R215: the interval in progress may close at a step, and the step is flagged. -/
theorem stepTake_cases (new : Nat) (c : Chip) : ∃ e, stepTake new c = flagF Reg.BIL_STAT_STEP 0 0 Reg.BIL_STAT_EVT_CNT 0 e ∧
    (e = stepBegun new c ∨ e = retariff (stepBegun new c) ∨
      ∃ demand ends wall old n, e = boundary demand ends wall old n (stepBegun new c)) := by
  refine ⟨_, stepTake_eq new c, ?_⟩
  generalize stepBegun new c = e
  split
  · exact .inr (.inr ⟨_, _, _, _, _, rfl⟩)
  · split
    · exact .inr (.inl rfl)
    · exact .inl rfl

/-- R60, R212: wall time as a step sets it. -/
structure WallPut (new : Nat) (c d : Chip) : Prop where
  clock : clockView d = (c.backup.ms, (new : Int) - c.backup.ms, true)
  ctr : d.store.cmdCtr = c.store.cmdCtr
  shown : getF Reg.PWR_BKSTAT_RTC_VALID 0 d = 1

theorem WallPut.congr {new : Nat} {a b c d : Chip} (h : WallPut new a c) (ha : stepView a = stepView b)
    (hd : stepView d = stepView c) : WallPut new b d := by
  simp only [stepView, Prod.mk.injEq] at ha hd
  obtain ⟨hclockA, hctrA, -⟩ := ha
  obtain ⟨hclockD, hctrD, hregsD⟩ := hd
  have hms : a.backup.ms = b.backup.ms := congrArg Prod.fst hclockA
  obtain ⟨hclock, hctr, hshown⟩ := h
  exact ⟨by rw [hclockD, hclock, hms], by rw [hctrD, hctr, hctrA], by rw [getF_of_pwrRegs hregsD (by decide), hshown]⟩

theorem cmdCtr_overridesAt (wall : Int) (st : LegalStore) : (overridesAt wall st).cmdCtr = st.cmdCtr := by
  unfold overridesAt
  dsimp only
  split
  · split <;> rfl
  · rfl

theorem wallPut_putWall (new : Nat) (c : Chip) : WallPut new c (putWall new c) where
  clock := by
    rw [putWall, clockView, setF_backup]
  ctr := by
    rw [putWall, setF_store]
    exact cmdCtr_overridesAt _ _
  shown := by
    rw [putWall, getF_setF_same]
    rfl

theorem wallPut_stepBegun (new : Nat) (c : Chip) : WallPut new c (stepBegun new c) := by
  have hbefore : stepView (if c.backup.wallValid then stepTamper new c else c) = stepView c := by
    split
    · exact stepView_stepTamper new c
    · rfl
  exact (wallPut_putWall new _).congr hbefore (by rw [stepBegun, stepView_setTariff, stepView_behindCheck])

/-- R212: a step sets wall time and its flag. -/
theorem wallPut_stepTake (new : Nat) (c : Chip) :
    WallPut new c (stepTake new c) ∧ getF Reg.BIL_STAT_STEP 0 (stepTake new c) = 1 := by
  obtain ⟨e, htake, hcases⟩ := stepTake_cases new c
  have hclosed : stepView e = stepView (stepBegun new c) := by
    rcases hcases with rfl | rfl | ⟨demand, ends, wall, old, n, rfl⟩ <;> rfl
  rw [htake]
  refine ⟨(wallPut_stepBegun new c).congr rfl ((stepView_of_orders ?_ (orders_flagF ..) ?_).trans hclosed), ?_⟩
  · exact boundaryKeeps_clockView.flagF _ _ _ _ _ (by decide) (by decide) _
  · exact pwrRegs_flagF (by decide) (by decide) ..
  · rw [flagF_of_one_bit rfl (by decide), getF_setF_of_key (by decide), getF_setF_same]
    rfl

theorem getF_step_demandEnd (d : Due) (c : Chip) : getF Reg.BIL_STAT_STEP 0 (demandEnd d c) = getF Reg.BIL_STAT_STEP 0 c := by
  by_cases h : d.demand = true
  · have htaken : getF Reg.BIL_STAT_STEP 0 (demandsTaken d c) = getF Reg.BIL_STAT_STEP 0 c :=
      demandsTaken_keeps (getF Reg.BIL_STAT_STEP 0) (fun _ _ _ _ => getF_withRegs _ _ rfl rfl rfl) d c
    have hbegun : ∀ c, getF Reg.BIL_STAT_STEP 0 (intervalBegun c) = getF Reg.BIL_STAT_STEP 0 c := fun _ =>
      getF_withRegs _ _ rfl rfl rfl
    have hshort : ∀ c, getF Reg.BIL_STAT_STEP 0 (shortNoted d c) = getF Reg.BIL_STAT_STEP 0 c := fun c => by
      unfold shortNoted
      split
      · exact (getF_flagF_of_lsb (by decide) (by decide) ..).trans (getF_withRegs _ _ rfl rfl rfl)
      · rfl
    rw [demandEnd_of_demand h, hshort, hbegun, htaken]
  · unfold demandEnd
    rw [if_pos (by simp [h])]

theorem getF_step_periodClose (d : Due) (c : Chip) : getF Reg.BIL_STAT_STEP 0 (periodClose d c) = getF Reg.BIL_STAT_STEP 0 c := by
  unfold periodClose
  split
  · rfl
  · dsimp only
    exact (getF_flagF_of_lsb (by decide) (by decide) ..).trans (getF_withRegs _ _ rfl rfl rfl)

/-- The actions of a boundary set no flag of a step. -/
theorem getF_step_dueNow (c : Chip) : getF Reg.BIL_STAT_STEP 0 (dueNow c) = getF Reg.BIL_STAT_STEP 0 c := by
  rcases dueNow_cases c with e | ⟨d, rest, -, e⟩ <;> rw [e]
  have htaken : ∀ c, getF Reg.BIL_STAT_STEP 0 (dueTaken d rest c) = getF Reg.BIL_STAT_STEP 0 c := fun _ =>
    getF_withRegs _ _ rfl rfl rfl
  rw [getF_saveStart, getF_duePublished (by decide), dueDone,
    foldl_keeps_over (getF Reg.BIL_STAT_STEP 0) _ fun c t => (ledgerStep_attributeTake t c).kept.reg _ _ not_false, htaken,
    dueActions, getF_step_periodClose, getF_step_demandEnd]

/-- R212, R216: an accepted step. -/
theorem wallPut_wallStep (new : Nat) (c : Chip) :
    WallPut new c (wallStep new c) ∧ getF Reg.BIL_STAT_STEP 0 (wallStep new c) = 1 := by
  have hmarked : stepView (if c.backup.wallValid then markBoundary c else c) = stepView c := by
    split
    · exact stepView_markBoundary c
    · rfl
  have hevent : ∀ d, stepView (if c.backup.wallValid then eventF Reg.BIL_STAT_STEP 0 0xFF [] d else d) = stepView d := fun d => by
    split
    · simp only [stepView, clockView, eventF_backup, eventF_store, pwrRegs_eventF]
    · rfl
  have hstays : ∀ d, getF Reg.BIL_STAT_STEP 0 (if c.backup.wallValid then eventF Reg.BIL_STAT_STEP 0 0xFF [] d else d) =
      getF Reg.BIL_STAT_STEP 0 d := fun d => by
    split
    · rw [eventF, eventBit, getF_eventRec (by decide)]
    · rfl
  obtain ⟨htake, hflag⟩ := wallPut_stepTake new (if c.backup.wallValid then markBoundary c else c)
  unfold wallStep
  dsimp only
  exact ⟨htake.congr hmarked ((stepView_dueNow _).trans (hevent _)), (getF_step_dueNow _).trans ((hstays _).trans hflag)⟩

/-! ### TARIFF_SET, R205 -/

/-- R205: the override that the arguments of a TARIFF_SET give. -/
def argOverride (body : List Nat) : Override :=
  { tariff := Byte.u8 body 0x10, start := Byte.u64 body 0x18, stop := Byte.u64 body 0x20 }

/-- The overrides put in place of those in force and waiting. -/
def withOverrides (o p : Option Override) (c : Chip) : Chip := { c with store := { c.store with override := o, pending := p } }

theorem stepView_withOverrides (o p : Option Override) (c : Chip) : stepView (withOverrides o p c) = stepView c := rfl

theorem tariffApply_of_cancel {body : List Nat} (h : Byte.u8 body 0x10 = 0xFF) (c : Chip) :
    tariffApply body c = dueNow (markBoundary (withOverrides none none (markBoundary c))) := by
  unfold tariffApply
  exact if_pos h

theorem tariffApply_of_now {body : List Nat} (h : Byte.u8 body 0x10 ≠ 0xFF) (hnow : Byte.u64 body 0x18 = 0) (c : Chip) :
    tariffApply body c =
      dueNow (markBoundary (withOverrides (some (argOverride body)) (markBoundary c).store.pending (markBoundary c))) := by
  unfold tariffApply
  exact (if_neg h).trans (if_pos hnow)

theorem tariffApply_of_later {body : List Nat} (h : Byte.u8 body 0x10 ≠ 0xFF) (hlater : Byte.u64 body 0x18 ≠ 0) (c : Chip) :
    tariffApply body c =
      dueNow (withOverrides (markBoundary c).store.override (some (argOverride body)) (markBoundary c)) := by
  unfold tariffApply
  exact (if_neg h).trans (if_neg hlater)

/-- R205, R216: an override is set or cancelled beside the clock and the command counter. -/
theorem stepView_tariffApply (body : List Nat) (c : Chip) : stepView (tariffApply body c) = stepView c := by
  by_cases hcancel : Byte.u8 body 0x10 = 0xFF
  · rw [tariffApply_of_cancel hcancel, stepView_dueNow, stepView_markBoundary, stepView_withOverrides, stepView_markBoundary]
  · by_cases hnow : Byte.u64 body 0x18 = 0
    · rw [tariffApply_of_now hcancel hnow, stepView_dueNow, stepView_markBoundary, stepView_withOverrides, stepView_markBoundary]
    · rw [tariffApply_of_later hcancel hnow, stepView_dueNow, stepView_withOverrides, stepView_markBoundary]

/-- R205: what an accepted TARIFF_SET makes of the overrides and the tariff. -/
structure OverrideSet (body : List Nat) (c d : Chip) : Prop where
  cancelled : Byte.u8 body 0x10 = 0xFF → d.store.override = none ∧ d.store.pending = none
  active : Byte.u8 body 0x10 ≠ 0xFF → Byte.u64 body 0x18 = 0 → d.store.override = some (argOverride body) ∧
    (c.backup.wallValid = true → d.bil.tariff = Byte.u8 body 0x10)
  waits : Byte.u8 body 0x10 ≠ 0xFF → Byte.u64 body 0x18 ≠ 0 →
    d.store.override = c.store.override ∧ d.store.pending = some (argOverride body)

theorem overrideSet_tariffApply (body : List Nat) (c : Chip) : OverrideSet body c (tariffApply body c) where
  cancelled h := by
    have horders := orders_dueNow (markBoundary (withOverrides none none (markBoundary c)))
    rw [← tariffApply_of_cancel h, orders_markBoundary] at horders
    simp only [orders, Prod.mk.injEq] at horders
    obtain ⟨hoverride, hpending, -, -⟩ := horders
    exact ⟨hoverride, hpending⟩
  active h hnow := by
    have horders := orders_dueNow
      (markBoundary (withOverrides (some (argOverride body)) (markBoundary c).store.pending (markBoundary c)))
    rw [← tariffApply_of_now h hnow, orders_markBoundary] at horders
    simp only [orders, Prod.mk.injEq] at horders
    obtain ⟨hoverride, -, -, htariff⟩ := horders
    refine ⟨hoverride, fun hvalid => htariff.trans (tariffNow_of_override (o := argOverride body) ?_ rfl)⟩
    exact (congrArg (·.2.2) (boundaryKeeps_clockView.markBoundary c)).trans hvalid
  waits h hlater := by
    have horders := orders_dueNow (withOverrides (markBoundary c).store.override (some (argOverride body)) (markBoundary c))
    have hmarked := orders_markBoundary c
    rw [← tariffApply_of_later h hlater] at horders
    simp only [orders, Prod.mk.injEq] at horders hmarked
    obtain ⟨hoverride, hpending, -, -⟩ := horders
    exact ⟨hoverride.trans hmarked.1, hpending⟩

/-! ### The rows of the signed commands and of BILL_SNAP, R206, R211 -/

/-- R206: the argument check of WALL_SET; its reserved bytes read 0. -/
abbrev reservedZero (body : List Nat) : Bool := (List.range 16).all fun k => Byte.u8 body (0x18 + k) == 0

/-- R205: an accepted signed command raises the counter beside the clock. -/
theorem clockView_takeCtr (body : List Nat) (c : Chip) : clockView (takeCtr body c) = clockView c := rfl

theorem wallSet_eq (k : Nat) (body : List Nat) (sigOk : Bool) (c : Chip) : wallSet k body sigOk c =
    (if signedCheck k 1 body sigOk (reservedZero body) c = .ok then wallStep (Byte.u64 body 0x10) (takeCtr body c) else c,
      signedCheck k 1 body sigOk (reservedZero body) c) := by
  unfold wallSet
  dsimp only
  split
  · next h => rw [if_pos h, h]
  · next h => rw [if_neg h]

theorem tariffSet_of_ok {k : Nat} {body : List Nat} {sigOk : Bool} {c : Chip}
    (h : signedCheck k 2 body sigOk (tariffArgs body c) c = .ok) :
    tariffSet k body sigOk c = (tariffApply body (takeCtr body c), .ok) := by
  simp only [tariffSet, h]

/-- An answered device settles as the command has left it. -/
theorem stepView_answered (type : Nat) (rq : Request) (st : Status) (data : List Nat) (c : Chip) :
    clockView (settle (respond type rq st data c)) = clockView c ∧ orders (settle (respond type rq st data c)) = orders c := by
  have hheard := heardView_respond type rq st data c
  rw [clockView_settle, orders_settle]
  exact ⟨part_of_heardView clockView (fun _ => rfl) hheard, part_of_heardView orders (fun _ => rfl) hheard⟩

theorem exec_wallSet_ok {s : State} {rq : Request} {body : List Byte} {sigOk : Bool} (howns : Owns rq.sess.val s.toChip)
    (hcheck : signedCheck rq.sess.val 1 (Byte.nats body) sigOk (reservedZero (Byte.nats body)) (frameTake rq.sess.val s.toChip) = .ok) :
    ∃ t, exec (.wallSet rq body sigOk) s = .next t ∧ Answered 0x20 rq .ok [] t.toChip ∧ t.backup.wallValid = true ∧
      t.wall = (Byte.u64 (Byte.nats body) 0x10 : Int) ∧ t.backup.ms = s.backup.ms ∧
      t.store.cmdCtr = Byte.u32 (Byte.nats body) 4 ∧ getF Reg.PWR_BKSTAT_RTC_VALID 0 t.toChip = 1 ∧
      getF Reg.BIL_STAT_STEP 0 t.toChip = 1 := by
  have hrow := statusCmd_of_owns howns true .run (wallSet rq.sess.val (Byte.nats body) sigOk)
  rw [wallSet_eq, hcheck, if_pos rfl] at hrow
  obtain ⟨⟨hclock, hctr, hshown⟩, hflag⟩ :=
    wallPut_wallStep (Byte.u64 (Byte.nats body) 0x10) (takeCtr (Byte.nats body) (frameTake rq.sess.val s.toChip))
  have hframe : clockView (frameTake rq.sess.val s.toChip) = clockView s.toChip :=
    part_of_heardView clockView (fun _ => rfl) (heardView_frameTake ..)
  have hms : (takeCtr (Byte.nats body) (frameTake rq.sess.val s.toChip)).backup.ms = s.backup.ms :=
    congrArg Prod.fst ((clockView_takeCtr ..).trans hframe)
  rw [hms] at hclock
  obtain ⟨t, hexec, ht⟩ := run_settles hrow
  generalize wallStep _ _ = d at hclock hctr hshown hflag ht
  obtain ⟨hclockT, hordersT⟩ := stepView_answered 0x20 rq .ok [] d
  rw [← ht] at hclockT hordersT
  rw [hclock] at hclockT
  simp only [clockView, orders, Prod.mk.injEq] at hclockT hordersT
  obtain ⟨hmsT, hoffT, hvalidT⟩ := hclockT
  obtain ⟨-, -, hctrT, -⟩ := hordersT
  refine ⟨t, hexec, ?_, hvalidT, ?_, hmsT, hctrT.trans hctr, ?_, ?_⟩
  · rw [ht]
    exact answered_settle (answered_respond ..)
  · rw [Chip.wall, hmsT, hoffT]
    omega
  · rw [ht, getF_settle (by decide), getF_respond, hshown]
  · rw [ht, getF_settle (by decide), getF_respond, hflag]

theorem dieView_answer (type : Nat) (rq : Request) (st : Status) (data : List Nat) (k : Nat) (c : Chip) :
    dieView (respond type rq st data (frameTake k c)) = dieView c :=
  part_of_heardView dieView (fun _ => rfl) ((heardView_respond ..).trans (heardView_frameTake ..))

theorem exec_wallSet_refused {s : State} {rq : Request} {body : List Byte} {sigOk : Bool} {e : Status}
    (howns : Owns rq.sess.val s.toChip) (hcheck : signedCheck rq.sess.val 1 (Byte.nats body) sigOk (reservedZero (Byte.nats body))
      (frameTake rq.sess.val s.toChip) = e) (he : e ≠ .ok) (hs : Settled s.toChip) :
    exec (.wallSet rq body sigOk) s = .next { s with toChip := (respond 0x20 rq e [] (frameTake rq.sess.val s.toChip)) } := by
  have hrow := statusCmd_of_owns howns true .run (wallSet rq.sess.val (Byte.nats body) sigOk)
  rw [wallSet_eq, hcheck, if_neg he] at hrow
  exact run_row hs hrow (dieView_answer ..)

theorem exec_tariffSet_ok {s : State} {rq : Request} {body : List Byte} {sigOk : Bool} (howns : Owns rq.sess.val s.toChip)
    (hcheck : signedCheck rq.sess.val 2 (Byte.nats body) sigOk (tariffArgs (Byte.nats body) (frameTake rq.sess.val s.toChip))
      (frameTake rq.sess.val s.toChip) = .ok) :
    ∃ t, exec (.tariffSet rq body sigOk) s = .next t ∧ Answered 0x20 rq .ok [] t.toChip ∧
      t.store.cmdCtr = Byte.u32 (Byte.nats body) 4 ∧ t.backup.ms = s.backup.ms ∧ t.backup.wallOff = s.backup.wallOff ∧
      OverrideSet (Byte.nats body) s.toChip t.toChip := by
  have hrow := statusCmd_of_owns howns true .run (tariffSet rq.sess.val (Byte.nats body) sigOk)
  rw [tariffSet_of_ok hcheck] at hrow
  have hframe := heardView_frameTake rq.sess.val s.toChip
  have hset := overrideSet_tariffApply (Byte.nats body) (takeCtr (Byte.nats body) (frameTake rq.sess.val s.toChip))
  have hkept := stepView_tariffApply (Byte.nats body) (takeCtr (Byte.nats body) (frameTake rq.sess.val s.toChip))
  simp only [stepView, Prod.mk.injEq] at hkept
  obtain ⟨hclock, hctr, -⟩ := hkept
  have hframeClock : clockView (frameTake rq.sess.val s.toChip) = clockView s.toChip :=
    part_of_heardView clockView (fun _ => rfl) hframe
  have hclock := hclock.trans ((clockView_takeCtr ..).trans hframeClock)
  have hbefore : (frameTake rq.sess.val s.toChip).store.override = s.store.override :=
    part_of_heardView (·.store.override) (fun _ => rfl) hframe
  have hvalid : (frameTake rq.sess.val s.toChip).backup.wallValid = s.backup.wallValid :=
    part_of_heardView (·.backup.wallValid) (fun _ => rfl) hframe
  obtain ⟨t, hexec, ht⟩ := run_settles hrow
  generalize tariffApply _ _ = d at hset hclock hctr ht
  obtain ⟨hclockT, hordersT⟩ := stepView_answered 0x20 rq .ok [] d
  rw [← ht] at hclockT hordersT
  rw [hclock] at hclockT
  simp only [clockView, orders, Prod.mk.injEq] at hclockT hordersT
  obtain ⟨hmsT, hoffT, -⟩ := hclockT
  obtain ⟨hoverrideT, hpendingT, hctrT, htariffT⟩ := hordersT
  obtain ⟨hcancelled, hactive, hwaits⟩ := hset
  refine ⟨t, hexec, ?_, hctrT.trans hctr, hmsT, hoffT, ?_, ?_, ?_⟩
  · rw [ht]
    exact answered_settle (answered_respond ..)
  · rw [hoverrideT, hpendingT]
    exact hcancelled
  · rw [hoverrideT, htariffT, ← hvalid]
    exact hactive
  · rw [hoverrideT, hpendingT, ← hbefore]
    exact hwaits

theorem exec_billSnap {s : State} {rq : Request} {k : Nat} {r : PeriodRec} (howns : Owns rq.sess.val s.toChip) (hs : Settled s.toChip)
    (hk : k < 24) (hr : s.store.ring[k]? = some r) :
    ∃ t, exec (.billSnap rq k) s = .next t ∧ Answered 0x20 rq .ok (periodBytes r) t.toChip ∧ t.store = s.store ∧ t.bil = s.bil ∧
      t.backup = s.backup := by
  have hring : (frameTake rq.sess.val s.toChip).store.ring = s.store.ring :=
    part_of_heardView (·.store.ring) (fun _ => rfl) (heardView_frameTake ..)
  have hsnap : billSnap k (frameTake rq.sess.val s.toChip) = (periodBytes r, .ok) := by
    simp only [billSnap, hring, hr, if_neg (Nat.not_le.mpr hk)]
  have hrow := hostReq_of_owns howns 0x20 false .run fun c => (c, (billSnap k c).2, (billSnap k c).1)
  rw [hsnap] at hrow
  have hheard := (heardView_respond 0x20 rq .ok (periodBytes r) _).trans (heardView_frameTake rq.sess.val s.toChip)
  exact ⟨_, run_row hs hrow (dieView_answer ..), answered_respond .., part_of_heardView Chip.store (fun _ => rfl) hheard,
    part_of_heardView Chip.bil (fun _ => rfl) hheard, part_of_heardView Chip.backup (fun _ => rfl) hheard⟩

/-! ### The obligation -/

/-- Settles O22: marking settles the tariff by the overrides in force, no action of a boundary changes them, and a signed command
acts after its checks alone. That a cancel acts at once whatever its START is the model's log entry 62. -/
theorem overridesAndSignedCommands : Obligations.OverridesAndSignedCommands := by
  refine ⟨fun s hvalid => ⟨fun o hrun hpending hstart => exec_overrideStart hvalid hrun hpending hstart,
      fun o hrun hactive hends hstop => ?_, fun hs hbehind hin => exec_timeBehindClear hs hvalid hbehind hin⟩,
    fun s rq body sigOk howns => ⟨fun hcheck => exec_wallSet_ok howns hcheck,
      fun e hcheck he hs => exec_wallSet_refused howns hcheck he hs, fun hcheck => ?_,
      fun k r hs hk hr => exec_billSnap howns hs hk hr⟩⟩
  · obtain ⟨t, hexec, hnone, hpending, htariff, hkept⟩ := exec_overrideEnd hvalid hrun hactive hends hstop
    refine ⟨t, hexec, hnone, hpending, htariff.trans ?_, hkept⟩
    unfold scheduleNow
    cases tariffCard s.toChip <;> rfl
  · obtain ⟨t, hexec, hanswered, hctr, hms, hoff, hcancelled, hactive, hwaits⟩ := exec_tariffSet_ok howns hcheck
    refine ⟨t, hexec, hanswered, hctr, hms, hoff, hcancelled, fun h hnow => ?_, hwaits⟩
    obtain ⟨hoverride, htariff⟩ := hactive h hnow
    exact ⟨by rw [hoverride, argOverride, hnow], htariff⟩

end Sys2Proof.Machine
end

section
/-!
The stop reading of a bay beside an opening of its contactor (chapter 08, R230): a step that takes the one can note the other.
-/

namespace Sys2Proof.Machine
open Sys2Proof Sys2Proof.Safety

/-- A device that is not settled: the gate of bay 0 is on without a grant and its contactor is sensed open, so that settling
withdraws the gate and notes an opening (R29, R230). Of the bay's two ended sessions the older one waits for its stop reading, the
other for its opening. -/
def openingUnnoted : Chip :=
  { State.reset.toChip with
    hsl := { State.reset.hsl with bays := State.reset.hsl.bays.set 0 { gate := true, wsen := some false } }
    bil := { State.reset.bil with done := State.reset.bil.done.set 0 [{ openAt := some 0 }, {}] } }

/-- The step of the stop reading takes the older session, and its settling notes the opening of the other. -/
theorem openAt_done_stopReading :
    ((settle (stopReadingRun 0 openingUnnoted)).bil.done[(0 : Fin 16)]).map (·.openAt) = [some 0] := by decide +kernel

/-- Refutes O23: its clause on the stop reading has no premise that the device is settled, and says that the sessions behind the
one taken stay as they are. In `openingUnnoted` the step notes the opening of the second session. -/
theorem not_savesRecordsAndReadings : ¬ Obligations.SavesRecordsAndReadings := by
  intro h
  obtain ⟨t, hexec, hdone, -⟩ :=
    (h.2 { toChip := openingUnnoted } 0).2.1 { openAt := some 0 } [{}] (Vector.getElem_set_self _) (by decide +kernel)
  obtain ⟨u, hrun, hu⟩ := run_settles (s := { toChip := openingUnnoted }) (f := stopReadingRun 0)
    (d := stopReadingRun 0 openingUnnoted) rfl
  have htu : t = u := Host.Outcome.next.inj (hexec.symm.trans hrun)
  have hnoted := openAt_done_stopReading
  rw [← hu, ← htu, hdone] at hnoted
  exact absurd hnoted (by decide)

end Sys2Proof.Machine
end
